-- ==== Sys2Proof/Word.lean ====
section
/-! DEFINITION. The word types of the KB9 (R4, R5, R21) and the plainest reading of one word from another. -/

namespace Sys2Proof

/-- A byte of memory (R4). -/
abbrev Byte := BitVec 8
/-- A code parcel (R30). -/
abbrev Parcel := BitVec 16
/-- A g register, a 32-bit port, a move syllable (R21, R40). -/
abbrev W32 := BitVec 32
/-- An s register, a generic address, a special register (R21, R29). -/
abbrev W64 := BitVec 64

end Sys2Proof
end

