-- ==== Sys2Proof/Syntax.lean ====
section
/-! DEFINITION. The syntax of the KB9: one constructor of `Instr` for each row of the opcode table, that is, for each
move and trigger a bundle can hold (R40 to R61), each bundle form (R31 to R35), and each thing the machine does of its
own or at an outside input (the events of the rows that have no encoding). -/

namespace Sys2Proof

/-- A context that issues bundles: the team in slot 0 to 31 of a fold (R176), or the fold's shadow context, which
stands after slot 31 (R184, R369). -/
structure CtxId where
  fold : Nat
  slot : Nat
deriving DecidableEq, Repr

/-- The slot number that stands for the shadow context (R184). -/
def CtxId.shadowSlot : Nat := 32

/-- The units of R13, with RF as unit 0. -/
inductive UnitId where
  | rf | ia | ib | sh | im | fa | fb | cv | sf | cm | xl | la | lb | st | at | br | sy | mx | cp | nx | sv | ua
deriving DecidableEq, Repr

/-- The fields of a move syllable that every move has besides its destination (R40): the guard predicate with its
invert bit, and the source selector. -/
structure MoveF where
  neg : Bool
  guard : BitVec 3
  skind : BitVec 2
  ssel : BitVec 10
deriving DecidableEq, Repr

/-- A plain or extended bundle as its parcels stand in memory (R31): the header, the extension when FORM is 10, the
move syllables in ascending slot order, the long immediate when LIMM is 1. -/
structure RawBundle where
  header : Parcel
  ext : W32
  sylls : List W32
  limm : W32
deriving DecidableEq, Repr

/-- One entry of a die's region table (R230). -/
structure Region where
  base : W64
  limit : W64
  state : Byte
  log : Bool
  flock : W32
deriving DecidableEq, Repr

/-- What an incoming packet of the transport engine asks of this device (R422, R425, R427). -/
inductive NxKind where
  /-- Payload bytes of a put, placed at their offset. -/
  | write
  /-- A get served here: `total` bytes are read and returned. -/
  | read
  /-- An atomic performed here with the operation, size, operand and compare value of its descriptor. -/
  | atomic (op : BitVec 4) (size : Bool) (x cmp : W64)
  /-- Payload bytes of a send, placed in the next buffer of the receive ring. -/
  | send
  /-- Bytes that answer a get or an atomic of this device: the operation's fold and number. -/
  | answer (fold uid : Nat)
  /-- The peer refuses an operation of this device (R422). -/
  | refusal (fold uid : Nat)
deriving DecidableEq, Repr

/-- One packet on the fabric (R421, R422): the connection it names at its target and the one it came from, its sender and
the target's fabric address, its traffic class, its entropy value, and its number in the send order of a ROD connection.
`raddr` is the operation's remote base and `offset` the packet's offset in the message. A message that this device sends is
numbered 512 · operation + fold. -/
structure NxPacket where
  conn : Nat
  sconn : Nat
  src : BitVec 14
  peer : BitVec 128
  tc : BitVec 3
  entropy : BitVec 8
  seq : Nat
  msg : Nat
  kind : NxKind
  raddr : W64
  offset : Nat
  total : Nat
  payload : List Byte
  key : BitVec 16
deriving DecidableEq, Repr

/-- What an acknowledgement covers (R422, R423): bytes, and the entropy value of the packets that carried them. -/
structure AckedBytes where
  bytes : Nat
  entropy : BitVec 8
deriving DecidableEq, Repr

/-- What another device or the control node answers to an access that left this device (R140, R428, R429). -/
inductive RemoteAnswer where
  /-- The access was performed; the value is what the location held before (loads and atomics). -/
  | done (old : W64)
  | refused
  | unreachable
deriving DecidableEq, Repr

/-- One flit as a link's receiver sees it (R413): its sequence number, whether its CRC holds, and the lane that the
lane parity names when it names exactly one. A null flit (R432) has no sequence number. -/
structure Flit where
  null : Bool
  seq : BitVec 10
  crcOk : Bool
  lane : Option Nat
deriving DecidableEq, Repr

/-- Who writes a special register outside a team's own csrw (R371): the control node over the management path, or the
fold's shadow context. -/
inductive Agent where
  | control | shadow
deriving DecidableEq, Repr

/-- What happens to the Lumen port (R396, R429): it goes down, its retries cross the threshold, its trace channel becomes
busy or free, or it sends what is first in the order of its classes. -/
inductive LumenEvent where
  | down
  | degraded
  | traceBusy (busy : Bool)
  | serve
deriving DecidableEq, Repr

/-- What the control node does to a team over the management path, with the operations of eret and ctx (R359, R375, R376).
`endFlock` is ctx KILL. -/
inductive CtrlOp where
  | resume
  | endFlock
  | read (item : Nat)
  | write (item : Nat) (v : W64)
  | freeze
  | save
  | restore (addr : W64)
deriving DecidableEq, Repr

/-- Where a memory error lies (R224, R399): a corrected one at a location of its array's class and instance, an uncorrectable
one at a physical address, whose line it spoils whatever the array. -/
inductive EccLocus where
  | corrected (loc : Nat)
  | uncorrectable (phys : Nat)
deriving DecidableEq, Repr

/-- One constructor for each row of the opcode table. A move or trigger row holds the sub-fields of its opcode and the
move's guard and source; an event row holds what the event names. -/
inductive Instr where
  /-- R23. A plain or extended bundle passes its issue checks, reads every source and guard, writes every destination, and starts the triggered units, in one or more passes. -/
  | bundleIssue (b : RawBundle)
  /-- R46. The fold fetches an aligned 64-byte code line ahead of the PC, leaving it unfilled without fault on an unmapped or non-executable page. -/
  | fetchLineFill (c : CtxId) (line : Nat)
  /-- R16. A fixed-latency result reaches its counted bundle and lands in R, with any carry latch change and sticky FP bits. -/
  | fixedResultLand (c : CtxId) (u : UnitId)
  /-- R92. A compare result lands in its destination predicate at the issue of the following bundle. -/
  | cmPredicateLand (c : CtxId)
  /-- R34. An idle bundle's count of given-up issue opportunities runs out and the team becomes ready again. -/
  | idleCountEnd (c : CtxId)
  /-- R161. The beats of a wide-register operation run out and the fold's wide-register path and the team's XL become free. -/
  | xlBusyEnd (c : CtxId)
  /-- R190. A yielding team leaves Held when another team issues or after 16 counted cycles with no other ready team. -/
  | yieldEnd (c : CtxId)
  /-- R308. A team held by yieldc sees its flag read 1 and resumes at the continuation. -/
  | yieldcResume (c : CtxId)
  /-- R123. A special-function operation completes, fills SF.R on triggered lanes, sets sticky bits and any owned flag. -/
  | sfComplete (c : CtxId)
  /-- R151. A shuffle, vote, scan or reduction completes and fills XL.R on the triggered lanes. -/
  | xlLaneOpComplete (c : CtxId)
  /-- R161. A wide-register operation completes two cycles after its last beat, filling R and setting any owned flag. -/
  | wideRegOpComplete (c : CtxId)
  /-- R131. A load completes on every triggered lane and fills LA.R or LB.R with values or fault tokens. -/
  | loadComplete (c : CtxId)
  /-- R136. An atomic operation is performed at its home and, unless it is a red, returns the old value into AT.R. -/
  | atomicComplete (c : CtxId)
  /-- R134. A store, red or maintenance lane is performed at memory, or its fault enters the store fault buffer. -/
  | storePerformed (c : CtxId)
  /-- R279. A pending fence's earlier loads have returned and earlier writes are performed at its scope, so the team may issue again. -/
  | fenceComplete (c : CtxId)
  /-- R355. A trap on route U frames the unit state, sets the trap registers and continues at TVEC. -/
  | trapRouteU (c : CtxId)
  /-- R358. A trap on route S freezes the team and places an event word in the shadow event queue. -/
  | trapRouteS (c : CtxId)
  /-- R359. A trap on route H freezes the team and the Shepherd posts a notice record to the control node. -/
  | trapRouteH (c : CtxId)
  /-- R356. A write that clears TSTATUS.INH discards the handler's unit state, restores the frame and resumes at TRAP_PC. -/
  | handlerReturn (c : CtxId)
  /-- R165. A write to QNOTIFY makes the Shepherd re-read the queue's write index with acquire and treat lower indices as published. -/
  | qnotify (die q : Nat)
  /-- R166. A QENT1 write setting ENABLE checks the entry, reads the read index and the write index, and starts the queue. -/
  | queueEnable (die q : Nat) (ent1 : W64)
  /-- R166. A QENT1 write clearing ENABLE stops the queue from starting further packets at once. -/
  | queueDisable (die q : Nat)
  /-- R168. The Shepherd starts a NOP packet, which only fences and completes. -/
  | pktNop (die q : Nat)
  /-- R168. The Shepherd starts a SIGNAL packet, which completes at once by writing its signal record. -/
  | pktSignal (die q : Nat)
  /-- R168. The Shepherd starts a WAITVAL packet and reads its watched word with acquire. -/
  | pktWaitval (die q : Nat)
  /-- R168. A WAITVAL re-reads its word on a QNOTIFY or at the latest every 2 microseconds and completes when the condition holds. -/
  | waitvalRecheck (die q : Nat)
  /-- R170. The Shepherd starts a LAUNCH packet, copies it, writes the read index, checks the block and tests the first gang's fit. -/
  | pktLaunch (die q : Nat)
  /-- R197. The Shepherd starts a LOOP packet, checks its loop record and launches one-role gangs with armed sequencers. -/
  | pktLoop (die q : Nat)
  /-- R176. A waiting gang finds a fold with room and is placed, with its teams, scratchpad block, mirror table and starting state. -/
  | gangPlace (die q : Nat)
  /-- R169. A packet completes by writing STATUS and CVAL of its signal record as one release, or posts C_LAUNCH or C_SIGFAULT. -/
  | packetComplete (die q idx : Nat)
  /-- R182. Once every team has exited and every engine operation is done, the gang frees its scratchpad, wide registers, mirror table, barriers, rings and engine. -/
  | gangEnd (gang : Nat)
  /-- R172. The control node ends a flock, whose teams exit and whose packet completes with LAUNCH_ABORTED. -/
  | flockAbort (flock : W32)
  /-- R195. When every non-frozen team of a fold is in an ungrantable grow, the youngest is saved to SAVE and evicted, or C_REGSTARVE is raised. -/
  | teamEvict (fold : Nat)
  /-- R195. The Shepherd restores an evicted team on a fold of its die where its new footprint fits. -/
  | teamRestore (die : Nat)
  /-- R377. The control node or ctx FREEZE requests pre-emption, delivered to the team as C_PREEMPT on route S. -/
  | preemptRequest (c : CtxId)
  /-- R377. A team reaches its next pre-emption point and enters Frozen with its state resident. -/
  | teamFreeze (c : CtxId)
  /-- R379. The spill engine finishes a full save, writing team and gang images to SAVE and freeing the fold resources, or raises C_SAVEFULL. -/
  | gangSaveComplete (gang : Nat)
  /-- R382. The Shepherd places a saved gang image on a fold where it fits and resumes each team in its saved wait state. -/
  | gangRestore (die : Nat) (addr : W64)
  /-- R215. A map unit fill reads 256 bytes of global memory into an unfilled mapped scratchpad sector. -/
  | sectorFill (gang fold : Nat) (sector : Nat)
  /-- R214. A write to SMAP_Sn that sets VALID binds the map after checking its range, clearing filled and dirty bits. -/
  | smapBind (c : CtxId) (n : Nat) (v : W64)
  /-- R215. A write to SMAP_Sn that clears VALID writes back the map's dirty bytes and unbinds it. -/
  | smapUnbind (c : CtxId) (n : Nat) (v : W64)
  /-- R36. A shadow-context write to MIRROR_SEL rebinds the gang to a mirror table for later recalls without loading. -/
  | mirrorSelWrite (c : CtxId) (v : W64)
  /-- R225. A home slice serves a word request, recalling or reading from an owning fold as the request type requires. -/
  | homeRequest (fold : Nat) (rt : BitVec 2) (write : Bool) (phys size : Nat)
  /-- R242. A translation miss walks the five-level table and sets A and D bits by compare-and-swap. -/
  | pageWalk (die asid : Nat) (va : W64) (write : Bool)
  /-- R247. A translated access to a CNT page adds to its count; reaching THRESH posts a record and resets the count. -/
  | accessCount (fold asid : Nat) (va : W64) (n : Nat)
  /-- R252. A write to XLATE_INV removes cached translations of a page, space or die everywhere in the package and discards affected L1 and code lines. -/
  | xlateInv (die : Nat) (v : W64)
  /-- R252. Every access under the removed translations has been performed, so the invalidation completes and held writes re-translate. -/
  | xlateInvComplete (die : Nat)
  /-- R222. A write to L2_STAGE sets BUSY and begins resizing the slice's staging store. -/
  | l2StageWrite (die slice : Nat) (v : W64)
  /-- R222. The slice finishes writing back and handing over its eighths and clears BUSY. -/
  | l2StageChangeDone (die slice : Nat)
  /-- R232. A write to DLOG_CTL enables the log with WIDX reset or clears OVF and re-arms its notice. -/
  | dlogCtlWrite (die : Nat) (v : W64)
  /-- R248. A write to MIGQ_CTL enables the notification queue with WIDX reset or clears OVF and re-arms its notice. -/
  | migqCtlWrite (die : Nat) (v : W64)
  /-- R230. The control node writes a region table entry, which applies to accesses translated afterwards. -/
  | regionTableWrite (die idx : Nat) (e : Region)
  /-- R307. An engine operation held behind a conflicting earlier operation starts its elements once that one completes. -/
  | engineOpStart (fold uid : Nat)
  /-- R304. A copy-engine operation completes, removes its range locks, fills CP.R with bytes or tokens and sets any owned flag. -/
  | copyComplete (fold uid : Nat)
  /-- R323. The engine reads an mma's 32-byte format block and scales as a snapshot after the team's earlier accesses, checking them. -/
  | mxFormatBlockRead (fold uid : Nat)
  /-- R328. The head engine command dispatches once its predecessor, format block, bank and conflicts allow. -/
  | mxDispatch (fold : Nat)
  /-- R329. An mma, mmap, zero, drain or aload completes, writing its tile or window and filling MX.R. -/
  | mxOpComplete (fold uid : Nat)
  /-- R320. A bank load completes, setting the bank VALID and ES and filling MX.R. -/
  | mxBloadComplete (fold uid : Nat)
  /-- R423. The transport engine sends a packet of a message while the connection's bytes in flight are below its window. -/
  | nxPacketSend (fold uid : Nat)
  /-- R422. An incoming packet is translated, checked and placed at its offset in memory, or performed as a remote read or atomic. -/
  | nxPacketArrive (p : NxPacket)
  /-- R423. An acknowledgement updates the RTT estimate, ECN fraction and window of the connection. -/
  | nxAckReceive (conn : Nat) (acked : AckedBytes) (sampleNs : Nat) (marked rttEnd : Bool)
  /-- R423. A retransmission timeout sets the window to MINW and resends, or completes the operation with C_NXTIMEOUT. -/
  | nxRetransmitTimeout (fold uid : Nat) (exhausted : Bool)
  /-- R425. A put, get, send or atom completes and fills NX.R with its length, old value or token. -/
  | nxOpComplete (fold uid : Nat)
  /-- R424. Placed and performed payload bytes are added to their landing counter. -/
  | landingCount (die : Nat) (key : BitVec 16) (n : Nat)
  /-- R428. A load, store or atomic through an MT remote leaf is carried to the peer device over the mapped ROD connection. -/
  | remoteAccess (c : CtxId) (ans : RemoteAnswer)
  /-- R420. An Ethernet port loses its link and posts C_ETHLINK. -/
  | ethLinkDown (port : Nat)
  /-- R413. A link end receives a flit, checks CRC, parity and sequence, accepts it or discards it and sends a NAK, and counts errors. -/
  | flitReceive (linkEnd : Nat) (f : Flit)
  /-- R413. A sender receives a NAK and resends every flit from the named sequence number in order. -/
  | nakReceive (linkEnd : Nat) (seq : BitVec 10)
  /-- R414. A windowed link or lane error count's window expires and the count returns to 0. -/
  | errorWindowClose (linkEnd : Nat) (lane : Option Nat)
  /-- R415. A link finishes retraining and senders resend from their first unacknowledged flit. -/
  | linkRetrainEnd (link : Nat)
  /-- R429. The Lumen port goes down, so host accesses take C_HOSTDOWN, or its retries cross the threshold and post C_LUMENDEGRADED. -/
  | lumenPortDown (e : LumenEvent)
  /-- R371. The control node reads or writes a special register over the management path, refused with C_CSRACCESS where not allowed. -/
  | mgmtCsrRequest (fold : Nat) (sel : W64) (write : Bool) (v : W64)
  /-- R359. The control node resumes or ends a team frozen by a route H trap. -/
  | ctrlResumeTeam (c : CtxId) (op : CtrlOp)
  /-- R397. The control node loads an AES-256 tenant key into a die's key slot. -/
  | keyLoad (die slot : Nat) (key : BitVec 256)
  /-- R181. The control node writes DEV_ID once after boot; every later write is ignored until power-off. -/
  | devIdWrite (v : BitVec 14)
  /-- R448. The control node sends a nonce and the device returns a report of DEV_ID and measurements signed with its identity key. -/
  | attestationRequest (nonce : BitVec 256)
  /-- R447. The control node powers the package and releases reset, so only IO0's boot block and Lumen port run. -/
  | powerOnReset
  /-- R447. The boot ROM receives a signed image, verifies it, measures it, powers and trains the package, and starts the shadow contexts. -/
  | firmwareImageReceive (image sig : List Byte)
  /-- R389. A write of STOP_CTL.REQ makes each named team take C_STOPREQ at its next pre-emption point, after draining its pipelines. -/
  | stopRequest (fold : Nat) (v : W64)
  /-- R388. At TIMEBASE B+16 each fold of the instance latches its stall and engine counters with the snapshot tag. -/
  | snapshotLatch (fold : Nat)
  /-- R395. A cycle whose FOLD_CYCLE is a multiple of 2^LOGPER makes a sample record of the issuing or charged team. -/
  | sampleRecord (fold : Nat)
  /-- R387. A write of 1 to MXC_CTL.CLR clears every engine cycle-class entry and count. -/
  | mxcCtlClr (fold : Nat)
  /-- R399. A corrected error adds to ECC_CE and its location's windowed count, retiring the location at THRESH. -/
  | eccCorrectedError (die cls inst : Nat) (loc : EccLocus)
  /-- R399. A location's error window expires and its count returns to 0. -/
  | eccWindowClose (die cls inst loc : Nat)
  /-- R443. A write to ISL_CTL or ISL_IOCTL FLOOR sets an island's state floor, Off where allowed, or is treated as the previous value. -/
  | islandFloorWrite (die : Option Nat) (idx : Nat) (v : W64)
  /-- R442. An island reaches its new state within 2 microseconds of a floor, cap or thermal change. -/
  | islandStateChange (die idx : Nat)
  /-- R445. At the end of each averaging window CAPSTATE rises or falls a step, posting C_POWERCAP on the first rise. -/
  | powerWindowEnd (watts : BitVec 16)
  /-- R446. Every 100 microseconds each die measures its junctions and applies or ends refresh doubling, holds, C_THERMAL or C_MACHINECHECK. -/
  | thermalSample (die : Nat) (dram logic : BitVec 16)
  /-- R372. A write to a special register with no row of its own sets its fields under the access codes. -/
  | registerWrite (by_ : Agent) (fold : Nat) (sel : W64) (v : W64)
  /-- R41. A move writes an operand port A, B or C of a unit, in full or into its low or high half. -/
  | moveToPort (dunit : BitVec 5) (dport : BitVec 2) (modf : BitVec 8) (m : MoveF)
  /-- R372. An SV register operation whose action takes time (a write-back on unmap, a crossing to another die's register, a replay) completes and fills SV.R and any owned flag. -/
  | svOpComplete (c : CtxId)
  /-- R281. A claim, unclaim or rgn completes once every home has recalled, every write-back has been performed, or every later access is checked against the new entry, and SY.R fills with 0 or a token. -/
  | claimComplete (c : CtxId)
  /-- R368. The watchdog runs out and raises C_WATCHDOG as an asynchronous route H trap. -/
  | watchdogExpiry (c : CtxId)
  /-- R447. The control node removes the package's power, so every island goes unpowered, its contents are lost and the one-time DEV_ID and the measurements become resettable. -/
  | packagePowerOff
  /-- R447. A component that firmware loads is measured into one of MEAS1 to MEAS7 by SHAKE256 extension before it runs. -/
  | measurementExtend (i : Nat) (component : List Byte)
  /-- R10. A move copies a value per lane into a g register. -/
  | moveToG (reg : BitVec 8) (m : MoveF)
  /-- R14. A move copies the lowest guarded live lane's value into an s register. -/
  | moveToS (reg : BitVec 8) (m : MoveF)
  /-- R11. A move writes bit 0 of a value into a predicate register. -/
  | moveToK (reg : BitVec 8) (m : MoveF)
  /-- R35. A recall bundle executes a mirror-table entry as if it stood at the recall's address. -/
  | recall (idx : BitVec 9)
  /-- R34. An idle bundle gives up n issue opportunities and advances fixed-latency counts by n. -/
  | idle (icnt : BitVec 14)
  /-- R85. IA adds A and T with carry out into the latch. -/
  | iaAdd (m : MoveF)
  /-- R85. IA subtracts T from A with borrow into the latch. -/
  | iaSub (m : MoveF)
  /-- R85. IA computes T minus A. -/
  | iaRsub (m : MoveF)
  /-- R85. IA negates T. -/
  | iaNeg (m : MoveF)
  /-- R85. IA computes A AND T. -/
  | iaAnd (m : MoveF)
  /-- R85. IA computes A OR T. -/
  | iaOr (m : MoveF)
  /-- R85. IA computes A XOR T. -/
  | iaXor (m : MoveF)
  /-- R85. IA computes A AND NOT T. -/
  | iaAndn (m : MoveF)
  /-- R85. IA computes A OR NOT T. -/
  | iaOrn (m : MoveF)
  /-- R85. IA selects the signed minimum of A and T. -/
  | iaMinS (m : MoveF)
  /-- R85. IA selects the unsigned minimum of A and T. -/
  | iaMinN (m : MoveF)
  /-- R85. IA selects the signed maximum of A and T. -/
  | iaMaxS (m : MoveF)
  /-- R85. IA selects the unsigned maximum of A and T. -/
  | iaMaxN (m : MoveF)
  /-- R85. IA computes the absolute value of T. -/
  | iaAbs (m : MoveF)
  /-- R85. IA adds A and T with signed saturation. -/
  | iaAddSatS (m : MoveF)
  /-- R85. IA adds A and T with unsigned saturation. -/
  | iaAddSatN (m : MoveF)
  /-- R85. IA subtracts with signed saturation. -/
  | iaSubSatS (m : MoveF)
  /-- R85. IA subtracts with unsigned saturation. -/
  | iaSubSatN (m : MoveF)
  /-- R85. IA computes the unsigned average of A and T rounded half up. -/
  | iaAvgN (m : MoveF)
  /-- R85. IA computes the unsigned absolute difference. -/
  | iaAbsdN (m : MoveF)
  /-- R85. IA passes T to R. -/
  | iaMov (m : MoveF)
  /-- R85. IA adds A and twice T. -/
  | iaAddsh1 (m : MoveF)
  /-- R85. IA adds A and four times T. -/
  | iaAddsh2 (m : MoveF)
  /-- R85. IA adds A and eight times T. -/
  | iaAddsh3 (m : MoveF)
  /-- R85. IA adds A, T and the carry latch, updating the latch. -/
  | iaAddc (m : MoveF)
  /-- R85. IA subtracts T and the latch from A, updating the latch. -/
  | iaSubb (m : MoveF)
  /-- R85. IB adds A and T with carry out into the latch. -/
  | ibAdd (m : MoveF)
  /-- R85. IB subtracts T from A with borrow into the latch. -/
  | ibSub (m : MoveF)
  /-- R85. IB computes T minus A. -/
  | ibRsub (m : MoveF)
  /-- R85. IB negates T. -/
  | ibNeg (m : MoveF)
  /-- R85. IB computes A AND T. -/
  | ibAnd (m : MoveF)
  /-- R85. IB computes A OR T. -/
  | ibOr (m : MoveF)
  /-- R85. IB computes A XOR T. -/
  | ibXor (m : MoveF)
  /-- R85. IB computes A AND NOT T. -/
  | ibAndn (m : MoveF)
  /-- R85. IB computes A OR NOT T. -/
  | ibOrn (m : MoveF)
  /-- R85. IB selects the signed minimum. -/
  | ibMinS (m : MoveF)
  /-- R85. IB selects the unsigned minimum. -/
  | ibMinN (m : MoveF)
  /-- R85. IB selects the signed maximum. -/
  | ibMaxS (m : MoveF)
  /-- R85. IB selects the unsigned maximum. -/
  | ibMaxN (m : MoveF)
  /-- R85. IB computes the absolute value of T. -/
  | ibAbs (m : MoveF)
  /-- R85. IB adds with signed saturation. -/
  | ibAddSatS (m : MoveF)
  /-- R85. IB adds with unsigned saturation. -/
  | ibAddSatN (m : MoveF)
  /-- R85. IB subtracts with signed saturation. -/
  | ibSubSatS (m : MoveF)
  /-- R85. IB subtracts with unsigned saturation. -/
  | ibSubSatN (m : MoveF)
  /-- R85. IB computes the unsigned average rounded half up. -/
  | ibAvgN (m : MoveF)
  /-- R85. IB computes the unsigned absolute difference. -/
  | ibAbsdN (m : MoveF)
  /-- R85. IB passes T to R. -/
  | ibMov (m : MoveF)
  /-- R85. IB adds A and twice T. -/
  | ibAddsh1 (m : MoveF)
  /-- R85. IB adds A and four times T. -/
  | ibAddsh2 (m : MoveF)
  /-- R85. IB adds A and eight times T. -/
  | ibAddsh3 (m : MoveF)
  /-- R85. IB adds with carry in and out. -/
  | ibAddc (m : MoveF)
  /-- R85. IB subtracts with borrow in and out. -/
  | ibSubb (m : MoveF)
  /-- R89. SH shifts A left by the amount in T. -/
  | shShl (m : MoveF)
  /-- R89. SH shifts A right logically. -/
  | shShrN (m : MoveF)
  /-- R89. SH shifts A right arithmetically. -/
  | shShrS (m : MoveF)
  /-- R89. SH rotates A left. -/
  | shRotl (m : MoveF)
  /-- R89. SH rotates A right. -/
  | shRotr (m : MoveF)
  /-- R88. SH extracts an unsigned bit field. -/
  | shBfxN (m : MoveF)
  /-- R88. SH extracts a signed bit field. -/
  | shBfxS (m : MoveF)
  /-- R88. SH inserts a bit field of B into A. -/
  | shBfi (m : MoveF)
  /-- R89. SH counts leading zeros of T. -/
  | shClz (m : MoveF)
  /-- R89. SH counts trailing zeros of T. -/
  | shCtz (m : MoveF)
  /-- R89. SH counts one bits of T. -/
  | shPopc (m : MoveF)
  /-- R89. SH reverses the bits of T. -/
  | shBrev (m : MoveF)
  /-- R89. SH reverses the bytes of T. -/
  | shBswap (m : MoveF)
  /-- R89. SH funnel-shifts A:B left. -/
  | shFshl (m : MoveF)
  /-- R89. SH funnel-shifts A:B right. -/
  | shFshr (m : MoveF)
  /-- R89. SH packs the low halves of A and T. -/
  | shPklo (m : MoveF)
  /-- R89. SH packs the high halves of A and T. -/
  | shPkhi (m : MoveF)
  /-- R89. SH sign-extends the low byte of T. -/
  | shSext8 (m : MoveF)
  /-- R89. SH sign-extends the low half of T. -/
  | shSext16 (m : MoveF)
  /-- R89. SH zero-extends the low byte of T. -/
  | shZext8 (m : MoveF)
  /-- R89. SH zero-extends the low half of T. -/
  | shZext16 (m : MoveF)
  /-- R90. IM delivers the low 32 bits of A times T after 5 bundles. -/
  | imMulLo (m : MoveF)
  /-- R90. IM delivers the high word of the signed product. -/
  | imMulHiS (m : MoveF)
  /-- R90. IM delivers the high word of the unsigned product. -/
  | imMulHiN (m : MoveF)
  /-- R90. IM computes A times B plus T. -/
  | imMadLo (m : MoveF)
  /-- R90. IM adds T and the signed byte dot product of A and B. -/
  | imDot4S8 (m : MoveF)
  /-- R90. IM adds T and the unsigned byte dot product of A and B. -/
  | imDot4N8 (m : MoveF)
  /-- R90. IM adds T and the signed halfword dot product of A and B. -/
  | imDot2S16 (m : MoveF)
  /-- R101. UA adds two uniform 64-bit values. -/
  | uaAdd (m : MoveF)
  /-- R101. UA subtracts uniform values. -/
  | uaSub (m : MoveF)
  /-- R101. UA computes A AND T. -/
  | uaAnd (m : MoveF)
  /-- R101. UA computes A OR T. -/
  | uaOr (m : MoveF)
  /-- R101. UA computes A XOR T. -/
  | uaXor (m : MoveF)
  /-- R101. UA shifts left. -/
  | uaShl (m : MoveF)
  /-- R101. UA shifts right logically. -/
  | uaShrN (m : MoveF)
  /-- R101. UA shifts right arithmetically. -/
  | uaShrS (m : MoveF)
  /-- R101. UA multiplies modulo 2^64. -/
  | uaMul (m : MoveF)
  /-- R101. UA selects the signed minimum. -/
  | uaMinS (m : MoveF)
  /-- R101. UA selects the unsigned minimum. -/
  | uaMinN (m : MoveF)
  /-- R101. UA selects the signed maximum. -/
  | uaMaxS (m : MoveF)
  /-- R101. UA selects the unsigned maximum. -/
  | uaMaxN (m : MoveF)
  /-- R101. UA selects A if T is non-zero, else B. -/
  | uaSel (m : MoveF)
  /-- R101. UA writes 1 if A equals T. -/
  | uaCmpEq (m : MoveF)
  /-- R101. UA writes 1 if A differs from T. -/
  | uaCmpNe (m : MoveF)
  /-- R101. UA writes 1 if A is signed-less than T. -/
  | uaCmpLtS (m : MoveF)
  /-- R101. UA writes 1 if A is unsigned-less than T. -/
  | uaCmpLtN (m : MoveF)
  /-- R101. UA signed less-or-equal compare. -/
  | uaCmpLeS (m : MoveF)
  /-- R101. UA unsigned less-or-equal compare. -/
  | uaCmpLeN (m : MoveF)
  /-- R101. UA signed greater-than compare. -/
  | uaCmpGtS (m : MoveF)
  /-- R101. UA unsigned greater-than compare. -/
  | uaCmpGtN (m : MoveF)
  /-- R91. CM sets a predicate where A and T are bit-equal. -/
  | cmCmpEq (kdst : BitVec 3) (m : MoveF)
  /-- R93. CM sets a predicate where T is non-zero. -/
  | cmKset (kdst : BitVec 3) (m : MoveF)
  /-- R91. CM sets a predicate where A and T are ordered and equal as FP32. -/
  | cmCmpEqFo (kdst : BitVec 3) (m : MoveF)
  /-- R91. CM sets a predicate where A and T are unordered or equal. -/
  | cmCmpEqFu (kdst : BitVec 3) (m : MoveF)
  /-- R91. CM sets a predicate where A and T differ in bits. -/
  | cmCmpNe (kdst : BitVec 3) (m : MoveF)
  /-- R91. CM ordered not-equal FP compare. -/
  | cmCmpNeFo (kdst : BitVec 3) (m : MoveF)
  /-- R91. CM unordered or not-equal FP compare. -/
  | cmCmpNeFu (kdst : BitVec 3) (m : MoveF)
  /-- R91. CM less-than compare, signed, unsigned or FP by KIND. -/
  | cmCmpLt (kind : BitVec 2) (kdst : BitVec 3) (m : MoveF)
  /-- R91. CM less-or-equal compare by KIND. -/
  | cmCmpLe (kind : BitVec 2) (kdst : BitVec 3) (m : MoveF)
  /-- R91. CM greater-than compare by KIND. -/
  | cmCmpGt (kind : BitVec 2) (kdst : BitVec 3) (m : MoveF)
  /-- R91. CM greater-or-equal compare by KIND. -/
  | cmCmpGe (kind : BitVec 2) (kdst : BitVec 3) (m : MoveF)
  /-- R93. CM writes bit 0 of A AND T into a predicate. -/
  | cmPlogAnd (kdst : BitVec 3) (m : MoveF)
  /-- R93. CM writes a0 OR t0. -/
  | cmPlogOr (kdst : BitVec 3) (m : MoveF)
  /-- R93. CM writes a0 XOR t0. -/
  | cmPlogXor (kdst : BitVec 3) (m : MoveF)
  /-- R93. CM writes a0 AND NOT t0. -/
  | cmPlogAndn (kdst : BitVec 3) (m : MoveF)
  /-- R93. CM writes a0 OR NOT t0. -/
  | cmPlogOrn (kdst : BitVec 3) (m : MoveF)
  /-- R93. CM writes NOT(a0 AND t0). -/
  | cmPlogNand (kdst : BitVec 3) (m : MoveF)
  /-- R93. CM writes NOT(a0 OR t0). -/
  | cmPlogNor (kdst : BitVec 3) (m : MoveF)
  /-- R93. CM writes NOT(a0 XOR t0). -/
  | cmPlogXnor (kdst : BitVec 3) (m : MoveF)
  /-- R95. BR branches always to the header address plus T. -/
  | brBr (m : MoveF)
  /-- R95. BR branches if the predicate is 1 on any live lane. -/
  | brAny (kdst : BitVec 3) (m : MoveF)
  /-- R95. BR branches if the predicate is 1 on every live lane. -/
  | brAll (kdst : BitVec 3) (m : MoveF)
  /-- R95. BR branches if the predicate is 0 on every live lane. -/
  | brNone (kdst : BitVec 3) (m : MoveF)
  /-- R95. BR branches if uniform A is zero. -/
  | brSZ (m : MoveF)
  /-- R95. BR branches if uniform A is non-zero. -/
  | brSNz (m : MoveF)
  /-- R95. BR branches if uniform A is negative. -/
  | brSLt (m : MoveF)
  /-- R95. BR branches if uniform A is not negative. -/
  | brSGe (m : MoveF)
  /-- R96. BR writes the link s31 and branches relative. -/
  | brCall (m : MoveF)
  /-- R96. BR jumps to the absolute address at T as a return. -/
  | brRet (m : MoveF)
  /-- R94. BR jumps to the absolute address at T. -/
  | brJr (m : MoveF)
  /-- R98. After its stores complete, the team ends, or takes a pending store fault instead. -/
  | brExit (m : MoveF)
  /-- R99. Guarded live lanes retire from the live mask at the end of the bundle. -/
  | brLexit (m : MoveF)
  /-- R115. FA adds A and T, rounded by RND. -/
  | faFadd (ty : BitVec 2) (rnd : BitVec 2) (ftz : BitVec 1) (m : MoveF)
  /-- R115. FA subtracts T from A. -/
  | faFsub (ty : BitVec 2) (rnd : BitVec 2) (ftz : BitVec 1) (m : MoveF)
  /-- R115. FA multiplies A by T. -/
  | faFmul (ty : BitVec 2) (rnd : BitVec 2) (ftz : BitVec 1) (m : MoveF)
  /-- R115. FA computes A times B plus T, rounded once. -/
  | faFma (ty : BitVec 2) (rnd : BitVec 2) (ftz : BitVec 1) (m : MoveF)
  /-- R115. FA computes minus A times B plus T. -/
  | faFnma (ty : BitVec 2) (rnd : BitVec 2) (ftz : BitVec 1) (m : MoveF)
  /-- R116. FA selects the lesser value. -/
  | faFmin (ty : BitVec 2) (rnd : BitVec 2) (ftz : BitVec 1) (m : MoveF)
  /-- R116. FA selects the greater value. -/
  | faFmax (ty : BitVec 2) (rnd : BitVec 2) (ftz : BitVec 1) (m : MoveF)
  /-- R117. FA adds a packed two-element dot product to an FP32 accumulator. -/
  | faFdot2 (ty : BitVec 2) (rnd : BitVec 2) (ftz : BitVec 1) (m : MoveF)
  /-- R115. FB adds A and T. -/
  | fbFadd (ty : BitVec 2) (rnd : BitVec 2) (ftz : BitVec 1) (m : MoveF)
  /-- R115. FB subtracts T from A. -/
  | fbFsub (ty : BitVec 2) (rnd : BitVec 2) (ftz : BitVec 1) (m : MoveF)
  /-- R115. FB multiplies A by T. -/
  | fbFmul (ty : BitVec 2) (rnd : BitVec 2) (ftz : BitVec 1) (m : MoveF)
  /-- R115. FB computes A times B plus T. -/
  | fbFma (ty : BitVec 2) (rnd : BitVec 2) (ftz : BitVec 1) (m : MoveF)
  /-- R115. FB computes minus A times B plus T. -/
  | fbFnma (ty : BitVec 2) (rnd : BitVec 2) (ftz : BitVec 1) (m : MoveF)
  /-- R116. FB selects the lesser value. -/
  | fbFmin (ty : BitVec 2) (rnd : BitVec 2) (ftz : BitVec 1) (m : MoveF)
  /-- R116. FB selects the greater value. -/
  | fbFmax (ty : BitVec 2) (rnd : BitVec 2) (ftz : BitVec 1) (m : MoveF)
  /-- R117. FB adds a packed dot product to an FP32 accumulator. -/
  | fbFdot2 (ty : BitVec 2) (rnd : BitVec 2) (ftz : BitVec 1) (m : MoveF)
  /-- R118. CV converts T between the formats that PAIR names, with RND and SAT. -/
  | cvCvt (pair : BitVec 4) (rnd : BitVec 2) (sat : BitVec 1) (m : MoveF)
  /-- R122. CV clears the sign bit of T. -/
  | cvFabs (ty : BitVec 2) (m : MoveF)
  /-- R122. CV inverts the sign bit of T. -/
  | cvFneg (ty : BitVec 2) (m : MoveF)
  /-- R122. CV delivers the class mask of T. -/
  | cvFclass (ty : BitVec 2) (m : MoveF)
  /-- R122. CV delivers the binary exponent of T. -/
  | cvFrexp (ty : BitVec 2) (m : MoveF)
  /-- R122. CV rounds T to an integral value by RND. -/
  | cvFrint (rnd : BitVec 2) (ty : BitVec 2) (m : MoveF)
  /-- R122. CV scales A by two to the power T. -/
  | cvLdexp (ty : BitVec 2) (m : MoveF)
  /-- R120. CV converts FP32 at T to the narrow format of a format register. -/
  | cvCvtFmTo (fm : BitVec 4) (rz : BitVec 1) (m : MoveF)
  /-- R121. CV converts a narrow code at T to FP32. -/
  | cvCvtFmFrom (fm : BitVec 4) (m : MoveF)
  /-- R123. SF computes the correctly rounded reciprocal of T. -/
  | sfRcp (ty : BitVec 2) (m : MoveF)
  /-- R123. SF computes the reciprocal square root. -/
  | sfRsqrt (ty : BitVec 2) (m : MoveF)
  /-- R123. SF computes the square root. -/
  | sfSqrt (ty : BitVec 2) (m : MoveF)
  /-- R123. SF computes two to the power T. -/
  | sfExp2 (ty : BitVec 2) (m : MoveF)
  /-- R123. SF computes the base-2 logarithm. -/
  | sfLog2 (ty : BitVec 2) (m : MoveF)
  /-- R123. SF computes the sine. -/
  | sfSin (ty : BitVec 2) (m : MoveF)
  /-- R123. SF computes the cosine. -/
  | sfCos (ty : BitVec 2) (m : MoveF)
  /-- R123. SF computes the hyperbolic tangent. -/
  | sfTanh (ty : BitVec 2) (m : MoveF)
  /-- R123. SF computes A divided by T. -/
  | sfDiv (ty : BitVec 2) (m : MoveF)
  /-- R153. XL gives each lane the A value of the lane that T names. -/
  | xlShflIdx (m : MoveF)
  /-- R153. XL shuffles from lane l minus T. -/
  | xlShflUp (m : MoveF)
  /-- R153. XL shuffles from lane l plus T. -/
  | xlShflDn (m : MoveF)
  /-- R153. XL shuffles from lane l XOR T. -/
  | xlShflXor (m : MoveF)
  /-- R153. XL broadcasts the A value of one lane. -/
  | xlBcast (m : MoveF)
  /-- R154. XL delivers 1 if any triggered lane's t0 is 1. -/
  | xlVoteAny (m : MoveF)
  /-- R154. XL delivers 1 if every triggered lane's t0 is 1. -/
  | xlVoteAll (m : MoveF)
  /-- R154. XL delivers a word of the ballot set. -/
  | xlBallot (m : MoveF)
  /-- R155. XL computes an inclusive integer prefix sum. -/
  | xlScanAddI32 (m : MoveF)
  /-- R155. XL computes an exact-then-rounded FP32 prefix sum. -/
  | xlScanAddF32 (m : MoveF)
  /-- R155. XL sums T over the triggered lanes. -/
  | xlRedAddI32 (m : MoveF)
  /-- R155. XL sums FP32 T exactly and rounds once. -/
  | xlRedAddF32 (m : MoveF)
  /-- R155. XL reduces to the signed minimum. -/
  | xlRedMinS (m : MoveF)
  /-- R155. XL reduces to the unsigned minimum. -/
  | xlRedMinN (m : MoveF)
  /-- R155. XL reduces to the FP32 minimum. -/
  | xlRedMinF32 (m : MoveF)
  /-- R155. XL reduces to the signed maximum. -/
  | xlRedMaxS (m : MoveF)
  /-- R155. XL reduces to the unsigned maximum. -/
  | xlRedMaxN (m : MoveF)
  /-- R155. XL reduces to the FP32 maximum. -/
  | xlRedMaxF32 (m : MoveF)
  /-- R159. XL loads a wide-register row into R. -/
  | xlWrLd (m : MoveF)
  /-- R159. XL stores lane values into a wide-register row. -/
  | xlWrSt (m : MoveF)
  /-- R159. XL rotates a wide-register row. -/
  | xlWrRotr (m : MoveF)
  /-- R159. XL rotates a wide-register column. -/
  | xlWrRotc (m : MoveF)
  /-- R159. XL broadcasts a row over a wide register. -/
  | xlWrBcr (m : MoveF)
  /-- R159. XL broadcasts a column over a wide register. -/
  | xlWrBcc (m : MoveF)
  /-- R159. XL reduces each row into a column. -/
  | xlWrRedr (m : MoveF)
  /-- R159. XL reduces each column into a row. -/
  | xlWrRedc (m : MoveF)
  /-- R159. XL zeroes a wide register. -/
  | xlWrZero (m : MoveF)
  /-- R159. XL converts FP32 lane values into wide-register containers. -/
  | xlWrPack (m : MoveF)
  /-- R131. LA loads from base plus offset with a request type. -/
  | laLd (size : BitVec 2) (sgn : BitVec 1) (rt : BitVec 2) (m : MoveF)
  /-- R131. LA loads as an acquire at the bundle's scope. -/
  | laLdAcq (size : BitVec 2) (sgn : BitVec 1) (rt : BitVec 2) (m : MoveF)
  /-- R266. LA loads as an acquire with remote-scope promotion. -/
  | laLdAcqRem (size : BitVec 2) (sgn : BitVec 1) (rt : BitVec 2) (m : MoveF)
  /-- R133. LA prefetches a line towards the fold without changing R. -/
  | laPf (rt : BitVec 2) (m : MoveF)
  /-- R131. LB loads from base plus offset. -/
  | lbLd (size : BitVec 2) (sgn : BitVec 1) (rt : BitVec 2) (m : MoveF)
  /-- R131. LB loads as an acquire. -/
  | lbLdAcq (size : BitVec 2) (sgn : BitVec 1) (rt : BitVec 2) (m : MoveF)
  /-- R266. LB loads as a promoting acquire. -/
  | lbLdAcqRem (size : BitVec 2) (sgn : BitVec 1) (rt : BitVec 2) (m : MoveF)
  /-- R133. LB prefetches a line. -/
  | lbPf (rt : BitVec 2) (m : MoveF)
  /-- R134. ST writes B (and T for d) at the address. -/
  | stSt (size : BitVec 2) (rt : BitVec 2) (m : MoveF)
  /-- R134. ST writes as a release at the bundle's scope. -/
  | stStRel (size : BitVec 2) (rt : BitVec 2) (m : MoveF)
  /-- R135. ST writes back owned dirty words or dirty sector bytes, keeping the line. -/
  | stWb (m : MoveF)
  /-- R135. ST writes back and discards the L1 copy or unfills the sector. -/
  | stInv (m : MoveF)
  /-- R135. ST writes back and discards up to the scope's point of coherence. -/
  | stFlush (m : MoveF)
  /-- R136. AT atomically adds, as atom or red. -/
  | atAdd (rem : BitVec 1) (ord : BitVec 2) (size : BitVec 1) (m : MoveF)
  /-- R136. AT atomically subtracts. -/
  | atSub (rem : BitVec 1) (ord : BitVec 2) (size : BitVec 1) (m : MoveF)
  /-- R136. AT atomically ANDs. -/
  | atAnd (rem : BitVec 1) (ord : BitVec 2) (size : BitVec 1) (m : MoveF)
  /-- R136. AT atomically ORs. -/
  | atOr (rem : BitVec 1) (ord : BitVec 2) (size : BitVec 1) (m : MoveF)
  /-- R136. AT atomically XORs. -/
  | atXor (rem : BitVec 1) (ord : BitVec 2) (size : BitVec 1) (m : MoveF)
  /-- R136. AT atomic signed minimum. -/
  | atMinS (rem : BitVec 1) (ord : BitVec 2) (size : BitVec 1) (m : MoveF)
  /-- R136. AT atomic unsigned minimum. -/
  | atMinN (rem : BitVec 1) (ord : BitVec 2) (size : BitVec 1) (m : MoveF)
  /-- R136. AT atomic signed maximum. -/
  | atMaxS (rem : BitVec 1) (ord : BitVec 2) (size : BitVec 1) (m : MoveF)
  /-- R136. AT atomic unsigned maximum. -/
  | atMaxN (rem : BitVec 1) (ord : BitVec 2) (size : BitVec 1) (m : MoveF)
  /-- R136. AT atomically exchanges. -/
  | atXchg (rem : BitVec 1) (ord : BitVec 2) (size : BitVec 1) (m : MoveF)
  /-- R136. AT atomically compares and swaps. -/
  | atCas (rem : BitVec 1) (ord : BitVec 2) (size : BitVec 1) (m : MoveF)
  /-- R136. AT atomically adds FP32. -/
  | atFaddF32 (rem : BitVec 1) (ord : BitVec 2) (size : BitVec 1) (m : MoveF)
  /-- R136. AT atomically adds packed BF16. -/
  | atFaddBf16x2 (rem : BitVec 1) (ord : BitVec 2) (size : BitVec 1) (m : MoveF)
  /-- R188. The team arrives at a barrier's current generation. -/
  | syBarArr (bar : BitVec 4) (m : MoveF)
  /-- R188. The team waits until the barrier passes its arrival. -/
  | syBarWait (bar : BitVec 4) (m : MoveF)
  /-- R188. The team arrives and waits at a barrier. -/
  | syBarSync (bar : BitVec 4) (m : MoveF)
  /-- R279. The team waits until earlier accesses are performed at the fence's scope. -/
  | syFence (m : MoveF)
  /-- R189. Sets a flag to 1. -/
  | syFset (flag : BitVec 4) (m : MoveF)
  /-- R189. Clears a flag to 0. -/
  | syFclr (flag : BitVec 4) (m : MoveF)
  /-- R190. Holds the team until another team issues or 16 idle cycles pass. -/
  | syYield (m : MoveF)
  /-- R308. Continues at a label when a flag reads 1, holding the team meanwhile. -/
  | syYieldc (flag : BitVec 4) (m : MoveF)
  /-- R191. Takes a producer index of a ring and waits for its slot to be empty. -/
  | syRacq (ring : BitVec 3) (m : MoveF)
  /-- R191. Marks the held producer slot full with its phase, as a release. -/
  | syRcom (ring : BitVec 3) (m : MoveF)
  /-- R191. Takes a consumer index and waits for its slot full with matching phase. -/
  | syRwait (ring : BitVec 3) (m : MoveF)
  /-- R191. Empties the held consumer slot. -/
  | syRrel (ring : BitVec 3) (m : MoveF)
  /-- R194. Requests a larger register budget, refused above 128 or waited for. -/
  | syRgrow (m : MoveF)
  /-- R194. Shrinks the register budget and frees its words. -/
  | syRshrink (m : MoveF)
  /-- R281. Makes the fold owner of a described strided range at its homes. -/
  | syClaim (m : MoveF)
  /-- R281. Writes back and releases the fold's ownership of a described range. -/
  | syUnclaim (m : MoveF)
  /-- R282. Writes a region table entry of the die from a descriptor. -/
  | syRgn (m : MoveF)
  /-- R320. Loads a weight bank from scratchpad rows. -/
  | mxBload (bank : BitVec 1) (m : MoveF)
  /-- R325. Queues a term-serial multiply-accumulate into an accumulator tile. -/
  | mxMma (bank : BitVec 1) (m : MoveF)
  /-- R330. Queues a paired multiply-accumulate across both engines of a fold pair. -/
  | mxMmap (bank : BitVec 1) (m : MoveF)
  /-- R331. Zeroes the accumulator tiles in a mask. -/
  | mxZero (m : MoveF)
  /-- R333. Moves a tile to a window with conversion. -/
  | mxDrain (m : MoveF)
  /-- R333. Loads a tile from a window with conversion. -/
  | mxAload (m : MoveF)
  /-- R317. Writes a format register and returns its previous value. -/
  | mxFmt (m : MoveF)
  /-- R335. Reads one term counter once earlier mma operations complete. -/
  | mxStat (m : MoveF)
  /-- R298. Copies a one-dimensional shape. -/
  | cpCopy (m : MoveF)
  /-- R298. Copies a two-dimensional shape. -/
  | cpCopy2d (m : MoveF)
  /-- R298. Copies a three-dimensional shape. -/
  | cpCopy3d (m : MoveF)
  /-- R297. Copies a shape to or from the L2 staging store. -/
  | cpStage (m : MoveF)
  /-- R300. Gathers per-lane segments into the own window. -/
  | cpGather (m : MoveF)
  /-- R300. Scatters per-lane window segments to generic addresses. -/
  | cpScatter (m : MoveF)
  /-- R301. Fills a shape with a pattern. -/
  | cpFill (m : MoveF)
  /-- R297. Copies a shape into the accumulator store. -/
  | cpAccin (m : MoveF)
  /-- R297. Copies a shape out of the accumulator store. -/
  | cpAccout (m : MoveF)
  /-- R425. Writes a local buffer to a peer's memory over a connection. -/
  | nxPut (m : MoveF)
  /-- R425. Reads a peer's memory into a local buffer. -/
  | nxGet (m : MoveF)
  /-- R425. Performs an atomic at the peer and writes the old value locally. -/
  | nxAtom (m : MoveF)
  /-- R425. Places a message in the peer's receive ring. -/
  | nxSend (m : MoveF)
  /-- R426. Binds or unbinds a landing counter to a barrier. -/
  | nxBind (m : MoveF)
  /-- R426. Reads a congestion field of a connection. -/
  | nxCstate (m : MoveF)
  /-- R426. Sets a link's target rate, clears its windowed counts and retrains it. -/
  | nxLkrate (m : MoveF)
  /-- R426. Adds or removes the team's watch on a link. -/
  | nxLkwatch (m : MoveF)
  /-- R426. Reads a link register of one end. -/
  | nxLkstat (m : MoveF)
  /-- R372. Reads a special register named by a selector. -/
  | svCsrr (m : MoveF)
  /-- R372. Writes a special register and returns its old value. -/
  | svCsrw (m : MoveF)
  /-- R372. Sets RW bits of a special register. -/
  | svCsrs (m : MoveF)
  /-- R372. Clears RW bits or W1C bits of a special register. -/
  | svCsrc (m : MoveF)
  /-- R373. Raises a software trap before the next bundle. -/
  | svTrap (m : MoveF)
  /-- R375. Resumes a Frozen team, optionally replaying or reflecting its cause. -/
  | svEret (m : MoveF)
  /-- R374. Replays a unit's fault record or the store fault buffer. -/
  | svReplay (m : MoveF)
  /-- R373. Raises C_BREAK before the next bundle. -/
  | svBrk (m : MoveF)
  /-- R388. Requests a counter snapshot of every fold in a scope instance. -/
  | svSnap (m : MoveF)
  /-- R376. The shadow context waits for the next event word. -/
  | svCtxNextev (m : MoveF)
  /-- R376. Reads a word of a Frozen team's would-be image. -/
  | svCtxRead (m : MoveF)
  /-- R376. Writes a word of a Frozen team's image. -/
  | svCtxWrite (m : MoveF)
  /-- R376. Freezes a team at its next pre-emption point. -/
  | svCtxFreeze (m : MoveF)
  /-- R376. Starts a full save of a team's gang. -/
  | svCtxSave (m : MoveF)
  /-- R376. Asks the Shepherd to place a saved gang image. -/
  | svCtxRestore (m : MoveF)
  /-- R376. Ends a team's flock, which completes with LAUNCH_ABORTED. -/
  | svCtxKill (m : MoveF)
deriving DecidableEq, Repr

end Sys2Proof
end

