-- ==== Sys2Proof/Machine/State.lean ====
section
/-! DEFINITION. The state of the KB9 as plain data: contexts, folds with their engines, gangs, dies with their
Shepherds, the package, and one memory. Each structure's docstring names the rules that give its fields. -/

namespace Sys2Proof.Machine

/-- One bit for each lane 0 to 1,023 of a team (R144): the live mask, a predicate, a carry latch, a set of lanes. -/
abbrev Lanes := BitVec 1024

/-- A table by number: the listed keys rise strictly; what an absent key reads as is said where the table is read. -/
abbrev Tbl (α : Type) := List (Nat × α)

/-- One value for each lane, lane 0 first; a lane past the end reads 0. A uniform port (R14) holds its value at 0. -/
abbrev Vals := List W64

/-- The fault record of a variable-latency R port (R360). `lanes` are the lanes whose R holds a token. -/
structure FaultRec where
  cause : BitVec 7
  opcode : BitVec 8
  bundle : W64
  cycle : W64
  lanes : Lanes
  addrs : Vals
  mask : Lanes
  a : Vals
  b : Vals
  c : Vals
  t : Vals
  r : Vals
  scope : BitVec 3
deriving DecidableEq, Repr

/-- The ports of one unit of one team (R13, R15): operand ports A, B, C, the held T operand, R with its full bit (R18),
the number of the operation whose completion fills R (R19; 0 none), the fault record (R360), the carry latch (R27). -/
structure UPorts where
  a : Vals
  b : Vals
  c : Vals
  held : Vals
  r : Vals
  full : Bool
  last : Nat
  frec : Option FaultRec
  carry : Lanes
deriving DecidableEq, Repr

/-- A unit at team start: every port reads 0 and R is full (R15, R18, R86). -/
def UPorts.fresh : UPorts :=
  { a := [], b := [], c := [], held := [], r := [], full := true, last := 0, frec := none, carry := 0 }

/-- A fixed-latency result in flight (R16, R17, R86, R92, R114): the unit code, the bundles left until it lands, its
lanes and values, the carry latch's new bits, CM's predicate, each lane's exceptions (NV, DZ, OF, UF, NX from bit 0),
and the triggering bundle. -/
structure Pend where
  unit : Nat
  left : Nat
  mask : Lanes
  vals : Vals
  carry : Option Lanes
  kdst : BitVec 3
  excs : List (BitVec 5)
  bundle : W64
  cycle : W64
deriving DecidableEq, Repr

/-- The trap of an SF result with an enabled exception, until a bundle of R114 meets it. `flag` is the flag the
trigger owns. -/
structure SfTrap where
  code : BitVec 7
  lanes : Lanes
  bundle : W64
  cycle : W64
  flag : Option Nat
deriving DecidableEq, Repr

/-- The unit state that a route U trap frames (R355): ports, pending results, flags with their owners (R20; the owner
is an operation's number), the cycle until which XL is busy (R161), the SF trap, a pending fence's scope (R279). -/
structure UnitState where
  units : Tbl UPorts
  pend : List Pend
  flags : BitVec 12
  owners : Tbl Nat
  xlBusy : Nat
  sfTrap : Option SfTrap
  fence : Option (BitVec 3)
deriving DecidableEq, Repr

/-- Fresh unit state (R355, R180): every flag reads 1, nothing is pending. -/
def UnitState.fresh : UnitState :=
  { units := [], pend := [], flags := 0xFFF, owners := [], xlBusy := 0, sfTrap := none, fence := none }

/-- A trap that is due, or was due, at a boundary between two bundles (R450). `pc` is the address TRAP_PC takes when it
is not the next bundle's; `own` says that the team's own bundles caused it (R357); `held` that it stayed pending while
another was taken. -/
structure DueTrap where
  code : BitVec 7
  sub : BitVec 7
  srcUnit : BitVec 5
  pc : Option W64
  bundle : Option (W64 × W64)
  lanes : Option Lanes
  addr : Option W64
  emu : Option (W64 × W64 × W64 × W64)
  own : Bool
  held : Bool
  /-- C_WATCH takes route S rather than U when this is set (R365); other causes ignore it. -/
  toShadow : Bool
deriving DecidableEq, Repr

/-- Why a team does not issue (R183): Ready, or the wait in which it stands. -/
inductive Wait where
  | ready
  | port (unit : Nat)
  | flag
  | barrier (i : Nat)
  /-- `cons` is true for rwait and false for racq. -/
  | ring (i : Nat) (cons : Bool)
  | grow (budget : Nat)
  /-- Held by an idle bundle, with the issue opportunities still to give up (R34). -/
  | idle (left : Nat)
  /-- Held by yield, with the cycles counted so far (R190). -/
  | yield (count : Nat)
  /-- Held by yieldc until the flag reads 1 (R308). -/
  | yieldc (flag : Nat)
  /-- Held by another team's use of the wide-register path (R161). -/
  | xlPath
  | fetch
  /-- The team has issued its last bundle and is gone once the stores it queued have been performed (R98). -/
  | exiting
deriving DecidableEq, Repr

/-- Where the request of a lane for a home on another die is (R412, R413): not sent, on its way to a die under a number, or
there. -/
inductive LaneTrip where
  | here
  | sent (dst seq : Nat)
  | there (dst : Nat)
deriving DecidableEq, Repr

/-- One lane of a memory move (R128 to R137): its address, its data or operand, the expected value of a cas, the place
a window address resolved to at issue (R211), the fault found at issue (R449). -/
structure MemLane where
  lane : Nat
  addr : W64
  x : W64
  cmp : W64
  win : Option Nat
  fault : Option (BitVec 7)
  /-- What the report-mode watchpoints said of a window address at issue (R364): bit 0 route U, bit 1 route S. -/
  watch : BitVec 2
  /-- How far the lane's request has come to a home on another die (R411, R413, R436). -/
  trip : LaneTrip := .here
deriving DecidableEq, Repr

/-- The lanes of one memory move in one pass of its bundle, not performed yet. Moves of one team are performed in the
order of this queue (R29, R138). `locks` is the number below which the fold's range
locks bind it (R306); `res` and `toks` hold the values and the tokens of the lanes already performed; `begun` says that
what the whole move does before its lanes (R215, R226) has been done; `issued` is the fold cycle of its issue (R428). -/
structure MemOp where
  uid : Nat
  unit : Nat
  opcode : BitVec 8
  scope : BitVec 3
  lanes : List MemLane
  pass : Nat
  mask : Lanes
  locks : Nat
  res : Tbl W64
  toks : List (Nat × BitVec 7 × W64)
  begun : Bool
  bundle : W64
  cycle : W64
  issued : Nat
  /-- Set for a replay (R363): whether it acts on the frame. -/
  replay : Option Bool
deriving DecidableEq, Repr

/-- An entry of the store fault buffer (R362). -/
structure SfbEntry where
  cause : BitVec 7
  op : MemOp
deriving DecidableEq, Repr

/-- A variable-latency operation of SF, XL, SY or SV in flight (R18, R20): its number, unit, opcode, triggered lanes,
operands, the values it fills R with (when known at issue), the fold cycle before which it does not complete (R161),
a token cause when it ends in one, and its bundle. -/
structure VarOp where
  uid : Nat
  unit : Nat
  opcode : BitVec 8
  mask : Lanes
  a : Vals
  t : Vals
  vals : Option Vals
  notBefore : Nat
  token : Option (BitVec 7)
  addr : W64
  scope : BitVec 3
  bundle : W64
  cycle : W64
  /-- The number below which the fold's range locks bind it (R306). -/
  locks : Nat
deriving DecidableEq, Repr

/-- What a team remembers of one barrier (R188): the generation of its latest arrival, and whether that arrival has
not been waited for yet. -/
structure BarMem where
  gen : Nat
  waiting : Bool
deriving DecidableEq, Repr

/-- The indices of a ring that a team holds (R192). -/
structure RingMem where
  prod : Option Nat
  cons : Option Nat
deriving DecidableEq, Repr

/-- A loop record (R196). -/
structure LoopRec where
  pro : W64
  ker : W64
  epi : W64
  exit : W64
  plen : List Nat
  elen : List Nat
  klen : Nat
  stages : Nat
  perLane : Bool
  tripReg : Nat
  trip : Nat
deriving DecidableEq, Repr

/-- A team's loop sequencer (R197, R198): the record, each lane's trip count as it was read when the sequencer started,
the step number, T, K, the end of the step, and whether it is armed and started. -/
structure LoopSeq where
  lrec : LoopRec
  trips : List Nat
  armed : Bool
  started : Bool
  step : Nat
  t : Nat
  k : Nat
  stepEnd : W64
deriving DecidableEq, Repr

/-- A context: a team (R180, R381) or a fold's shadow context (R369). -/
structure Ctx where
  /-- The number of this incarnation of the slot, so that a result of a team that has exited reaches no other. -/
  tid : Nat
  gang : Nat
  role : Nat
  /-- KIND of the role: 0 copy, 1 matrix, 2 vector, 3 general (R49). -/
  kind : Nat
  prio : Nat
  teamId : Nat
  gangIdx : Nat
  flock : W32
  asid : Nat
  nlanes : Nat
  /-- Register budget B, rounded (R179). -/
  budget : Nat
  /-- Whether this is the shadow context (R369), and whether it has stopped after a C_SHADOWFAULT. -/
  shadow : Bool
  stopped : Bool
  conf : Bool
  live : Lanes
  g : Tbl (List W32)
  s : Tbl W64
  k : Tbl Lanes
  pc : W64
  /-- SCHED_CYCLE, the 48-bit bundle count (R353). -/
  sched : Nat
  us : UnitState
  frame : Option UnitState
  cause : W64
  trapPc : W64
  tstatus : W64
  tvec : W64
  faultBundle : W64
  faultCycle : W64
  faultAddr : W64
  faultLanes : Lanes
  emu0 : W64
  emu1 : W64
  emu2 : W64
  emu3 : W64
  fpCtl : W64
  terms : Tbl Nat
  stall : Tbl Nat
  wait : Wait
  frozen : Bool
  lastIssue : Nat
  loop : Option LoopSeq
  barMem : Tbl BarMem
  ringMem : Tbl RingMem
  due : List DueTrap
  sfb : List SfbEntry
  /-- Faulting moves that found all 16 entries of the buffer taken and wait in the store port for one (R362). -/
  sfbWait : List SfbEntry
  memq : List MemOp
  ops : List VarOp
  nextUid : Nat
  /-- Code lines fetched ahead (R46), by line number. -/
  lines : Tbl (List Byte)
  /-- The team ignores breakpoints for its next bundle (R393). -/
  brkSkip : Bool
  /-- A format tag 7 was written into the team's image (R380, R381). -/
  fmtBad : Bool
  /-- C_CONFIDENTIAL has frozen the team, which the control node alone resumes or ends (R398). -/
  sealed : Bool
deriving DecidableEq, Repr

/-- A range-lock entry (R305): space 0 global by ASID, 1 scratchpad by fold, 2 wide registers by gang, 3 accumulator
by fold, 4 staging by die and slice; the bytes lo to hi. `dst` marks a destination entry. -/
structure Lock where
  uid : Nat
  space : Nat
  owner : Nat
  lo : Nat
  hi : Nat
  dst : Bool
  /-- MX entries do not conflict with one another (R307). -/
  mx : Bool
  /-- The number of the entry in order of registration, which an access issued before it does not meet (R306). -/
  seq : Nat
deriving DecidableEq, Repr

/-- A copy, matrix or transport operation in flight on a fold (R294, R314, R425). It outlives its team (R98). -/
structure EngOp where
  uid : Nat
  /-- The team: its slot, its incarnation and the operation's number among that team's operations. -/
  slot : Nat
  tid : Nat
  opUid : Nat
  gang : Nat
  unit : Nat
  opcode : BitVec 8
  mask : Lanes
  a : Vals
  b : Vals
  c : Vals
  t : Vals
  scope : BitVec 3
  bundle : W64
  cycle : W64
  asid : Nat
  flock : W32
  conf : Bool
  /-- The fold cycle of issue, the elements having started (R307), dispatch (R328) and what was read by then. -/
  started : Bool
  dispatch : Option Nat
  block : List Byte
  scaleA : List Byte
  scaleB : List Byte
  /-- The format registers at issue (R317). -/
  fms : Tbl W32
  /-- Cycles from dispatch to completion (R329), the start cycles and finish cycles of the 8 groups. -/
  done : Nat
  starts : List Nat
  finishes : List Nat
  token : Option (BitVec 7)
  tokenAddr : W64
  /-- A transport operation (R425): bytes sent, bytes acknowledged or landed, offsets landed, the index of the byte that
  `token` is for, a refusal by the peer, and the package clock at issue. -/
  progress : Nat
  acked : Nat
  /-- The packets sent and not acknowledged, oldest first (each source byte is read once: R267, R422), and how many of
  them, the last ones, wait to be sent again. -/
  sent : List NxPacket
  redo : Nat
  landed : List Nat
  tokIdx : Nat
  nxRefused : Bool
  born : Nat
deriving DecidableEq, Repr

/-- A landing counter (R424). -/
structure Landing where
  gen : Nat
  bound : Bool
  gang : Nat
  barrier : Nat
  target : Nat
  count : Nat
  /-- The barrier generation at which the counter last arrived, and the one whose C_LANDOVER was posted. -/
  arrivedAt : Option Nat
  overAt : Option Nat
deriving DecidableEq, Repr

/-- A numbered barrier of a gang (R187): its generation and the teams' arrivals counted. -/
structure Barrier where
  gen : Nat
  arrivals : Nat
deriving DecidableEq, Repr

/-- A slot of a stage ring (R191): its full bit and its phase bit. -/
structure RingSlot where
  full : Bool
  phase : Bool
deriving DecidableEq, Repr

/-- A stage ring (R79, R191): its descriptor, its indices, and its slots by number (absent: empty, phase 1).
`released` counts for each slot the laps that have been released. -/
structure Ring where
  prod : Nat
  cons : Nat
  slots : Nat
  size : Nat
  off : Nat
  p : Nat
  c : Nat
  slot : Tbl RingSlot
  released : Tbl Nat
deriving DecidableEq, Repr

/-- A role of a launch block (R174). -/
structure Role where
  entry : W64
  kind : Nat
  prio : Nat
  regs : Nat
  lanes : Nat
  teams : Nat
deriving DecidableEq, Repr

/-- A launch block (R173) with the ring descriptors and `.fmt` words it names. -/
structure Block where
  mirrorAddr : W64
  liveAddr : W64
  barMask : W32
  barMaskHi : W32
  scrLog2 : Nat
  wide : Nat
  pair : Bool
  roles : List Role
  rings : Tbl Ring
  fm : Tbl W32
deriving DecidableEq, Repr

/-- A mapped scratchpad sector (R215). -/
structure Sector where
  filled : Bool
  dirty : BitVec 256
deriving DecidableEq, Repr

/-- A gang placed on a fold or a fold pair (R176, R313): fields by half (0 the only or even fold, 1 the odd one) where
each fold of a PAIR gang has its own. -/
structure Gang where
  die : Nat
  queue : Nat
  flock : W32
  gangIdx : Nat
  asid : Nat
  args : W64
  save : W64
  conf : Bool
  fold : Nat
  block : Block
  hasEngine : Bool
  /-- Block addresses in the scratchpads (SPM_WIN BASE and PBASE, R211). -/
  base : Tbl Nat
  mirrorSel : Tbl W64
  liveBase : W64
  smapV : Tbl W64
  smapS : Tbl W64
  /-- Sectors by half and number (4,096 · half + sector). -/
  sectors : Tbl Sector
  fm : Tbl W32
  barriers : Tbl Barrier
  rings : Tbl Ring
  /-- Teams that have not exited, by TEAM_ID, with their role; an exited team leaves the table. -/
  teams : Tbl Nat
  loop : Option LoopRec
  pktIdx : Nat
  /-- Teams being frozen for a full save (R379): the slot that asked and its operation. -/
  saving : Bool
  /-- The contexts over which the control node asked for the save (R359). -/
  asked : List CtxId
  aborted : Bool
  /-- The teams frozen to make room for this gang (R378): context keys and incarnations. -/
  froze : List (Nat × Nat)
deriving DecidableEq, Repr

/-- A team evicted or saved with its gang: its place is given at restore (R195, R379). -/
structure SavedTeam where
  gang : Nat
  ctx : Ctx
  half : Nat
  addr : W64
deriving DecidableEq, Repr

/-- A saved gang (R379, R382): the address of its image, the gang as its launch made it, and its teams. What the image
holds stands in memory at that address. -/
structure SavedGang where
  addr : W64
  gang : Gang
  teams : List SavedTeam
deriving DecidableEq, Repr

/-- A watchpoint (R364). -/
structure Watch where
  lo : W64
  hi : W64
  ctl : W64
deriving DecidableEq, Repr

/-- A move's writes held while their page's translation changes (R250), with the space and flock of their team. -/
structure Held where
  slot : Nat
  tid : Nat
  asid : Nat
  flock : W32
  conf : Bool
  op : MemOp
deriving DecidableEq, Repr

/-- An event of the shadow event queue (R358). -/
abbrev EventWord := W64

/-- An entry of the engine's cycle-class table (R336, R387). -/
structure MxcEntry where
  addr : W64
  counts : List Nat
deriving DecidableEq, Repr

/-- A pending merged record of the dirty-range log (R233): region index, first and last byte. -/
structure DlogSpan where
  region : Nat
  lo : Nat
  hi : Nat
deriving DecidableEq, Repr

/-- A sample of a cycle, made in that cycle (R391, R395): the team charged (33: none), the STALL_FOLD index, the bundle,
the team's count, flock and queue, and TIMEBASE. -/
structure Sample where
  slot : Nat
  idx : Nat
  pc : W64
  sched : Nat
  flock : W32
  conf : Bool
  queue : Nat
  tb : Nat
deriving DecidableEq, Repr

/-- A bundle of several passes whose later passes are still to come (R145, R147): the team's incarnation, how many are left,
and the bundle as a sample of one of its cycles shows it. -/
structure PassRun where
  tid : Nat
  left : Nat
  smp : Sample
deriving DecidableEq, Repr

/-- A 128-byte line of a fold's L1 (R219): its physical address, the valid and the owned words, the dirty bytes, and its
self-invalidating words, by number, with the team that requested them and the bytes they hold (R220). The value of any other
word is that of memory, where this model keeps every byte as the last write in its home's order left it (R225, R263). -/
structure L1Line where
  base : Nat
  valid : BitVec 32
  owned : BitVec 32
  dirty : BitVec 128
  si : Tbl (Nat × List Byte)
deriving DecidableEq, Repr

/-- A 128-byte line of a home slice's cache (R221, R222): its physical address, and whether memory is older. -/
structure L2Line where
  base : Nat
  dirty : Bool
deriving DecidableEq, Repr

/-- A fold: its clock, issue rotation, special registers, engines, mirror tables, L1 cache and queues. -/
structure Fold where
  /-- Cycles of the fold since reset; FOLD_CYCLE shows its low 48 bits (R385). -/
  cycle : Nat
  /-- Where the fold's clock stands against the package's, in ninths of a cycle at Full (R442): 9 or more lets it take a
  cycle, and below that a slower state holds it back. -/
  phase : Int
  rot : Nat
  /-- The passes of the bundle issued last that are still to come (R145). -/
  pass : Option PassRun
  /-- The wide-register path: the cycle until which it is occupied (R161). -/
  widePath : Nat
  watch : Tbl Watch
  preemptReserve : W64
  stallFold : Tbl Nat
  brk : Tbl (W64 × W64)
  stopCtl : W64
  sampCtl : W64
  snapSeq : Nat
  snapTag : W64
  snapTb : Nat
  snapStall : Tbl Nat
  snapMxc : Tbl Nat
  /-- Snapshots requested and not latched yet: tag, TIMEBASE at issue, issuing fold and slot (R388). -/
  snapReq : List (W64 × Nat × Nat × Nat)
  sliceLat : Tbl W64
  events : List EventWord
  eventLost : Bool
  recordLost : Bool
  mirrors : Tbl (Tbl (List Parcel))
  locks : List Lock
  lockSeq : Nat
  eng : List EngOp
  nextEng : Nat
  bankValid : Tbl (Bool × Bool)
  /-- S and F of the groups of the last two mma or mmap operations (R329). -/
  mxHist : List (List Nat × List Nat)
  mxc : List MxcEntry
  mxcOvf : Tbl Nat
  held : List Held
  growQ : List Nat
  dlog : Option DlogSpan
  /-- Samples made and not sent yet, oldest first (R395). -/
  samples : List Sample
  /-- The lines of L1, oldest first (R219), and how many more of its lines are disabled (R399). -/
  l1 : List L1Line
  l1Off : Nat
deriving DecidableEq, Repr

/-- A queue of a Shepherd (R164 to R166, R171): its entry, the indices read, the arbitration counts, and whether a
read of it must be tried again (R165). -/
structure Queue where
  ent0 : W64
  ent1 : W64
  ent2 : W64
  ent3 : W64
  ridx : Nat
  widx : Nat
  passOver : Nat
  effPrio : Nat
  stuck : Bool
  /-- The read index is still to be read (R166), and the packet started last was a WAITVAL (R170). -/
  needRidx : Bool
  afterWait : Bool
deriving DecidableEq, Repr

/-- The state of a started packet (R172). -/
inductive PktState where
  | watching | placing | running | completing
deriving DecidableEq, Repr

/-- A packet that has started and not completed (R168, R172). -/
structure Packet where
  /-- The model's own number of a started packet: two packets of one queue may have one index (R166). -/
  num : Nat
  q : Nat
  idx : Nat
  bytes : List Byte
  st : PktState
  status : Nat
  block : Option Block
  loop : Option LoopRec
  gangs : Nat
  placed : Nat
  flock : W32
  conf : Bool
  /-- The teams frozen to make room for the next gang (R378): context keys and incarnations. -/
  froze : List (Nat × Nat)
deriving DecidableEq, Repr

/-- A range-directory entry (R226, R228): strided elements and their owner, or a line entry when `line` is set. -/
structure RangeEnt where
  base : Nat
  stride : Nat
  count : Nat
  width : Nat
  owner : Nat
  line : Bool
deriving DecidableEq, Repr

/-- A cached translation (R242): the space, the page's base and size, the leaf, the first virtual address of what the entry
used describes alone (R240), and a striped leaf's descriptor. -/
structure Tlb where
  asid : Nat
  page : Nat
  size : Nat
  pte : W64
  ent : Nat
  desc : List Byte
deriving DecidableEq, Repr

/-- A tracked error location (R399). -/
structure EccLoc where
  cls : Nat
  inst : Nat
  loc : Nat
  count : Nat
  order : Nat
  /-- TIMEBASE at the error that opened its window. -/
  opened : Nat
deriving DecidableEq, Repr

/-- A count of the count table (R246), by space and leaf page: the first virtual address of what its entries describe as one
page (R240). -/
structure AccCount where
  asid : Nat
  page : Nat
  count : Nat
deriving DecidableEq, Repr

/-- A compute die: its Shepherd, translation unit, region table, home slices, observation registers and islands. -/
structure Die where
  queues : Tbl Queue
  packets : List Packet
  flockCtr : Nat
  rot : Nat
  qroot : Tbl W64
  sroot : W64
  stripeBase : W64
  migThresh : W64
  migqBase : W64
  migqCtl : W64
  migqRidx : W64
  dlogBase : W64
  dlogCtl : W64
  dlogRidx : W64
  counts : List AccCount
  tlb : List Tlb
  /-- The leaves under which words came to the die's L1 caches, cached translations or not (R242, R252). -/
  used : List Tlb
  /-- XLATE_INV writes in progress: the word, the shadow context's fold and the operation to complete (R252). -/
  invs : List (W64 × Nat × Nat)
  l2Stage : Tbl W64
  /-- The lines of the home caches, oldest first, and the disabled ones of each slice (R221, R222, R399). -/
  l2 : List L2Line
  l2Off : Tbl Nat
  /-- The 128-byte lines of near and far memory that hold an uncorrectable error (R224). -/
  eccBad : List Nat
  rdir : List RangeEnt
  rdirDegraded : Tbl Nat
  rdirLine : Tbl Nat
  nmXref : Tbl Nat
  regions : Tbl Region
  traceCtl : W64
  qkey : Tbl W64
  keys : Tbl (BitVec 256)
  unitCtr : Nat
  eccCtl : W64
  eccCe : Tbl Nat
  eccRet : Tbl Nat
  eccLocs : List EccLoc
  /-- Spare lines and rows in use, by class and instance (65,536 · class + instance). -/
  eccUsed : Tbl Nat
  /-- ISL_CTL.FLOOR and the state of each island (R442 to R444). -/
  islFloor : Tbl Nat
  islands : Tbl Nat
  thermStat : W64
  /-- The thermal actions in force (R446): bit 0 refresh doubling, bit 1 the DRAM hold, bit 2 the logic hold. -/
  thermHold : Nat
  landing : Tbl Landing
  /-- Link watches (R426): the team's incarnation and the link. -/
  watches : List (Nat × Nat)
  evicted : List SavedTeam
  saved : List SavedGang
  /-- Gang images whose restore was asked for and not placed yet (R376). -/
  restores : List W64
  dead : Bool
deriving DecidableEq, Repr

/-- A message on the package mesh (R411, R412): its source and destination (a compute die, 4 for IO0, 5 for IO1), virtual
channel, sending fold and scope, and its number in the sequence of its source and channel (R417). -/
structure MeshMsg where
  src : Nat
  dst : Nat
  vc : Nat
  fold : Nat
  scope : Nat
  seq : Nat
deriving DecidableEq, Repr

/-- One end of a link (R413, R414, R416): registers, the windowed counts with TIMEBASE as it stands when each closes, and the
go-back-N counters with the flits sent and not acknowledged and the messages that wait to be sent. -/
structure LinkEnd where
  replay : Nat
  crc : Nat
  win : W64
  degr : Nat
  linkCount : Nat
  laneCounts : Tbl Nat
  /-- LK_WIN.THRESH as it stood when each count's window opened (R416). -/
  linkThr : Nat
  laneThr : Tbl Nat
  linkShut : Nat
  laneShut : Tbl Nat
  expect : BitVec 10
  discarding : Bool
  sendNext : Nat
  acked : Nat
  unacked : List (Nat × Option MeshMsg)
  queue : List MeshMsg
  /-- The NAK that the receiver is to send (R413), and whether it counts against the link (R414). -/
  nak : Option Bool
deriving DecidableEq, Repr

/-- A link (R410, R416): rate, requested rate, modules, spares, and whether it is up or retraining. -/
structure Link where
  target : BitVec 3
  rate : BitVec 3
  up : Bool
  mw : BitVec 8
  spares : BitVec 12
  retraining : Bool
  /-- Retrains that follow the one under way: steps taken meanwhile (R430). -/
  more : Nat
  /-- The lkrate operations that the retrain ends: fold and operation (R426). -/
  waiters : List (Nat × Nat)
deriving DecidableEq, Repr

/-- An estimate of R423 as it stands, exactly: num / 2^exp. -/
structure Frac where
  num : Nat
  exp : Nat
deriving DecidableEq, Repr

/-- The run-time values of a connection (R423): window, RTT in ns, F × 65,536, and whether an acknowledgement of this RTT
was marked; the buffers taken of its receive ring (R427). -/
structure Conn where
  w : Frac
  rtt : Frac
  f : Frac
  marked : Bool
  /-- The bytes that were in flight when the window was last updated and are not acknowledged: an RTT of data (R423). -/
  round : Nat
  rxTaken : Nat
  /-- The receive buffer of each incoming message with the bytes placed in it; an atomic's old value and size. -/
  rx : Tbl (Nat × Nat)
  /-- RUD and ROD per-message state: message and offset already counted (R422). -/
  seen : List (Nat × Nat)
  /-- The next entropy value, the values to skip with the time of their mark or loss (ns), the number of the next packet sent,
  and of the next to be placed in the order of a ROD connection (R422). -/
  entropy : Nat
  skip : List (Nat × Nat)
  sendSeq : Nat
  expect : Nat
  /-- Answers that wait for the window, and the packets in flight in sending order: twice the message (1 more for a message
  of this device), the bytes and the entropy value (R422, R423). -/
  answers : List NxPacket
  flying : List (Nat × Nat × Nat)
deriving DecidableEq, Repr

/-- A notice record for the control node (R429). -/
structure Notice where
  event : W64
  dev : BitVec 14
  fold : BitVec 16
  flock : W32
  trapPc : W64
  faultBundle : W64
  faultAddr : W64
  faultCycle : W64
  timebase : W64
  seq : W64
deriving DecidableEq, Repr

/-- What leaves the device: over the Lumen port notices (R429), trace bytes (R391, R397), responses to management
requests (R371; none carries C_CSRACCESS) and attestation reports (R448). -/
inductive Out where
  | notice (n : Notice)
  | trace (bytes : List Byte)
  | response (v : Option W64)
  | report (bytes sig : List Byte)
  /-- A packet of the transport engine, on the Ethernet lanes (R422). -/
  | packet (p : NxPacket)
deriving DecidableEq, Repr

/-- Where the boot stands (R447). -/
inductive Boot where
  | off | rom | running
deriving DecidableEq, Repr

/-- The package: links, transport engine, Lumen port, power and boot (R410 to R448). -/
structure Pkg where
  boot : Boot
  links : Tbl Link
  ends : Tbl LinkEnd
  /-- The next number of each source and virtual channel of the mesh; the numbers that have come to each destination, as far as
  a duplicate of one could; and the messages that have come before an earlier one of their traffic (R412, R417). -/
  meshNext : Tbl Nat
  meshSeen : Tbl (List Nat)
  meshHold : List MeshMsg
  connBase : W64
  rmapBase : W64
  conns : Tbl Conn
  /-- The lane split of each I/O die (R420): 0 for 2 × 1.6T, 1 for 4 × 800G, 2 for 8 × 400G. -/
  ethSplit : Tbl Nat
  devId : BitVec 14
  devIdSet : Bool
  pwrCap : W64
  pwrStat : W64
  capNoticed : Bool
  /-- ISL_IOCTL.FLOOR and the state of each island of the I/O dies (R444). -/
  islIo : Tbl Nat
  islIoState : Tbl Nat
  meas : Tbl (List Byte)
  /-- The entry point of the firmware image (R447). -/
  entry : W64
  noticeSeq : Nat
  out : List Out
  /-- What the Lumen port has sent of `out`, in the order of its four classes (R429). -/
  sent : List Out
  /-- Requests of the control node and of shadow contexts that wait (R250, R371, R443), oldest first, with the answer of one
  whose action has been taken. -/
  reqs : List (Instr × Option W64)
  lumenUp : Bool
  /-- The trace channel of the Lumen port is busy and takes no record (R396). -/
  traceBusy : Bool
  /-- Cycles of the package's common clock; TIMEBASE is derived from it (R385). -/
  clk : Nat
deriving DecidableEq, Repr

/-- The machine. `cur` names the context that issues next, `agenda` the events to take before any bundle (the inputs
of the outside world among them), `bgTurn` whether a background event is due next, `nextId` numbers teams and gangs,
`free` counts the free values taken (the model's own field). -/
structure State where
  mem : List Host.Cell
  ctxs : Tbl Ctx
  folds : Tbl Fold
  gangs : Tbl Gang
  dies : Tbl Die
  pkg : Pkg
  cur : CtxId
  agenda : List Instr
  bgTurn : Bool
  nextId : Nat
  free : Nat
deriving DecidableEq, Repr

/-- Why the machine stops. -/
inductive Fault where
  /-- Raised by a move, trigger, recall, idle or bundle that is executed while `cur` names no context that can issue:
  no team is resident in the slot, the team is Frozen, or the shadow context is not running. The hardware issues
  nothing there; safe. -/
  | noIssuingContext
deriving DecidableEq, Repr

/-- Why an instruction has no outcome. -/
inductive Refusal where
  /-- Answered by an arm of `exec` whose instruction has no meaning yet; safe. -/
  | notModelled (mnemonic : String)
deriving DecidableEq, Repr

/-- The package before power is applied (R447): nothing runs and every register reads its reset value. -/
def Pkg.off : Pkg :=
  { boot := .off, links := [], ends := [], meshNext := [], meshSeen := [], meshHold := [], connBase := 0, rmapBase := 0, conns := [],
    ethSplit := [], devId := 0, devIdSet := false, pwrCap := 0xA0898, pwrStat := 0, capNoticed := false, islIo := [], islIoState := [],
    meas := [], entry := 0, noticeSeq := 0, out := [], sent := [], reqs := [],
    lumenUp := false, traceBusy := false, clk := 0 }

/-- The machine right after reset (R447): the package holds no team, its memories are clear, and only the boot block of
IO0 and the Lumen port wait for the control node. A die, fold, link or register that no table lists reads its reset value.
`cur` names the shadow context of fold 0, which does not run yet. -/
def State.reset : State :=
  { mem := [], ctxs := [], folds := [], gangs := [], dies := [], pkg := Pkg.off,
    cur := { fold := 0, slot := CtxId.shadowSlot }, agenda := [], bgTurn := false, nextId := 1, free := 0 }

end Sys2Proof.Machine
end

