-- ==== Sys2Proof/Decode.lean ====
section
/-! DEFINITION. Decoding (R30 to R61): from the bytes at a bundle's address to the instruction, total on any bytes and
refusing by name, and after it the encoder, written from the same tables. A bundle of one move in slot 0, with no
extension, no long immediate and no yield hint, is read as that move's instruction; every other plain or extended
bundle is read as `bundleIssue` with its parcels, and the checks of R26 and R44 are made when it issues. -/

namespace Sys2Proof

/-- Bits hi:lo of a number, for the fields of an encoding. -/
def fld (x hi lo : Nat) : Nat := x / 2 ^ lo % 2 ^ (hi + 1 - lo)

/-- The opcodes of IA (R50); none where reserved. -/
noncomputable def decIa (o : Nat) (m : MoveF) : Option Instr :=
  match o with
  | 0x00 => some (.iaAdd m)
  | 0x01 => some (.iaSub m)
  | 0x02 => some (.iaRsub m)
  | 0x03 => some (.iaNeg m)
  | 0x04 => some (.iaAnd m)
  | 0x05 => some (.iaOr m)
  | 0x06 => some (.iaXor m)
  | 0x07 => some (.iaAndn m)
  | 0x08 => some (.iaOrn m)
  | 0x09 => some (.iaMinS m)
  | 0x0A => some (.iaMinN m)
  | 0x0B => some (.iaMaxS m)
  | 0x0C => some (.iaMaxN m)
  | 0x0D => some (.iaAbs m)
  | 0x0E => some (.iaAddSatS m)
  | 0x0F => some (.iaAddSatN m)
  | 0x10 => some (.iaSubSatS m)
  | 0x11 => some (.iaSubSatN m)
  | 0x12 => some (.iaAvgN m)
  | 0x13 => some (.iaAbsdN m)
  | 0x14 => some (.iaMov m)
  | 0x15 => some (.iaAddsh1 m)
  | 0x16 => some (.iaAddsh2 m)
  | 0x17 => some (.iaAddsh3 m)
  | 0x18 => some (.iaAddc m)
  | 0x19 => some (.iaSubb m)
  | _ => none

/-- The opcodes of IB (R50); none where reserved. -/
noncomputable def decIb (o : Nat) (m : MoveF) : Option Instr :=
  match o with
  | 0x00 => some (.ibAdd m)
  | 0x01 => some (.ibSub m)
  | 0x02 => some (.ibRsub m)
  | 0x03 => some (.ibNeg m)
  | 0x04 => some (.ibAnd m)
  | 0x05 => some (.ibOr m)
  | 0x06 => some (.ibXor m)
  | 0x07 => some (.ibAndn m)
  | 0x08 => some (.ibOrn m)
  | 0x09 => some (.ibMinS m)
  | 0x0A => some (.ibMinN m)
  | 0x0B => some (.ibMaxS m)
  | 0x0C => some (.ibMaxN m)
  | 0x0D => some (.ibAbs m)
  | 0x0E => some (.ibAddSatS m)
  | 0x0F => some (.ibAddSatN m)
  | 0x10 => some (.ibSubSatS m)
  | 0x11 => some (.ibSubSatN m)
  | 0x12 => some (.ibAvgN m)
  | 0x13 => some (.ibAbsdN m)
  | 0x14 => some (.ibMov m)
  | 0x15 => some (.ibAddsh1 m)
  | 0x16 => some (.ibAddsh2 m)
  | 0x17 => some (.ibAddsh3 m)
  | 0x18 => some (.ibAddc m)
  | 0x19 => some (.ibSubb m)
  | _ => none

/-- The opcodes of SH (R51); none where reserved. -/
noncomputable def decSh (o : Nat) (m : MoveF) : Option Instr :=
  match o with
  | 0x00 => some (.shShl m)
  | 0x01 => some (.shShrN m)
  | 0x02 => some (.shShrS m)
  | 0x03 => some (.shRotl m)
  | 0x04 => some (.shRotr m)
  | 0x05 => some (.shBfxN m)
  | 0x06 => some (.shBfxS m)
  | 0x07 => some (.shBfi m)
  | 0x08 => some (.shClz m)
  | 0x09 => some (.shCtz m)
  | 0x0A => some (.shPopc m)
  | 0x0B => some (.shBrev m)
  | 0x0C => some (.shBswap m)
  | 0x0D => some (.shFshl m)
  | 0x0E => some (.shFshr m)
  | 0x0F => some (.shPklo m)
  | 0x10 => some (.shPkhi m)
  | 0x11 => some (.shSext8 m)
  | 0x12 => some (.shSext16 m)
  | 0x13 => some (.shZext8 m)
  | 0x14 => some (.shZext16 m)
  | _ => none

/-- The opcodes of IM (R51); none where reserved. -/
noncomputable def decIm (o : Nat) (m : MoveF) : Option Instr :=
  match o with
  | 0x00 => some (.imMulLo m)
  | 0x01 => some (.imMulHiS m)
  | 0x02 => some (.imMulHiN m)
  | 0x03 => some (.imMadLo m)
  | 0x04 => some (.imDot4S8 m)
  | 0x05 => some (.imDot4N8 m)
  | 0x06 => some (.imDot2S16 m)
  | _ => none

/-- The opcodes of UA (R51); none where reserved. -/
noncomputable def decUa (o : Nat) (m : MoveF) : Option Instr :=
  match o with
  | 0x00 => some (.uaAdd m)
  | 0x01 => some (.uaSub m)
  | 0x02 => some (.uaAnd m)
  | 0x03 => some (.uaOr m)
  | 0x04 => some (.uaXor m)
  | 0x05 => some (.uaShl m)
  | 0x06 => some (.uaShrN m)
  | 0x07 => some (.uaShrS m)
  | 0x08 => some (.uaMul m)
  | 0x09 => some (.uaMinS m)
  | 0x0A => some (.uaMinN m)
  | 0x0B => some (.uaMaxS m)
  | 0x0C => some (.uaMaxN m)
  | 0x0D => some (.uaSel m)
  | 0x10 => some (.uaCmpEq m)
  | 0x11 => some (.uaCmpNe m)
  | 0x12 => some (.uaCmpLtS m)
  | 0x13 => some (.uaCmpLtN m)
  | 0x14 => some (.uaCmpLeS m)
  | 0x15 => some (.uaCmpLeN m)
  | 0x16 => some (.uaCmpGtS m)
  | 0x17 => some (.uaCmpGtN m)
  | _ => none

/-- The opcodes of XL (R57); none where reserved. -/
noncomputable def decXl (o : Nat) (m : MoveF) : Option Instr :=
  match o with
  | 0x00 => some (.xlShflIdx m)
  | 0x01 => some (.xlShflUp m)
  | 0x02 => some (.xlShflDn m)
  | 0x03 => some (.xlShflXor m)
  | 0x04 => some (.xlBcast m)
  | 0x05 => some (.xlVoteAny m)
  | 0x06 => some (.xlVoteAll m)
  | 0x07 => some (.xlBallot m)
  | 0x08 => some (.xlScanAddI32 m)
  | 0x09 => some (.xlScanAddF32 m)
  | 0x0A => some (.xlRedAddI32 m)
  | 0x0B => some (.xlRedAddF32 m)
  | 0x0C => some (.xlRedMinS m)
  | 0x0D => some (.xlRedMinN m)
  | 0x0E => some (.xlRedMinF32 m)
  | 0x0F => some (.xlRedMaxS m)
  | 0x10 => some (.xlRedMaxN m)
  | 0x11 => some (.xlRedMaxF32 m)
  | 0x40 => some (.xlWrLd m)
  | 0x41 => some (.xlWrSt m)
  | 0x42 => some (.xlWrRotr m)
  | 0x43 => some (.xlWrRotc m)
  | 0x44 => some (.xlWrBcr m)
  | 0x45 => some (.xlWrBcc m)
  | 0x46 => some (.xlWrRedr m)
  | 0x47 => some (.xlWrRedc m)
  | 0x48 => some (.xlWrZero m)
  | 0x49 => some (.xlWrPack m)
  | _ => none

/-- The opcodes of CP (R61); none where reserved. -/
noncomputable def decCp (o : Nat) (m : MoveF) : Option Instr :=
  match o with
  | 0x00 => some (.cpCopy m)
  | 0x01 => some (.cpCopy2d m)
  | 0x02 => some (.cpCopy3d m)
  | 0x03 => some (.cpStage m)
  | 0x04 => some (.cpGather m)
  | 0x05 => some (.cpScatter m)
  | 0x06 => some (.cpFill m)
  | 0x07 => some (.cpAccin m)
  | 0x08 => some (.cpAccout m)
  | _ => none

/-- The opcodes of NX (R61); none where reserved. -/
noncomputable def decNx (o : Nat) (m : MoveF) : Option Instr :=
  match o with
  | 0x00 => some (.nxPut m)
  | 0x01 => some (.nxGet m)
  | 0x02 => some (.nxAtom m)
  | 0x03 => some (.nxSend m)
  | 0x10 => some (.nxBind m)
  | 0x20 => some (.nxCstate m)
  | 0x30 => some (.nxLkrate m)
  | 0x31 => some (.nxLkwatch m)
  | 0x32 => some (.nxLkstat m)
  | _ => none

/-- The opcodes of SV (R61); none where reserved. -/
noncomputable def decSv (o : Nat) (m : MoveF) : Option Instr :=
  match o with
  | 0x00 => some (.svCsrr m)
  | 0x01 => some (.svCsrw m)
  | 0x02 => some (.svCsrs m)
  | 0x03 => some (.svCsrc m)
  | 0x10 => some (.svTrap m)
  | 0x11 => some (.svEret m)
  | 0x12 => some (.svReplay m)
  | 0x13 => some (.svBrk m)
  | 0x20 => some (.svSnap m)
  | 0x30 => some (.svCtxNextev m)
  | _ => none

/-- The opcodes of CM (R52); none where reserved. -/
noncomputable def decCm (o : Nat) (m : MoveF) : Option Instr :=
  match o / 8 with
  | 0x00 => some (.cmCmpEq (BitVec.ofNat 3 (o % 8)) m)
  | 0x01 => some (.cmKset (BitVec.ofNat 3 (o % 8)) m)
  | 0x02 => some (.cmCmpEqFo (BitVec.ofNat 3 (o % 8)) m)
  | 0x03 => some (.cmCmpEqFu (BitVec.ofNat 3 (o % 8)) m)
  | 0x04 => some (.cmCmpNe (BitVec.ofNat 3 (o % 8)) m)
  | 0x06 => some (.cmCmpNeFo (BitVec.ofNat 3 (o % 8)) m)
  | 0x07 => some (.cmCmpNeFu (BitVec.ofNat 3 (o % 8)) m)
  | 0x18 => some (.cmPlogAnd (BitVec.ofNat 3 (o % 8)) m)
  | 0x19 => some (.cmPlogOr (BitVec.ofNat 3 (o % 8)) m)
  | 0x1A => some (.cmPlogXor (BitVec.ofNat 3 (o % 8)) m)
  | 0x1B => some (.cmPlogAndn (BitVec.ofNat 3 (o % 8)) m)
  | 0x1C => some (.cmPlogOrn (BitVec.ofNat 3 (o % 8)) m)
  | 0x1D => some (.cmPlogNand (BitVec.ofNat 3 (o % 8)) m)
  | 0x1E => some (.cmPlogNor (BitVec.ofNat 3 (o % 8)) m)
  | 0x1F => some (.cmPlogXnor (BitVec.ofNat 3 (o % 8)) m)
  | _ =>
    match o / 32 with
    | 2 => some (.cmCmpLt (BitVec.ofNat 2 (o / 8 % 4)) (BitVec.ofNat 3 (o % 8)) m)
    | 3 => some (.cmCmpLe (BitVec.ofNat 2 (o / 8 % 4)) (BitVec.ofNat 3 (o % 8)) m)
    | 4 => some (.cmCmpGt (BitVec.ofNat 2 (o / 8 % 4)) (BitVec.ofNat 3 (o % 8)) m)
    | 5 => some (.cmCmpGe (BitVec.ofNat 2 (o / 8 % 4)) (BitVec.ofNat 3 (o % 8)) m)
    | _ => none

/-- The opcodes of BR (R53); none where reserved. -/
noncomputable def decBr (o : Nat) (m : MoveF) : Option Instr :=
  match o with
  | 0x00 => some (.brBr m)
  | 0x20 => some (.brSZ m)
  | 0x21 => some (.brSNz m)
  | 0x22 => some (.brSLt m)
  | 0x23 => some (.brSGe m)
  | 0x30 => some (.brCall m)
  | 0x31 => some (.brRet m)
  | 0x32 => some (.brJr m)
  | 0x38 => some (.brExit m)
  | 0x39 => some (.brLexit m)
  | _ =>
    match o / 8 with
    | 1 => some (.brAny (BitVec.ofNat 3 (o % 8)) m)
    | 2 => some (.brAll (BitVec.ofNat 3 (o % 8)) m)
    | 3 => some (.brNone (BitVec.ofNat 3 (o % 8)) m)
    | _ => none

/-- The opcodes of FA (R54); none where reserved. -/
noncomputable def decFa (o : Nat) (m : MoveF) : Option Instr :=
  match o / 32 with
  | 0 => if o / 8 % 4 != 3 then some (.faFadd (BitVec.ofNat 2 (o / 8 % 4)) (BitVec.ofNat 2 (o / 2 % 4)) (BitVec.ofNat 1 (o % 2)) m) else none
  | 1 => if o / 8 % 4 != 3 then some (.faFsub (BitVec.ofNat 2 (o / 8 % 4)) (BitVec.ofNat 2 (o / 2 % 4)) (BitVec.ofNat 1 (o % 2)) m) else none
  | 2 => if o / 8 % 4 != 3 then some (.faFmul (BitVec.ofNat 2 (o / 8 % 4)) (BitVec.ofNat 2 (o / 2 % 4)) (BitVec.ofNat 1 (o % 2)) m) else none
  | 3 => if o / 8 % 4 != 3 then some (.faFma (BitVec.ofNat 2 (o / 8 % 4)) (BitVec.ofNat 2 (o / 2 % 4)) (BitVec.ofNat 1 (o % 2)) m) else none
  | 4 => if o / 8 % 4 != 3 then some (.faFnma (BitVec.ofNat 2 (o / 8 % 4)) (BitVec.ofNat 2 (o / 2 % 4)) (BitVec.ofNat 1 (o % 2)) m) else none
  | 5 => if o / 8 % 4 != 3 && o / 2 % 4 == 0 then some (.faFmin (BitVec.ofNat 2 (o / 8 % 4)) (BitVec.ofNat 2 (o / 2 % 4)) (BitVec.ofNat 1 (o % 2)) m) else none
  | 6 => if o / 8 % 4 != 3 && o / 2 % 4 == 0 then some (.faFmax (BitVec.ofNat 2 (o / 8 % 4)) (BitVec.ofNat 2 (o / 2 % 4)) (BitVec.ofNat 1 (o % 2)) m) else none
  | 7 => if o / 8 % 4 != 3 && o / 8 % 4 != 0 then some (.faFdot2 (BitVec.ofNat 2 (o / 8 % 4)) (BitVec.ofNat 2 (o / 2 % 4)) (BitVec.ofNat 1 (o % 2)) m) else none
  | _ => none

/-- The opcodes of FB (R54); none where reserved. -/
noncomputable def decFb (o : Nat) (m : MoveF) : Option Instr :=
  match o / 32 with
  | 0 => if o / 8 % 4 != 3 then some (.fbFadd (BitVec.ofNat 2 (o / 8 % 4)) (BitVec.ofNat 2 (o / 2 % 4)) (BitVec.ofNat 1 (o % 2)) m) else none
  | 1 => if o / 8 % 4 != 3 then some (.fbFsub (BitVec.ofNat 2 (o / 8 % 4)) (BitVec.ofNat 2 (o / 2 % 4)) (BitVec.ofNat 1 (o % 2)) m) else none
  | 2 => if o / 8 % 4 != 3 then some (.fbFmul (BitVec.ofNat 2 (o / 8 % 4)) (BitVec.ofNat 2 (o / 2 % 4)) (BitVec.ofNat 1 (o % 2)) m) else none
  | 3 => if o / 8 % 4 != 3 then some (.fbFma (BitVec.ofNat 2 (o / 8 % 4)) (BitVec.ofNat 2 (o / 2 % 4)) (BitVec.ofNat 1 (o % 2)) m) else none
  | 4 => if o / 8 % 4 != 3 then some (.fbFnma (BitVec.ofNat 2 (o / 8 % 4)) (BitVec.ofNat 2 (o / 2 % 4)) (BitVec.ofNat 1 (o % 2)) m) else none
  | 5 => if o / 8 % 4 != 3 && o / 2 % 4 == 0 then some (.fbFmin (BitVec.ofNat 2 (o / 8 % 4)) (BitVec.ofNat 2 (o / 2 % 4)) (BitVec.ofNat 1 (o % 2)) m) else none
  | 6 => if o / 8 % 4 != 3 && o / 2 % 4 == 0 then some (.fbFmax (BitVec.ofNat 2 (o / 8 % 4)) (BitVec.ofNat 2 (o / 2 % 4)) (BitVec.ofNat 1 (o % 2)) m) else none
  | 7 => if o / 8 % 4 != 3 && o / 8 % 4 != 0 then some (.fbFdot2 (BitVec.ofNat 2 (o / 8 % 4)) (BitVec.ofNat 2 (o / 2 % 4)) (BitVec.ofNat 1 (o % 2)) m) else none
  | _ => none

/-- The opcodes of CV (R55); none where reserved. -/
noncomputable def decCv (o : Nat) (m : MoveF) : Option Instr :=
  if o / 128 = 0 then some (.cvCvt (BitVec.ofNat 4 (o / 8)) (BitVec.ofNat 2 (o / 2 % 4)) (BitVec.ofNat 1 (o % 2)) m)
  else if o / 32 = 6 then some (.cvCvtFmTo (BitVec.ofNat 4 (o / 2 % 16)) (BitVec.ofNat 1 (o % 2)) m)
  else if o / 32 = 7 then (if o % 2 = 0 then some (.cvCvtFmFrom (BitVec.ofNat 4 (o / 2 % 16)) m) else none)
  else if o % 4 = 3 then none
  else if o / 16 = 9 then some (.cvFrint (BitVec.ofNat 2 (o / 4 % 4)) (BitVec.ofNat 2 (o % 4)) m)
  else
    match o / 4 with
    | 0x20 => some (.cvFabs (BitVec.ofNat 2 (o % 4)) m)
    | 0x21 => some (.cvFneg (BitVec.ofNat 2 (o % 4)) m)
    | 0x22 => some (.cvFclass (BitVec.ofNat 2 (o % 4)) m)
    | 0x23 => some (.cvFrexp (BitVec.ofNat 2 (o % 4)) m)
    | 0x28 => some (.cvLdexp (BitVec.ofNat 2 (o % 4)) m)
    | _ => none

/-- The opcodes of SF (R56); none where reserved. -/
noncomputable def decSf (o : Nat) (m : MoveF) : Option Instr :=
  if o / 16 < 3 then
    match o % 16 with
    | 0 => some (.sfRcp (BitVec.ofNat 2 (o / 16 % 4)) m)
    | 1 => some (.sfRsqrt (BitVec.ofNat 2 (o / 16 % 4)) m)
    | 2 => some (.sfSqrt (BitVec.ofNat 2 (o / 16 % 4)) m)
    | 3 => some (.sfExp2 (BitVec.ofNat 2 (o / 16 % 4)) m)
    | 4 => some (.sfLog2 (BitVec.ofNat 2 (o / 16 % 4)) m)
    | 5 => some (.sfSin (BitVec.ofNat 2 (o / 16 % 4)) m)
    | 6 => some (.sfCos (BitVec.ofNat 2 (o / 16 % 4)) m)
    | 7 => some (.sfTanh (BitVec.ofNat 2 (o / 16 % 4)) m)
    | 8 => some (.sfDiv (BitVec.ofNat 2 (o / 16 % 4)) m)
    | _ => none
  else none

/-- The opcodes of LA (R58); none where reserved. -/
noncomputable def decLa (o : Nat) (m : MoveF) : Option Instr :=
  if o % 2 = 0 then
    match o / 64 with
    | 0 => if o / 8 % 2 = 1 ∧ o / 32 % 2 = 1 then none else some (.laLd (BitVec.ofNat 2 (o / 16 % 4)) (BitVec.ofNat 1 (o / 8 % 2)) (BitVec.ofNat 2 (o / 2 % 4)) m)
    | 1 => if o / 8 % 2 = 1 ∧ o / 32 % 2 = 1 then none else some (.laLdAcq (BitVec.ofNat 2 (o / 16 % 4)) (BitVec.ofNat 1 (o / 8 % 2)) (BitVec.ofNat 2 (o / 2 % 4)) m)
    | 2 => if o / 8 % 2 = 1 ∧ o / 32 % 2 = 1 then none else some (.laLdAcqRem (BitVec.ofNat 2 (o / 16 % 4)) (BitVec.ofNat 1 (o / 8 % 2)) (BitVec.ofNat 2 (o / 2 % 4)) m)
    | 3 => if o / 8 % 8 = 0 then some (.laPf (BitVec.ofNat 2 (o / 2 % 4)) m) else none
    | _ => none
  else none

/-- The opcodes of LB (R58); none where reserved. -/
noncomputable def decLb (o : Nat) (m : MoveF) : Option Instr :=
  if o % 2 = 0 then
    match o / 64 with
    | 0 => if o / 8 % 2 = 1 ∧ o / 32 % 2 = 1 then none else some (.lbLd (BitVec.ofNat 2 (o / 16 % 4)) (BitVec.ofNat 1 (o / 8 % 2)) (BitVec.ofNat 2 (o / 2 % 4)) m)
    | 1 => if o / 8 % 2 = 1 ∧ o / 32 % 2 = 1 then none else some (.lbLdAcq (BitVec.ofNat 2 (o / 16 % 4)) (BitVec.ofNat 1 (o / 8 % 2)) (BitVec.ofNat 2 (o / 2 % 4)) m)
    | 2 => if o / 8 % 2 = 1 ∧ o / 32 % 2 = 1 then none else some (.lbLdAcqRem (BitVec.ofNat 2 (o / 16 % 4)) (BitVec.ofNat 1 (o / 8 % 2)) (BitVec.ofNat 2 (o / 2 % 4)) m)
    | 3 => if o / 8 % 8 = 0 then some (.lbPf (BitVec.ofNat 2 (o / 2 % 4)) m) else none
    | _ => none
  else none

/-- The opcodes of ST (R58); none where reserved. -/
noncomputable def decSt (o : Nat) (m : MoveF) : Option Instr :=
  match o with
  | 0x80 => some (.stWb m)
  | 0x81 => some (.stInv m)
  | 0x82 => some (.stFlush m)
  | _ =>
    if o % 2 = 0 ∧ o / 8 % 2 = 0 then
      match o / 64 with
      | 0 => some (.stSt (BitVec.ofNat 2 (o / 16 % 4)) (BitVec.ofNat 2 (o / 2 % 4)) m)
      | 1 => some (.stStRel (BitVec.ofNat 2 (o / 16 % 4)) (BitVec.ofNat 2 (o / 2 % 4)) m)
      | _ => none
    else none

/-- The opcodes of AT (R59); none where reserved. -/
noncomputable def decAt (o : Nat) (m : MoveF) : Option Instr :=
  match o % 16 with
  | 0 => if (o / 128 % 2 == 0 || (o / 32 % 4 != 0 && o / 32 % 4 != 3)) then some (.atAdd (BitVec.ofNat 1 (o / 128 % 2)) (BitVec.ofNat 2 (o / 32 % 4)) (BitVec.ofNat 1 (o / 16 % 2)) m) else none
  | 1 => if (o / 128 % 2 == 0 || (o / 32 % 4 != 0 && o / 32 % 4 != 3)) then some (.atSub (BitVec.ofNat 1 (o / 128 % 2)) (BitVec.ofNat 2 (o / 32 % 4)) (BitVec.ofNat 1 (o / 16 % 2)) m) else none
  | 2 => if (o / 128 % 2 == 0 || (o / 32 % 4 != 0 && o / 32 % 4 != 3)) then some (.atAnd (BitVec.ofNat 1 (o / 128 % 2)) (BitVec.ofNat 2 (o / 32 % 4)) (BitVec.ofNat 1 (o / 16 % 2)) m) else none
  | 3 => if (o / 128 % 2 == 0 || (o / 32 % 4 != 0 && o / 32 % 4 != 3)) then some (.atOr (BitVec.ofNat 1 (o / 128 % 2)) (BitVec.ofNat 2 (o / 32 % 4)) (BitVec.ofNat 1 (o / 16 % 2)) m) else none
  | 4 => if (o / 128 % 2 == 0 || (o / 32 % 4 != 0 && o / 32 % 4 != 3)) then some (.atXor (BitVec.ofNat 1 (o / 128 % 2)) (BitVec.ofNat 2 (o / 32 % 4)) (BitVec.ofNat 1 (o / 16 % 2)) m) else none
  | 5 => if (o / 128 % 2 == 0 || (o / 32 % 4 != 0 && o / 32 % 4 != 3)) then some (.atMinS (BitVec.ofNat 1 (o / 128 % 2)) (BitVec.ofNat 2 (o / 32 % 4)) (BitVec.ofNat 1 (o / 16 % 2)) m) else none
  | 6 => if (o / 128 % 2 == 0 || (o / 32 % 4 != 0 && o / 32 % 4 != 3)) then some (.atMinN (BitVec.ofNat 1 (o / 128 % 2)) (BitVec.ofNat 2 (o / 32 % 4)) (BitVec.ofNat 1 (o / 16 % 2)) m) else none
  | 7 => if (o / 128 % 2 == 0 || (o / 32 % 4 != 0 && o / 32 % 4 != 3)) then some (.atMaxS (BitVec.ofNat 1 (o / 128 % 2)) (BitVec.ofNat 2 (o / 32 % 4)) (BitVec.ofNat 1 (o / 16 % 2)) m) else none
  | 8 => if (o / 128 % 2 == 0 || (o / 32 % 4 != 0 && o / 32 % 4 != 3)) then some (.atMaxN (BitVec.ofNat 1 (o / 128 % 2)) (BitVec.ofNat 2 (o / 32 % 4)) (BitVec.ofNat 1 (o / 16 % 2)) m) else none
  | 9 => if (o / 128 % 2 == 0 || (o / 32 % 4 != 0 && o / 32 % 4 != 3)) && o / 32 % 4 != 3 then some (.atXchg (BitVec.ofNat 1 (o / 128 % 2)) (BitVec.ofNat 2 (o / 32 % 4)) (BitVec.ofNat 1 (o / 16 % 2)) m) else none
  | 10 => if (o / 128 % 2 == 0 || (o / 32 % 4 != 0 && o / 32 % 4 != 3)) && o / 32 % 4 != 3 then some (.atCas (BitVec.ofNat 1 (o / 128 % 2)) (BitVec.ofNat 2 (o / 32 % 4)) (BitVec.ofNat 1 (o / 16 % 2)) m) else none
  | 11 => if (o / 128 % 2 == 0 || (o / 32 % 4 != 0 && o / 32 % 4 != 3)) && o / 16 % 2 == 0 then some (.atFaddF32 (BitVec.ofNat 1 (o / 128 % 2)) (BitVec.ofNat 2 (o / 32 % 4)) (BitVec.ofNat 1 (o / 16 % 2)) m) else none
  | 12 => if (o / 128 % 2 == 0 || (o / 32 % 4 != 0 && o / 32 % 4 != 3)) && o / 16 % 2 == 0 then some (.atFaddBf16x2 (BitVec.ofNat 1 (o / 128 % 2)) (BitVec.ofNat 2 (o / 32 % 4)) (BitVec.ofNat 1 (o / 16 % 2)) m) else none
  | _ => none

/-- The opcodes of SY (R60); none where reserved. -/
noncomputable def decSy (o : Nat) (m : MoveF) : Option Instr :=
  match o with
  | 0x30 => some (.syFence m)
  | 0x60 => some (.syYield m)
  | 0xA0 => some (.syRgrow m)
  | 0xA1 => some (.syRshrink m)
  | 0xB0 => some (.syClaim m)
  | 0xB1 => some (.syUnclaim m)
  | 0xC0 => some (.syRgn m)
  | _ =>
    match o / 8 with
    | 0x10 => some (.syRacq (BitVec.ofNat 3 (o % 8)) m)
    | 0x11 => some (.syRcom (BitVec.ofNat 3 (o % 8)) m)
    | 0x12 => some (.syRwait (BitVec.ofNat 3 (o % 8)) m)
    | 0x13 => some (.syRrel (BitVec.ofNat 3 (o % 8)) m)
    | _ =>
      match o / 16 with
      | 0 => some (.syBarArr (BitVec.ofNat 4 (o % 16)) m)
      | 1 => some (.syBarWait (BitVec.ofNat 4 (o % 16)) m)
      | 2 => some (.syBarSync (BitVec.ofNat 4 (o % 16)) m)
      | 4 => if o % 16 < 12 then some (.syFset (BitVec.ofNat 4 (o % 16)) m) else none
      | 5 => if o % 16 < 12 then some (.syFclr (BitVec.ofNat 4 (o % 16)) m) else none
      | 7 => if o % 16 < 12 then some (.syYieldc (BitVec.ofNat 4 (o % 16)) m) else none
      | _ => none

/-- The opcodes of MX (R61); none where reserved. -/
noncomputable def decMx (o : Nat) (m : MoveF) : Option Instr :=
  match o with
  | 0x20 => some (.mxZero m)
  | 0x30 => some (.mxDrain m)
  | 0x40 => some (.mxAload m)
  | 0x50 => some (.mxFmt m)
  | 0x60 => some (.mxStat m)
  | _ =>
    match o / 2 with
    | 0 => some (.mxBload (BitVec.ofNat 1 (o % 2)) m)
    | 8 => some (.mxMma (BitVec.ofNat 1 (o % 2)) m)
    | 9 => some (.mxMmap (BitVec.ofNat 1 (o % 2)) m)
    | _ => none

/-- The destination of a syllable (R40, R41): a register, an operand port, or a trigger by the unit's opcode table;
none for a reserved unit, RF port 3, or a reserved opcode. -/
noncomputable def decDest (u p o : Nat) (m : MoveF) : Option Instr :=
  if u = 0 then
    match p with
    | 0 => some (.moveToG (BitVec.ofNat 8 o) m)
    | 1 => some (.moveToS (BitVec.ofNat 8 o) m)
    | 2 => some (.moveToK (BitVec.ofNat 8 o) m)
    | _ => none
  else if u < 22 then
    if p = 3 then
      match u with
      | 1 => decIa o m
      | 2 => decIb o m
      | 3 => decSh o m
      | 4 => decIm o m
      | 5 => decFa o m
      | 6 => decFb o m
      | 7 => decCv o m
      | 8 => decSf o m
      | 9 => decCm o m
      | 10 => decXl o m
      | 11 => decLa o m
      | 12 => decLb o m
      | 13 => decSt o m
      | 14 => decAt o m
      | 15 => decBr o m
      | 16 => decSy o m
      | 17 => decMx o m
      | 18 => decCp o m
      | 19 => decNx o m
      | 20 => decSv o m
      | 21 => decUa o m
      | _ => none
    else some (.moveToPort (BitVec.ofNat 5 u) (BitVec.ofNat 2 p) (BitVec.ofNat 8 o) m)
  else none

/-- The move that a syllable holds, whatever its STOP bit (R40). -/
noncomputable def decodeSyllable (w : W32) : Option Instr :=
  let n := w.toNat
  decDest (fld n 26 22) (fld n 21 20) (fld n 19 12)
    { neg := fld n 30 30 == 1, guard := BitVec.ofNat 3 (fld n 29 27), skind := BitVec.ofNat 2 (fld n 11 10),
      ssel := BitVec.ofNat 10 (fld n 9 0) }

/-- The slots a header announces (R31: TMPL bits set). -/
def tmplCount (h : Nat) : Nat :=
  fld h 8 8 + fld h 9 9 + fld h 10 10 + fld h 11 11 + fld h 12 12 + fld h 13 13

/-- The length in parcels that a header announces (R31; recall and idle are one parcel). -/
def headerLength (h : Parcel) : Nat :=
  let n := h.toNat
  match fld n 15 14 with
  | 0 => 1 + 2 * tmplCount n + 2 * fld n 7 7
  | 2 => 3 + 2 * tmplCount n + 2 * fld n 7 7
  | _ => 1

/-- Why bytes are no instruction. -/
inductive DecodeError where
  /-- Fewer bytes than the header announces. -/
  | short
  /-- A recall header whose bits 13:9 are not zero (R44: C_MALFORMED at issue). -/
  | recallReserved
deriving DecidableEq, Repr

/-- A 16-bit parcel from two bytes (R30). -/
def parcelOf (a b : Byte) : Parcel := BitVec.ofNat 16 (a.toNat + 256 * b.toNat)

/-- A 32-bit item from four bytes (R30). -/
def itemOf (a b c d : Byte) : W32 := BitVec.ofNat 32 (a.toNat + 256 * b.toNat + 65536 * c.toNat + 16777216 * d.toNat)

/-- `n` 32-bit items from the front of a byte list, and the rest. -/
def takeItems : Nat → List Byte → Option (List W32 × List Byte)
  | 0, bs => some ([], bs)
  | n + 1, a :: b :: c :: d :: r =>
    match takeItems n r with
    | some (ws, rest) => some (itemOf a b c d :: ws, rest)
    | none => none
  | _ + 1, _ => none

/-- The parcels of a plain or extended bundle (R31). -/
def takeRaw (h : Parcel) (bs : List Byte) : Option RawBundle :=
  match takeItems (if fld h.toNat 15 14 = 2 then 1 else 0) bs with
  | none => none
  | some (es, r1) =>
    match takeItems (tmplCount h.toNat) r1 with
    | none => none
    | some (ss, r2) =>
      match takeItems (fld h.toNat 7 7) r2 with
      | none => none
      | some (ls, _) => some { header := h, ext := es.headD 0, sylls := ss, limm := ls.headD 0 }

/-- The instruction of a bundle that is one well-placed move in slot 0 and nothing else. -/
noncomputable def RawBundle.single (b : RawBundle) : Option Instr :=
  match b.sylls with
  | [w] => if b.header = 0x0100 ∧ w.toNat / 2 ^ 31 = 1 then decodeSyllable w else none
  | _ => none

/-- The instruction of a plain or extended bundle. -/
noncomputable def RawBundle.instr (b : RawBundle) : Instr :=
  match b.single with
  | some i => i
  | none => .bundleIssue b

/-- Decode the bytes at a bundle's address (R30 to R44). -/
noncomputable def decode : List Byte → Except DecodeError Instr
  | a :: b :: r =>
    let h := parcelOf a b
    match fld h.toNat 15 14 with
    | 1 => if fld h.toNat 13 9 = 0 then .ok (.recall (BitVec.ofNat 9 (fld h.toNat 8 0))) else .error .recallReserved
    | 3 => .ok (.idle (BitVec.ofNat 14 (fld h.toNat 13 0)))
    | _ =>
      match takeRaw h r with
      | some raw => .ok raw.instr
      | none => .error .short
  | _ => .error .short

/-- The instruction an error or a decode gives, without the reason. -/
noncomputable def decoded (bs : List Byte) : Option Instr :=
  match decode bs with
  | .ok i => some i
  | .error _ => none

/-! ## The encoder -/

/-- The two bytes of a parcel (R30). -/
def parcelBytes (h : Parcel) : List Byte := [BitVec.ofNat 8 h.toNat, BitVec.ofNat 8 (h.toNat / 256)]

/-- The four bytes of a 32-bit item (R30). -/
def itemBytes (w : W32) : List Byte :=
  [BitVec.ofNat 8 w.toNat, BitVec.ofNat 8 (w.toNat / 256), BitVec.ofNat 8 (w.toNat / 65536),
    BitVec.ofNat 8 (w.toNat / 16777216)]

/-- The bytes of a list of items. -/
def itemsBytes : List W32 → List Byte
  | [] => []
  | w :: r => itemBytes w ++ itemsBytes r

/-- A syllable from its fields (R40). -/
def syllable (stop : Bool) (u p o : Nat) (m : MoveF) : W32 :=
  BitVec.ofNat 32 ((if stop then 2147483648 else 0) + (if m.neg then 1073741824 else 0) + m.guard.toNat * 134217728 +
    u * 4194304 + p * 1048576 + o * 4096 + m.skind.toNat * 1024 + m.ssel.toNat)

/-- Destination unit, port, DSEL and move fields of an instruction that is one move (R41, R48 to R61). -/
def destOf : Instr → Option (Nat × Nat × Nat × MoveF)
  | .moveToG reg m => some (0, 0, reg.toNat, m)
  | .moveToS reg m => some (0, 1, reg.toNat, m)
  | .moveToK reg m => some (0, 2, reg.toNat, m)
  | .moveToPort u p modf m => some (u.toNat, p.toNat, modf.toNat, m)
  | .iaAdd m => some (1, 3, 0, m)
  | .iaSub m => some (1, 3, 1, m)
  | .iaRsub m => some (1, 3, 2, m)
  | .iaNeg m => some (1, 3, 3, m)
  | .iaAnd m => some (1, 3, 4, m)
  | .iaOr m => some (1, 3, 5, m)
  | .iaXor m => some (1, 3, 6, m)
  | .iaAndn m => some (1, 3, 7, m)
  | .iaOrn m => some (1, 3, 8, m)
  | .iaMinS m => some (1, 3, 9, m)
  | .iaMinN m => some (1, 3, 10, m)
  | .iaMaxS m => some (1, 3, 11, m)
  | .iaMaxN m => some (1, 3, 12, m)
  | .iaAbs m => some (1, 3, 13, m)
  | .iaAddSatS m => some (1, 3, 14, m)
  | .iaAddSatN m => some (1, 3, 15, m)
  | .iaSubSatS m => some (1, 3, 16, m)
  | .iaSubSatN m => some (1, 3, 17, m)
  | .iaAvgN m => some (1, 3, 18, m)
  | .iaAbsdN m => some (1, 3, 19, m)
  | .iaMov m => some (1, 3, 20, m)
  | .iaAddsh1 m => some (1, 3, 21, m)
  | .iaAddsh2 m => some (1, 3, 22, m)
  | .iaAddsh3 m => some (1, 3, 23, m)
  | .iaAddc m => some (1, 3, 24, m)
  | .iaSubb m => some (1, 3, 25, m)
  | .ibAdd m => some (2, 3, 0, m)
  | .ibSub m => some (2, 3, 1, m)
  | .ibRsub m => some (2, 3, 2, m)
  | .ibNeg m => some (2, 3, 3, m)
  | .ibAnd m => some (2, 3, 4, m)
  | .ibOr m => some (2, 3, 5, m)
  | .ibXor m => some (2, 3, 6, m)
  | .ibAndn m => some (2, 3, 7, m)
  | .ibOrn m => some (2, 3, 8, m)
  | .ibMinS m => some (2, 3, 9, m)
  | .ibMinN m => some (2, 3, 10, m)
  | .ibMaxS m => some (2, 3, 11, m)
  | .ibMaxN m => some (2, 3, 12, m)
  | .ibAbs m => some (2, 3, 13, m)
  | .ibAddSatS m => some (2, 3, 14, m)
  | .ibAddSatN m => some (2, 3, 15, m)
  | .ibSubSatS m => some (2, 3, 16, m)
  | .ibSubSatN m => some (2, 3, 17, m)
  | .ibAvgN m => some (2, 3, 18, m)
  | .ibAbsdN m => some (2, 3, 19, m)
  | .ibMov m => some (2, 3, 20, m)
  | .ibAddsh1 m => some (2, 3, 21, m)
  | .ibAddsh2 m => some (2, 3, 22, m)
  | .ibAddsh3 m => some (2, 3, 23, m)
  | .ibAddc m => some (2, 3, 24, m)
  | .ibSubb m => some (2, 3, 25, m)
  | .shShl m => some (3, 3, 0, m)
  | .shShrN m => some (3, 3, 1, m)
  | .shShrS m => some (3, 3, 2, m)
  | .shRotl m => some (3, 3, 3, m)
  | .shRotr m => some (3, 3, 4, m)
  | .shBfxN m => some (3, 3, 5, m)
  | .shBfxS m => some (3, 3, 6, m)
  | .shBfi m => some (3, 3, 7, m)
  | .shClz m => some (3, 3, 8, m)
  | .shCtz m => some (3, 3, 9, m)
  | .shPopc m => some (3, 3, 10, m)
  | .shBrev m => some (3, 3, 11, m)
  | .shBswap m => some (3, 3, 12, m)
  | .shFshl m => some (3, 3, 13, m)
  | .shFshr m => some (3, 3, 14, m)
  | .shPklo m => some (3, 3, 15, m)
  | .shPkhi m => some (3, 3, 16, m)
  | .shSext8 m => some (3, 3, 17, m)
  | .shSext16 m => some (3, 3, 18, m)
  | .shZext8 m => some (3, 3, 19, m)
  | .shZext16 m => some (3, 3, 20, m)
  | .imMulLo m => some (4, 3, 0, m)
  | .imMulHiS m => some (4, 3, 1, m)
  | .imMulHiN m => some (4, 3, 2, m)
  | .imMadLo m => some (4, 3, 3, m)
  | .imDot4S8 m => some (4, 3, 4, m)
  | .imDot4N8 m => some (4, 3, 5, m)
  | .imDot2S16 m => some (4, 3, 6, m)
  | .uaAdd m => some (21, 3, 0, m)
  | .uaSub m => some (21, 3, 1, m)
  | .uaAnd m => some (21, 3, 2, m)
  | .uaOr m => some (21, 3, 3, m)
  | .uaXor m => some (21, 3, 4, m)
  | .uaShl m => some (21, 3, 5, m)
  | .uaShrN m => some (21, 3, 6, m)
  | .uaShrS m => some (21, 3, 7, m)
  | .uaMul m => some (21, 3, 8, m)
  | .uaMinS m => some (21, 3, 9, m)
  | .uaMinN m => some (21, 3, 10, m)
  | .uaMaxS m => some (21, 3, 11, m)
  | .uaMaxN m => some (21, 3, 12, m)
  | .uaSel m => some (21, 3, 13, m)
  | .uaCmpEq m => some (21, 3, 16, m)
  | .uaCmpNe m => some (21, 3, 17, m)
  | .uaCmpLtS m => some (21, 3, 18, m)
  | .uaCmpLtN m => some (21, 3, 19, m)
  | .uaCmpLeS m => some (21, 3, 20, m)
  | .uaCmpLeN m => some (21, 3, 21, m)
  | .uaCmpGtS m => some (21, 3, 22, m)
  | .uaCmpGtN m => some (21, 3, 23, m)
  | .xlShflIdx m => some (10, 3, 0, m)
  | .xlShflUp m => some (10, 3, 1, m)
  | .xlShflDn m => some (10, 3, 2, m)
  | .xlShflXor m => some (10, 3, 3, m)
  | .xlBcast m => some (10, 3, 4, m)
  | .xlVoteAny m => some (10, 3, 5, m)
  | .xlVoteAll m => some (10, 3, 6, m)
  | .xlBallot m => some (10, 3, 7, m)
  | .xlScanAddI32 m => some (10, 3, 8, m)
  | .xlScanAddF32 m => some (10, 3, 9, m)
  | .xlRedAddI32 m => some (10, 3, 10, m)
  | .xlRedAddF32 m => some (10, 3, 11, m)
  | .xlRedMinS m => some (10, 3, 12, m)
  | .xlRedMinN m => some (10, 3, 13, m)
  | .xlRedMinF32 m => some (10, 3, 14, m)
  | .xlRedMaxS m => some (10, 3, 15, m)
  | .xlRedMaxN m => some (10, 3, 16, m)
  | .xlRedMaxF32 m => some (10, 3, 17, m)
  | .xlWrLd m => some (10, 3, 64, m)
  | .xlWrSt m => some (10, 3, 65, m)
  | .xlWrRotr m => some (10, 3, 66, m)
  | .xlWrRotc m => some (10, 3, 67, m)
  | .xlWrBcr m => some (10, 3, 68, m)
  | .xlWrBcc m => some (10, 3, 69, m)
  | .xlWrRedr m => some (10, 3, 70, m)
  | .xlWrRedc m => some (10, 3, 71, m)
  | .xlWrZero m => some (10, 3, 72, m)
  | .xlWrPack m => some (10, 3, 73, m)
  | .cpCopy m => some (18, 3, 0, m)
  | .cpCopy2d m => some (18, 3, 1, m)
  | .cpCopy3d m => some (18, 3, 2, m)
  | .cpStage m => some (18, 3, 3, m)
  | .cpGather m => some (18, 3, 4, m)
  | .cpScatter m => some (18, 3, 5, m)
  | .cpFill m => some (18, 3, 6, m)
  | .cpAccin m => some (18, 3, 7, m)
  | .cpAccout m => some (18, 3, 8, m)
  | .nxPut m => some (19, 3, 0, m)
  | .nxGet m => some (19, 3, 1, m)
  | .nxAtom m => some (19, 3, 2, m)
  | .nxSend m => some (19, 3, 3, m)
  | .nxBind m => some (19, 3, 16, m)
  | .nxCstate m => some (19, 3, 32, m)
  | .nxLkrate m => some (19, 3, 48, m)
  | .nxLkwatch m => some (19, 3, 49, m)
  | .nxLkstat m => some (19, 3, 50, m)
  | .svCsrr m => some (20, 3, 0, m)
  | .svCsrw m => some (20, 3, 1, m)
  | .svCsrs m => some (20, 3, 2, m)
  | .svCsrc m => some (20, 3, 3, m)
  | .svTrap m => some (20, 3, 16, m)
  | .svEret m => some (20, 3, 17, m)
  | .svReplay m => some (20, 3, 18, m)
  | .svBrk m => some (20, 3, 19, m)
  | .svSnap m => some (20, 3, 32, m)
  | .svCtxNextev m => some (20, 3, 48, m)
  | .svCtxRead m => some (20, 3, 48, m)
  | .svCtxWrite m => some (20, 3, 48, m)
  | .svCtxFreeze m => some (20, 3, 48, m)
  | .svCtxSave m => some (20, 3, 48, m)
  | .svCtxRestore m => some (20, 3, 48, m)
  | .svCtxKill m => some (20, 3, 48, m)
  | .cmCmpEq kdst m => some (9, 3, 0 + kdst.toNat, m)
  | .cmKset kdst m => some (9, 3, 8 + kdst.toNat, m)
  | .cmCmpEqFo kdst m => some (9, 3, 16 + kdst.toNat, m)
  | .cmCmpEqFu kdst m => some (9, 3, 24 + kdst.toNat, m)
  | .cmCmpNe kdst m => some (9, 3, 32 + kdst.toNat, m)
  | .cmCmpNeFo kdst m => some (9, 3, 48 + kdst.toNat, m)
  | .cmCmpNeFu kdst m => some (9, 3, 56 + kdst.toNat, m)
  | .cmPlogAnd kdst m => some (9, 3, 192 + kdst.toNat, m)
  | .cmPlogOr kdst m => some (9, 3, 200 + kdst.toNat, m)
  | .cmPlogXor kdst m => some (9, 3, 208 + kdst.toNat, m)
  | .cmPlogAndn kdst m => some (9, 3, 216 + kdst.toNat, m)
  | .cmPlogOrn kdst m => some (9, 3, 224 + kdst.toNat, m)
  | .cmPlogNand kdst m => some (9, 3, 232 + kdst.toNat, m)
  | .cmPlogNor kdst m => some (9, 3, 240 + kdst.toNat, m)
  | .cmPlogXnor kdst m => some (9, 3, 248 + kdst.toNat, m)
  | .cmCmpLt kind kdst m => some (9, 3, 64 + kind.toNat * 8 + kdst.toNat, m)
  | .cmCmpLe kind kdst m => some (9, 3, 96 + kind.toNat * 8 + kdst.toNat, m)
  | .cmCmpGt kind kdst m => some (9, 3, 128 + kind.toNat * 8 + kdst.toNat, m)
  | .cmCmpGe kind kdst m => some (9, 3, 160 + kind.toNat * 8 + kdst.toNat, m)
  | .brBr m => some (15, 3, 0, m)
  | .brSZ m => some (15, 3, 32, m)
  | .brSNz m => some (15, 3, 33, m)
  | .brSLt m => some (15, 3, 34, m)
  | .brSGe m => some (15, 3, 35, m)
  | .brCall m => some (15, 3, 48, m)
  | .brRet m => some (15, 3, 49, m)
  | .brJr m => some (15, 3, 50, m)
  | .brExit m => some (15, 3, 56, m)
  | .brLexit m => some (15, 3, 57, m)
  | .brAny kdst m => some (15, 3, 8 + kdst.toNat, m)
  | .brAll kdst m => some (15, 3, 16 + kdst.toNat, m)
  | .brNone kdst m => some (15, 3, 24 + kdst.toNat, m)
  | .faFadd ty rnd ftz m => some (5, 3, 0 + ty.toNat * 8 + rnd.toNat * 2 + ftz.toNat, m)
  | .faFsub ty rnd ftz m => some (5, 3, 32 + ty.toNat * 8 + rnd.toNat * 2 + ftz.toNat, m)
  | .faFmul ty rnd ftz m => some (5, 3, 64 + ty.toNat * 8 + rnd.toNat * 2 + ftz.toNat, m)
  | .faFma ty rnd ftz m => some (5, 3, 96 + ty.toNat * 8 + rnd.toNat * 2 + ftz.toNat, m)
  | .faFnma ty rnd ftz m => some (5, 3, 128 + ty.toNat * 8 + rnd.toNat * 2 + ftz.toNat, m)
  | .faFmin ty rnd ftz m => some (5, 3, 160 + ty.toNat * 8 + rnd.toNat * 2 + ftz.toNat, m)
  | .faFmax ty rnd ftz m => some (5, 3, 192 + ty.toNat * 8 + rnd.toNat * 2 + ftz.toNat, m)
  | .faFdot2 ty rnd ftz m => some (5, 3, 224 + ty.toNat * 8 + rnd.toNat * 2 + ftz.toNat, m)
  | .fbFadd ty rnd ftz m => some (6, 3, 0 + ty.toNat * 8 + rnd.toNat * 2 + ftz.toNat, m)
  | .fbFsub ty rnd ftz m => some (6, 3, 32 + ty.toNat * 8 + rnd.toNat * 2 + ftz.toNat, m)
  | .fbFmul ty rnd ftz m => some (6, 3, 64 + ty.toNat * 8 + rnd.toNat * 2 + ftz.toNat, m)
  | .fbFma ty rnd ftz m => some (6, 3, 96 + ty.toNat * 8 + rnd.toNat * 2 + ftz.toNat, m)
  | .fbFnma ty rnd ftz m => some (6, 3, 128 + ty.toNat * 8 + rnd.toNat * 2 + ftz.toNat, m)
  | .fbFmin ty rnd ftz m => some (6, 3, 160 + ty.toNat * 8 + rnd.toNat * 2 + ftz.toNat, m)
  | .fbFmax ty rnd ftz m => some (6, 3, 192 + ty.toNat * 8 + rnd.toNat * 2 + ftz.toNat, m)
  | .fbFdot2 ty rnd ftz m => some (6, 3, 224 + ty.toNat * 8 + rnd.toNat * 2 + ftz.toNat, m)
  | .cvCvt pair rnd sat m => some (7, 3, pair.toNat * 8 + rnd.toNat * 2 + sat.toNat, m)
  | .cvCvtFmTo fm rz m => some (7, 3, 0xC0 + fm.toNat * 2 + rz.toNat, m)
  | .cvCvtFmFrom fm m => some (7, 3, 0xE0 + fm.toNat * 2, m)
  | .cvFrint rnd ty m => some (7, 3, 0x90 + rnd.toNat * 4 + ty.toNat, m)
  | .cvFabs ty m => some (7, 3, 128 + ty.toNat, m)
  | .cvFneg ty m => some (7, 3, 132 + ty.toNat, m)
  | .cvFclass ty m => some (7, 3, 136 + ty.toNat, m)
  | .cvFrexp ty m => some (7, 3, 140 + ty.toNat, m)
  | .cvLdexp ty m => some (7, 3, 160 + ty.toNat, m)
  | .sfRcp ty m => some (8, 3, ty.toNat * 16 + 0, m)
  | .sfRsqrt ty m => some (8, 3, ty.toNat * 16 + 1, m)
  | .sfSqrt ty m => some (8, 3, ty.toNat * 16 + 2, m)
  | .sfExp2 ty m => some (8, 3, ty.toNat * 16 + 3, m)
  | .sfLog2 ty m => some (8, 3, ty.toNat * 16 + 4, m)
  | .sfSin ty m => some (8, 3, ty.toNat * 16 + 5, m)
  | .sfCos ty m => some (8, 3, ty.toNat * 16 + 6, m)
  | .sfTanh ty m => some (8, 3, ty.toNat * 16 + 7, m)
  | .sfDiv ty m => some (8, 3, ty.toNat * 16 + 8, m)
  | .laLd size sgn rt m => some (11, 3, 0 + size.toNat * 16 + sgn.toNat * 8 + rt.toNat * 2, m)
  | .laLdAcq size sgn rt m => some (11, 3, 64 + size.toNat * 16 + sgn.toNat * 8 + rt.toNat * 2, m)
  | .laLdAcqRem size sgn rt m => some (11, 3, 128 + size.toNat * 16 + sgn.toNat * 8 + rt.toNat * 2, m)
  | .laPf rt m => some (11, 3, 0xC0 + rt.toNat * 2, m)
  | .lbLd size sgn rt m => some (12, 3, 0 + size.toNat * 16 + sgn.toNat * 8 + rt.toNat * 2, m)
  | .lbLdAcq size sgn rt m => some (12, 3, 64 + size.toNat * 16 + sgn.toNat * 8 + rt.toNat * 2, m)
  | .lbLdAcqRem size sgn rt m => some (12, 3, 128 + size.toNat * 16 + sgn.toNat * 8 + rt.toNat * 2, m)
  | .lbPf rt m => some (12, 3, 0xC0 + rt.toNat * 2, m)
  | .stWb m => some (13, 3, 128, m)
  | .stInv m => some (13, 3, 129, m)
  | .stFlush m => some (13, 3, 130, m)
  | .stSt size rt m => some (13, 3, 0 + size.toNat * 16 + rt.toNat * 2, m)
  | .stStRel size rt m => some (13, 3, 64 + size.toNat * 16 + rt.toNat * 2, m)
  | .atAdd rem ord size m => some (14, 3, rem.toNat * 128 + ord.toNat * 32 + size.toNat * 16 + 0, m)
  | .atSub rem ord size m => some (14, 3, rem.toNat * 128 + ord.toNat * 32 + size.toNat * 16 + 1, m)
  | .atAnd rem ord size m => some (14, 3, rem.toNat * 128 + ord.toNat * 32 + size.toNat * 16 + 2, m)
  | .atOr rem ord size m => some (14, 3, rem.toNat * 128 + ord.toNat * 32 + size.toNat * 16 + 3, m)
  | .atXor rem ord size m => some (14, 3, rem.toNat * 128 + ord.toNat * 32 + size.toNat * 16 + 4, m)
  | .atMinS rem ord size m => some (14, 3, rem.toNat * 128 + ord.toNat * 32 + size.toNat * 16 + 5, m)
  | .atMinN rem ord size m => some (14, 3, rem.toNat * 128 + ord.toNat * 32 + size.toNat * 16 + 6, m)
  | .atMaxS rem ord size m => some (14, 3, rem.toNat * 128 + ord.toNat * 32 + size.toNat * 16 + 7, m)
  | .atMaxN rem ord size m => some (14, 3, rem.toNat * 128 + ord.toNat * 32 + size.toNat * 16 + 8, m)
  | .atXchg rem ord size m => some (14, 3, rem.toNat * 128 + ord.toNat * 32 + size.toNat * 16 + 9, m)
  | .atCas rem ord size m => some (14, 3, rem.toNat * 128 + ord.toNat * 32 + size.toNat * 16 + 10, m)
  | .atFaddF32 rem ord size m => some (14, 3, rem.toNat * 128 + ord.toNat * 32 + size.toNat * 16 + 11, m)
  | .atFaddBf16x2 rem ord size m => some (14, 3, rem.toNat * 128 + ord.toNat * 32 + size.toNat * 16 + 12, m)
  | .syFence m => some (16, 3, 48, m)
  | .syYield m => some (16, 3, 96, m)
  | .syRgrow m => some (16, 3, 160, m)
  | .syRshrink m => some (16, 3, 161, m)
  | .syClaim m => some (16, 3, 176, m)
  | .syUnclaim m => some (16, 3, 177, m)
  | .syRgn m => some (16, 3, 192, m)
  | .syBarArr bar m => some (16, 3, 0 + bar.toNat, m)
  | .syBarWait bar m => some (16, 3, 16 + bar.toNat, m)
  | .syBarSync bar m => some (16, 3, 32 + bar.toNat, m)
  | .syFset flag m => some (16, 3, 64 + flag.toNat, m)
  | .syFclr flag m => some (16, 3, 80 + flag.toNat, m)
  | .syYieldc flag m => some (16, 3, 112 + flag.toNat, m)
  | .syRacq ring m => some (16, 3, 128 + ring.toNat, m)
  | .syRcom ring m => some (16, 3, 136 + ring.toNat, m)
  | .syRwait ring m => some (16, 3, 144 + ring.toNat, m)
  | .syRrel ring m => some (16, 3, 152 + ring.toNat, m)
  | .mxZero m => some (17, 3, 32, m)
  | .mxDrain m => some (17, 3, 48, m)
  | .mxAload m => some (17, 3, 64, m)
  | .mxFmt m => some (17, 3, 80, m)
  | .mxStat m => some (17, 3, 96, m)
  | .mxBload bank m => some (17, 3, 0 + bank.toNat, m)
  | .mxMma bank m => some (17, 3, 16 + bank.toNat, m)
  | .mxMmap bank m => some (17, 3, 18 + bank.toNat, m)
  | .recall _ => none
  | .idle _ => none
  | .bundleIssue _ => none
  | .fetchLineFill _ _ => none
  | .fixedResultLand _ _ => none
  | .cmPredicateLand _ => none
  | .idleCountEnd _ => none
  | .xlBusyEnd _ => none
  | .yieldEnd _ => none
  | .yieldcResume _ => none
  | .sfComplete _ => none
  | .xlLaneOpComplete _ => none
  | .wideRegOpComplete _ => none
  | .loadComplete _ => none
  | .atomicComplete _ => none
  | .storePerformed _ => none
  | .fenceComplete _ => none
  | .trapRouteU _ => none
  | .trapRouteS _ => none
  | .trapRouteH _ => none
  | .handlerReturn _ => none
  | .qnotify _ _ => none
  | .queueEnable _ _ _ => none
  | .queueDisable _ _ => none
  | .pktNop _ _ => none
  | .pktSignal _ _ => none
  | .pktWaitval _ _ => none
  | .waitvalRecheck _ _ => none
  | .pktLaunch _ _ => none
  | .pktLoop _ _ => none
  | .gangPlace _ _ => none
  | .packetComplete _ _ _ => none
  | .gangEnd _ => none
  | .flockAbort _ => none
  | .teamEvict _ => none
  | .teamRestore _ => none
  | .preemptRequest _ => none
  | .teamFreeze _ => none
  | .gangSaveComplete _ => none
  | .gangRestore _ _ => none
  | .sectorFill _ _ _ => none
  | .smapBind _ _ _ => none
  | .smapUnbind _ _ _ => none
  | .mirrorSelWrite _ _ => none
  | .homeRequest _ _ _ _ _ => none
  | .pageWalk _ _ _ _ => none
  | .accessCount _ _ _ _ => none
  | .xlateInv _ _ => none
  | .xlateInvComplete _ => none
  | .l2StageWrite _ _ _ => none
  | .l2StageChangeDone _ _ => none
  | .dlogCtlWrite _ _ => none
  | .migqCtlWrite _ _ => none
  | .regionTableWrite _ _ _ => none
  | .engineOpStart _ _ => none
  | .copyComplete _ _ => none
  | .mxFormatBlockRead _ _ => none
  | .mxDispatch _ => none
  | .mxOpComplete _ _ => none
  | .mxBloadComplete _ _ => none
  | .nxPacketSend _ _ => none
  | .nxPacketArrive _ => none
  | .nxAckReceive _ _ _ _ _ => none
  | .nxRetransmitTimeout _ _ _ => none
  | .nxOpComplete _ _ => none
  | .landingCount _ _ _ => none
  | .remoteAccess _ _ => none
  | .ethLinkDown _ => none
  | .flitReceive _ _ => none
  | .nakReceive _ _ => none
  | .errorWindowClose _ _ => none
  | .linkRetrainEnd _ => none
  | .lumenPortDown _ => none
  | .mgmtCsrRequest _ _ _ _ => none
  | .ctrlResumeTeam _ _ => none
  | .keyLoad _ _ _ => none
  | .devIdWrite _ => none
  | .attestationRequest _ => none
  | .powerOnReset => none
  | .firmwareImageReceive _ _ => none
  | .stopRequest _ _ => none
  | .snapshotLatch _ => none
  | .sampleRecord _ => none
  | .mxcCtlClr _ => none
  | .eccCorrectedError _ _ _ _ => none
  | .eccWindowClose _ _ _ _ => none
  | .islandFloorWrite _ _ _ => none
  | .islandStateChange _ _ => none
  | .powerWindowEnd _ => none
  | .thermalSample _ _ _ => none
  | .registerWrite _ _ _ _ => none
  | .svOpComplete _ => none
  | .claimComplete _ => none
  | .watchdogExpiry _ => none
  | .packagePowerOff => none
  | .measurementExtend _ _ => none

/-- The bytes of an instruction that has an encoding; the events of the table have none. -/
def encode (i : Instr) : List Byte :=
  match i with
  | .recall idx => parcelBytes (BitVec.ofNat 16 (0x4000 + idx.toNat))
  | .idle n => parcelBytes (BitVec.ofNat 16 (0xC000 + n.toNat))
  | .bundleIssue b =>
    parcelBytes b.header ++ (if fld b.header.toNat 15 14 = 2 then itemBytes b.ext else []) ++ itemsBytes b.sylls ++
      (if fld b.header.toNat 7 7 = 1 then itemBytes b.limm else [])
  | _ =>
    match destOf i with
    | some (u, p, o, m) => parcelBytes 0x0100 ++ itemBytes (syllable true u p o m)
    | none => []

/-- The bytes of a table row's word: a one-parcel form as it stands; a syllable as the last and only syllable (STOP 1)
of a plain bundle with slot 0 (header 0x0100). -/
def tableBytes (nbits w : Nat) : List Byte :=
  if nbits = 16 then parcelBytes (BitVec.ofNat 16 w)
  else parcelBytes 0x0100 ++ itemBytes (BitVec.ofNat 32 (w % 2 ^ 31 + 2 ^ 31))

/-- The instruction the decoder reads from a row's word, numbered as the opcode table numbers its bits. -/
noncomputable def decodeTableWord (nbits w : Nat) : Option Instr := decoded (tableBytes nbits w)

end Sys2Proof
end

