-- ==== Sys2Proof/Machine/Bits.lean ====
section
/-! DEFINITION. Tables by number, sets of lanes, values by lane, and bytes: the small operations every other file of
the machine uses. -/

namespace Sys2Proof.Machine

/-- The entry at key `k`, if listed. -/
def Tbl.find {α : Type} : Tbl α → Nat → Option α
  | [], _ => none
  | (j, v) :: r, k => if j = k then some v else Tbl.find r k

/-- The entry at key `k`, or `d` when the key is absent. -/
def Tbl.get {α : Type} (t : Tbl α) (k : Nat) (d : α) : α := (Tbl.find t k).getD d

/-- The table with `v` at key `k`, keys rising. -/
def Tbl.put {α : Type} : Tbl α → Nat → α → Tbl α
  | [], k, v => [(k, v)]
  | (j, w) :: r, k, v =>
    if k < j then (k, v) :: (j, w) :: r else if k = j then (k, v) :: r else (j, w) :: Tbl.put r k v

/-- The table without key `k`. -/
def Tbl.drop {α : Type} : Tbl α → Nat → Tbl α
  | [], _ => []
  | (j, w) :: r, k => if j = k then r else (j, w) :: Tbl.drop r k

/-- The table with the entry at `k` changed by `f`, `d` standing for an absent entry. -/
def Tbl.upd {α : Type} (t : Tbl α) (k : Nat) (d : α) (f : α → α) : Tbl α := Tbl.put t k (f (Tbl.get t k d))

/-- The lanes below `n`. -/
def allLanes (n : Nat) : Lanes := BitVec.ofNat 1024 (2 ^ n - 1)

/-- Whether lane `l` is in the set. -/
def Lanes.has (m : Lanes) (l : Nat) : Bool := m.getLsbD l

/-- The lanes of a set, in ascending order. -/
def Lanes.list (m : Lanes) (n : Nat) : List Nat := (List.range n).filter (fun l => m.getLsbD l)

/-- The lowest lane of a set. -/
def Lanes.low (m : Lanes) (n : Nat) : Nat := ((List.range n).find? (fun l => m.getLsbD l)).getD 0

/-- The set of the lanes below `n` that satisfy `f`. -/
def Lanes.of (n : Nat) (f : Nat → Bool) : Lanes :=
  (List.range n).foldl (fun acc l => if f l then acc ||| BitVec.ofNat 1024 (2 ^ l) else acc) 0

/-- How many lanes below `n` a set holds. -/
def Lanes.count (m : Lanes) (n : Nat) : Nat := (Lanes.list m n).length

/-- Mask word `w`: lanes 32w to 32w + 31 (R144). -/
def Lanes.word (m : Lanes) (w : Nat) : W32 := m.extractLsb' (32 * w) 32

/-- The lanes of mask word `w` alone. -/
def Lanes.only (m : Lanes) (w : Nat) : Lanes := m &&& BitVec.ofNat 1024 ((2 ^ 32 - 1) * 2 ^ (32 * w))

/-- The mask words below `n` lanes that are not empty: a bundle's passes (R145). -/
def Lanes.passes (m : Lanes) (n : Nat) : List Nat :=
  (List.range ((n + 31) / 32)).filter (fun w => Lanes.word m w != 0)

/-- The value on lane `l`. -/
def Vals.at (v : Vals) (l : Nat) : W64 := v.getD l 0

/-- The values below `n` lanes with those of `m` replaced by `f` (R25: the other lanes keep theirs). -/
def Vals.merge (n : Nat) (m : Lanes) (f : Nat → W64) (old : Vals) : Vals :=
  (List.range n).map (fun l => if m.getLsbD l then f l else old.getD l 0)

/-- A truth value as 0 or 1. -/
def b2n (b : Bool) : Nat := if b then 1 else 0

/-- A truth value as a 64-bit word. -/
def b2w (b : Bool) : W64 := if b then 1 else 0

/-- Bits hi:lo of a number. -/
def bits (x hi lo : Nat) : Nat := x / 2 ^ lo % 2 ^ (hi + 1 - lo)

/-- Bit i of a number. -/
def bit (x i : Nat) : Bool := x.testBit i

/-- Bits 31:0 of a 64-bit value (R11). -/
def lo32 (x : W64) : W32 := x.truncate 32

/-- A 32-bit value zero-extended (R11). -/
def zx (x : W32) : W64 := x.zeroExtend 64

/-- A 32-bit value sign-extended. -/
def sx (x : W32) : W64 := x.signExtend 64

/-- The lowest `n` bits of `x` sign-extended to 64 bits. -/
def sextN (n : Nat) (x : Nat) : W64 := BitVec.ofInt 64 (BitVec.ofNat n x).toInt

/-- Little-endian bytes of a number (R4). -/
def bytesOf : Nat → Nat → List Byte
  | 0, _ => []
  | n + 1, x => BitVec.ofNat 8 x :: bytesOf n (x / 256)

/-- The number whose little-endian bytes are given (R4). -/
def natOf : List Byte → Nat
  | [] => 0
  | b :: r => b.toNat + 256 * natOf r

/-- `n` bytes from offset `i` of a byte list, as a number (R4); bytes past the end read 0. -/
def field (bs : List Byte) (i n : Nat) : Nat := natOf ((bs.drop i).take n)

/-- x rounded up to a multiple of `m`. -/
def roundUp (x m : Nat) : Nat := (x + m - 1) / m * m

/-- Two byte intervals, both ends included, have a byte in common. -/
def overlap (a b c d : Nat) : Bool := a ≤ d && c ≤ b

/-- Bits `mask` of `new`, the others of `old`: a register write under R6. -/
def wmask (old new mask : W64) : W64 := (old &&& ~~~mask) ||| (new &&& mask)

/-- A list without its first element that satisfies `p`. -/
def eraseOne {α : Type} (p : α → Bool) : List α → List α
  | [] => []
  | x :: r => if p x then r else x :: eraseOne p r


end Sys2Proof.Machine
end

