-- ==== Sys2Proof/Config.lean ====
section
/-! DEFINITION. What an implementation or the world outside the device fixes and the spec does not: constants and
functions with no body, so that nothing can be proved of their values. Each is named in the assumption log. -/

namespace Sys2Proof.Config

/-- The GiB of LPDDR-6 installed on a die (R224, R239: up to 256). -/
opaque farGiB : Nat → Nat

/-- The hash of physical address bits 56:12 that chooses a home slice (R221: fixed for a stepping, not architectural). -/
opaque sliceHash : Nat → BitVec 5

/-- SHAKE256 with 64 bytes of output (R447): a standard outside the spec. -/
opaque shake256 : List Byte → List Byte

/-- Whether an ML-DSA-65 signature verifies over a digest against the fused vendor key (R447). -/
opaque mldsaVerify : List Byte → List Byte → Bool

/-- The ML-DSA-65 signature of a digest with the fused identity key (R448). -/
opaque mldsaSign : List Byte → List Byte

/-- AES-256-GCM of a plaintext under a key, a nonce and additional data: the ciphertext followed by the tag (R397). -/
opaque aesGcm : BitVec 256 → List Byte → List Byte → List Byte → List Byte

/-- The physical address at which the boot ROM places a section of a firmware image (R78, R447): image and section. -/
opaque sectionBase : List Byte → Nat → Nat

/-- The lane split that firmware sets on an I/O die at boot (R420): 0 for 2 × 1.6T, 1 for 4 × 800G, 2 for 8 × 400G. -/
opaque ethSplit : Nat → Nat

/-- The fabric address of a device (R421), to which a refusal of traffic for an invalid entry goes. -/
opaque fabricOf : Nat → BitVec 128

/-- SLICE_LAT words as firmware sets them at boot (R223): fold, index. -/
opaque sliceLat : Nat → Nat → W64

/-- The channel group of a near-memory address's 1 KiB block: die and block (R224: a hash that is not architectural). -/
opaque nearGroup : Nat → Nat → BitVec 4

/-- The spare lines or rows of an instance of an array class (R399): class, instance. -/
opaque eccSpares : Nat → Nat → Nat

/-- What another device holds at an address when an engine, a walk or a fetch reads it (R140, R428): device, address and
the clock of this package. -/
opaque remoteByte : Nat → Nat → Nat → Byte

/-- What another device does with an element of an engine, a fill or a write-back (R428): 1 it refuses it, 2 it stays
unreachable, otherwise it performs it. Device, address and the clock of this package. -/
opaque remoteFate : Nat → Nat → Nat → BitVec 2

/-- Values that the spec leaves open, one for each count of the model's counter of them. -/
opaque freeValue : Nat → W64

end Sys2Proof.Config
end

