-- ==== Sys2Proof/Machine/Mem.lean ====
section
/-! DEFINITION. Memory: one list of (address, byte) pairs in canonical form, for the package's physical space (R239)
and, at keys above it, for the spaces that have no physical address: the control node's memory, the scratchpads
(R211), the wide registers (R157), the accumulator stores (R218), the weight banks (R319) and the staging stores
(R222). A byte that nothing has written reads 0, as boot step 5 leaves the memories (R447). -/

namespace Sys2Proof.Machine

/-- What an unlisted address reads as (R447 step 5: boot clears memories). -/
def Memory.unlisted : Byte := 0

/-- Canonical form from a lowest allowed address: addresses strictly rise and no byte is the unlisted one. -/
def Memory.okFrom : Nat → List Host.Cell → Bool
  | _, [] => true
  | k, (a, b) :: r => decide (k ≤ a) && b != Memory.unlisted && Memory.okFrom (a + 1) r

/-- The canonical form of a memory. -/
def Memory.wf (m : List Host.Cell) : Bool := Memory.okFrom 0 m

/-- The byte at an address. -/
def Memory.read : List Host.Cell → Nat → Byte
  | [], _ => Memory.unlisted
  | (a, b) :: r, k => if a = k then b else if k < a then Memory.unlisted else Memory.read r k

/-- The memory with byte `v` at address `k`, in canonical form. -/
def Memory.write : List Host.Cell → Nat → Byte → List Host.Cell
  | [], k, v => if v = Memory.unlisted then [] else [(k, v)]
  | (a, b) :: r, k, v =>
    if a < k then (a, b) :: Memory.write r k v
    else if a = k then (if v = Memory.unlisted then r else (k, v) :: r)
    else if v = Memory.unlisted then (a, b) :: r else (k, v) :: (a, b) :: r

/-- `n` bytes from an address upward. -/
def Memory.readN (m : List Host.Cell) (k : Nat) : Nat → List Byte
  | 0 => []
  | n + 1 => Memory.read m k :: Memory.readN m (k + 1) n

/-- Consecutive bytes written from an address upward. -/
def Memory.writeN (m : List Host.Cell) (k : Nat) : List Byte → List Host.Cell
  | [] => m
  | b :: r => Memory.writeN (Memory.write m k b) (k + 1) r

/-- `n` bytes of zero written from an address upward: what lay there is dropped. -/
def Memory.clear (m : List Host.Cell) (k n : Nat) : List Host.Cell := m.filter (fun c => c.1 < k || k + n ≤ c.1)

/-- The base of a die's near memory (R239). -/
def nearBase (d : Nat) : Nat := d * 2 ^ 36
/-- The base of a die's far memory (R239). -/
def farBase (d : Nat) : Nat := 2 ^ 44 + d * 2 ^ 38

/-- The die that homes a physical address (R221, R239). -/
def homeDie (p : Nat) : Nat := if p < 2 ^ 44 then p / 2 ^ 36 % 4 else (p - 2 ^ 44) / 2 ^ 38 % 4

/-- Whether a memory key is a physical address of the package, whose words a home tracks (R221). -/
def tracked (key : Nat) : Bool := decide (key < 2 ^ 48)

/-- The key of a control-node address (R239). -/
def Memory.hostKey (a : Nat) : Nat := 2 ^ 52 + a % 2 ^ 48

/-- What tags L1's copies of another device's bytes (R140, R219): no byte of this model's memory lies there. -/
def Memory.remoteTag (dev a : Nat) : Nat := 2 ^ 64 + dev * 2 ^ 48 + a % 2 ^ 48

/-- The key of a scratchpad byte: 1 MiB a fold (R178). -/
def Memory.spmKey (fold off : Nat) : Nat := 2 ^ 53 + fold * 2 ^ 20 + off

/-- The key of a wide-register byte: the window of R217, by gang and half. -/
def Memory.wideKey (gang half off : Nat) : Nat := 2 ^ 60 + (2 * gang + half) * 2 ^ 15 + off

/-- The key of a byte of a fold's accumulator store (R218). -/
def Memory.accKey (fold off : Nat) : Nat := 2 ^ 54 + fold * 2 ^ 18 + off

/-- The key of a byte of a weight bank: row k, element n of ES + 1 bytes (R319). -/
def Memory.bankKey (fold bank off : Nat) : Nat := 2 ^ 55 + (2 * fold + bank) * 2 ^ 14 + off

/-- The key of a byte of a slice's staging store (R222, R297). -/
def Memory.stageKey (die slice off : Nat) : Nat := 2 ^ 56 + (32 * die + slice) * 2 ^ 23 + off

/-- A little-endian number of `n` bytes (R4). -/
def State.rd (s : State) (k n : Nat) : Nat := natOf (Memory.readN s.mem k n)

/-- A little-endian number of `n` bytes stored (R4). -/
def State.wr (s : State) (k n v : Nat) : State := { s with mem := Memory.writeN s.mem k (bytesOf n v) }

end Sys2Proof.Machine
end

