-- ==== Sys2Proof/Machine/Ops.lean ====
section
/-! DEFINITION. The named operations over the state: contexts, units and their completions, notices and records, taking
a trap on each route and returning from one (R350 to R359, R450), eret's resumption. -/

namespace Sys2Proof.Machine

/-- What a meaning answers. -/
abbrev Out3 := Host.Outcome State Fault Refusal

namespace U
def rf : Nat := 0
def ia : Nat := 1
def ib : Nat := 2
def sh : Nat := 3
def im : Nat := 4
def fa : Nat := 5
def fb : Nat := 6
def cv : Nat := 7
def sf : Nat := 8
def cm : Nat := 9
def xl : Nat := 10
def la : Nat := 11
def lb : Nat := 12
def st : Nat := 13
def at_ : Nat := 14
def br : Nat := 15
def sy : Nat := 16
def mx : Nat := 17
def cp : Nat := 18
def nx : Nat := 19
def sv : Nat := 20
def ua : Nat := 21
end U

/-- The code of a unit (R13). -/
def unitCode : UnitId → Nat
  | .rf => 0 | .ia => 1 | .ib => 2 | .sh => 3 | .im => 4 | .fa => 5 | .fb => 6 | .cv => 7 | .sf => 8 | .cm => 9
  | .xl => 10 | .la => 11 | .lb => 12 | .st => 13 | .at => 14 | .br => 15 | .sy => 16 | .mx => 17 | .cp => 18
  | .nx => 19 | .sv => 20 | .ua => 21

/-- Whether a unit has a variable-latency R (R13, R18). -/
def isVar (u : Nat) : Bool := u == 8 || (10 ≤ u && u ≤ 12) || u == 14 || (16 ≤ u && u ≤ 20)

/-- The latency of a fixed-latency unit (R13). -/
def fixedLat (u : Nat) : Nat :=
  match u with
  | 1 => 1 | 2 => 1 | 3 => 1 | 4 => 5 | 5 => 4 | 6 => 4 | 7 => 2 | 9 => 1 | 21 => 1
  | _ => 0

/-- The table key of a context. -/
def CtxId.key (c : CtxId) : Nat := c.fold * 64 + c.slot

/-- The context of a table key. -/
def ctxOfKey (k : Nat) : CtxId := { fold := k / 64, slot := k % 64 }

def State.ctx (s : State) (c : CtxId) : Option Ctx := Tbl.find s.ctxs (CtxId.key c)
def State.setCtx (s : State) (c : CtxId) (x : Ctx) : State := { s with ctxs := Tbl.put s.ctxs (CtxId.key c) x }
def State.dropCtx (s : State) (c : CtxId) : State := { s with ctxs := Tbl.drop s.ctxs (CtxId.key c) }

/-- The state with a resident context changed; nothing happens when the slot is empty. -/
def State.modCtx (s : State) (c : CtxId) (f : Ctx → Ctx) : State :=
  match s.ctx c with
  | none => s
  | some x => s.setCtx c (f x)

/-- A fold that nothing has happened to. -/
def Fold.fresh : Fold :=
  { cycle := 0, phase := 9, rot := 0, pass := none, widePath := 0, watch := [], preemptReserve := 0, stallFold := [], brk := [], stopCtl := 0,
    sampCtl := 0, snapSeq := 0, snapTag := 0, snapTb := 0, snapStall := [], snapMxc := [], snapReq := [],
    sliceLat := [], events := [], eventLost := false, recordLost := false, mirrors := [],
    locks := [], lockSeq := 0, eng := [], nextEng := 1, bankValid := [], mxHist := [], mxc := [], mxcOvf := [],
    held := [], growQ := [], dlog := none, samples := [], l1 := [], l1Off := 0 }

/-- A die at reset (every register at the value its rule gives). -/
def Die.fresh : Die :=
  { queues := [], packets := [], flockCtr := 0, rot := 0, qroot := [], sroot := 0, stripeBase := 0, migThresh := 256,
    migqBase := 0, migqCtl := 0, migqRidx := 0, dlogBase := 0, dlogCtl := 0, dlogRidx := 0, counts := [], tlb := [], used := [],
    invs := [], l2Stage := [], l2 := [], l2Off := [], eccBad := [], rdir := [], rdirDegraded := [], rdirLine := [], nmXref := [], regions := [],
    traceCtl := 0, qkey := [], keys := [], unitCtr := 0, eccCtl := 0x3E804, eccCe := [], eccRet := [], eccLocs := [], eccUsed := [],
    islFloor := [], islands := [], thermStat := 0, thermHold := 0, landing := [], watches := [], evicted := [], saved := [],
    restores := [], dead := false }

/-- A queue at reset (R164: every entry reads 0). -/
def Queue.fresh : Queue :=
  { ent0 := 0, ent1 := 0, ent2 := 0, ent3 := 0, ridx := 0, widx := 0, passOver := 0, effPrio := 0, stuck := false,
    needRidx := false, afterWait := false }

def State.fold (s : State) (f : Nat) : Fold := Tbl.get s.folds f Fold.fresh
def State.setFold (s : State) (f : Nat) (x : Fold) : State := { s with folds := Tbl.put s.folds f x }
def State.modFold (s : State) (f : Nat) (g : Fold → Fold) : State := s.setFold f (g (s.fold f))
def State.die (s : State) (d : Nat) : Die := Tbl.get s.dies d Die.fresh
def State.setDie (s : State) (d : Nat) (x : Die) : State := { s with dies := Tbl.put s.dies d x }
def State.modDie (s : State) (d : Nat) (g : Die → Die) : State := s.setDie d (g (s.die d))
def State.gang (s : State) (g : Nat) : Option Gang := Tbl.find s.gangs g
def State.setGang (s : State) (g : Nat) (x : Gang) : State := { s with gangs := Tbl.put s.gangs g x }
def State.modGang (s : State) (g : Nat) (f : Gang → Gang) : State :=
  match s.gang g with
  | none => s
  | some x => s.setGang g (f x)
def State.setPkg (s : State) (p : Pkg) : State := { s with pkg := p }

/-- Whether the dies run (R447). -/
def State.running (s : State) : Bool := s.pkg.boot == .running

/-- The die of a fold (R181). -/
def dieOf (fold : Nat) : Nat := fold / 96

/-- The fold that takes a notice which concerns a die and no single fold (R354): the lowest-numbered whose island is not
Off. -/
def State.firstFold (s : State) (die : Nat) : Nat :=
  96 * die + ((List.range 96).find? (fun i => Tbl.get (s.die die).islands i 0 != 7)).getD 0

/-- The partner fold of a fold pair (R181). -/
def partner (fold : Nat) : Nat := if fold % 2 = 0 then fold + 1 else fold - 1

/-- TIMEBASE: 100 MHz ticks, 36 cycles of the fold clock at Full each (R385, R442). -/
def State.timebase (s : State) : Nat := s.pkg.clk / 36 % 2 ^ 48

/-- TIMEBASE ticks of 10 ns since power-on, without its wrap (R385). -/
def State.ticks (s : State) : Nat := s.pkg.clk / 36

/-- The half of its gang that a fold holds: 0 on the only or even fold, 1 on the odd fold of a pair (R177). -/
def Gang.half (g : Gang) (fold : Nat) : Nat := if g.block.pair && fold % 2 == 1 then 1 else 0

/-- The contexts of a fold, by slot. -/
def State.onFold (s : State) (f : Nat) : List (Nat × Ctx) :=
  (s.ctxs.filter (fun kv => kv.1 / 64 == f)).map (fun kv => (kv.1 % 64, kv.2))

/-- Whether a context runs teams' rules (a shadow context belongs to no gang, R371). -/
def Ctx.inh (c : Ctx) : Bool := c.tstatus.getLsbD 8

/-! ## Units and completions (R18 to R20, R39) -/

def UnitState.unit (us : UnitState) (u : Nat) : UPorts := Tbl.get us.units u UPorts.fresh
def UnitState.setUnit (us : UnitState) (u : Nat) (p : UPorts) : UnitState := { us with units := Tbl.put us.units u p }

/-- Flag fj (R21). -/
def UnitState.flag (us : UnitState) (j : Nat) : Bool := us.flags.getLsbD j

/-- The flags with fj written. -/
def UnitState.setFlag (us : UnitState) (j : Nat) (v : Bool) : UnitState :=
  { us with flags := if v then us.flags ||| BitVec.ofNat 12 (2 ^ j) else us.flags &&& ~~~BitVec.ofNat 12 (2 ^ j) }

/-- The flags that operation `uid` owns read 1, and it owns them no longer (R20, R39). -/
def UnitState.flagsDone (us : UnitState) (uid : Nat) : UnitState :=
  let mine := us.owners.filter (fun kv => kv.2 == uid)
  { mine.foldl (fun u kv => u.setFlag kv.1 true) us with owners := us.owners.filter (fun kv => kv.2 != uid) }

/-- Operation `uid` of unit `u` completes: if it is the unit's latest, R fills on the lanes of `mask` that hold no token
and keeps the fault record given (R18, R19, R141); the flags it owns read 1 (R20). -/
def UnitState.finish (us : UnitState) (n u uid : Nat) (mask : Lanes) (f : Nat → W64) (fr : Option FaultRec) :
    UnitState :=
  let p := us.unit u
  let us1 :=
    if p.last = uid ∧ p.full = false then
      let tok : Lanes := match fr with
        | some x => x.lanes
        | none => 0
      us.setUnit u { p with full := true, r := Vals.merge n (mask &&& ~~~tok) f p.r, frec := fr }
    else us
  us1.flagsDone uid

/-- Wake a context that waits on a port, a flag or a fence: it tries its bundle again. -/
def Wait.woken : Wait → Wait
  | .port _ => .ready
  | .flag => .ready
  | .fetch => .ready
  | .xlPath => .ready
  | w => w

/-- The wait of a context that may try its bundle again; a Frozen team keeps the wait it was frozen in (R200, R377). -/
def Ctx.wake (c : Ctx) : Wait := if c.frozen then c.wait else c.wait.woken

/-- The completion of an operation reaches the unit state in force and the frame (R355); only the one that holds the
operation changes. Lanes that have retired take nothing (R99). -/
def Ctx.finish (c : Ctx) (u uid : Nat) (mask : Lanes) (f : Nat → W64) (fr : Option FaultRec) : Ctx :=
  let m := mask &&& c.live
  { c with
    us := c.us.finish c.nlanes u uid m f fr
    frame := c.frame.map (fun x => x.finish c.nlanes u uid m f fr)
    wait := c.wake }

/-- An operation refills R with its earlier contents (R133, R160, R186). -/
def Ctx.finishKeep (c : Ctx) (u uid : Nat) : Ctx := c.finish u uid 0 (fun _ => 0) none

/-- Whether the unit still waits for operation `uid`, in force or in the frame (R19). -/
def Ctx.latest (c : Ctx) (u uid : Nat) : Bool :=
  ((c.us.unit u).last == uid) || (match c.frame with | some f => (f.unit u).last == uid | none => false)

/-- All contexts of a fold that wait on a port try again. -/
def State.wakeFold (s : State) (f : Nat) : State :=
  { s with ctxs := s.ctxs.map (fun kv => if kv.1 / 64 == f then (kv.1, { kv.2 with wait := kv.2.wake }) else kv) }

/-- A trap of the team's own bundles that is due before its next bundle (R450). -/
def Ctx.addDue (c : Ctx) (d : DueTrap) : Ctx := { c with due := c.due ++ [d] }

/-- A due trap with its code and bundle alone. -/
def DueTrap.of (code : BitVec 7) (bundle cycle : W64) : DueTrap :=
  { code := code, sub := 0, srcUnit := 0, pc := none, bundle := some (bundle, cycle), lanes := none, addr := none,
    emu := none, own := true, held := false, toShadow := false }

/-- An asynchronous request (R357, R368). -/
def DueTrap.async (code : BitVec 7) : DueTrap :=
  { code := code, sub := 0, srcUnit := 0, pc := none, bundle := none, lanes := none, addr := none, emu := none,
    own := false, held := false, toShadow := false }

/-! ## The cause table (R368) -/

/-- The routes of R354. -/
inductive Route where
  | user | shadow | host
deriving DecidableEq, Repr

/-- The default route of a cause (R368); C_POISONED and C_SFBFULL take that of their subcause. -/
def routeOf (code : BitVec 7) : Route :=
  let n := code.toNat
  if n ∈ [0x0A, 0x0B, 0x0C, 0x0F, 0x1A, 0x20, 0x21, 0x22, 0x23, 0x24, 0x25, 0x2B, 0x2C, 0x35, 0x3B, 0x3F, 0x41, 0x4C,
      0x4D, 0x51, 0x53, 0x55, 0x56] then .shadow
  else if n ∈ [0x0E, 0x30, 0x31, 0x32, 0x33, 0x34, 0x37, 0x3D, 0x40, 0x42, 0x43, 0x44, 0x45, 0x46, 0x47, 0x54, 0x57,
      0x58, 0x59, 0x5A, 0x5B, 0x5C, 0x5D, 0x5E, 0x5F] then .host
  else .user

/-- Whether resuming at TRAP_PC continues the program (R368: not for the causes marked no). -/
def resumable (code : BitVec 7) : Bool :=
  !(code.toNat ∈ [0x01, 0x03, 0x04, 0x06, 0x08, 0x09, 0x0E, 0x11, 0x17, 0x26, 0x27, 0x2A, 0x2D, 0x2E, 0x30, 0x31, 0x36, 0x39, 0x3A,
      0x3C, 0x41, 0x48, 0x49, 0x4A, 0x4E, 0x4F, 0x55, 0x58, 0x59, 0x5A, 0x5F])

/-- The route of a due trap before any redirection. -/
def DueTrap.route (d : DueTrap) : Route :=
  if d.code = 0x10 ∨ d.code = 0x18 then routeOf d.sub
  else if d.code = 0x29 then (if d.toShadow then .shadow else .user)
  else routeOf d.code

/-! ## Events, notices and records (R358, R359, R391, R396, R397, R429) -/

/-- An event word (R358). -/
def eventWord (code sub : BitVec 7) (slot : Nat) (noTeam exited : Bool) (data : Nat) : W64 :=
  BitVec.ofNat 64 (data % 2 ^ 41 * 2 ^ 23 + sub.toNat * 2 ^ 16 + b2n exited * 2 ^ 14 + b2n noTeam * 2 ^ 13 +
    slot % 32 * 2 ^ 8 + code.toNat)

/-- Whether an event word concerns no team. -/
def EventWord.noTeam (e : EventWord) : Bool := e.getLsbD 13

/-- An event joins a fold's queue: one place for each team slot and 32 for events without a team; one of the latter that
finds no place is dropped and LOST is set in the next event delivered (R358). -/
def State.pushEvent (s : State) (fold : Nat) (e : EventWord) : State :=
  s.modFold fold (fun f =>
    if EventWord.noTeam e && 32 ≤ (f.events.filter EventWord.noTeam).length then { f with eventLost := true }
    else { f with events := f.events ++ [if f.eventLost then e ||| 0x8000 else e], eventLost := false })

/-- A notice record leaves for the control node (R429); `c` gives the team's registers. -/
def State.notice (s : State) (e : W64) (fold : Option Nat) (c : Option Ctx) (addr : W64) : State :=
  let r (f : Ctx → W64) : W64 := match c with
    | some x => f x
    | none => 0
  let n : Notice :=
    { event := e, dev := s.pkg.devId,
      fold := match fold with | some f => BitVec.ofNat 16 f | none => 0xFFFF,
      flock := match c with | some x => x.flock | none => 0,
      trapPc := r Ctx.trapPc, faultBundle := r Ctx.faultBundle, faultAddr := addr, faultCycle := r Ctx.faultCycle,
      timebase := BitVec.ofNat 64 s.timebase, seq := BitVec.ofNat 64 s.pkg.noticeSeq }
  { s with pkg := { s.pkg with out := s.pkg.out ++ [.notice n], noticeSeq := s.pkg.noticeSeq + 1 } }

/-- A notice that concerns no team and no fold (R354, R368). -/
def State.dieNotice (s : State) (code : BitVec 7) (data : Nat) (addr : W64) : State :=
  s.notice (eventWord code 0 0 true false data) none none addr

/-- A 32-byte stop, sample or snapshot record (R391). -/
def recordBytes (kind : Nat) (lost noTeam : Bool) (fold slot code : Nat) (bundle : W64) (sched : Nat) (flock : W32)
    (tb : Nat) : List Byte :=
  bytesOf 1 kind ++ bytesOf 1 (b2n lost + 2 * b2n noTeam) ++ bytesOf 2 fold ++ bytesOf 1 slot ++ bytesOf 1 code ++
    bytesOf 2 0 ++ bytesOf 8 bundle.toNat ++ bytesOf 8 (sched % 2 ^ 48) ++ bytesOf 4 flock.toNat ++
    bytesOf 4 (tb % 2 ^ 32)

/-- A record leaves the die over the trace channel when the die's trace is on and emits the kind (R396): in clear, or as an
encrypted unit for a team of a confidential flock (R397). It is dropped when the channel is busy or the port is down. -/
def State.emitRecordAt (s : State) (fold kind slot code : Nat) (noTeam : Bool) (bundle : W64) (sched : Nat) (flock : W32)
    (conf : Bool) (queue tb : Nat) : State :=
  let d := dieOf fold
  let die := s.die d
  let want := die.traceCtl.getLsbD 0 && die.traceCtl.getLsbD (1 + kind)
  if !want then s
  else if !s.pkg.lumenUp || s.pkg.traceBusy then
    (s.modDie d (fun x => { x with traceCtl := x.traceCtl ||| 0x10 })).modFold fold
      (fun x => { x with recordLost := true })
  else
    let r := recordBytes kind (s.fold fold).recordLost noTeam fold slot code bundle sched flock tb
    let s1 := s.modFold fold (fun x => { x with recordLost := false })
    if !conf then { s1 with pkg := { s1.pkg with out := s1.pkg.out ++ [.trace r] } }
    else
      let q := Tbl.get die.qkey queue 0
      let keyId := bits q.toNat 7 0
      match Tbl.find die.keys keyId with
      | none => s.dieNotice 0x5E 0 0
      | some key =>
        if die.unitCtr ≥ 2 ^ 64 then s
        else
          let head := bytesOf 1 0x80 ++ bytesOf 1 keyId ++ bytesOf 2 0 ++ bytesOf 4 (s.pkg.devId.toNat * 4 + d) ++
            bytesOf 8 die.unitCtr
          let unit := head ++ Config.aesGcm key (head.drop 4) (head.take 16) r
          let s2 := s1.modDie d (fun x => { x with unitCtr := x.unitCtr + 1 })
          { s2 with pkg := { s2.pkg with out := s2.pkg.out ++ [.trace unit] } }

/-- A sample leaves as a record of the team that issued in its cycle or was charged for it (R395). A cycle that no team owns
has free values for BUNDLE and SCHED (log entry 45). -/
def State.sendSample (s : State) (fold : Nat) (x : Sample) : State :=
  if x.slot = 33 then
    { s.emitRecordAt fold 1 0x1F x.idx true (Config.freeValue s.free) ((Config.freeValue (s.free + 1)).toNat) 0 false 0 x.tb
      with free := s.free + 2 }
  else s.emitRecordAt fold 1 x.slot x.idx false x.pc x.sched x.flock x.conf x.queue x.tb

/-- The samples of a fold that have been made leave, oldest first. -/
def State.sendSamples (s : State) (fold : Nat) : State :=
  match (s.fold fold).samples with
  | [] => s
  | l => l.foldl (fun s x => s.sendSample fold x) (s.modFold fold (fun f => { f with samples := [] }))

/-- A record made now; the samples that its fold has made before it leave first (R396). -/
def State.emitRecord (s : State) (fold kind slot code : Nat) (noTeam : Bool) (bundle : W64) (sched : Nat) (flock : W32)
    (conf : Bool) (queue : Nat) : State :=
  (s.sendSamples fold).emitRecordAt fold kind slot code noTeam bundle sched flock conf queue s.timebase

/-- The queue that launched a team (R236). -/
def Ctx.queue (c : Ctx) : Nat := c.asid % 64

/-! ## Taking a trap (R350 to R359) -/

/-- What a due trap still sets once it is taken under `code`: a redirected one sets SUBCAUSE and SRCUNIT alone (C_TRAPNEST,
C_NOHANDLER), C_SHADOWFAULT the bundle and the address besides (R353, R368). -/
def DueTrap.under (d : DueTrap) (code : BitVec 7) : DueTrap :=
  if code = 0x0F ∨ code = 0x1A then { d with bundle := none, lanes := none, addr := none, emu := none }
  else if code = 0x5F then { d with lanes := none, emu := none }
  else d

/-- The cause whose Resume column a trap taken under `code` has (R368): for C_TRAPNEST and C_NOHANDLER the original one, which
a reflected one holds as its subcause. -/
def DueTrap.original (d : DueTrap) (code : BitVec 7) : BitVec 7 :=
  if code = 0x0F ∨ code = 0x1A then (if d.code = 0x0F ∨ d.code = 0x1A then d.sub else d.code) else code

/-- The registers every trap sets, and those R368 gives this one (CAUSE, TRAP_PC, TSTATUS, FAULT_*, EMU). `code` and
`sub` are what CAUSE and SUBCAUSE take after any redirection. -/
def Ctx.trapRegs (c : Ctx) (d0 : DueTrap) (code sub : BitVec 7) (origin : Nat) (inh setSrc : Bool) : Ctx :=
  let d := d0.under code
  let pc := d.pc.getD c.pc
  let ts := c.tstatus.toNat
  let src := if setSrc then d.srcUnit.toNat else bits ts 22 18
  let res := resumable (d.original code)
  { c with
    cause := code.zeroExtend 64
    trapPc := pc &&& ~~~1
    tstatus := BitVec.ofNat 64 (origin * 2 ^ 30 + sub.toNat * 2 ^ 23 + src * 2 ^ 18 + b2n res * 2 ^ 17 +
      bits ts 9 9 * 2 ^ 9 + (if inh then 2 ^ 8 else bits ts 8 8 * 2 ^ 8))
    faultBundle := match d.bundle with | some b => b.1 | none => c.faultBundle
    faultCycle := match d.bundle with | some b => b.2 | none => c.faultCycle
    faultLanes := d.lanes.getD c.faultLanes
    faultAddr := d.addr.getD c.faultAddr
    emu0 := match d.emu with | some e => e.1 | none => c.emu0
    emu1 := match d.emu with | some e => e.2.1 | none => c.emu1
    emu2 := match d.emu with | some e => e.2.2.1 | none => c.emu2
    emu3 := match d.emu with | some e => e.2.2.2 | none => c.emu3 }

/-- Whether a trap sets SUBCAUSE and SRCUNIT (R368 column S). -/
def setsSub (code : BitVec 7) : Bool := code.toNat ∈ [0x00, 0x0F, 0x10, 0x18, 0x1A, 0x5F]

/-- Whether a trap sets SRCUNIT: the causes of column S, and every trap of the store fault buffer (R362, R368). -/
def DueTrap.setsSrc (d : DueTrap) (code : BitVec 7) : Bool := setsSub code || d.srcUnit == 0x1F

/-- Entry on route U (R355): the unit state moves into the frame, the trap registers are set, INH becomes 1, the unit
state is fresh, and the team continues at TVEC. Fetched lines are dropped (R47). -/
def Ctx.enterUser (c : Ctx) (d : DueTrap) (origin : Nat) : Ctx :=
  let sub := if setsSub d.code then d.sub else 0
  { c.trapRegs d d.code sub origin true (d.setsSrc d.code) with
    frame := if c.inh then c.frame else some c.us
    us := UnitState.fresh
    pc := c.tvec &&& ~~~1
    wait := .ready
    lines := []
    frozen := false }

/-- What becomes of a trap (R357, R369): the route taken, CAUSE and SUBCAUSE. -/
def Ctx.redirect (c : Ctx) (d : DueTrap) : Route × BitVec 7 × BitVec 7 :=
  let sub := if setsSub d.code then d.sub else 0
  if c.shadow then
    if d.route = .user ∧ c.inh = false ∧ c.tvec &&& ~~~1 ≠ 0 then (.user, d.code, sub) else (.host, 0x5F, d.code)
  else if d.own = true ∧ c.inh = true ∧ d.route ≠ .host then (.shadow, 0x0F, d.code)
  else if d.own = true ∧ d.route = .user ∧ c.tvec &&& ~~~1 = 0 then (.shadow, 0x1A, d.code)
  else (d.route, d.code, sub)

/-- Requests that any freezing trap satisfies (R450). -/
def DueTrap.isRequest (d : DueTrap) : Bool := d.code = 0x3B || d.code = 0x0C

/-- A context that is frozen keeps the wait it is in (R200, R377), and has no request to stop left (R450). -/
def Ctx.freeze (c : Ctx) : Ctx :=
  { c with frozen := true, due := c.due.filter (fun d => !d.isRequest) }

/-- A trap is taken on a route, with the CAUSE and SUBCAUSE given (R354 to R359). On route U the team enters its handler.
On route S it is Frozen and the fold's shadow context is told by an event and, with the trace on, a stop record. On route H
it is Frozen and the control node is told by a notice; a shadow context stops (R369). -/
def State.deliver (s : State) (id : CtxId) (c : Ctx) (d : DueTrap) (route : Route) (code sub : BitVec 7) : State :=
  match route with
  | .user => s.setCtx id (c.enterUser d 0)
  | .shadow =>
    let c1 := (c.trapRegs d code sub 1 false (d.setsSrc code)).freeze
    let s1 := s.setCtx id c1
    let s2 := s1.pushEvent id.fold (eventWord code sub id.slot false false 0)
    s2.emitRecord id.fold 0 id.slot code.toNat false c1.trapPc c1.sched c1.flock c1.conf c1.queue
  | .host =>
    let c1 := { (c.trapRegs d code sub 2 false (d.setsSrc code)).freeze with sealed := c.sealed || code == 0x58 }
    let s1 := s.setCtx id (if c.shadow then { c1 with frozen := false, stopped := true } else c1)
    s1.notice (eventWord code sub id.slot false false 0) (some id.fold) (some c1) c1.faultAddr

/-- Take a trap on its route, redirected where R357 or R369 says so. -/
def State.takeTrap (s : State) (id : CtxId) (d : DueTrap) : State :=
  match s.ctx id with
  | none => s
  | some c => s.deliver id c d (c.redirect d).1 (c.redirect d).2.1 (c.redirect d).2.2

/-- Whether the sequencer lets the team be frozen here (R198): always outside a loop-record task's steps, inside them
only before a kernel pass that follows another, or after the prologue when K = 0. -/
def Ctx.mayPreempt (c : Ctx) : Bool :=
  match c.loop with
  | none => true
  | some l =>
    let r := l.lrec
    !l.started || (c.pc == r.ker && decide (r.stages ≤ l.step ∧ l.step + 2 ≤ r.stages + l.k)) ||
      (l.k == 0 && c.pc == r.epi && l.step + 1 == r.stages)

/-- A release: `st.rel`, or an AT operation with ORD .acqrel or .sc (R362). -/
def opRelease (u o : Nat) : Bool :=
  (u == 13 && 0x40 ≤ o && o < 0x80) || (u == 14 && (o / 32 % 4 == 1 || o / 32 % 4 == 2))

/-- An acquire load, or an `.acqrel` or `.sc` atomic (R131, R137). -/
def MemOp.acquires (m : MemOp) : Bool :=
  (m.unit == U.la || m.unit == U.lb) && 0x40 ≤ m.opcode.toNat && m.opcode.toNat < 0xC0 ||
    m.unit == U.at_ && opRelease U.at_ m.opcode.toNat

/-- The unit of an access that has not been performed and that the team's next bundle waits for. The fault of an acquire
would be a trap before that bundle (R141, R361); what a single-stepped bundle or a move on a watched range still does
belongs to the trap that is due (R365, R394). -/
def Ctx.acqOut (c : Ctx) : Option Nat :=
  (c.memq.find? (fun m => m.acquires || c.due.any (fun d => (d.code == 0x0B && !d.held) ||
    (d.code == 0x29 && d.bundle == some (m.bundle, m.cycle))))).map MemOp.unit

/-- A pre-emption that is asked for waits at its point until the team's operations of XL in flight have completed, and no
bundle issues meanwhile (R162). -/
def Ctx.drains (c : Ctx) : Bool :=
  c.mayPreempt && c.due.any (fun d => d.code == 0x3B) && c.ops.any (fun o => o.unit == U.xl)

/-- The unit of an operation that the team's next bundle waits for, an acquiring atomic that is held for its page among them
(R141, R250). -/
def State.acqOut (s : State) (id : CtxId) (c : Ctx) : Option Nat :=
  match c.acqOut with
  | some u => some u
  | none =>
    if (s.fold id.fold).held.any (fun h => h.slot == id.slot && h.tid == c.tid && h.op.acquires) then some U.at_
    else if c.drains then some U.xl
    else none

/-- Whether the bundle that a single step follows causes another trap at execution (R394): one of its own that is newly due
and is no deferred trap, no FP result's, no link's and no breakpoint before the next bundle. -/
def Ctx.stepMoot (c : Ctx) : Bool :=
  c.due.any (fun d => d.own && !d.held && !(d.code.toNat ∈ [0x0B, 0x10, 0x12, 0x13, 0x14, 0x15, 0x16, 0x4B]) &&
    !(d.code == 0x0A && d.bundle == some (c.pc, BitVec.ofNat 64 c.sched)))

/-- A due trap that this boundary lets be taken (R450): a trap of the team's own bundles waits for the end of a barrier, ring,
grow or hold wait (R377), a pending one for INH = 0, a request for a pre-emption point and for XL (R162), and C_STEP gives way
to another trap of its bundle (R394). -/
def Ctx.ripe (c : Ctx) (d : DueTrap) : Bool :=
  if c.wait = .exiting then false
  else if d.isRequest then c.mayPreempt && !(d.code == 0x3B && c.drains)
  else if d.own && c.wait.woken != .ready then false
  else !(d.held && c.inh) && !(d.code == 0x0B && c.stepMoot)

/-- The trap to take at this boundary: the lowest code among those that are ripe (R450). -/
def Ctx.nextDue (c : Ctx) : Option DueTrap :=
  (c.due.filter c.ripe).foldl (fun acc d => match acc with
    | none => some d
    | some b => if d.code < b.code then some d else acc) none

/-- The context as the boundary judges it: while an operation is outstanding that the next bundle waits for, only what the
team's own bundles did not cause can be taken (R141, R450). -/
def State.atBoundary (s : State) (id : CtxId) (c : Ctx) : Ctx :=
  if (s.acqOut id c).isSome then { c with due := c.due.filter (fun d => !d.own) } else c

/-- The lowest lane of a move with its address (R353). -/
def MemOp.lowest (m : MemOp) : Option MemLane :=
  m.lanes.foldl (fun acc x => match acc with
    | none => some x
    | some y => if x.lane < y.lane then some x else acc) none

/-- The trap of the store fault buffer: its oldest entry is described (R362). -/
def DueTrap.ofSfb (code : BitVec 7) (e : SfbEntry) : DueTrap :=
  { code := code, sub := if code = 0x18 then e.cause else 0, srcUnit := 0x1F, pc := none,
    bundle := some (e.op.bundle, e.op.cycle),
    lanes := some (e.op.lanes.foldl (fun m x => m ||| BitVec.ofNat 1024 (2 ^ x.lane)) 0),
    addr := e.op.lowest.map MemLane.addr, emu := none, own := true, held := false, toShadow := false }

/-- A due C_SFBFULL as it stands when it is taken: the buffer's oldest entry, or nothing when a replay emptied it. -/
def Ctx.refreshDue (c : Ctx) (d : DueTrap) : Option DueTrap :=
  if d.code = 0x18 then c.sfb.head?.map (DueTrap.ofSfb 0x18) else some d

/-- The list without its first entry that equals `d`. -/
def dropDue (d : DueTrap) : List DueTrap → List DueTrap
  | [] => []
  | x :: r => if x = d then r else x :: dropDue d r

/-- The breakpoint before a context's next bundle (R393, R398). -/
def State.breaks (s : State) (id : CtxId) (c : Ctx) : Bool :=
  !c.brkSkip && !c.conf && (s.fold id.fold).brk.any (fun kv =>
    kv.2.2.getLsbD 0 && kv.2.1 &&& ~~~1 == c.pc && (!kv.2.2.getLsbD 1 || kv.2.2.extractLsb' 32 32 == c.flock))

/-- A breakpoint that the boundary meets is one of the traps that are due there (R400, R450). -/
def State.withBreak (s : State) (id : CtxId) (c : Ctx) : Ctx :=
  if s.breaks id c && c.wait.woken == .ready && !c.due.any (fun d => d.code == 0x0A) then
    c.addDue (DueTrap.of 0x0A c.pc (BitVec.ofNat 64 c.sched))
  else c

/-- What stays due when a trap is taken (R450): one of the team's own bundles and a link trap become pending, and a C_STEP
whose bundle causes another trap is not raised (R394). -/
def Ctx.leftDue (c : Ctx) (taken : Option DueTrap) : List DueTrap :=
  let rest := match taken with
    | some d => dropDue d c.due
    | none => c.due
  (rest.filter (fun x => !(x.code == 0x0B && c.stepMoot))).map (fun x => if x.own then { x with held := true } else x)

/-- Settle the boundary (R450): take the next due trap; the others stay pending. -/
def State.settle (s : State) (id : CtxId) : State :=
  match s.ctx id with
  | none => s
  | some c0 =>
    let c := s.withBreak id c0
    match (s.atBoundary id c).nextDue with
    | none => s
    | some d =>
      let rest := c.leftDue (some d)
      let rest1 := if d.code = 0x18 then rest.filter (fun x => x.code != 0x18) else rest
      let s1 := s.setCtx id { c with due := rest1 }
      match c.refreshDue d with
      | some d1 => s1.takeTrap id d1
      | none => s1

/-- Return from a route U handler (R356): the handler's unit state is discarded, the frame restored, PC := TRAP_PC. -/
def Ctx.handlerReturn (c : Ctx) : Ctx :=
  match c.frame with
  | none => { c with pc := c.trapPc }
  | some f => { c with us := f, frame := none, pc := c.trapPc, wait := c.wait.woken }

/-- A Frozen team resumes at TRAP_PC in the wait it was saved in (R375); breakpoints are ignored for its first bundle
(R393) and fetched lines are dropped (R47). -/
def Ctx.resume (c : Ctx) : Ctx :=
  { c with frozen := false, pc := c.trapPc, brkSkip := true, lines := [], wait := c.wait.woken, sealed := false }

end Sys2Proof.Machine
end

