-- ==== Sys2Proof/Machine/Mesh.lean ====
section
/-! DEFINITION. The package mesh (R410 to R412, R417): its links and nodes, the fixed routes and what replaces them when a
link is down, and the messages that accesses of another die send over them. -/

namespace Sys2Proof.Machine

/-- A link that nothing has happened to (R416). -/
def Link.fresh (n : Nat) : Link :=
  { target := 2, rate := 2, up := true, mw := if n < 4 then 0xFF else 0x0F, spares := if n < 4 then 0x924 else 0x024,
    retraining := false, more := 0, waiters := [] }

def State.link (s : State) (n : Nat) : Link := Tbl.get s.pkg.links n (Link.fresh n)

/-- A link end that nothing has happened to (R416). -/
def LinkEnd.fresh : LinkEnd :=
  { replay := 0, crc := 0, win := 0x803E8, degr := 0, linkCount := 0, laneCounts := [], linkThr := 0, laneThr := [],
    linkShut := 0, laneShut := [], expect := 0, discarding := false, sendNext := 0, acked := 0, unacked := [], queue := [],
    nak := none }

def State.linkEnd (s : State) (e : Nat) : LinkEnd := Tbl.get s.pkg.ends e LinkEnd.fresh
def State.setEnd (s : State) (e : Nat) (x : LinkEnd) : State :=
  { s with pkg := { s.pkg with ends := Tbl.put s.pkg.ends e x } }
def State.modEnd (s : State) (e : Nat) (f : LinkEnd → LinkEnd) : State := s.setEnd e (f (s.linkEnd e))
def State.setLink (s : State) (n : Nat) (x : Link) : State :=
  { s with pkg := { s.pkg with links := Tbl.put s.pkg.links n x } }

/-- The other end of a link (R410). -/
def otherEnd (e : Nat) : Nat := if e % 2 = 0 then e + 1 else e - 1

/-- The dies at a link's two ends (R410): 0 to 3 the compute dies, 4 IO0, 5 IO1. -/
def linkNodes (n : Nat) : Nat × Nat :=
  match n with
  | 0 => (0, 1) | 1 => (2, 3) | 2 => (0, 2) | 3 => (1, 3) | 4 => (0, 4) | 5 => (1, 4) | 6 => (2, 5) | _ => (3, 5)

/-- The die that a link end stands on. -/
def endNode (e : Nat) : Nat := if e % 2 = 0 then (linkNodes (e / 2)).1 else (linkNodes (e / 2)).2

/-- The link end on die `a` of the link to die `b`. -/
def endTo (a b : Nat) : Option Nat := (List.range 16).find? (fun e => endNode e == a && endNode (otherEnd e) == b)

/-- The compute dies at a link's ends (R410). -/
def linkDies (n : Nat) : List Nat := [(linkNodes n).1, (linkNodes n).2].filter (fun d => d < 4)

/-! ## Routes (R411, R417) -/

/-- The die across the row edge, and the die across the column edge (R410). -/
def acrossRow (d : Nat) : Nat := if d % 2 = 0 then d + 1 else d - 1
def acrossCol (d : Nat) : Nat := if d < 2 then d + 2 else d - 2

/-- The fixed route between two compute dies: the row edge, then the column edge (R411). -/
def meshRoute (a b : Nat) : List Nat :=
  let m := if a % 2 = b % 2 then a else acrossRow a
  [a] ++ (if m = a then [] else [m]) ++ (if m = b then [] else [b])

/-- The route round the other side of the square (R417): two hops for a diagonal pair, three for an adjacent pair. -/
def meshDetour (a b : Nat) : List Nat :=
  if a = b then [a]
  else if a % 2 = b % 2 then [a, acrossRow a, acrossRow b, b]
  else if a / 2 = b / 2 then [a, acrossCol a, acrossCol b, b]
  else [a, acrossCol a, b]

/-- Whether every link of a route is up. -/
def State.routeUp (s : State) : List Nat → Bool
  | a :: b :: r => (match endTo a b with | some e => (s.link (e / 2)).up | none => false) && s.routeUp (b :: r)
  | _ => true

/-- The route in force between two compute dies, if one is left (R411, R417). -/
def State.cdRoute (s : State) (a b : Nat) : Option (List Nat) :=
  if s.routeUp (meshRoute a b) then some (meshRoute a b)
  else if s.routeUp (meshDetour a b) then some (meshDetour a b) else none

/-- The compute die at the I/O link of die `io` in a column (R411). -/
def ioOwner (io col : Nat) : Nat := 2 * (io - 4) + col

/-- The route in force from a compute die to an I/O die: over the I/O link in the source's column, or the other one when it
is down (R411, R417). -/
def State.ioRoute (s : State) (a io : Nat) : Option (List Nat) :=
  let through (col : Nat) : Option (List Nat) :=
    let o := ioOwner io col
    if s.routeUp [o, io] then (s.cdRoute a o).map (fun p => p ++ [io]) else none
  (through (a % 2)).or (through (1 - a % 2))

/-- The route in force from an I/O die to a compute die: into the mesh over the I/O link in the destination's column. -/
def State.ioRouteTo (s : State) (io b : Nat) : Option (List Nat) :=
  let through (col : Nat) : Option (List Nat) :=
    let o := ioOwner io col
    if s.routeUp [io, o] then (s.cdRoute o b).map (fun p => io :: p) else none
  (through (b % 2)).or (through (1 - b % 2))

/-- The route in force from one die to another. -/
def State.route (s : State) (a b : Nat) : Option (List Nat) :=
  if a = b then some [a]
  else if a < 4 ∧ b < 4 then s.cdRoute a b
  else if a < 4 ∧ b < 6 then s.ioRoute a b
  else if 4 ≤ a ∧ b < 4 then s.ioRouteTo a b
  else none

/-- Whether an I/O die's transport engine, its port logic and some of its SerDes lanes have power (R442, R444). -/
def State.nxPower (s : State) (io : Nat) : Bool :=
  let on (i : Nat) : Bool := Tbl.get s.pkg.islIoState (8 * (io - 4) + i) 0 != 7
  on 0 && on 3 && (on 1 || on 2)

/-- The I/O die that carries a die's fabric traffic, while a route leads there and it has power: that of its row (DESIGN CHOICE:
log entry 57). Its transport engine and its Ethernet lanes are unreachable otherwise (R417). -/
def State.nxIo (s : State) (die : Nat) : Option Nat :=
  if (s.route die (4 + die / 2)).isSome && s.nxPower (4 + die / 2) then some (4 + die / 2) else none

/-- Whether a die reaches IO0, over which everything to the control node goes (R417, R429). -/
def State.lumenRoute (s : State) (die : Nat) : Bool := (s.route die 4).isSome

/-! ## Messages (R412, R417) -/

/-- A message is queued at die `node` for the next link of its route (R411). -/
def State.meshForward (s : State) (node : Nat) (m : MeshMsg) : State :=
  match s.route node m.dst with
  | some (_ :: next :: _) =>
    (match endTo node next with
    | some e => s.modEnd e (fun x => { x with queue := x.queue ++ [m] })
    | none => s)
  | _ => s

/-- The key of a source and virtual channel, and of a destination besides, in the tables of R417's sequence numbers. -/
def meshKey (src vc : Nat) : Nat := 4 * src + vc
def meshSeenKey (dst src vc : Nat) : Nat := 32 * dst + meshKey src vc

/-- Traffic from a die to another on a virtual channel (R412): 0 requests, 1 responses, 2 recalls and write-backs, 3 bulk data
of engine operations. -/
def State.meshSend (s : State) (src dst vc fold scope : Nat) : State :=
  if src = dst then s
  else
    let n := Tbl.get s.pkg.meshNext (meshKey src vc) 0
    let s1 : State := { s with pkg := { s.pkg with meshNext := Tbl.put s.pkg.meshNext (meshKey src vc) (n + 1) } }
    s1.meshForward src { src := src, dst := dst, vc := vc, fold := fold, scope := scope, seq := n }

/-- A request of a fold to the home of an address of package memory, and the home's response (R411, R412), of an access that
does not wait for them (R419; DESIGN CHOICE, safe: log entry 57). -/
def State.meshAccess (s : State) (fold key vc scope : Nat) : State :=
  if tracked key then (s.meshSend (dieOf fold) (homeDie key) vc fold scope).meshSend (homeDie key) (dieOf fold) 1 fold scope
  else s

/-- The messages on their way over the links. -/
def State.meshTransit (s : State) : List MeshMsg :=
  s.pkg.ends.flatMap (fun kv => kv.2.unacked.filterMap Prod.snd ++ kv.2.queue)

/-- Whether a message is earlier traffic of one fold to one die on one virtual channel at one scope than another (R412). -/
def MeshMsg.before (x m : MeshMsg) : Bool :=
  x.src == m.src && x.dst == m.dst && x.vc == m.vc && x.fold == m.fold && x.scope == m.scope && decide (x.seq < m.seq)

/-- A request has come to its home: the lane that sent it may be performed there (R436, R438). -/
def State.meshDeliver (s : State) (m : MeshMsg) : State :=
  let lane (x : MemLane) : MemLane := if x.trip = .sent m.dst m.seq then { x with trip := .there m.dst } else x
  let op (o : MemOp) : MemOp := { o with lanes := o.lanes.map lane }
  if m.vc ≠ 0 then s
  else { s with ctxs := s.ctxs.map (fun kv =>
    if (ctxOfKey kv.1).fold = m.fold then (kv.1, { kv.2 with memq := kv.2.memq.map op }) else kv) }

/-- The messages that have come are delivered, each after the earlier ones of its traffic (R412). -/
def State.meshSettle (s : State) : State :=
  s.pkg.meshHold.foldl (fun s m =>
    if (s.meshTransit ++ s.pkg.meshHold).any (fun x => x.before m) then s
    else ({ s with pkg := { s.pkg with meshHold := s.pkg.meshHold.filter (fun x => x != m) } }).meshDeliver m) s

/-- A message takes its place by its number among those that have come. -/
def meshInsert (m : MeshMsg) : List MeshMsg → List MeshMsg
  | [] => [m]
  | x :: r => if m.seq < x.seq then m :: x :: r else x :: meshInsert m r

/-- A message reaches a die (R411, R417): it goes on, or it has come, where a duplicate is discarded. The numbers kept are
those that a message of its source and channel on its way could still repeat. -/
def State.meshArrive (s : State) (node : Nat) (m : MeshMsg) : State :=
  if node ≠ m.dst then s.meshForward node m
  else
    let k := meshSeenKey node m.src m.vc
    let seen := Tbl.get s.pkg.meshSeen k []
    if seen.contains m.seq then s
    else
      let way := (s.meshTransit.filter (fun x => x.src == m.src && x.dst == node && x.vc == m.vc)).map MeshMsg.seq
      let keep := (seen ++ [m.seq]).filter (fun n => way.any (fun x => decide (x ≤ n)))
      ({ s with pkg := { s.pkg with meshSeen := Tbl.put s.pkg.meshSeen k keep,
                                    meshHold := meshInsert m s.pkg.meshHold } }).meshSettle

/-- What a link that has gone down still held is sent again over the routes that are left, in its order (R417). -/
def State.meshReroute (s : State) (n : Nat) : State :=
  [2 * n, 2 * n + 1].foldl (fun s e =>
    let x := s.linkEnd e
    let ms := x.unacked.filterMap Prod.snd ++ x.queue
    ms.foldl (fun s m => s.meshForward (endNode e) m) (s.setEnd e { x with unacked := [], queue := [], nak := none })) s

end Sys2Proof.Machine
end

