-- ==== Sys2Proof/Machine/Cache.lean ====
section
/-! DEFINITION. Where the copies of a byte stand: the lines of each fold's L1 (R219, R220, R227), the home slices' caches
(R221, R222), the range directory (R225 to R228). Memory holds every byte's value in its home's order, so a write-back or a
recall moves no value (R225); a self-invalidating copy holds the bytes it was filled with (R220). -/

namespace Sys2Proof.Machine

/-- The die and the slice that home a physical address (R221). -/
def homeOf (p : Nat) : Nat × Nat := (homeDie p, (Config.sliceHash (p / 4096)).toNat)

/-! ## Lines of L1 (R219, R220) -/

/-- The line that holds an address. -/
def lineOf (p : Nat) : Nat := p / 128 * 128

/-- The words of the line at `b` that bytes lo to hi touch. -/
def lineWords (b lo hi : Nat) : BitVec 32 :=
  if hi < b ∨ b + 127 < lo then 0
  else
    let i := (max lo b - b) / 4
    BitVec.ofNat 32 ((2 ^ ((min hi (b + 127) - b) / 4 + 1 - i) - 1) * 2 ^ i)

/-- The bytes of the line at `b` from lo to hi. -/
def lineBytes (b lo hi : Nat) : BitVec 128 :=
  if hi < b ∨ b + 127 < lo then 0
  else
    let i := max lo b - b
    BitVec.ofNat 128 ((2 ^ (min hi (b + 127) - b + 1 - i) - 1) * 2 ^ i)

/-- The bytes of a set of words. -/
def wordBytes (w : BitVec 32) : BitVec 128 :=
  (List.range 32).foldl (fun m i => if w.getLsbD i then m ||| BitVec.ofNat 128 (15 * 2 ^ (4 * i)) else m) 0

/-- The words that are self-invalidating copies. -/
def L1Line.siWords (x : L1Line) : BitVec 32 := x.si.foldl (fun m kv => m ||| BitVec.ofNat 32 (2 ^ kv.1)) 0

/-- A line without the words `w`; self-invalidating ones stay unless `si` is set. -/
def L1Line.drop (x : L1Line) (w : BitVec 32) (si : Bool) : L1Line :=
  let gone := if si then w else w &&& ~~~x.siWords
  { x with valid := x.valid &&& ~~~gone, owned := x.owned &&& ~~~gone, dirty := x.dirty &&& ~~~wordBytes gone,
           si := x.si.filter (fun kv => !gone.getLsbD kv.1) }

/-- The fold's L1 without the words that bytes lo to hi touch (R134, R136, R225). -/
def Fold.dropWords (f : Fold) (lo hi : Nat) (si : Bool) : Fold :=
  { f with l1 := (f.l1.map (fun x => x.drop (lineWords x.base lo hi) si)).filter (fun x => x.valid != 0) }

/-- The fold's L1 once another agent has taken bytes lo to hi: a word that the fold owns leaves it only when the fold owned
some of those bytes (R227). -/
def Fold.loseWords (f : Fold) (owns : Bool) (lo hi : Nat) (si : Bool) : Fold :=
  { f with l1 := (f.l1.map (fun x =>
      let w := lineWords x.base lo hi
      x.drop (if owns then w else w &&& ~~~x.owned) si)).filter (fun x => x.valid != 0) }

/-- The fold's L1 without the self-invalidating words that serve team `tid` in bytes lo to hi (R220). -/
def Fold.dropSiOf (f : Fold) (tid lo hi : Nat) : Fold :=
  { f with l1 := (f.l1.map (fun x => x.drop (x.si.foldl (fun m kv =>
      if kv.2.1 = tid then m ||| (lineWords x.base lo hi &&& BitVec.ofNat 32 (2 ^ kv.1)) else m) 0) true)).filter (fun x => x.valid != 0) }

/-- A team leaves a fold: no self-invalidating word there serves it any more, wherever its next acquire is (R220). -/
def Fold.leaveSi (f : Fold) (tid : Nat) : Fold :=
  { f with l1 := (f.l1.map (fun x => x.drop (x.si.foldl (fun m kv =>
      if kv.2.1 = tid then m ||| BitVec.ofNat 32 (2 ^ kv.1) else m) 0) true)).filter (fun x => x.valid != 0) }

/-- An acquire by a team of the fold invalidates every self-invalidating word (R220). -/
def Fold.dropSi (f : Fold) : Fold :=
  { f with l1 := (f.l1.map (fun x => x.drop x.siWords true)).filter (fun x => x.valid != 0) }

/-- Owned dirty bytes lo to hi have been written to their home (R135, R219, R229). -/
def Fold.cleanBytes (f : Fold) (lo hi : Nat) : Fold :=
  { f with l1 := f.l1.map (fun x => { x with dirty := x.dirty &&& ~~~lineBytes x.base lo hi }) }

/-- The 4 bytes that team `tid` may still be served for a word of a line (R220). -/
def L1Line.siWord (x : L1Line) (tid i : Nat) : Option (List Byte) :=
  (Tbl.find x.si i).bind (fun v => if v.1 = tid then some v.2 else none)

/-- The bytes of an access of a team that its own self-invalidating copies serve (R220): every word it touches is one. -/
def Fold.siBytes (f : Fold) (tid key n : Nat) : Option (List Byte) :=
  match f.l1.find? (fun x => x.base == lineOf key) with
  | none => none
  | some x =>
    let i := key % 128 / 4
    let ws := (List.range ((key % 128 + n - 1) / 4 + 1 - i)).map (fun j => x.siWord tid (i + j))
    if ws.all Option.isSome then some (((ws.flatMap (fun w => w.getD [])).drop (key % 4)).take n) else none

/-! ## The range directory (R226, R228) -/

/-- Whether element `i` of an entry touches bytes lo to hi. -/
def RangeEnt.touches (e : RangeEnt) (i lo hi : Nat) : Bool :=
  overlap (e.base + e.stride * i) (e.base + e.stride * i + e.width - 1) lo hi

/-- Whether an entry covers one of bytes lo to hi. -/
def RangeEnt.covers (e : RangeEnt) (lo hi : Nat) : Bool :=
  if e.line then overlap e.base (e.base + 127) lo hi else (List.range e.count).any (fun i => e.touches i lo hi)

/-- Group ascending element numbers into runs of consecutive ones: first number and length. -/
def runs : List Nat → List (Nat × Nat)
  | [] => []
  | x :: r => match runs r with
    | (y, n) :: q => if y = x + 1 then (x, n + 1) :: q else (x, 1) :: (y, n) :: q
    | [] => [(x, 1)]

/-- What is left of an entry when bytes lo to hi are taken from it (R226, R228). -/
def RangeEnt.without (e : RangeEnt) (lo hi : Nat) : List RangeEnt :=
  if e.line then (if overlap e.base (e.base + 127) lo hi then [] else [e])
  else
    (runs ((List.range e.count).filter (fun i => !e.touches i lo hi))).map (fun r =>
      { e with base := e.base + e.stride * r.1, count := r.2 })

/-- The 128-byte lines that an entry touches. -/
def RangeEnt.lines (e : RangeEnt) : List Nat :=
  ((List.range e.count).flatMap (fun i =>
    [lineOf (e.base + e.stride * i), lineOf (e.base + e.stride * i + e.width - 1)])).eraseDups

/-- A home recalls what a fold owns: its request, and the fold's write-back, cross the mesh on VC2 (R225, R412). -/
def State.recallMsg (s : State) (die owner : Nat) : State :=
  (s.meshSend die (dieOf owner) 2 owner 0).meshSend (dieOf owner) die 2 owner 0

/-- A home takes bytes lo to hi from every fold but `by` (R225): the owner writes back its dirty bytes and drops the words,
other copies of them are dropped, and its entries shrink. A line entry is recalled whole and counted at its slice (R228).
Self-invalidating copies stay unless `si` is set. -/
def State.takeBytes (s : State) (by_ : Option Nat) (lo hi : Nat) (si : Bool) : State :=
  let die := homeDie lo
  let d := s.die die
  let hit := d.rdir.filter (fun e => by_ != some e.owner && e.covers lo hi)
  let lines := hit.filter RangeEnt.line
  let lose (k : Nat) (f : Fold) : Fold :=
    if by_ = some k ∨ f.l1.isEmpty = true then f
    else (lines.filter (fun e => e.owner == k)).foldl (fun f e => f.dropWords e.base (e.base + 127) si)
      (f.loseWords (hit.any (fun e => e.owner == k)) lo hi si)
  let s1 : State := { s with folds := s.folds.map (fun kv => (kv.1, lose kv.1 kv.2)) }
  if hit.isEmpty then s1
  else (hit.foldl (fun s e => s.recallMsg die e.owner) s1).modDie die (fun d =>
    { d with rdirLine := lines.foldl (fun t e => Tbl.upd t (homeOf e.base).2 0 (· + 1)) d.rdirLine
             rdir := d.rdir.flatMap (fun e => if by_ = some e.owner then [e] else e.without lo hi) })

/-- A fold's ownership of bytes ends, their dirty copies having been written back over VC2 (R229, R281, R412). -/
def State.disown (s : State) (f lo hi : Nat) : State :=
  let die := homeDie lo
  let d := s.die die
  if !d.rdir.any (fun e => e.owner == f && e.covers lo hi) then s
  else
    let left := d.rdir.flatMap (fun e => if e.owner = f then e.without lo hi else [e])
    let still (b i : Nat) : Bool := left.any (fun e => e.owner == f && e.covers (b + 4 * i) (b + 4 * i + 3))
    let one (x : L1Line) : L1Line :=
      let w := lineWords x.base lo hi
      let keep := (List.range 32).foldl (fun m i => if w.getLsbD i && still x.base i then m ||| BitVec.ofNat 32 (2 ^ i) else m) 0
      { x with owned := x.owned &&& ~~~(w &&& ~~~keep), dirty := x.dirty &&& ~~~lineBytes x.base lo hi }
    let s1 := (s.meshSend (dieOf f) die 2 f 0).modDie die (fun d => { d with rdir := left })
    if (s1.fold f).l1.isEmpty then s1 else s1.modFold f (fun y => { y with l1 := y.l1.map one })

/-- The oldest entry of a list that satisfies `p` is taken out. -/
def dropFirst (p : RangeEnt → Bool) : List RangeEnt → List RangeEnt
  | [] => []
  | x :: r => if p x then r else x :: dropFirst p r

/-- The oldest line entries of a slice beyond the 16,384 it holds return to the home unowned (R228). -/
def State.trimLines (s : State) (die sl : Nat) : State :=
  let mine (x : RangeEnt) : Bool := x.line && (homeOf x.base).2 == sl
  let d := s.die die
  let gone := (d.rdir.filter mine).take ((d.rdir.filter mine).length - 16384)
  let s1 := gone.foldl (fun s e => s.modFold e.owner (fun f => f.dropWords e.base (e.base + 127) false)) s
  s1.modDie die (fun d =>
    { d with rdir := gone.foldl (fun l _ => dropFirst mine l) d.rdir, rdirLine := Tbl.upd d.rdirLine sl 0 (· + gone.length) })

/-- A line entry (R228). -/
def RangeEnt.ofLine (owner b : Nat) : RangeEnt :=
  { base := b, stride := 128, count := 1, width := 128, owner := owner, line := true }

/-- An entry joins its home's directory, if it is not there: a full slice first degrades its oldest entry to line entries
(R228). -/
def State.addEntry (s : State) (e : RangeEnt) : State :=
  let die := homeDie e.base
  let d := s.die die
  if d.rdir.contains e then s
  else if d.rdir.length < 4096 then s.setDie die { d with rdir := d.rdir ++ [e] }
  else
    let sl := (homeOf e.base).2
    let mine (x : RangeEnt) : Bool := !x.line && (homeOf x.base).2 == sl
    match d.rdir.filter mine with
    | [] => s.setDie die { d with rdir := d.rdir ++ [e] }
    | o :: r =>
      if r.length + 1 < 4096 then s.setDie die { d with rdir := d.rdir ++ [e] }
      else
        let ls := (o.lines.map (RangeEnt.ofLine o.owner)).filter (fun x => !d.rdir.contains x)
        (s.setDie die { d with rdir := dropFirst mine d.rdir ++ ls ++ [e],
                               rdirDegraded := Tbl.upd d.rdirDegraded sl 0 (· + 1) }).trimLines die sl

/-- The line entries of folds other than `f` that cover one of bytes lo to hi. -/
def State.otherLines (s : State) (f lo hi : Nat) : List RangeEnt :=
  (s.die (homeDie lo)).rdir.filter (fun e => e.line && e.owner != f && e.covers lo hi)

/-- Lines recalled whole from another fold become the requester's (R228). -/
def State.takeLines (s : State) (f : Nat) (ls : List RangeEnt) : State :=
  ls.foldl (fun s e => (s.addEntry (RangeEnt.ofLine f e.base)).trimLines (homeDie e.base) (homeOf e.base).2) s

/-- Fold `f` becomes the owner of a strided range within one 4 KiB block (R226), and of the lines that its request recalls whole
(R228). -/
def State.ownRange (s : State) (f base stride count width : Nat) : State :=
  let s1 := (List.range count).foldl (fun s i =>
    let lo := base + stride * i
    let hi := lo + width - 1
    let ls := s.otherLines f lo hi
    (s.takeBytes (some f) lo hi false).takeLines f ls) s
  s1.addEntry { base := base, stride := stride, count := count, width := width, owner := f, line := false }

/-- Cut ascending addresses of one stride at 4 KiB boundaries: the pieces in order, each of virtual and physical
addresses (R226). -/
def pieces : List (Nat × Nat) → List (List (Nat × Nat))
  | [] => []
  | x :: r => match pieces r with
    | (y :: p) :: q => if y.1 / 4096 = x.1 / 4096 then (x :: y :: p) :: q else [x] :: (y :: p) :: q
    | q => [x] :: q

/-- Cut ascending addresses where two neighbours do not lie `d` bytes apart. -/
def strided (d : Nat) : List (Nat × Nat) → List (List (Nat × Nat))
  | [] => []
  | x :: r => match strided d r with
    | (y :: p) :: q => if y.1 = x.1 + d then (x :: y :: p) :: q else [x] :: (y :: p) :: q
    | q => [x] :: q

/-- The constant distance of an affine list of addresses, when it is at least the size and no more than an entry's STRIDE holds
(R226). -/
def affine (size : Nat) : List Nat → Option Int
  | a :: b :: r =>
    let d : Int := (b : Int) - a
    if size ≤ d.natAbs ∧ d.natAbs ≤ 2 ^ 20 ∧ ((b :: r).zip r).all (fun p => decide ((p.2 : Int) - p.1 = d)) then some d else none
  | _ => none

/-- The entries that the elements `as` of one move form (R226), each given by its virtual and its physical address. An affine
move, which the addresses `all` of its triggered lanes decide, is cut at 4 KiB boundaries and where a lane formed no element;
any other forms one entry for each element. -/
def State.ownElems (s : State) (f size : Nat) (all : List Nat) (as : List (Nat × Nat)) : State :=
  match affine size all with
  | some d =>
    (pieces (if d < 0 then as.reverse else as)).foldl (fun s p =>
      (strided d.natAbs p).foldl (fun s q => match q with
        | [] => s
        | x :: _ => s.ownRange f x.2 d.natAbs q.length size) s) s
  | none => as.foldl (fun s a => s.ownRange f a.2 size 1 size) s

/-! ## The home caches (R221, R222) -/

/-- The lines that a slice's home cache holds at most: STAGE eighths are staging store (R222), some lines disabled (R399). -/
def Die.l2Cap (d : Die) (sl : Nat) : Nat :=
  (8 - min 8 (bits (Tbl.get d.l2Stage sl 0).toNat 3 0)) * 4096 - Tbl.get d.l2Off sl 0

/-- A slice's oldest lines beyond its capacity are written back and leave. -/
def Die.l2Trim (d : Die) (sl : Nat) : Die :=
  let mine (x : L2Line) : Bool := (homeOf x.base).2 == sl
  let extra := (d.l2.filter mine).length - d.l2Cap sl
  let rec go : Nat → List L2Line → List L2Line
    | 0, l => l
    | _, [] => []
    | k + 1, x :: r => if mine x then go k r else x :: go (k + 1) r
  { d with l2 := go extra d.l2 }

/-- A home serves a request for the line of a physical address from its cache, which it fills if need be; a write leaves
memory older (R221, R225). -/
def State.l2Touch (s : State) (p : Nat) (write : Bool) : State :=
  if !tracked p then s
  else s.modDie (homeDie p) (fun d =>
    let b := lineOf p
    if d.l2.any (fun x => x.base == b) then
      (if write then { d with l2 := d.l2.map (fun x => if x.base = b then { x with dirty := true } else x) } else d)
    else
      let d1 := { d with l2 := d.l2 ++ [{ base := b, dirty := write }] }
      if d.l2Stage.isEmpty && d.l2Off.isEmpty && decide (d1.l2.length ≤ 32768) then d1 else d1.l2Trim (homeOf p).2)

/-! ## Filling L1 (R131, R133, R134, R219) -/

/-- Make room for one more line: the oldest writes back its owned dirty bytes and releases its ownership (R219). -/
def State.l1Room (s : State) (f : Nat) : State :=
  let x := s.fold f
  if x.l1.length < 2048 - x.l1Off then s
  else match x.l1 with
    | [] => s
    | o :: r =>
      let s1 := if o.owned = 0 then s else (s.l2Touch o.base true).disown f o.base (o.base + 127)
      s1.modFold f (fun y => { y with l1 := if y.l1.isEmpty then r else y.l1.drop 1 })

/-- A fold's line that holds address `p` is changed; a line that is not there is brought in with no word valid. -/
def State.modLine (s : State) (f p : Nat) (g : L1Line → L1Line) : State :=
  let b := lineOf p
  if (s.fold f).l1.any (fun x => x.base == b) then
    s.modFold f (fun y => { y with l1 := y.l1.map (fun x => if x.base = b then g x else x) })
  else
    let s1 := s.l1Room f
    s1.modFold f (fun y =>
      if 2048 ≤ y.l1Off then y
      else { y with l1 := y.l1 ++ [g { base := b, valid := 0, owned := 0, dirty := 0, si := [] }] })

/-- Words of a line become ordinary valid ones, owned when `own` is set. -/
def L1Line.fill (x : L1Line) (w : BitVec 32) (own : Bool) : L1Line :=
  { x with valid := x.valid ||| w, owned := if own then x.owned ||| w else x.owned,
           si := x.si.filter (fun kv => !w.getLsbD kv.1) }

/-- Words of a line that are not valid otherwise become self-invalidating copies for team `tid`; those the team holds
already are read again with them, so that the copies of one line are of one moment (R130, R220). `rd` reads a word. -/
def L1Line.fillSi (x : L1Line) (w : BitVec 32) (tid : Nat) (rd : Nat → List Byte) : L1Line :=
  let mine := x.si.foldl (fun m kv => if kv.2.1 = tid then m ||| BitVec.ofNat 32 (2 ^ kv.1) else m) 0
  let new := (w &&& (~~~x.valid ||| x.siWords)) ||| mine
  { x with valid := x.valid ||| new,
           si := (List.range 32).foldl (fun t i => if new.getLsbD i then Tbl.put t i (tid, rd i) else t) x.si }

/-- Words of another device's line become self-invalidating copies for team `tid` with the bytes given; those of an earlier
moment leave (R130, R220). -/
def L1Line.keepSi (x : L1Line) (w : BitVec 32) (tid : Nat) (rd : Nat → List Byte) : L1Line :=
  let y := x.drop (x.si.foldl (fun m kv => if kv.2.1 = tid then m ||| BitVec.ofNat 32 (2 ^ kv.1) else m) 0) true
  let new := w &&& (~~~y.valid ||| y.siWords)
  { y with valid := y.valid ||| new,
           si := (List.range 32).foldl (fun t i => if new.getLsbD i then Tbl.put t i (tid, rd i) else t) y.si }

/-- What a load or a prefetch with a request type brings to L1 for bytes lo to hi of one line (R133, R219): 0 owned, 1
valid, 2 self-invalidating for the team, 3 nothing. -/
def State.fillL1 (s : State) (f tid rt lo hi : Nat) : State :=
  let b := lineOf lo
  let w := lineWords b lo hi
  let s1 := s.l2Touch lo false
  match rt with
  | 0 => s1.modLine f lo (fun x => x.fill w true)
  | 1 => s1.modLine f lo (fun x => x.fill w false)
  | 2 => s1.modLine f lo (fun x => x.fillSi w tid (fun i => Memory.readN s.mem (b + 4 * i) 4))
  | _ => s1

/-- The self-invalidating copies of a fold follow a store of its own to bytes from `key` (R134: a store updates any L1
copy). -/
def L1Line.update (x : L1Line) (key : Nat) (bs : List Byte) : L1Line :=
  { x with si := x.si.map (fun kv =>
      (kv.1, kv.2.1, kv.2.2.zipIdx.map (fun y =>
        let a := x.base + 4 * kv.1 + y.2
        if key ≤ a ∧ a < key + bs.length then bs.getD (a - key) y.1 else y.1))) }

/-- What a store of a fold does to the copies of its bytes (R134, R219, R225), with a request type: 0 writes L1 with
ownership, 1 and 2 write through, 3 writes the home alone. -/
def State.storeL1 (s : State) (f rt key : Nat) (bs : List Byte) : State :=
  let hi := key + bs.length - 1
  let s1 := if tracked key then s.takeBytes (some f) key hi false else s
  if rt = 0 then
    s1.modLine f key (fun x =>
      let y := x.fill (lineWords x.base key hi) true
      { y with dirty := y.dirty ||| lineBytes x.base key hi })
  else
    let s2 := s1.l2Touch key true
    if rt = 3 then
      (if tracked key then s2.disown f key hi else s2).modFold f (fun y => y.dropWords key hi true)
    else if (s2.fold f).l1.isEmpty then s2
    else (s2.modFold f (fun y => y.cleanBytes key hi)).modFold f (fun y =>
      { y with l1 := y.l1.map (fun x => if x.base = lineOf key then x.update key bs else x) })

/-- A write at a home by an agent that has no L1 (R222, R225, R302): owners are recalled and every copy is dropped. -/
def State.recallAll (s : State) (key n : Nat) : State :=
  if n = 0 ∨ tracked key = false then s
  else
    let s1 := s.takeBytes none key (key + n - 1) true
    if (s1.die (homeDie key)).l2.any (fun x => x.base == lineOf key) then s1.l2Touch key true else s1

end Sys2Proof.Machine
end

