-- ==== Sys2Proof/Machine/Float.lean ====
section
/-! DEFINITION. Number formats and rounding (R104 to R112): codes are decoded to exact values, operations are formed
exactly, and one function rounds. -/

namespace Sys2Proof.Machine

/-- A binary format with its exponent and fraction widths, its bias, and the magnitude code of its largest finite
value (R105, R108). -/
structure Fmt where
  ew : Nat
  mw : Nat
  bias : Int
  maxCode : Nat

/-- FP32 (R105). -/
def Fmt.f32 : Fmt := { ew := 8, mw := 23, bias := 127, maxCode := 0x7F7FFFFF }
/-- FP16 (R105). -/
def Fmt.f16 : Fmt := { ew := 5, mw := 10, bias := 15, maxCode := 0x7BFF }
/-- BF16 (R105). -/
def Fmt.bf16 : Fmt := { ew := 8, mw := 7, bias := 127, maxCode := 0x7F7F }

/-- The magnitude code of infinity in an IEEE format. -/
def Fmt.infCode (f : Fmt) : Nat := (2 ^ f.ew - 1) * 2 ^ f.mw
/-- The sign bit of a code. -/
def Fmt.signBit (f : Fmt) : Nat := 2 ^ (f.ew + f.mw)
/-- The canonical quiet NaN (R106). -/
def Fmt.qnan (f : Fmt) : Nat := f.infCode + 2 ^ (f.mw - 1)
/-- The width of a code in bits. -/
def Fmt.width (f : Fmt) : Nat := 1 + f.ew + f.mw

/-- A decoded value: a NaN (signalling or quiet), an infinity, or the number (−1)^neg · m · 2^e. -/
inductive Fv where
  | nan (sig : Bool)
  | inf (neg : Bool)
  | num (neg : Bool) (m : Nat) (e : Int)
deriving DecidableEq, Repr

/-- The value of an IEEE code (R105). -/
def Fmt.decode (f : Fmt) (code : Nat) : Fv :=
  let neg := code / f.signBit % 2 = 1
  let ex := code / 2 ^ f.mw % 2 ^ f.ew
  let fr := code % 2 ^ f.mw
  if ex = 2 ^ f.ew - 1 then
    if fr = 0 then .inf neg else .nan (fr < 2 ^ (f.mw - 1))
  else if ex = 0 then .num neg fr (1 - f.bias - f.mw)
  else .num neg (fr + 2 ^ f.mw) (ex - f.bias - f.mw)

/-- A subnormal number read as a zero of its sign (R110). -/
def Fmt.flushIn (f : Fmt) (v : Fv) : Fv :=
  match v with
  | .num neg m e => if m < 2 ^ f.mw then .num neg 0 e else .num neg m e
  | v => v

/-- The sign bit of a code set when `neg`. -/
def Fmt.sign (f : Fmt) (neg : Bool) (mag : Nat) : Nat := if neg then f.signBit + mag else mag

/-- The five exceptions of R112, in the order of FP_CTL's sticky bits. -/
def xNV : BitVec 5 := 1
def xDZ : BitVec 5 := 2
def xOF : BitVec 5 := 4
def xUF : BitVec 5 := 8
def xNX : BitVec 5 := 16

/-- m · 2^−sh rounded to an integer by mode (R109: 0 RN, 1 RZ, 2 RU, 3 RD), and whether the result is inexact. A tie of RN
takes the even integer, also in a format without a fraction bit (DESIGN CHOICE, unsafe: log entry 63). -/
def roundShift (rnd : Nat) (neg : Bool) (m : Nat) (sh : Int) : Nat × Bool :=
  if sh ≤ 0 then (m * 2 ^ (-sh).toNat, false)
  else
    let d := 2 ^ (min sh.toNat (m.log2 + 3))
    let q := m / d
    let r := m % d
    let up : Bool :=
      match rnd with
      | 0 => decide (2 * r > d) || (decide (2 * r = d) && q % 2 == 1)
      | 1 => false
      | 2 => r != 0 && !neg
      | _ => r != 0 && neg
    (q + b2n up, r != 0)

/-- The magnitude code nearest to m · 2^e under a mode, as if the exponent range had no upper bound; whether it is
inexact; whether it is tiny after rounding (R109, R111). -/
def Fmt.roundMag (f : Fmt) (rnd : Nat) (neg : Bool) (m : Nat) (e : Int) : Nat × Bool × Bool :=
  if m = 0 then (0, false, false)
  else
    let top := (m.log2 : Int) + e
    let qmin := 1 - f.bias - f.mw
    if top > 2 ^ f.ew + f.mw - f.bias then (f.maxCode + 1, true, false)
    else
      let qu := top - f.mw
      let q := max qu qmin
      let (r, inex) := roundShift rnd neg m (q - e)
      let (ru, _) := roundShift rnd neg m (qu - e)
      let tiny := decide (qu < qmin) && !(decide (qu + 1 = qmin) && decide (ru = 2 ^ (f.mw + 1)))
      (r + (q - qmin).toNat * 2 ^ f.mw, inex, tiny)

/-- What a mode delivers for an overflow: infinity or the largest finite magnitude (R109). -/
def Fmt.overflow (f : Fmt) (rnd : Nat) (neg : Bool) : Nat :=
  match rnd with
  | 0 => f.sign neg f.infCode
  | 1 => f.sign neg f.maxCode
  | 2 => if neg then f.sign true f.maxCode else f.infCode
  | _ => if neg then f.sign true f.infCode else f.maxCode

/-- An exact non-zero or zero number rounded into an IEEE format, with its exceptions (R109 to R112). -/
def Fmt.round (f : Fmt) (rnd : Nat) (ftz neg : Bool) (m : Nat) (e : Int) : Nat × BitVec 5 :=
  let (mag, inex, tiny) := f.roundMag rnd neg m e
  if mag > f.maxCode then (f.overflow rnd neg, xOF ||| xNX)
  else if ftz && tiny then (f.sign neg 0, xUF ||| xNX)
  else (f.sign neg mag, (if inex then xNX else 0) ||| (if inex && tiny then xUF else 0))

/-- The product of two values; `none` is the invalid 0 · ∞ (R112). -/
def Fv.mul : Fv → Fv → Option Fv
  | .nan s, _ => some (.nan s)
  | _, .nan s => some (.nan s)
  | .inf n, .inf n' => some (.inf (n != n'))
  | .inf n, .num n' m _ => if m = 0 then none else some (.inf (n != n'))
  | .num n m _, .inf n' => if m = 0 then none else some (.inf (n != n'))
  | .num n m e, .num n' m' e' => some (.num (n != n') (m * m') (e + e'))

/-- The value with its sign inverted. -/
def Fv.neg : Fv → Fv
  | .nan s => .nan s
  | .inf n => .inf !n
  | .num n m e => .num (!n) m e

def Fv.isNan : Fv → Bool
  | .nan _ => true
  | _ => false

def Fv.isSig : Fv → Bool
  | .nan s => s
  | _ => false

/-- Whether a value is an infinity of the given sign. -/
def Fv.isInf (neg : Bool) : Fv → Bool
  | .inf n => n == neg
  | _ => false

/-- Whether a value is a zero of the given sign. -/
def Fv.isZero (neg : Bool) : Fv → Bool
  | .num n m _ => n == neg && m == 0
  | _ => false

/-- The least exponent among numbers. -/
def minExp : List Fv → Int
  | [] => 0
  | [.num _ _ e] => e
  | .num _ _ e :: r => min e (minExp r)
  | _ :: r => minExp r

/-- The sum of the numbers of a list, in units of 2^e0. -/
def sumAt (e0 : Int) : List Fv → Int
  | [] => 0
  | .num n m e :: r => (if n then -(m * 2 ^ (e - e0).toNat : Int) else (m * 2 ^ (e - e0).toNat : Int)) + sumAt e0 r
  | _ :: r => sumAt e0 r

/-- The exact sum of addends rounded once, with the sign of a zero sum as R109 gives; NaN and infinities as R115,
R117 and R155. The exceptions are those of the sum alone. A quiet NaN beside infinities of opposite signs raises no NV
(DESIGN CHOICE, unsafe: log entry 64). -/
def Fmt.sum (f : Fmt) (rnd : Nat) (ftz : Bool) (xs : List Fv) : Nat × BitVec 5 :=
  if xs.any Fv.isNan then (f.qnan, 0)
  else if xs.any (Fv.isInf false) && xs.any (Fv.isInf true) then (f.qnan, xNV)
  else if xs.any (Fv.isInf false) then (f.infCode, 0)
  else if xs.any (Fv.isInf true) then (f.sign true f.infCode, 0)
  else
    let e0 := minExp xs
    let v := sumAt e0 xs
    if v = 0 then
      if !xs.isEmpty && xs.all (Fv.isZero true) then (f.sign true 0, 0)
      else if xs.all (Fv.isZero false) then (0, 0)
      else (f.sign (rnd == 3) 0, 0)
    else f.round rnd ftz (decide (v < 0)) v.natAbs e0

/-- Signalling inputs raise NV (R106). -/
def sigExc (xs : List Fv) : BitVec 5 := if xs.any Fv.isSig then xNV else 0

/-- An NV exception stands alone for its element (R112). -/
def nvAlone (r : Nat × BitVec 5) : Nat × BitVec 5 := if r.2 &&& xNV != 0 then (r.1, xNV) else r

/-- a · b + t with the product exact and one rounding (R115). -/
def Fmt.fma (f : Fmt) (rnd : Nat) (ftz : Bool) (a b t : Fv) : Nat × BitVec 5 :=
  match Fv.mul a b with
  | none => (f.qnan, xNV)
  | some p =>
    let r := f.sum rnd ftz [p, t]
    nvAlone (r.1, r.2 ||| sigExc [a, b, t])

/-- The code of a value that is delivered as it stands (R116). -/
def Fmt.code (f : Fmt) (v : Fv) : Nat :=
  match v with
  | .nan _ => f.qnan
  | .inf n => f.sign n f.infCode
  | .num n m e => (f.round 0 false n m e).1

/-- Whether x is below y as numbers, −0 below +0 (R116). -/
def Fv.lt (x y : Fv) : Bool :=
  match x, y with
  | .nan _, _ => false
  | _, .nan _ => false
  | .inf n, .inf n' => n && !n'
  | .inf n, .num .. => n
  | .num .., .inf n => !n
  | .num n m e, .num n' m' e' =>
    if m = 0 ∧ m' = 0 then n && !n'
    else
      let e0 := min e e'
      decide (sumAt e0 [.num n m e] < sumAt e0 [.num n' m' e'])

/-- fmin and fmax (R116). -/
def Fmt.minmax (f : Fmt) (isMax : Bool) (a t : Fv) : Nat × BitVec 5 :=
  let x := sigExc [a, t]
  match a.isNan, t.isNan with
  | true, true => (f.qnan, x)
  | true, false => (f.code t, x)
  | false, true => (f.code a, x)
  | false, false => (f.code (if isMax then (if Fv.lt a t then t else a) else (if Fv.lt t a then t else a)), x)

/-- Equal as numbers: −0 equals +0, and no NaN equals anything (R91). -/
def Fv.eqv (x y : Fv) : Bool :=
  match x, y with
  | .inf n, .inf n' => n == n'
  | .num n m e, .num n' m' e' =>
    let e0 := min e e'
    decide (sumAt e0 [.num n m e] = sumAt e0 [.num n' m' e'])
  | _, _ => false

/-- The value m · 2^e rounded to an integer by a mode, and whether that changed it (R119). -/
def toInteger (rnd : Nat) (neg : Bool) (m : Nat) (e : Int) : Int × Bool :=
  let (q, inex) := roundShift rnd neg m (-e)
  (if neg then -(q : Int) else q, inex)

/-- sat (R8) of an integer at width w. -/
def satInt (signed : Bool) (w : Nat) (x : Int) : Int :=
  if signed then max (-(2 ^ (w - 1) : Int)) (min x (2 ^ (w - 1) - 1)) else max 0 (min x (2 ^ w - 1))

/-- wrap (R8) of an integer at width w, extended to 32 bits by the signedness (R104). -/
def wrapInt (signed : Bool) (w : Nat) (x : Int) : Nat :=
  let b := BitVec.ofInt w x
  if signed then (b.signExtend 32).toNat else (b.zeroExtend 32).toNat

/-- A finite value too large for a shift of sensible size is clamped before conversion to an integer: every integer
format saturates or wraps by its low bits, which are zero for such a value. -/
def toIntCode (signed : Bool) (w : Nat) (rnd : Nat) (sat : Bool) (t : Fv) : Nat × BitVec 5 :=
  match t with
  | .nan _ => (0, xNV)
  | .inf n =>
    let lim : Int := if n then (if signed then -(2 ^ (w - 1)) else 0) else (if signed then 2 ^ (w - 1) - 1 else 2 ^ w - 1)
    (if sat then wrapInt signed w lim else 0, xNV)
  | .num n m e =>
    let (i, inex) := toInteger rnd n m e
    let out := satInt signed w i ≠ i
    (wrapInt signed w (if sat then satInt signed w i else i), if out then xNV else if inex then xNX else 0)

/-- A float value converted to another IEEE format (R118). `sat` is SAT on pairs 0 and 1. -/
def Fmt.convert (f : Fmt) (rnd : Nat) (sat : Bool) (v : Fv) : Nat × BitVec 5 :=
  match v with
  | .nan s => (f.qnan, if s then xNV else 0)
  | .inf n => (f.sign n (if sat then f.maxCode else f.infCode), 0)
  | .num n m e =>
    let r := f.round rnd false n m e
    if sat && r.2 &&& xOF != 0 then (f.sign n f.maxCode, r.2) else r

/-- The class bit of a value in its format (R122). -/
def Fmt.fclass (f : Fmt) (v : Fv) : Nat :=
  match v with
  | .inf true => 1
  | .inf false => 2 ^ 7
  | .nan true => 2 ^ 8
  | .nan false => 2 ^ 9
  | .num n m _ =>
    if m = 0 then (if n then 2 ^ 3 else 2 ^ 4)
    else if m < 2 ^ f.mw then (if n then 2 ^ 2 else 2 ^ 5)
    else if n then 2 ^ 1 else 2 ^ 6

/-- frexp's exponent (R122): t = m · 2^e with 0.5 ≤ |m| < 1; the integer minimum of width w for ±∞ and NaN. -/
def frexpExp (w : Nat) (v : Fv) : Int × BitVec 5 :=
  match v with
  | .num _ m e => if m = 0 then (0, 0) else ((m.log2 : Int) + 1 + e, 0)
  | .inf _ => (-(2 ^ (w - 1) : Int), 0)
  | .nan s => (-(2 ^ (w - 1) : Int), if s then xNV else 0)

/-- frint (R122): rounded to an integral value in its own format; never NX. -/
def Fmt.frint (f : Fmt) (rnd : Nat) (v : Fv) : Nat × BitVec 5 :=
  match v with
  | .num n m e =>
    if e ≥ 0 then (f.code v, 0)
    else
      let (q, _) := roundShift rnd n m (-e)
      (f.code (.num n q 0), 0)
  | .nan s => (f.qnan, if s then xNV else 0)
  | .inf n => (f.sign n f.infCode, 0)

/-- ldexp (R122): a · 2^k rounded by RN. -/
def Fmt.ldexp (f : Fmt) (v : Fv) (k : Int) : Nat × BitVec 5 :=
  match v with
  | .num n m e => if m = 0 then (f.sign n 0, 0) else f.round 0 false n m (e + k)
  | .nan s => (f.qnan, if s then xNV else 0)
  | .inf n => (f.sign n f.infCode, 0)

/-- A format register's description (R108, R316): the free split or a named format. -/
structure Narrow where
  s : Nat
  e : Nat
  m : Nat
  b : Int
  p : Nat
  sel : Nat

/-- The fields of a format register (R316). -/
def Narrow.of (w : W32) : Narrow :=
  let n := w.toNat
  { s := bits n 31 31, e := bits n 30 28, m := bits n 27 25, b := (BitVec.ofNat 6 (bits n 24 19)).toInt,
    p := bits n 18 17, sel := bits n 7 0 }

/-- The width of a free split's code (R108). -/
def Narrow.width (d : Narrow) : Nat := d.s + d.e + d.m

/-- Whether `cvt.fm` raises C_MXFORMAT for the description (R108, R120). -/
def Narrow.malformed (d : Narrow) : Bool :=
  if d.sel = 0 then
    d.width = 0 || d.width > 8 ||
      (d.e > 0 && ((d.p = 1 && d.m = 0) || (d.p = 3 && d.s = 0) || (d.p = 2 && d.e + d.m = 1)))
  else d.sel > 4

/-- The magnitude code of the largest finite value of a free split with an exponent (R108): with E = 1 and P = 1 the largest
subnormal, where the table's formula names no code (DESIGN CHOICE, unsafe: log entry 65). -/
def Narrow.maxCode (d : Narrow) : Nat :=
  match d.p with
  | 1 => (2 ^ d.e - 1) * 2 ^ d.m - 1
  | 2 => 2 ^ (d.e + d.m) - 2
  | _ => 2 ^ (d.e + d.m) - 1

/-- The format that a free split with an exponent is for rounding. -/
def Narrow.fmt (d : Narrow) : Fmt := { ew := d.e, mw := d.m, bias := d.b, maxCode := d.maxCode }

/-- The value of a free-split code with an exponent (R108). -/
def Narrow.decodeFloat (d : Narrow) (code : Nat) : Fv :=
  let neg := d.s = 1 && code / 2 ^ (d.e + d.m) % 2 = 1
  let mag := code % 2 ^ (d.e + d.m)
  let ex := mag / 2 ^ d.m
  let fr := mag % 2 ^ d.m
  if d.p = 1 ∧ ex = 2 ^ d.e - 1 then (if fr = 0 then .inf neg else .nan false)
  else if d.p = 2 ∧ mag = 2 ^ (d.e + d.m) - 1 then .nan false
  else if d.p = 3 ∧ neg = true ∧ mag = 0 then .nan false
  else if ex = 0 then .num neg fr (1 - d.b - d.m)
  else .num neg (fr + 2 ^ d.m) (ex - d.b - d.m)

/-- The value of a code of a format register's format, named or free (R108, R318). -/
def Narrow.decode (d : Narrow) (code : Nat) : Fv :=
  let int (w : Nat) (c : Nat) : Fv :=
    let i := (BitVec.ofNat w c).toInt
    .num (decide (i < 0)) i.natAbs 0
  match d.sel with
  | 0 =>
    if d.e = 0 then (if d.s = 1 then int (d.m + 1) code else .num false (code % 2 ^ d.m) 0)
    else d.decodeFloat (code % 2 ^ d.width)
  | 1 => Fmt.f16.decode (code % 2 ^ 16)
  | 2 => Fmt.bf16.decode (code % 2 ^ 16)
  | 3 => int 8 code
  | _ => int 4 code

/-- A finite FP32 value rounded into a free split with an exponent (R120). `rnd` is 0 RN or 1 RZ. -/
def Narrow.roundFinite (d : Narrow) (rnd : Nat) (neg : Bool) (m : Nat) (e : Int) : Nat × BitVec 5 :=
  let top := 2 ^ (d.e + d.m)
  let sgn (mag : Nat) : Nat := if neg && d.s = 1 then top + mag else mag
  if neg && d.s = 0 then (0, if m = 0 then 0 else xNV)
  else if m = 0 then (if d.p = 3 then 0 else sgn 0, 0)
  else
    let (mag, inex, tiny) := d.fmt.roundMag rnd neg m e
    if mag > d.maxCode then
      (sgn (if d.p = 1 ∧ rnd = 0 then (2 ^ d.e - 1) * 2 ^ d.m else d.maxCode), xOF ||| xNX)
    else if d.p = 3 ∧ mag = 0 then (0, (if inex then xNX else 0) ||| (if inex && tiny then xUF else 0))
    else (sgn mag, (if inex then xNX else 0) ||| (if inex && tiny then xUF else 0))

/-- `cvt.fm.to` (R120): an FP32 value as a code of the format, and its exceptions. -/
def Narrow.encode (d : Narrow) (rnd : Nat) (v : Fv) : Nat × BitVec 5 :=
  match d.sel with
  | 0 =>
    let top := 2 ^ (d.e + d.m)
    if d.e = 0 then
      let signed : Bool := d.s = 1
      let lo : Int := if signed then -(2 ^ d.m) else 0
      let hi : Int := 2 ^ d.m - 1
      let put (i : Int) : Nat := (i % (2 ^ d.width : Int)).toNat
      match v with
      | .nan _ => (0, xNV)
      | .inf n => (put (if n then lo else hi), xNV)
      | .num n m e =>
        if n && !signed then (0, if m = 0 then 0 else xNV)
        else
          let (i, inex) := toInteger rnd n m e
          if i < lo then (put lo, xNV) else if hi < i then (put hi, xNV) else (put i, if inex then xNX else 0)
    else
      match v with
      | .nan s =>
        let nv : BitVec 5 := if s || d.p = 0 then xNV else 0
        (match d.p with
          | 0 => 0
          | 1 => top - 1
          | 2 => top - 1
          | _ => top, nv)
      | .inf n =>
        if n && d.s = 0 then (0, xNV)
        else
          let sgn (mag : Nat) : Nat := if n then top + mag else mag
          if d.p = 1 then (sgn ((2 ^ d.e - 1) * 2 ^ d.m), 0) else (sgn d.maxCode, xNV)
      | .num n m e => d.roundFinite rnd n m e
  | 1 => Fmt.f16.convert rnd false v
  | 2 => Fmt.bf16.convert rnd false v
  | 3 => let r := toIntCode true 8 rnd true v; (r.1 % 2 ^ 8, r.2)
  | _ => let r := toIntCode true 4 rnd true v; (r.1 % 2 ^ 4, r.2)

/-- The element formats of the packed and unpacked types: TYPE 0 f32, 1 f16x2, 2 bf16x2 (R54). -/
def typeFmt (ty : Nat) : Fmt := match ty with
  | 0 => Fmt.f32
  | 1 => Fmt.f16
  | _ => Fmt.bf16

/-- One element operation done on each element of a lane value, with the union of the exceptions (R107). -/
def perElem1 (ty : Nat) (f : Nat → Nat × BitVec 5) (t : Nat) : Nat × BitVec 5 :=
  if ty = 0 then f (t % 2 ^ 32)
  else
    let r0 := f (t % 2 ^ 16)
    let r1 := f (t / 2 ^ 16 % 2 ^ 16)
    (r0.1 % 2 ^ 16 + 2 ^ 16 * (r1.1 % 2 ^ 16), r0.2 ||| r1.2)

/-- The same for operations of two operands. -/
def perElem2 (ty : Nat) (f : Nat → Nat → Nat × BitVec 5) (a t : Nat) : Nat × BitVec 5 :=
  if ty = 0 then f (a % 2 ^ 32) (t % 2 ^ 32)
  else
    let r0 := f (a % 2 ^ 16) (t % 2 ^ 16)
    let r1 := f (a / 2 ^ 16 % 2 ^ 16) (t / 2 ^ 16 % 2 ^ 16)
    (r0.1 % 2 ^ 16 + 2 ^ 16 * (r1.1 % 2 ^ 16), r0.2 ||| r1.2)

/-- The same for operations of three operands. -/
def perElem3 (ty : Nat) (f : Nat → Nat → Nat → Nat × BitVec 5) (a b t : Nat) : Nat × BitVec 5 :=
  if ty = 0 then f (a % 2 ^ 32) (b % 2 ^ 32) (t % 2 ^ 32)
  else
    let r0 := f (a % 2 ^ 16) (b % 2 ^ 16) (t % 2 ^ 16)
    let r1 := f (a / 2 ^ 16 % 2 ^ 16) (b / 2 ^ 16 % 2 ^ 16) (t / 2 ^ 16 % 2 ^ 16)
    (r0.1 % 2 ^ 16 + 2 ^ 16 * (r1.1 % 2 ^ 16), r0.2 ||| r1.2)

/-- An input element of FA, FB or SF: subnormals read as zeros under FTZ and always for BF16 (R110). -/
def inElem (ty : Nat) (ftz : Bool) (code : Nat) : Fv :=
  let f := typeFmt ty
  let v := f.decode code
  if ftz || ty == 2 then f.flushIn v else v

end Sys2Proof.Machine
end

