-- ==== Sys2Proof/Machine/Flags.lean ====
section
/-! DEFINITION. What a result changes when it lands (R16, R27, R86, R92, R111 to R114): R, the carry latch, a predicate,
the sticky bits of FP_CTL, and the trap of an enabled exception. -/

namespace Sys2Proof.Machine

/-- The enabled ones of a set of exceptions (R113): enable bits 12:8 in the order NV, DZ, OF, UF, NX. -/
def enabledExc (ctl : W64) (e : BitVec 5) : BitVec 5 := e &&& ctl.extractLsb' 8 5

/-- The lowest exception of a set, NV first (R112). -/
def lowExc (e : BitVec 5) : Nat := ((List.range 5).find? (fun i => e.getLsbD i)).getD 0

/-- The union of the exceptions of the lanes of `m`. -/
def excUnion (m : Lanes) (n : Nat) (excs : List (BitVec 5)) : BitVec 5 :=
  (Lanes.list m n).foldl (fun acc l => acc ||| excs.getD l 0) 0

/-- The lanes of `m` on which an enabled exception arose (R114). -/
def excLanes (ctl : W64) (m : Lanes) (n : Nat) (excs : List (BitVec 5)) : Lanes :=
  Lanes.of n (fun l => m.getLsbD l && enabledExc ctl (excs.getD l 0) != 0)

/-- FP_CTL with the sticky bits of a set of exceptions (R113). -/
def stick (ctl : W64) (e : BitVec 5) : W64 := ctl ||| e.zeroExtend 64

/-- The trap of exceptions that land together (R114), if any is enabled. -/
def fpTrap (ctl : W64) (m : Lanes) (n : Nat) (excs : List (BitVec 5)) (bundle cycle : W64) : Option DueTrap :=
  let en := enabledExc ctl (excUnion m n excs)
  if en = 0 then none
  else some { DueTrap.of (BitVec.ofNat 7 (0x12 + lowExc en)) bundle cycle with
              lanes := some (excLanes ctl m n excs) }

/-- Land one result (R16, R86, R92, R113): lanes that have retired since the trigger take nothing (R99). -/
def Ctx.landOne (c : Ctx) (p : Pend) : Ctx :=
  let m := p.mask &&& c.live
  let c1 : Ctx :=
    if p.unit = U.cm then
      if p.kdst = 0 then c
      else { c with k := Tbl.upd c.k p.kdst.toNat 0 (fun old =>
        (old &&& ~~~m) ||| (m &&& Lanes.of c.nlanes (fun l => (p.vals.at l).getLsbD 0))) }
    else
      let q := c.us.unit p.unit
      let r := if p.unit = U.ua then p.vals else Vals.merge c.nlanes m (fun l => p.vals.at l) q.r
      let carry := match p.carry with
        | some x => (q.carry &&& ~~~m) ||| (x &&& m)
        | none => q.carry
      { c with us := c.us.setUnit p.unit { q with r := r, carry := carry } }
  { c1 with fpCtl := stick c1.fpCtl (excUnion m c.nlanes p.excs) }

/-- The one trap of several exceptions at one point: the lowest cause code, with every lane on which one of them arose
(R114). -/
def lowerTrap (a b : Option DueTrap) : Option DueTrap :=
  match a, b with
  | none, y => y
  | x, none => x
  | some x, some y =>
    some { (if y.code < x.code then y else x) with lanes := some (x.lanes.getD 0 ||| y.lanes.getD 0) }

/-- The results that land within the next `n` counted bundles (R16). -/
def Ctx.dueWithin (c : Ctx) (n : Nat) : List Pend := c.us.pend.filter (fun p => decide (p.left < n))

/-- The trap of the enabled exceptions of a list of results (R114). -/
def Ctx.excTrap (c : Ctx) (ps : List Pend) : Option DueTrap :=
  ps.foldl (fun acc p => lowerTrap acc (fpTrap c.fpCtl (p.mask &&& c.live) c.nlanes p.excs p.bundle p.cycle)) none

/-- The exceptions of a list of results (R113). -/
def Ctx.excBits (c : Ctx) (ps : List Pend) : BitVec 5 :=
  ps.foldl (fun acc p => acc ||| excUnion (p.mask &&& c.live) c.nlanes p.excs) 0

/-- Land every result of the next `n` counted bundles, in the order of the triggers (R16); the FP trap becomes due
(R114). -/
def Ctx.landWithin (c : Ctx) (n : Nat) : Ctx :=
  let due := c.dueWithin n
  if due.isEmpty then c
  else
    let c0 := { c with us := { c.us with pend := c.us.pend.filter (fun p => !decide (p.left < n)) } }
    let c1 := due.foldl Ctx.landOne c0
    match c.excTrap due with
    | none => c1
    | some d => c1.addDue d

/-- The context at the issue of its next bundle: the results whose count has run out have landed (R16). An idle bundle
holds the landing back until its count ends. -/
def Ctx.land (c : Ctx) : Ctx :=
  match c.wait with
  | .idle _ => c
  | _ => c.landWithin 1

/-- Whether the landing before the next bundle brings an enabled exception, whose trap is taken before that bundle
issues and finds every result of that point in R (R114). -/
def Ctx.landsTrap (c : Ctx) : Bool :=
  match c.wait with
  | .idle _ => false
  | _ => (c.excTrap (c.dueWithin 1)).isSome

/-- The context at the boundary before its next bundle: a result stays in flight until that bundle issues, unless an
enabled exception lands with it (R16, R114, R390). -/
def Ctx.boundary (c : Ctx) : Ctx := if c.landsTrap then c.land else c

/-- A bundle count of `n` passes for every result in flight (R16, R34). -/
def Ctx.countDown (c : Ctx) (n : Nat) : Ctx :=
  { c with us := { c.us with pend := c.us.pend.map (fun p => { p with left := p.left - n }) } }

end Sys2Proof.Machine
end

