-- ==== Sys2Proof/Machine/Operands.lean ====
section
/-! DEFINITION. Operand forms: the fields of a move (R40 to R42), the ports each unit has (R13), guards (R25), sources
with their widths (R11, R12), and destinations (R14, R15, R21, R41). -/

namespace Sys2Proof.Machine

/-- A move syllable with its fields as R40 lays them out, in its slot. -/
structure Move where
  slot : Nat
  word : W32
  stop : Bool
  neg : Bool
  guard : Nat
  dunit : Nat
  dport : Nat
  dsel : Nat
  skind : Nat
  ssel : Nat
deriving DecidableEq, Repr

/-- The fields of a syllable (R40). -/
def Move.of (slot : Nat) (w : W32) : Move :=
  let n := w.toNat
  { slot := slot, word := w, stop := bit n 31, neg := bit n 30, guard := bits n 29 27, dunit := bits n 26 22,
    dport := bits n 21 20, dsel := bits n 19 12, skind := bits n 11 10, ssel := bits n 9 0 }

/-- A bundle that reaches issue (R23): its header, extension, moves in slot order, long immediate, the address its
offsets are reckoned from and the address of the bundle that follows (R35). -/
structure Bundle where
  header : Parcel
  ext : W32
  moves : List Move
  limm : W32
  pc : W64
  next : W64
deriving DecidableEq, Repr

def Bundle.isExt (b : Bundle) : Bool := bits b.header.toNat 15 14 == 2
def Bundle.hasLimm (b : Bundle) : Bool := bit b.header.toNat 7
def Bundle.scope (b : Bundle) : BitVec 3 := b.ext.extractLsb' 29 3
def Bundle.wait (b : Bundle) : Nat := bits b.ext.toNat 28 17
def Bundle.seta (b : Bundle) : Nat := bits b.ext.toNat 16 13
def Bundle.setb (b : Bundle) : Nat := bits b.ext.toNat 12 9

/-- Whether a unit has operand port 0 A, 1 B, 2 C or 3 T (R13). -/
def hasPort (u p : Nat) : Bool :=
  match p with
  | 0 => 1 ≤ u && u ≤ 21
  | 1 => u ∈ [3, 4, 5, 6, 10, 13, 14, 17, 18, 19, 21]
  | 2 => u ∈ [10, 14, 17, 18, 19]
  | _ => 1 ≤ u && u ≤ 21

/-- Whether a unit has a readable R port (R13). -/
def hasR (u : Nat) : Bool := 1 ≤ u && u ≤ 21 && !(u ∈ [9, 13, 15])

/-- Whether a port is 64 bits wide (R13). -/
def port64 (u p : Nat) : Bool := u ∈ [15, 20, 21] || (p == 0 && u ∈ [11, 12, 13, 14, 17, 18, 19])

/-- Whether a port holds one value for the team (R14): UA, BR, and SV.A. -/
def uniformPort (u p : Nat) : Bool := u == 15 || u == 21 || (u == 20 && p == 0)

/-- A move that triggers (R40: DPORT 3 of a unit). -/
def Move.isTrig (m : Move) : Bool := m.dport == 3 && m.dunit != 0

/-- A null move (R25). -/
def Move.isNull (m : Move) : Bool := m.neg && m.guard == 0

/-- A register predicate as it reads (R21: k0 reads 1). -/
def Ctx.pred (c : Ctx) (k : Nat) : Lanes := if k = 0 then BitVec.allOnes 1024 else Tbl.get c.k k 0

/-- The live lanes on which a move's guard is true (R25). -/
def Ctx.guardMask (c : Ctx) (m : Move) : Lanes :=
  if m.neg then ~~~(c.pred m.guard) &&& c.live else c.pred m.guard &&& c.live

def Ctx.gReg (c : Ctx) (r l : Nat) : W32 := (Tbl.get c.g r []).getD l 0
def Ctx.sReg (c : Ctx) (r : Nat) : W64 := Tbl.get c.s r 0

/-- The width in bits of a move's destination as R11 converts to it. -/
def Move.width (m : Move) : Nat :=
  if m.dunit = 0 then (match m.dport with | 0 => 32 | 1 => 64 | _ => 1)
  else if m.dport < 3 ∧ m.dsel ≠ 0 then 32
  else if port64 m.dunit m.dport then 64 else 32

/-- A value cut to a width (R11). -/
def cut (w : Nat) (x : W64) : W64 := if w = 64 then x else if w = 32 then zx (lo32 x) else x &&& 1

/-- R of a unit on a lane: one value for UA, one for each lane otherwise. -/
def UnitState.rOf (us : UnitState) (u l : Nat) : W64 := (us.unit u).r.at (if u = 21 then 0 else l)

/-- The value a move's source gives on a lane (R10 to R12), cut to the destination. -/
def Ctx.src (c : Ctx) (b : Bundle) (m : Move) (l : Nat) : W64 :=
  cut m.width
    (match m.skind with
    | 0 =>
      let r := m.ssel % 256
      if r < 128 then zx (c.gReg r l) else if r < 160 then c.sReg (r - 128) else b2w ((c.pred (r - 160)).getLsbD l)
    | 1 => c.us.rOf (m.ssel / 32) l
    | 2 => sextN 10 m.ssel
    | _ =>
      match m.ssel with
      | 0 => sx b.limm
      | 1 => BitVec.ofNat 64 l
      | 2 => BitVec.ofNat 64 c.nlanes
      | 3 => BitVec.ofNat 64 (l / 32)
      | _ => (c.us.unit m.dunit).held.at (if uniformPort m.dunit 3 then 0 else l))

/-- A port value with a move's value written under its modifier (R41). -/
def portWrite (dsel : Nat) (old v : W64) : W64 :=
  match dsel with
  | 1 => (old &&& 0xFFFFFFFF00000000) ||| (v &&& 0xFFFFFFFF)
  | 2 => (old &&& 0xFFFFFFFF) ||| (v <<< 32)
  | _ => v

/-- A value list with a move's write: at index 0 from the lowest lane of the mask for a uniform port (R14), lane by lane
otherwise. -/
def writeVals (uniform : Bool) (n : Nat) (mask : Lanes) (old : Vals) (f : Nat → W64 → W64) : Vals :=
  if uniform then [f (Lanes.low mask n) (old.at 0)] else Vals.merge n mask (fun l => f l (old.at l)) old

/-- Step 2 of R23 for one move: its destination takes its value on the lanes of `mask` (R14, R15, R21, R41). A write to
k0 is discarded. -/
def Ctx.write (c : Ctx) (m : Move) (mask : Lanes) (v : Nat → W64) : Ctx :=
  if mask = 0 then c
  else if m.dunit = 0 then
    match m.dport with
    | 0 => { c with g := Tbl.upd c.g m.dsel [] (fun old =>
        (List.range c.nlanes).map (fun l => if mask.getLsbD l then lo32 (v l) else old.getD l 0)) }
    | 1 => { c with s := Tbl.put c.s m.dsel (v (Lanes.low mask c.nlanes)) }
    | _ =>
      if m.dsel = 0 then c
      else { c with k := Tbl.upd c.k m.dsel 0 (fun old =>
        (old &&& ~~~mask) ||| (mask &&& Lanes.of c.nlanes (fun l => (v l).getLsbD 0))) }
  else
    let p := c.us.unit m.dunit
    let u := uniformPort m.dunit m.dport
    let p1 : UPorts := match m.dport with
      | 0 => { p with a := writeVals u c.nlanes mask p.a (fun l old => portWrite m.dsel old (v l)) }
      | 1 => { p with b := writeVals u c.nlanes mask p.b (fun l old => portWrite m.dsel old (v l)) }
      | 2 => { p with c := writeVals u c.nlanes mask p.c (fun l old => portWrite m.dsel old (v l)) }
      | _ => { p with held := writeVals u c.nlanes mask p.held (fun l _ => v l) }
    { c with us := c.us.setUnit m.dunit p1 }

/-- Steps 1 and 2 of R23: every source and guard is read in `c`, then every destination is written in ascending slot
order, so that the highest slot with a true guard wins on each lane (R24). A later `.lo` or `.hi` write of a port's lane keeps
the other half as a lower slot left it (R41; DESIGN CHOICE, unsafe: log entry 81). -/
def Ctx.doMoves (c : Ctx) (b : Bundle) : List Move → Ctx → Ctx
  | [], acc => acc
  | m :: r, acc => Ctx.doMoves c b r (acc.write m (c.guardMask m) (fun l => c.src b m l))

/-- The trigger of a unit, handed to the unit's operation (R23 step 3): the lanes triggered, the number the operation
takes, the flags the bundle's issue cleared, the scope, and the bundle's addresses and count. -/
structure Trig where
  unit : Nat
  opcode : BitVec 8
  slot : Nat
  mask : Lanes
  uid : Nat
  cleared : List Nat
  scope : BitVec 3
  pc : W64
  next : W64
  cycle : W64
  /-- The predicate table as the bundle's guards read it at issue (R95). -/
  preds : Tbl Lanes
deriving DecidableEq, Repr

/-- A unit's operation: from the state after step 2 to the state with the operation started. -/
abbrev Start := State → CtxId → Trig → State

/-- The predicate a branch reads: as it stood at the issue of the bundle (R95, R102). -/
def Trig.pred (t : Trig) (k : Nat) : Lanes := if k = 0 then BitVec.allOnes 1024 else Tbl.get t.preds k 0

/-- The operand of a uniform or once-per-bundle operation: of the lowest-numbered triggered lane (R158, R186, R296). -/
def Trig.lane (t : Trig) (c : Ctx) : Nat := Lanes.low t.mask c.nlanes

end Sys2Proof.Machine
end

