-- ==== Sys2Proof/Machine/Locks.lean ====
section
/-! DEFINITION. Windows of the generic address space (R210, R211, R217), the range-lock table (R305 to R307) and the
watchpoints (R364 to R366). -/

namespace Sys2Proof.Machine

/-- The tag of a generic address (R210). -/
def tagOf (a : W64) : Nat := bits a.toNat 63 60

/-- A scratchpad byte as R211 resolves a window address: the fold and the physical offset; none is C_SPMWINDOW. -/
def Gang.window (g : Gang) (fold : Nat) (a : W64) : Option (Nat × Nat) :=
  let n := a.toNat
  let off := bits n 30 0
  let k := g.block.scrLog2
  if bits n 59 32 ≠ 0 ∨ k = 0 ∨ 2 ^ k ≤ off then none
  else if tagOf a = 2 ∨ (tagOf a = 1 ∧ bit n 31 = true) then
    if g.block.pair then
      some (partner fold, Tbl.get g.base (1 - g.half fold) 0 + off)
    else none
  else some (fold, Tbl.get g.base (g.half fold) 0 + off)

/-- Whether a lock entry meets an interval of a space. -/
def Lock.meets (k : Lock) (space owner lo hi : Nat) : Bool :=
  k.space == space && k.owner == owner && overlap k.lo k.hi lo hi

/-- What an access that issued when the table's count stood at `seq` meets (R306): a source and a destination entry. -/
def Fold.lockHit (f : Fold) (space owner lo hi seq : Nat) : Bool × Bool :=
  let m := f.locks.filter (fun k => decide (k.seq < seq) && k.meets space owner lo hi)
  (m.any (fun k => !k.dst), m.any Lock.dst)

/-- The space of an entry whose operation has not read its format block yet (R315, R323): it takes its place in the
table, and what could meet it waits until its interval is known. -/
def Lock.unreadSpace : Nat := 9

/-- Whether some entry registered before `seq` has an interval that is not known yet. -/
def Fold.unread (f : Fold) (seq : Nat) : Bool := f.locks.any (fun k => k.space == Lock.unreadSpace && decide (k.seq < seq))

/-- Whether an entry conflicts with an earlier one in R307's sense: one of the two is a destination. MX entries do not
conflict with one another. -/
def Lock.conflicts (later earlier : Lock) : Bool :=
  !(later.mx && earlier.mx) && (earlier.space == Lock.unreadSpace || (later.dst || earlier.dst) && later.space == earlier.space &&
    later.owner == earlier.owner && overlap later.lo later.hi earlier.lo earlier.hi)

/-- Whether operation `uid` of a fold is held behind an earlier one (R307). -/
def Fold.lockHeld (f : Fold) (uid : Nat) : Bool :=
  (f.locks.filter (fun k => k.uid == uid)).any (fun k =>
    f.locks.any (fun e => e.uid != uid && decide (e.seq < k.seq) && k.conflicts e))

/-- Register the entries of an operation (R305). -/
def Fold.addLocks (f : Fold) (ls : List Lock) : Fold :=
  { f with locks := f.locks ++ ls.map (fun k => { k with seq := f.lockSeq }), lockSeq := f.lockSeq + 1 }

/-- Remove the entries of an operation (R304). -/
def Fold.dropLocks (f : Fold) (uid : Nat) : Fold := { f with locks := f.locks.filter (fun k => k.uid != uid) }

/-- What the watchpoints of a fold say of an access (R364): blocked, reported to route U, reported to route S. -/
structure WatchHit where
  block : Bool
  user : Bool
  shadow : Bool
deriving DecidableEq, Repr

/-- Check an access against a fold's watchpoints (R364, R398). `space` is 0 for global virtual addresses and 1 for the
fold's physical scratchpad offsets; kind bit 0 is a read, bit 1 a write. -/
def Fold.watchHit (f : Fold) (space asid : Nat) (flock : W32) (conf : Bool) (lo hi : Nat) (rd wr : Bool) : WatchHit :=
  let hit (w : Watch) : Bool :=
    let n := w.ctl.toNat
    !conf && ((bit n 4 && rd) || (bit n 5 && wr)) && b2n (bit n 6) == space &&
      (space == 1 || bits n 15 8 == asid) && (!bit n 7 || bits n 63 32 == flock.toNat) &&
      overlap w.lo.toNat w.hi.toNat lo hi
  let hs := (f.watch.map Prod.snd).filter hit
  { block := hs.any (fun w => w.ctl.getLsbD 3),
    user := hs.any (fun w => !w.ctl.getLsbD 3 && w.ctl.getLsbD 2),
    shadow := hs.any (fun w => !w.ctl.getLsbD 3 && !w.ctl.getLsbD 2) }

end Sys2Proof.Machine
end

