-- ==== Sys2Proof/Machine/Issue.lean ====
section
/-! DEFINITION. Issue of a bundle (R16 to R26, R33 to R45, R145, R184, R185, R361, R362, R386, R393, R394, R450): the
checks, the stalls, the three steps, the loop sequencer (R197 to R199), and the cycle accounts. -/

namespace Sys2Proof.Machine

/-! ## The loop sequencer (R197 to R199) -/

/-- The trip count of each lane: TRIP, or its gTRIPREG as it reads now (R197). -/
def LoopRec.tripsOf (r : LoopRec) (c : Ctx) : List Nat :=
  (List.range c.nlanes).map (fun l => if r.perLane then (c.gReg r.tripReg l).toNat else r.trip)

/-- The greatest trip count of the live lanes (R197, R198). -/
def Ctx.maxTrip (c : Ctx) (trips : List Nat) : Nat := (Lanes.list c.live c.nlanes).foldl (fun a l => max a (trips.getD l 0)) 0

/-- The first address and the end of step `n`, with K kernel passes (R197). -/
def LoopRec.region (r : LoopRec) (k n : Nat) : W64 × W64 :=
  let sum (l : List Nat) (i : Nat) : W64 := BitVec.ofNat 64 ((l.take i).foldl (· + ·) 0)
  if n + 1 < r.stages then (r.pro + sum r.plen n, r.pro + sum r.plen (n + 1))
  else if n + 1 < r.stages + k then (r.ker, r.ker + BitVec.ofNat 64 r.klen)
  else
    let i := n + 1 - r.stages - k
    (r.epi + sum r.elen i, r.epi + sum r.elen (i + 1))

/-- The step's predicates k4 to k7 on each live lane (R197). -/
def Ctx.stepPreds (c : Ctx) (r : LoopRec) (trips : List Nat) (n : Nat) : Ctx :=
  let set (c : Ctx) (j : Nat) : Ctx :=
    { c with k := Tbl.upd c.k (4 + j) 0 (fun old => (old &&& ~~~c.live) ||| (c.live &&&
      Lanes.of c.nlanes (fun l => decide (j < r.stages ∧ j ≤ n ∧ n - j < trips.getD l 0)))) }
  set (set (set (set c 0) 1) 2) 3

/-- Begin step `n`, or leave the loop when every step has run (R197). -/
def Ctx.beginStep (c : Ctx) (q : LoopSeq) (n : Nat) : Ctx :=
  let r := q.lrec
  if n < 2 * (r.stages - 1) + q.k then
    let (a, e) := r.region q.k n
    { c.stepPreds r q.trips n with pc := a, loop := some { q with step := n, stepEnd := e } }
  else
    let z (c : Ctx) (j : Nat) : Ctx := { c with k := Tbl.upd c.k (4 + j) 0 (fun old => old &&& ~~~c.live) }
    { z (z (z (z c 0) 1) 2) 3 with pc := r.exit, loop := some { q with armed := false, started := false } }

/-- K after a kernel pass: T is taken again over the lanes still live, and the kernel ends once enough passes have run
(R198). -/
def Ctx.kernelTest (c : Ctx) (q : LoopSeq) : LoopSeq :=
  let r := q.lrec
  if r.stages ≤ q.step + 1 ∧ q.step + 1 < r.stages + q.k then
    let ran := q.step + 2 - r.stages
    let t := c.maxTrip q.trips
    let want := t + 1 - r.stages
    { q with t := t, k := if want ≤ ran then ran else want }
  else q

/-- A step that has ended gives way to the next one at once (R197, R350: a trap at this boundary finds the team about to
issue the next step's first bundle). A result in flight stays in flight until that bundle issues (R16, R207). -/
def Ctx.stepOver (c : Ctx) : Ctx :=
  match c.loop with
  | none => c
  | some q =>
    if !c.inh && q.started && c.pc == q.stepEnd then
      let q1 := c.kernelTest q
      c.beginStep q1 (q1.step + 1)
    else c

/-- The sequencer starts when the team is about to issue the bundle at PRO: it reads each lane's trip count (R197). -/
def Ctx.loopTurn (c : Ctx) : Ctx :=
  match c.loop with
  | none => c
  | some q =>
    if !c.inh && q.armed && !q.started && c.pc == q.lrec.pro then
      let trips := q.lrec.tripsOf c
      let t := c.maxTrip trips
      c.beginStep { q with started := true, trips := trips, t := t, k := t + 1 - q.lrec.stages } 0
    else c

/-! ## The opcode map as the checks read it (R48 to R61) -/

/-- Whether an opcode of a defined unit is not reserved (R50 to R61). -/
def opDefined (u o : Nat) : Bool :=
  match u with
  | 1 => o ≤ 0x19
  | 2 => o ≤ 0x19
  | 3 => o ≤ 0x14
  | 4 => o ≤ 6
  | 5 => opFloat o
  | 6 => opFloat o
  | 7 =>
    if o < 0x80 then true
    else if o < 0xA0 then o % 4 != 3
    else if o < 0xC0 then o ≤ 0xA2
    else if o < 0xE0 then true
    else o % 2 == 0
  | 8 => o < 0x30 && o % 16 ≤ 8
  | 9 => o / 8 != 5
  | 10 => o ≤ 0x11 || (0x40 ≤ o && o ≤ 0x49)
  | 11 => opLoad o
  | 12 => opLoad o
  | 13 => (o < 0x80 && o % 2 == 0 && !bit o 3) || (0x80 ≤ o && o ≤ 0x82)
  | 14 =>
    let op := o % 16
    let size := o / 16 % 2
    let ord := o / 32 % 4
    op ≤ 12 && !(size == 1 && 11 ≤ op) && !(o / 128 == 1 && (ord == 0 || ord == 3)) &&
      !(ord == 3 && (op == 9 || op == 10))
  | 15 => o == 0 || (8 ≤ o && o ≤ 0x23) || (0x30 ≤ o && o ≤ 0x32) || o == 0x38 || o == 0x39
  | 16 =>
    o ≤ 0x30 || ((0x40 ≤ o && o ≤ 0x7B) && (o == 0x60 || (!(0x60 ≤ o && o ≤ 0x6F) && o % 16 ≤ 11))) ||
      (0x80 ≤ o && o ≤ 0x9F) || o ∈ [0xA0, 0xA1, 0xB0, 0xB1, 0xC0]
  | 17 => o ∈ [0, 1, 0x10, 0x11, 0x12, 0x13, 0x20, 0x30, 0x40, 0x50, 0x60]
  | 18 => o ≤ 8
  | 19 => o ∈ [0, 1, 2, 3, 0x10, 0x20, 0x30, 0x31, 0x32]
  | 20 => o ∈ [0, 1, 2, 3, 0x10, 0x11, 0x12, 0x13, 0x20, 0x30]
  | 21 => o ≤ 0x0D || (0x10 ≤ o && o ≤ 0x17)
  | _ => false
where
  /-- FA and FB (R54). -/
  opFloat (o : Nat) : Bool :=
    let ty := o / 8 % 4
    let op := o / 32
    ty != 3 && !((op == 5 || op == 6) && o / 2 % 4 != 0) && !(op == 7 && ty == 0)
  /-- LA and LB (R58). -/
  opLoad (o : Nat) : Bool :=
    let size := o / 16 % 4
    o % 2 == 0 && !(bit o 3 && 2 ≤ size) && !(o / 64 == 3 && (size != 0 || bit o 3))

/-- The privileged opcodes (R48, R60, R61). -/
def opPriv (u o : Nat) : Bool := (u == 16 && o == 0xC0) || (u == 19 && o == 0x30) || (u == 20 && (o == 0x11 || o == 0x30))

/-- The triggers that a role may not issue (R49). KIND 0 copy, 1 matrix, 2 vector, 3 general. -/
def roleForbids (kind u o : Nat) : Bool :=
  (u == 17 && (kind == 0 || kind == 2)) || (u == 18 && (kind == 1 || kind == 2)) ||
    (u == 10 && 0x40 ≤ o && o ≤ 0x49 && (kind == 0 || kind == 2))

/-- The triggers that count for SETA and SETB (R39), in slot order. -/
def Bundle.counted (b : Bundle) : List Move := b.moves.filter (fun m => m.isTrig && isVar m.dunit && !m.isNull)

/-! ## The checks of R26 -/

/-- A move that is malformed by itself (R12, R13, R41, R42, R44). -/
def moveMalformed (b : Bundle) (m : Move) : Bool :=
  (if m.dunit = 0 then
      m.dport == 3 || (m.dport == 0 && 127 < m.dsel) || (m.dport == 1 && 31 < m.dsel) || (m.dport == 2 && 7 < m.dsel)
    else
      21 < m.dunit || !hasPort m.dunit m.dport ||
        (m.dport != 3 && (2 < m.dsel || (m.dsel != 0 && !port64 m.dunit m.dport)))) ||
    (match m.skind with
    | 0 => 168 ≤ m.ssel % 256
    | 1 => m.ssel % 32 != 0 || !hasR (m.ssel / 32)
    | 2 => false
    | _ => 4 < m.ssel || (m.ssel == 0 && !b.hasLimm) || (m.ssel == 4 && !m.isTrig))

/-- Whether STOP stands on the last syllable and on no other (R43). -/
def stopsOk : List Move → Bool
  | [] => false
  | [m] => m.stop
  | m :: r => !m.stop && stopsOk r

/-- Whether two moves trigger one unit (R24). -/
def twoTriggers : List Move → Bool
  | [] => false
  | m :: r => (m.isTrig && r.any (fun x => x.isTrig && x.dunit == m.dunit)) || twoTriggers r

/-- The conditions of R26 whose cause is C_MALFORMED. They read the bundle alone. -/
def Bundle.malformed (b : Bundle) : Bool :=
  bits b.header.toNat 5 0 != 0 || !stopsOk b.moves ||
    (b.isExt && (bits b.ext.toNat 8 0 != 0 || decide (6 ≤ b.scope.toNat) || 13 ≤ b.seta || 13 ≤ b.setb ||
      (b.seta == b.setb && b.seta != 0) || (b.seta != 0 && b.counted.isEmpty) ||
      (b.setb != 0 && b.counted.length < 2))) ||
    b.moves.any (moveMalformed b) || twoTriggers b.moves

/-- The g registers a move names, with its read port for a source (R22). -/
def Move.gSource (m : Move) : Option (Nat × Nat) :=
  if m.skind = 0 ∧ m.ssel % 256 < 128 then some (m.ssel / 256, m.ssel % 256) else none

/-- Whether two moves name one read port for different g registers (R22). -/
def readConflict : List Move → Bool
  | [] => false
  | m :: r =>
    (match m.gSource with
      | none => false
      | some (p, x) => r.any (fun n => match n.gSource with
        | some (q, y) => p == q && x != y
        | none => false)) || readConflict r

/-- The causes of the checks that fail, but for C_FLAGDEAD (R26). -/
def Ctx.failing (c : Ctx) (b : Bundle) (xlBusy : Bool) : List (BitVec 7) :=
  let trigs := b.moves.filter Move.isTrig
  let when (p : Bool) (code : BitVec 7) : List (BitVec 7) := if p then [code] else []
  when b.malformed 0x01 ++
  when (trigs.any (fun m => m.dunit ≤ 21 && !opDefined m.dunit m.dsel)) 0x02 ++
  when (readConflict b.moves) 0x03 ++
  when (decide (3 < (b.moves.filter (fun m => m.dunit == 0)).length)) 0x04 ++
  when (b.moves.any (fun m =>
    (m.dunit == 0 && m.dport == 0 && decide (c.budget ≤ m.dsel) && decide (m.dsel ≤ 127)) ||
    (match m.gSource with
      | some (_, x) => decide (c.budget ≤ x)
      | none => false))) 0x05 ++
  when (trigs.any (fun m => roleForbids c.kind m.dunit m.dsel)) 0x06 ++
  when (xlBusy && trigs.any (fun m => m.dunit == 10)) 0x07 ++
  when (!c.shadow && trigs.any (fun m => opPriv m.dunit m.dsel)) 0x09

/-- The lowest of a list of causes (R26). -/
def lowestCause : List (BitVec 7) → Option (BitVec 7)
  | [] => none
  | x :: r => match lowestCause r with
    | none => some x
    | some y => some (if y < x then y else x)

/-- EMU0 to EMU3 for a bundle with a reserved opcode (R45). -/
def Bundle.emu (b : Bundle) : W64 × W64 × W64 × W64 :=
  let bad := (b.moves.find? (fun m => m.isTrig && !opDefined m.dunit m.dsel)).getD
    { slot := 0, word := 0, stop := true, neg := false, guard := 0, dunit := 0, dport := 0, dsel := 0, skind := 0,
      ssel := 0 }
  (BitVec.ofNat 64 (b.header.toNat * 2 ^ 32 + (if b.isExt then b.ext.toNat else 0)),
    BitVec.ofNat 64 (bad.slot * 2 ^ 32 + bad.word.toNat),
    BitVec.ofNat 64 (if b.hasLimm then b.limm.toNat else 0), b.next)

/-- The trap of an issue-time check (R26, R368). -/
def Ctx.issueTrap (c : Ctx) (b : Bundle) (code : BitVec 7) : DueTrap :=
  { DueTrap.of code b.pc (BitVec.ofNat 64 c.sched) with emu := if code = 0x02 then some b.emu else none }

/-! ## Tokens, buffers and waits -/

/-- The lanes on which a move of the bundle reads R of unit `u` (R18). -/
def Ctx.readsR (c : Ctx) (b : Bundle) (u : Nat) : Lanes :=
  b.moves.foldl (fun acc m => if m.skind = 1 ∧ m.ssel / 32 = u then acc ||| c.guardMask m else acc) 0

/-- The variable-latency units, lowest code first. -/
def varUnits : List Nat := [8, 10, 11, 12, 14, 16, 17, 18, 19, 20]

/-- Whether some move triggers unit `u` on a lane. -/
def Ctx.trigs (c : Ctx) (b : Bundle) (p : Nat → Nat → Bool) : Bool :=
  b.moves.any (fun m => m.isTrig && p m.dunit m.dsel && c.guardMask m != 0)

/-- The unit whose R the bundle reads while it is empty; a 64-bit compare-and-swap reads AT.R (R18, R136). -/
def Ctx.emptyRead (c : Ctx) (b : Bundle) : Option Nat :=
  varUnits.find? (fun u => !(c.us.unit u).full &&
    (c.readsR b u != 0 || (u == U.at_ && c.trigs b (fun x o => x == U.at_ && o % 32 == 26))))

/-- The lanes on which a 64-bit compare-and-swap of the bundle reads AT.R (R136). -/
def Ctx.casReads (c : Ctx) (b : Bundle) : Lanes :=
  b.moves.foldl (fun acc m => if m.isTrig && m.dunit == U.at_ && m.dsel % 32 == 26 then acc ||| c.guardMask m else acc) 0

/-- The unit whose R holds a token that the bundle reads (R361). -/
def Ctx.tokenRead (c : Ctx) (b : Bundle) : Option (Nat × FaultRec) :=
  varUnits.findSome? (fun u =>
    let p := c.us.unit u
    match p.frec with
    | none => none
    | some r =>
      if p.full ∧ (r.lanes &&& (c.readsR b u ||| (if u = U.at_ then c.casReads b else 0))) ≠ 0 then some (u, r)
      else none)

/-- The address of the lowest lane of a fault record (R353). -/
def FaultRec.addr (r : FaultRec) (n : Nat) : W64 := r.addrs.at (Lanes.low r.lanes n)

/-- C_POISONED for a fault record (R361). -/
def Ctx.poisoned (c : Ctx) (u : Nat) (r : FaultRec) : DueTrap :=
  { code := 0x10, sub := r.cause, srcUnit := BitVec.ofNat 5 u, pc := none, bundle := some (r.bundle, r.cycle),
    lanes := some r.lanes, addr := some (r.addr c.nlanes), emu := none, own := true, held := false, toShadow := false }

/-- Whether the bundle ends the team: exit, or a lexit that retires every live lane (R98, R99). -/
def Ctx.exits (c : Ctx) (b : Bundle) : Bool :=
  b.moves.any (fun m => m.isTrig && m.dunit == U.br && ((m.dsel == 0x38 && c.guardMask m != 0) ||
    (m.dsel == 0x39 && c.guardMask m == c.live)))

/-- A bundle before which the store fault trap is taken (R362): it holds a fence, a barrier trigger, a WAIT, an exit or a
release. -/
def Ctx.meetsSfb (c : Ctx) (b : Bundle) : Bool :=
  c.trigs b (fun u o => opRelease u o || (u == 16 && o ≤ 0x30)) || (b.isExt && b.wait != 0) || c.exits b

/-- Whether a queued access is a store, a red, a maintenance operation or an atomic that writes (R98). -/
def MemOp.isStore (m : MemOp) : Bool := m.unit == U.st || m.unit == U.at_

/-- A bundle that waits until the team's earlier stores, atomics and reds are performed: an exit, a release, a barrier
arrival or a ring commit (R98, R258, R270). -/
def Ctx.afterStores (c : Ctx) (b : Bundle) : Bool :=
  c.exits b || c.trigs b (fun u o => opRelease u o || (u == 16 && (o < 0x10 || (0x20 ≤ o && o < 0x30) || (0x88 ≤ o && o ≤ 0x8F))))

/-- A bundle that also waits until the team's earlier loads have returned, because another team's write may follow it: a
barrier arrival, a ring commit or a ring release (R258, R261; log entry 6). -/
def Ctx.afterLoads (c : Ctx) (b : Bundle) : Bool :=
  c.trigs b (fun u o => u == 16 && (o < 0x10 || (0x20 ≤ o && o < 0x30) || (0x88 ≤ o && o ≤ 0x8F) || (0x98 ≤ o && o ≤ 0x9F)))

/-- Stores of the team that have not been performed, held writes among them (R98, R250). -/
def State.storesOut (s : State) (id : CtxId) (c : Ctx) : Bool :=
  c.memq.any MemOp.isStore || (s.fold id.fold).held.any (fun h => h.slot == id.slot && h.tid == c.tid)

/-- Whether flag fj is owned by an operation in flight (R38). -/
def UnitState.owned (us : UnitState) (j : Nat) : Bool := us.owners.any (fun kv => kv.1 == j)

/-- The flags of a set that read 0. -/
def UnitState.zeros (us : UnitState) (w : Nat) : List Nat := (List.range 12).filter (fun j => bit w j && !us.flag j)

/-- Whether the pending SF trap meets the bundle (R114): it reads SF.R, triggers SF, waits on the flag, or exits. -/
def Ctx.meetsSf (c : Ctx) (b : Bundle) (t : SfTrap) : Bool :=
  c.readsR b U.sf != 0 || c.trigs b (fun u _ => u == U.sf) || c.exits b ||
    (match t.flag with
      | some j => b.isExt && bit b.wait j
      | none => false)

/-- What stands between a bundle and its execution. -/
inductive Verdict where
  | settle
  | trap (d : DueTrap)
  | stall (w : Wait)
  | go
deriving DecidableEq, Repr

/-- The trap that is due before any bundle (R450), a full store fault buffer giving way to a token read (R384). -/
def Ctx.dueFirst (c : Ctx) (passes : Bool) (token : Bool) : Bool :=
  match c.nextDue with
  | none => false
  | some d => !(d.code = 0x18 && passes && token)

/-- The trap of SF joins the traps that are due when the bundle meets it, as one with an FP trap of another unit; it is
then pending no longer (R114). -/
def Ctx.meetSf (c : Ctx) (b : Bundle) : Ctx :=
  match c.us.sfTrap.filter (c.meetsSf b) with
  | none => c
  | some t =>
    let isFp (d : DueTrap) : Bool := !d.held && decide (0x12 ≤ d.code) && decide (d.code ≤ 0x16)
    let one := lowerTrap (c.due.find? isFp) (some { DueTrap.of t.code t.bundle t.cycle with lanes := some t.lanes })
    { c with us := { c.us with sfTrap := none }, due := c.due.filter (fun d => !isFp d) ++ one.toList }

/-- The flags that the bundle waits on and that read 0 (R38). -/
def Ctx.waits (c : Ctx) (b : Bundle) : List Nat := if b.isExt then c.us.zeros b.wait else []

/-- The wait of a bundle that reads an empty R, or that must follow the team's stores or loads (R18, R98, R258, R270). A
bundle that reads an empty R and also waits on a flag is in Port wait; one that waits for stores and names a flag that
reads 0 is charged to flag wait (DESIGN CHOICE, unsafe: log entry 54). -/
def State.waitFirst (s : State) (id : CtxId) (c : Ctx) (b : Bundle) : Option Wait :=
  match c.emptyRead b with
  | some u => some (.port u)
  | none =>
    if c.afterStores b && s.storesOut id c then some (if (c.waits b).isEmpty then .port U.st else .flag)
    else if c.afterLoads b then (c.memq.head?).map (fun m => .port m.unit)
    else none

/-- The wait of a bundle for its flags, for room among held writes (R250), for an engine operation that has still to read its
format block, which says which wide registers it names (R306; a wide-register trigger waits until then: DESIGN CHOICE, unsafe:
log entry 84), or for the wide-register path (R161). -/
def State.waitThen (s : State) (id : CtxId) (c : Ctx) (b : Bundle) : Option Wait :=
  let f := s.fold id.fold
  if !(c.waits b).isEmpty then some .flag
  else if c.trigs b (fun u _ => u == U.st || u == U.at_) && decide (64 ≤ f.held.length) then some (.port U.st)
  else if c.trigs b (fun u o => u == 10 && 0x40 ≤ o) && f.unread f.lockSeq then some (.port U.mx)
  else if c.trigs b (fun u o => u == 10 && 0x40 ≤ o) && decide (f.cycle < f.widePath) then some .xlPath
  else none

/-- Whether the bundle waits on a flag that reads 0 and that no trigger in flight owns (R38). -/
def Ctx.deadWait (c : Ctx) (b : Bundle) : Bool := (c.waits b).any (fun j => !c.us.owned j)

/-- Whether XL is busy when the bundle's first pass would issue (R161): a bundle that waits for something else issues
later, but a flag that nothing will set is no wait (R26), nor is the path that this team itself occupies. -/
def State.busyXl (s : State) (id : CtxId) (c : Ctx) (b : Bundle) : Bool :=
  decide ((s.fold id.fold).cycle < c.us.xlBusy) && (c.deadWait b || ((s.waitFirst id c b).isNone &&
    (match s.waitThen id c b with
      | none => true
      | some w => w == .xlPath)))

/-- The order in which a bundle meets traps, checks and waits (R26, R38, R114, R361, R362, R384, R393, R450). -/
def State.verdict (s : State) (id : CtxId) (c : Ctx) (b : Bundle) : Verdict :=
  let bad := lowestCause (c.failing b (s.busyXl id c b))
  let dead := c.deadWait b
  let token := c.tokenRead b
  if (s.acqOut id c).isSome then .stall (.port ((s.acqOut id c).getD 0))
  else if c.dueFirst (bad.isNone && !dead) token.isSome then .settle
  else if s.breaks id c then .trap (DueTrap.of 0x0A c.pc (BitVec.ofNat 64 c.sched))
  else match c.us.fence, c.sfb with
    | some _, e :: _ => .trap (DueTrap.ofSfb e.cause e)
    | some _, [] => .stall (.port U.sy)
    | none, sfb =>
      match bad, dead, token with
      | some code, _, _ => .trap (c.issueTrap b code)
      | none, true, _ => .trap (c.issueTrap b 0x19)
      | none, false, some (u, r) => .trap (c.poisoned u r)
      | none, false, none =>
        match s.waitFirst id c b with
        | some w => .stall w
        | none => match c.meetsSfb b, sfb with
          | true, e :: _ => .trap (DueTrap.ofSfb e.cause e)
          | _, _ => match s.waitThen id c b with
            | some w => .stall w
            | none => .go

/-! ## Cycles (R145, R147, R184 to R186, R385, R386, R395) -/

/-- The STALL_TEAM index of a STALL_FOLD index (R386). -/
def teamIndex (i : Nat) : Nat := if 32 ≤ i then 1 else i

/-- The SAMP_CTL period, when sampling is on (R395). -/
def sampPeriod (ctl : W64) : Option Nat :=
  let k := bits ctl.toNat 12 8
  if ctl.getLsbD 0 = false ∨ k = 0 then none else some (2 ^ (min 24 (max 8 k)))

/-- A team that waits while `n` cycles pass (R34, R190): an idle count runs down, and the results of the bundles that it
counts land; a yield ends when another team issues, or counts a cycle in which no other team is Ready. Every cycle of the fold
that the idle team does not issue in is an opportunity that it gives up, a pass of another team's bundle too (DESIGN CHOICE,
unsafe: log entry 55). -/
def Ctx.cycles (c : Ctx) (issued ready : Bool) (n : Nat) : Ctx :=
  match c.wait with
  | .idle k => { (c.landWithin (min k n)).countDown (min k n) with wait := .idle (k - n) }
  | .yield k => { c with wait := .yield (if issued then 16 else if ready then k else k + n) }
  | _ => c

/-- A context that takes part in the issue choice and is Ready (R183, R184). -/
def Ctx.ready (c : Ctx) : Bool := !c.frozen && !c.stopped && c.wait == .ready

/-- Whether an engine operation is an mma or a mmap; whether it stands in the command queue (R315: mma, mmap, zero, drain,
aload). -/
def EngOp.isMma (e : EngOp) : Bool := e.unit == U.mx && e.opcode.toNat / 16 == 1
def EngOp.isCmd (e : EngOp) : Bool := e.unit == U.mx && decide (0x10 ≤ e.opcode.toNat) && decide (e.opcode.toNat < 0x50)

/-- The class of the matrix engine's cycle, 0 computing to 4 without command, and the bundle it is charged to (R336). A
mmap that waits for its partner alone is charged as awaiting activations. -/
def Fold.mxClass (f : Fold) : Nat × Option W64 :=
  let cmd := f.eng.filter EngOp.isCmd
  let run := cmd.filter (fun e => e.dispatch.isSome)
  let computing (e : EngOp) : Bool := e.isMma && (match e.dispatch with | some d => decide (f.cycle < d + e.done) | none => false)
  let writer (space : Nat) (h : EngOp) : Bool :=
    (f.locks.filter (fun k => k.uid == h.uid && k.space == space)).any (fun k =>
      f.locks.any (fun x => !x.mx && decide (x.seq < k.seq) && k.conflicts x))
  let other := run.find? (fun e => !e.isMma)
  match run.find? computing, cmd.find? (fun e => e.dispatch.isNone) with
  | some e, _ => (0, some e.bundle)
  | none, some h =>
    if h.isMma && f.eng.any (fun e => e.unit == U.mx && e.opcode.toNat == h.opcode.toNat % 2 && decide (e.uid < h.uid))
    then (1, some h.bundle)
    else if h.isMma && (h.block.isEmpty || writer 2 h || writer 1 h) then (2, some h.bundle)
    else if other.isNone && h.isMma && !writer 3 h then (2, some h.bundle)
    else (3, some h.bundle)
  | none, none => match other with
    | some e => (3, some e.bundle)
    | none => (4, none)

/-- One cycle of the engine joins its cycle-class table (R336): 256 entries by address, the rest in the overflow bucket.
Counts are 48 bits wide. -/
def Fold.chargeMx (f : Fold) : Fold :=
  let (k, who) := f.mxClass
  let spill : Fold := { f with mxcOvf := Tbl.upd f.mxcOvf k 0 (fun x => (x + 1) % 2 ^ 48) }
  match who with
  | none => spill
  | some a =>
    let add (l : List Nat) : List Nat := (List.range 4).map (fun i => (l.getD i 0 + (if i = k then 1 else 0)) % 2 ^ 48)
    if f.mxc.any (fun e => e.addr == a) then
      { f with mxc := f.mxc.map (fun e => if e.addr == a then { e with counts := add e.counts } else e) }
    else if f.mxc.length < 256 then { f with mxc := f.mxc ++ [{ addr := a, counts := add [] }] }
    else spill

/-- Whether a gang holds the matrix engine of a fold, which has no supply otherwise (R313, R442). -/
def State.engineHeld (s : State) (f : Nat) : Bool :=
  s.gangs.any (fun kv => kv.2.hasEngine && (if kv.2.block.pair then kv.2.fold / 2 == f / 2 else kv.2.fold == f))

/-- The sample of a cycle that is charged to a team, or to none (R391, R395). -/
def Sample.of (who : Option (Nat × Ctx)) (idx : Nat) (pc : W64) (tb : Nat) : Sample :=
  match who with
  | some (slot, c) =>
    { slot := slot, idx := idx, pc := pc, sched := c.sched, flock := c.flock, conf := c.conf, queue := c.queue, tb := tb }
  | none => { slot := 33, idx := idx, pc := pc, sched := 0, flock := 0, conf := false, queue := 0, tb := tb }

/-- Whether SAMP_CTL lets a sample of a cycle be made (R395): with FLT, of the flock's cycles and of no team's. -/
def Sample.wanted (x : Sample) (ctl : W64) : Bool := !ctl.getLsbD 1 || x.slot == 33 || ctl.extractLsb' 32 32 == x.flock

/-- One cycle of a fold by itself (R336, R385, R395, R442): the clocks advance, a sample is made of a cycle whose number is a
multiple of the period, and a held engine's cycle is charged. -/
def Fold.tick (f : Fold) (held : Bool) (smp : Sample) : Fold :=
  let new := f.cycle + 1
  let due := smp.wanted f.sampCtl && (match sampPeriod f.sampCtl with
    | none => false
    | some p => new % p == 0)
  let f1 := if held then f.chargeMx else f
  { f1 with cycle := new, phase := f.phase - 9, samples := if due then f.samples ++ [smp] else f.samples }

/-- A cycle of a fold, issued by or charged to a context under a STALL_FOLD index (R185, R386), with what a sample shows of
it. A pass of a multi-pass bundle is such a cycle, so that the fold's other teams count it (DESIGN CHOICE, unsafe: log entry
55). -/
def State.chargeAs (s : State) (f : Nat) (who : Option Nat) (smp : Sample) (issued : Bool) (idx : Nat) : State :=
  let fo := s.fold f
  let fo1 := { fo.tick (s.engineHeld f) smp with stallFold := Tbl.upd fo.stallFold idx 0 (fun x => (x + 1) % 2 ^ 48) }
  let readyOther (slot : Nat) : Bool := (s.onFold f).any (fun kv => kv.1 != slot && kv.2.ready)
  let s1 := s.setFold f fo1
  { s1 with ctxs := s1.ctxs.map (fun kv =>
      if kv.1 / 64 != f || kv.2.frozen then kv
      else if who == some (kv.1 % 64) then
        let t := { kv.2 with stall := Tbl.upd kv.2.stall (teamIndex idx) 0 (fun x => (x + 1) % 2 ^ 48) }
        (kv.1, if issued then t else t.cycles false (readyOther (kv.1 % 64)) 1)
      else (kv.1, kv.2.cycles issued (readyOther (kv.1 % 64)) 1)) }

/-- A cycle of a fold in which nothing issues, charged to a context that is resident, or to none. -/
def State.charge (s : State) (f : Nat) (who : Option Nat) (pc : W64) (idx : Nat) : State :=
  let c := who.bind (fun sl => (s.ctx { fold := f, slot := sl }).map (fun x => (sl, x)))
  s.chargeAs f who (Sample.of c idx pc s.timebase) false idx

/-- The cycle of a bundle's first pass; its other passes take the cycles of the fold that follow (R145, R147). -/
def State.firstPass (s : State) (id : CtxId) (c : Ctx) (pc : W64) (passes : Nat) : State :=
  let smp := Sample.of (some (id.slot, c)) 0 pc s.timebase
  (if passes ≤ 1 then s
    else s.modFold id.fold (fun f => { f with pass := some { tid := c.tid, left := passes - 1, smp := smp } })).chargeAs
      id.fold (some id.slot) smp true 0

/-- The cycle of a later pass (R145, R147): it counts for the team while that is resident. -/
def State.nextPass (s : State) (f : Nat) (p : PassRun) : State :=
  let here := ((s.ctx { fold := f, slot := p.smp.slot }).filter (fun c => c.tid == p.tid)).isSome
  (s.modFold f (fun x => { x with pass := if p.left ≤ 1 then none else some { p with left := p.left - 1 } })).chargeAs f
    (if here then some p.smp.slot else none) { p.smp with tb := s.timebase } true 0

/-- Whether a context's own bundle still has passes to come: no trap is taken between passes (R145). -/
def State.inPasses (s : State) (id : CtxId) (c : Ctx) : Bool :=
  match (s.fold id.fold).pass with
  | some p => p.smp.slot == id.slot && p.tid == c.tid
  | none => false

/-- The trap is taken in place of a bundle: the cycle is charged to "schedule hold" (R185), and what was due stays pending
(R450). -/
def State.trapInstead (s : State) (id : CtxId) (d : DueTrap) : State :=
  match s.ctx id with
  | none => s
  | some c =>
    let s1 := s.charge id.fold (some id.slot) c.pc 6
    (if c.due.isEmpty then s1 else s1.modCtx id (fun x => { x with due := x.leftDue none })).takeTrap id d

/-! ## The three steps -/

/-- The triggers' meanings that a bundle uses, and the range-lock entries that an engine trigger needs; none when its
engine's queue is full (R305, R315). -/
structure Units where
  start : Move → Start
  need : State → CtxId → Trig → Option Nat

/-- Flags at issue (R39): SETA and SETB clear their flags and name the owners; a counted trigger that no live lane has
completes at once. A trap of SF waits for no flag that has a new owner (R114). -/
def setFlags (us : UnitState) (b : Bundle) (uidOf : Move → Nat) (on : Move → Bool) : UnitState :=
  let one (us : UnitState) (j : Nat) (m : Option Move) : UnitState :=
    if j = 0 then us
    else match m with
      | none => us
      | some m =>
        let o := us.owners.filter (fun kv => kv.1 != j - 1)
        let sf := us.sfTrap.map (fun t => { t with flag := t.flag.filter (fun k => k != j - 1) })
        if on m then { us.setFlag (j - 1) false with owners := o ++ [(j - 1, uidOf m)], sfTrap := sf }
        else { us.setFlag (j - 1) true with owners := o, sfTrap := sf }
  if b.isExt then one (one us b.seta b.counted[0]?) b.setb b.counted[1]? else us

/-- A variable-latency trigger empties R and replaces the fault record (R18, R360). -/
def UnitState.emptyR (us : UnitState) (u uid : Nat) : UnitState :=
  us.setUnit u { us.unit u with full := false, last := uid, frec := none }

/-- The memory moves of one bundle take their passes in ascending word order, and slot order within a pass (R145). -/
def insPass (m : MemOp) : List MemOp → List MemOp
  | [] => [m]
  | x :: r => if m.pass < x.pass then m :: x :: r else x :: insPass m r

/-- The triggers in the order their operations start: units in slot order, then `mx.t.fmt`, whose new value a trigger of
its bundle does not see (R317), then branches, then SY, then exit or lexit. -/
def startOrder (ts : List (Move × Trig)) : List (Move × Trig) :=
  let isExit (x : Move × Trig) : Bool := x.1.dunit == U.br && (x.1.dsel == 0x38 || x.1.dsel == 0x39)
  let isFmt (x : Move × Trig) : Bool := x.1.dunit == U.mx && x.1.dsel == 0x50
  ts.filter (fun x => x.1.dunit != U.br && x.1.dunit != U.sy && !isFmt x) ++ ts.filter isFmt ++
    ts.filter (fun x => x.1.dunit == U.br && !isExit x) ++ ts.filter (fun x => x.1.dunit == U.sy) ++ ts.filter isExit

/-- What follows a bundle's starts (R16, R197, R394, R398): counts advance, a bundle that carries PC past the end of its
loop step and a single step become traps. -/
def Ctx.afterBundle (c : Ctx) (old : Ctx) (b : Bundle) (n : Nat) : Ctx :=
  let q := c.memq.drop old.memq.length
  let c1 := { (c.countDown n) with memq := c.memq.take old.memq.length ++ q.foldl (fun acc m => insPass m acc) [] }
  let c2 : Ctx := match c1.loop with
    | some l =>
      if l.started && !old.inh && decide (b.pc < l.stepEnd) && decide (l.stepEnd < c1.pc) then
        { c1 with loop := some { l with stepEnd := c1.pc } }.addDue (DueTrap.of 0x3C b.pc (BitVec.ofNat 64 old.sched))
      else c1
    | none => c1
  if old.tstatus.getLsbD 9 then
    if old.conf then c2.addDue (DueTrap.of 0x58 b.pc (BitVec.ofNat 64 old.sched))
    else if !old.inh && c2.due.length == old.due.length then
      c2.addDue (DueTrap.of 0x0B b.pc (BitVec.ofNat 64 old.sched))
    else c2
  else c2

/-- The triggers of a bundle with their operations' numbers (R18, R20). -/
def Ctx.trigsOf (c : Ctx) (b : Bundle) : List (Move × Trig) :=
  let cleared := if b.isExt then [b.seta, b.setb].filterMap (fun j => if j = 0 then none else some (j - 1)) else []
  (b.moves.filter (fun m => m.isTrig && c.guardMask m != 0)).map (fun m =>
    (m, { unit := m.dunit, opcode := BitVec.ofNat 8 m.dsel, slot := m.slot, mask := c.guardMask m,
          uid := c.nextUid + m.slot, cleared := cleared, scope := if b.isExt then b.scope else 0, pc := b.pc,
          next := b.next, cycle := BitVec.ofNat 64 c.sched, preds := c.k }))

/-- Steps 1 and 2 of R23 with the bookkeeping of issue: flags, emptied R ports, SCHED_CYCLE, PC (R18, R28, R39, R353). -/
def Ctx.issued (c : Ctx) (b : Bundle) (ts : List (Move × Trig)) (now : Nat) : Ctx :=
  let c1 := c.doMoves b b.moves c
  let us1 := setFlags c1.us b (fun m => c.nextUid + m.slot) (fun m => c.guardMask m != 0)
  let us2 := ts.foldl (fun us x => if isVar x.2.unit then us.emptyR x.2.unit x.2.uid else us) us1
  { c1 with us := us2, nextUid := c.nextUid + 8, sched := (c.sched + 1) % 2 ^ 48, pc := b.next, lastIssue := now,
            brkSkip := false }

/-- A bundle that executes: the three steps of R23, its passes' cycles (R145, R147) and what follows. -/
def State.commit (s : State) (us : Units) (b : Bundle) (id : CtxId) (c : Ctx) : State :=
  let ts := c.trigsOf b
  let c1 := c.issued b ts (s.fold id.fold).cycle
  let s1 := s.setCtx id c1
  let s2 := (startOrder ts).foldl (fun acc x => us.start x.1 acc id x.2) s1
  let s3 := match s2.ctx id with
    | some c2 => if c2.tid = c.tid then s2.setCtx id (c2.afterBundle c b 1).stepOver else s2
    | none => s2
  s3.firstPass id c1 b.pc (Lanes.passes c.live c.nlanes).length

/-- The unit of the first engine trigger that finds its queue full or too few of `free` entries (R305, R315). -/
def firstShort (need : Trig → Option Nat) : Nat → List Trig → Option Nat
  | _, [] => none
  | free, t :: r =>
    match need t with
    | none => some t.unit
    | some n => if free < n then some t.unit else firstShort need (free - n) r

/-- The engine triggers of a bundle that find no room, by unit (R305, R315). -/
def State.noRoom (s : State) (us : Units) (b : Bundle) (id : CtxId) (c : Ctx) : Option Nat :=
  let ts := ((c.trigsOf b).map Prod.snd).filter (fun t => 17 ≤ t.unit && t.unit ≤ 19)
  let s1 := s.setCtx id (c.doMoves b b.moves c)
  firstShort (us.need s1 id) (64 - (s.fold id.fold).locks.length) ts

/-- The sticky bits of the results that landed at a bundle's issue stand set after the bundle's register operations (R126). -/
def State.restick (s : State) (id : CtxId) (old : Ctx) : State :=
  let e := old.excBits (old.dueWithin 1)
  if e = 0 then s else s.modCtx id (fun x => if x.tid = old.tid then { x with fpCtl := stick x.fpCtl e } else x)

/-- A bundle that writes or clears a special register finds FP_CTL without the sticky bits of the results that land with it
(R126); `c0` is the context before the landing. -/
def Ctx.unstick (c c0 : Ctx) (b : Bundle) : Ctx :=
  if c.trigs b (fun u o => u == U.sv && decide (o ≤ 3)) then { c with fpCtl := c0.fpCtl } else c

/-- The context at a boundary where a trap is due that the bundle meets (R114): the results stay in flight unless an enabled
exception lands with them, and the trap that `c` found due is due. -/
def Ctx.meetAs (c0 c : Ctx) : Ctx :=
  let x := c0.boundary
  { x with due := c.due, us := { x.us with sfTrap := c.us.sfTrap } }

/-- A bundle that reads R of an engine or waits on a flag observes the completion of an engine operation, which is an acquire
(R267): no self-invalidating copy of its fold serves the team's later loads (R220). -/
def State.observe (s : State) (id : CtxId) (c : Ctx) (b : Bundle) : State :=
  if c.readsR b U.mx != 0 || c.readsR b U.cp != 0 || c.readsR b U.nx != 0 || (b.isExt && b.wait != 0) then
    s.modFold id.fold Fold.dropSi
  else s

/-- A bundle reaches issue (R23, R26). The results that are due land with it when it executes; a bundle that traps or waits
leaves them in flight (R16, R26). -/
def State.issue (s : State) (us : Units) (b : Bundle) (id : CtxId) : State :=
  match s.ctx id with
  | none => s
  | some c0 =>
    let c := (c0.land.meetSf b).unstick c0 b
    let s1 := s.setCtx id c
    let room := s1.noRoom us b id c
    match s1.verdict id c b with
    | .settle => ((s.setCtx id (c0.meetAs c)).charge id.fold (some id.slot) c.pc 6).settle id
    | .trap d =>
      match d.code = 0x07 && room.isSome, room with
      | true, some u => s.setCtx id { c0 with wait := .port u }
      | _, _ => s.trapInstead id d
    | .stall w => s.setCtx id { c0 with wait := w }
    | .go =>
      match room with
      | some u => s.setCtx id { c0 with wait := .port u }
      | none => ((s1.commit us b id c).restick id c0).observe id c b

/-- Whether `cur` names a context that can issue now (R183, R369). -/
def State.canIssue (s : State) : Bool :=
  match s.ctx s.cur with
  | some c => c.ready
  | none => false

/-- The address of the context that issues. -/
def State.curPc (s : State) : W64 :=
  match s.ctx s.cur with
  | some c => c.pc
  | none => 0

/-- A plain bundle of one move in slot 0 at an address (R31). -/
def Bundle.one (w : W32) (pc : W64) : Bundle :=
  { header := 0x0100, ext := 0, moves := [Move.of 0 w], limm := 0, pc := pc, next := pc + 6 }

/-- The slots of a header, lowest first (R31). -/
def slotsOf (h : Parcel) : List Nat := (List.range 6).filter (fun i => bit h.toNat (8 + i))

/-- A plain or extended bundle at an address; `next` is the address after it (R31, R35). -/
def rawAt (r : RawBundle) (pc next : W64) : Bundle :=
  { header := r.header, ext := r.ext, moves := (slotsOf r.header).zipWith Move.of r.sylls, limm := r.limm, pc := pc,
    next := next }

/-- The issue of a bundle by `cur`, or the fault where no context can issue. -/
def issueBundle (us : Units) (b : State → Bundle) (s : State) : Out3 :=
  if s.canIssue then .next (s.issue us (b s) s.cur) else .fault .noIssuingContext

/-- One move in slot 0 as a bundle of its own: the meaning of every trigger row. -/
def issueOne (w : W32) (start : Start) (s : State) : Out3 :=
  issueBundle { start := fun _ => start, need := fun _ _ _ => some 0 } (fun s => Bundle.one w s.curPc) s

/-- The same for an engine trigger, which needs room for its entries. -/
def issueEngine (w : W32) (start : Start) (need : State → CtxId → Trig → Option Nat) (s : State) : Out3 :=
  issueBundle { start := fun _ => start, need := need } (fun s => Bundle.one w s.curPc) s

/-- No operation: what a move that triggers nothing starts. -/
def noStart : Start := fun s _ _ => s

/-! ## Idle and recall (R34, R35) -/

/-- An idle bundle of count `n` (R34). Every result whose count falls inside it lands in its cycle, and the trap of an enabled
exception is taken when the count has ended (R16, R114). An acquire or a fence that is pending, a breakpoint and a trap that is
due come before it, as before any bundle (DESIGN CHOICE, unsafe: log entry 55). -/
def State.issueIdle (s : State) (id : CtxId) (n : Nat) : State :=
  match s.ctx id with
  | none => s
  | some c =>
    let b : Bundle := { header := 0xC000, ext := 0, moves := [], limm := 0, pc := c.pc, next := c.pc + 2 }
    if (s.acqOut id c).isSome then s.setCtx id { c with wait := .port ((s.acqOut id c).getD 0) }
    else if c.nextDue.isSome then (s.charge id.fold (some id.slot) c.pc 6).settle id
    else if s.breaks id c then s.trapInstead id (DueTrap.of 0x0A c.pc (BitVec.ofNat 64 c.sched))
    else match c.us.fence, c.sfb with
      | some _, e :: _ => s.trapInstead id (DueTrap.ofSfb e.cause e)
      | some _, [] => s.setCtx id { c with wait := .port U.sy }
      | none, _ =>
        let c1 := { c with pc := c.pc + 2, sched := (c.sched + n) % 2 ^ 48, wait := .idle n, brkSkip := false,
                           lastIssue := (s.fold id.fold).cycle }
        s.setCtx id (c1.afterBundle c b 0).stepOver

/-- The mirror entry that a recall of index `i` executes (R35, R36). -/
def State.mirrorEntry (s : State) (id : CtxId) (c : Ctx) (i : Nat) : Option RawBundle :=
  match s.gang c.gang with
  | none => none
  | some g =>
    let sel := Tbl.get g.mirrorSel (g.half id.fold) 0
    if sel.getLsbD 8 = false ∨ c.shadow = true then none
    else match Tbl.get (Tbl.get (s.fold id.fold).mirrors (b2n (sel.getLsbD 0)) []) i [] with
      | [] => none
      | h :: r => takeRaw h (r.flatMap (fun p => parcelBytes p))

/-- A recall of entry `i` (R35): the entry's bundle at the recall's address, or C_MIRROR. -/
def State.issueRecall (s : State) (us : Units) (id : CtxId) (i : Nat) : State :=
  match s.ctx id with
  | none => s
  | some c0 =>
    match s.mirrorEntry id c0 i with
    | some r => s.issue us (rawAt r c0.pc (c0.pc + 2)) id
    | none =>
      let c := c0.boundary
      let s1 := s.setCtx id c
      if (s.acqOut id c).isSome then s1.setCtx id { c with wait := .port ((s.acqOut id c).getD 0) }
      else if c.nextDue.isSome then (s1.charge id.fold (some id.slot) c.pc 6).settle id
      else if s1.breaks id c then s1.trapInstead id (DueTrap.of 0x0A c.pc (BitVec.ofNat 64 c.sched))
      else s1.trapInstead id (DueTrap.of 0x08 c.pc (BitVec.ofNat 64 c.sched))

end Sys2Proof.Machine
end

