-- ==== Sys2Proof/Machine/Translate.lean ====
section
/-! DEFINITION. Address translation (R236 to R244, R451), the region table (R231), access counts with the migration
queue (R245 to R248) and the dirty-range log (R232, R233). -/

namespace Sys2Proof.Machine

/-- Where a global byte lies (R239): in the package's physical space, at the control node, or at another device. -/
inductive Place where
  | pkg (phys : Nat)
  | host (a : Nat)
  | remote (dev : Nat) (a : Nat)
deriving DecidableEq, Repr

/-- The kinds of access that translation tells apart (R244). -/
inductive AccKind where
  | load | store | atomic | fetch
deriving DecidableEq, Repr

def AccKind.isWrite : AccKind → Bool
  | .store => true
  | .atomic => true
  | _ => false

/-- The translation fault of a kind (R244, R46). -/
def AccKind.xlate : AccKind → BitVec 7
  | .load => 0x22
  | .store => 0x24
  | .atomic => 0x24
  | .fetch => 0x20

/-- The permission fault of a kind (R244, R46). -/
def AccKind.perm : AccKind → BitVec 7
  | .load => 0x23
  | .store => 0x25
  | .atomic => 0x25
  | .fetch => 0x21

/-- The installed far memory of a die in bytes, at most 256 GiB (R239). -/
def farSize (d : Nat) : Nat := min (Config.farGiB d) 256 * 2 ^ 30

/-- Whether `n` bytes from `p` lie in one die's near memory (R239). -/
def inNear (p n : Nat) : Bool := (List.range 4).any (fun d => nearBase d ≤ p && p + n ≤ nearBase d + 2 ^ 36)
/-- Whether `n` bytes from `p` lie in one installed far range (R239). -/
def inFar (p n : Nat) : Bool := (List.range 4).any (fun d => farBase d ≤ p && p + n ≤ farBase d + farSize d)
/-- Whether `n` bytes from `p` are mapped physical memory. -/
def physOk (p n : Nat) : Bool := inNear p n || inFar p n

/-- A leaf found by a walk: where it lies, what it holds, and its page size. -/
structure Leaf where
  addr : Nat
  pte : W64
  size : Nat
deriving DecidableEq, Repr

def pteMt (p : W64) : Nat := bits p.toNat 11 9
def ptePpn (p : W64) : Nat := bits p.toNat 47 12

/-- Whether a leaf is well formed for its page size (R238, R239). -/
def leafOk (p : W64) (size : Nat) : Bool :=
  let mt := pteMt p
  let base := ptePpn p * 4096
  mt ≤ 4 && !(p.getLsbD 3 && !p.getLsbD 2) && base % size == 0 &&
    (if mt = 0 then inNear base size else if mt = 1 then inFar base size else true)

/-- The walk from the table at `base`, one level at a time (R237, R238, R242). None is a malformed entry. -/
def State.walkFrom (s : State) (va : Nat) : Nat → Nat → Option Leaf
  | lvl, base =>
    let at_ := base + 8 * (va / 2 ^ (12 + 9 * lvl) % 512)
    if !physOk at_ 8 then none
    else
      let e : W64 := BitVec.ofNat 64 (s.rd at_ 8)
      if e.getLsbD 0 = false ∨ e.getLsbD 1 = true then none
      else match lvl with
        | 0 =>
          let size := if e.getLsbD 8 then 65536 else 4096
          if leafOk e size then some { addr := at_, pte := e, size := size } else none
        | n + 1 =>
          if e.getLsbD 8 then
            if lvl ≤ 2 then
              let size := 2 ^ (12 + 9 * lvl)
              if leafOk e size then some { addr := at_, pte := e, size := size } else none
            else none
          else State.walkFrom s va n (ptePpn e * 4096)

/-- The root of an address space (R236, R451), if translation is enabled. -/
def State.root (s : State) (asid : Nat) : Option Nat :=
  let r : W64 := if asid < 256 then Tbl.get (s.die (asid / 64)).qroot (asid % 64) 0 else (s.die (asid - 256)).sroot
  if r.getLsbD 0 then some (bits r.toNat 47 12 * 4096) else none

/-- A translated access: its place, leaf, page base, page size, the first address of what the entry used describes (R240),
a striped leaf's descriptor, and the leaf entry to write when A or D is set. -/
structure Trans where
  place : Place
  pte : W64
  page : Nat
  size : Nat
  ent : Nat
  desc : List Byte
  setAD : Option (Nat × W64)
deriving DecidableEq, Repr

/-- A die's stripe descriptor (R241): the 64 bytes of one of 1,024. -/
def State.stripeDesc (s : State) (die idx : Nat) : List Byte :=
  Memory.readN s.mem ((s.die die).stripeBase.toNat + 64 * idx) 64

/-- Whether a descriptor is well formed for a page size (R241): NT, GRAN, every zero field, and G within the page. -/
def stripeOk (d : List Byte) (size : Nat) : Bool :=
  let nt := field d 32 1
  let gran := field d 33 1
  let g := if gran = 0 then 4096 else if gran = 1 then 65536 else 2 ^ 21
  1 ≤ nt && nt ≤ 16 && gran ≤ 2 && field d 34 30 == 0 && g ≤ size &&
    (List.range 16).all (fun i => let t := field d (2 * i) 2; bit t 15 || bits t 13 2 == 0)

/-- The granule of a descriptor (R241). -/
def stripeG (d : List Byte) : Nat := match field d 33 1 with | 0 => 4096 | 1 => 65536 | _ => 2 ^ 21

/-- A striped address placed by its descriptor (R241). None is C_STRIPE. -/
def State.stripe (s : State) (die : Nat) (d : List Byte) (idx ppn size off : Nat) : Option Place :=
  if 1023 < idx ∨ stripeOk d size = false then none
  else
    let g := stripeG d
    let nt := field d 32 1
    let i := off / g
    let tgt := field d (2 * (i % nt)) 2
    let o := ppn * 4096 + i / nt * g + off % g
    if bit tgt 15 then
      let dev := bits tgt 13 0
      if dev = s.pkg.devId.toNat then
        (if o < 2 ^ 36 then some (.pkg (nearBase die + o)) else none)
      else some (.remote dev o)
    else
      let k := tgt % 4
      if bit tgt 14 then (if o < farSize k then some (.pkg (farBase k + o)) else none)
      else (if o < 2 ^ 36 then some (.pkg (nearBase k + o)) else none)

/-- The place that a leaf gives an address (R239, R241). -/
def State.leafPlace (s : State) (die : Nat) (pte : W64) (desc : List Byte) (size va : Nat) : Option Place :=
  let off := va % size
  let p := ptePpn pte * 4096 + off
  let st := bits pte.toNat 61 48
  match pteMt pte with
  | 0 => some (.pkg p)
  | 1 => some (.pkg p)
  | 2 => some (.host p)
  | 3 => s.stripe die desc st (ptePpn pte) size off
  | _ => if st = s.pkg.devId.toNat then none else some (.remote st p)

/-- Whether a leaf grants an access (R244); `user` is false for the shadow context alone. -/
def leafGrants (pte : W64) (k : AccKind) (user : Bool) : Bool :=
  (!user || pte.getLsbD 5) &&
    (match k with
    | .load => pte.getLsbD 2
    | .store => pte.getLsbD 3
    | .atomic => pte.getLsbD 2 && pte.getLsbD 3
    | .fetch => pte.getLsbD 4)

/-- A leaf with A set, and D for a write (R242). -/
def markAD (pte : W64) (k : AccKind) : W64 := if k.isWrite then pte ||| 0xC0 else pte ||| 0x40

/-- The leaf that a translation uses: its entry, page size, the first address of what it describes, a striped leaf's descriptor,
and the entry's own address when a walk has just read it. -/
structure LeafUse where
  pte : W64
  size : Nat
  ent : Nat
  desc : List Byte
  at_ : Option Nat
deriving DecidableEq, Repr

/-- Whether the 16 entries that describe a 64 KiB page are identical but for what the device sets in each, A and D (R240, R242):
one of them lies at `leaf`. -/
def State.oneLeaf (s : State) (leaf : Nat) : Bool :=
  let word (i : Nat) : Nat := s.rd (leaf / 128 * 128 + 8 * i) 8 &&& 0xFFFFFFFFFFFFFF3F
  (List.range 16).all (fun i => word i == word 0)

/-- The first address of what the entry of a walk describes (R240): its page, unless the 16 entries of a 64 KiB page differ,
when each of them stands for its own 4 KiB. -/
def State.entOf (s : State) (l : Leaf) (va : Nat) : Nat :=
  if l.size = 65536 && !s.oneLeaf l.addr then va / 4096 * 4096 else va / l.size * l.size

/-- The leaf that a translation uses: a cached one that needs no bit set (R242), or the walk's. -/
def State.leafOf (s : State) (die asid va : Nat) (k : AccKind) (base : Nat) : Option LeafUse :=
  match (s.die die).tlb.find? (fun t => t.asid == asid && decide (t.page ≤ va ∧ va < t.page + t.size) &&
      markAD t.pte k == t.pte) with
  | some t => some { pte := t.pte, size := t.size, ent := t.ent, desc := t.desc, at_ := none }
  | none => (s.walkFrom va 4 base).map (fun l =>
      { pte := l.pte, size := l.size, ent := s.entOf l va, at_ := some l.addr,
        desc := if pteMt l.pte = 3 then s.stripeDesc die (bits l.pte.toNat 61 48) else [] })

/-- Translate one address of tag 0x0 for an access of die `die` in space `asid` (R237 to R244, R451). -/
def State.translate (s : State) (die asid : Nat) (addr : W64) (k : AccKind) (user : Bool) : Except (BitVec 7) Trans :=
  let va := bits addr.toNat 56 0
  if bits addr.toNat 63 57 ≠ 0 then .error k.xlate
  else match s.root asid with
    | none =>
      if 256 ≤ asid ∧ va < 2 ^ 48 ∧ physOk va 1 = true then
        .ok { place := .pkg va, pte := 0xDF, page := va / 4096 * 4096, size := 4096,
              ent := va / 4096 * 4096, desc := [], setAD := none }
      else .error k.xlate
    | some base =>
      match s.leafOf die asid va k base with
      | none => .error k.xlate
      | some l =>
        if !leafGrants l.pte k user then .error k.perm
        else match s.leafPlace die l.pte l.desc l.size va with
          | none => .error (if k = .fetch then 0x20 else 0x2B)
          | some pl =>
            let new := markAD l.pte k
            .ok { place := pl, pte := new, page := va / l.size * l.size, size := l.size, ent := l.ent, desc := l.desc,
                  setAD := l.at_.bind (fun a => if new = l.pte then none else some (a, new)) }

/-- The A and D bits a translation sets in its leaf (R242), by a compare-and-swap at the leaf's home. -/
def State.applyAD (s : State) (t : Trans) : State :=
  match t.setAD with
  | some (a, v) => (s.recallAll a 8).wr a 8 v.toNat
  | none => s

/-- An access of an agent translates: the walk sets A and D in the leaf that grants it (R242), whatever comes of the access
afterwards, and a walk that faults writes nothing. -/
def State.walkTo (s : State) (die asid : Nat) (addr : W64) (k : AccKind) (user : Bool) : State × Except (BitVec 7) Trans :=
  match s.translate die asid addr k user with
  | .error e => (s, .error e)
  | .ok t => (s.applyAD t, .ok t)

/-- The memory key of a place held in this model's memory; a remote place has none. -/
def Place.key : Place → Option Nat
  | .pkg p => some p
  | .host a => some (Memory.hostKey a)
  | .remote _ _ => none

/-- The address that tags a place's line in L1 (R219). -/
def Place.tag : Place → Nat
  | .pkg p => p
  | .host a => Memory.hostKey a
  | .remote dev a => Memory.remoteTag dev a

/-- The byte `i` after a place, in its granule. -/
def Place.plus (p : Place) (i : Nat) : Place :=
  match p with
  | .pkg a => .pkg (a + i)
  | .host a => .host (a + i)
  | .remote dev a => .remote dev (a + i)

/-- Words came to a fold's L1 under a leaf (R252). -/
def State.useLeaf (s : State) (fold asid : Nat) (t : Trans) : State :=
  let e : Tlb := { asid := asid, page := t.page, size := t.size, pte := t.pte, ent := t.ent, desc := t.desc }
  if (s.root asid).isNone || (s.die (dieOf fold)).used.contains e then s
  else s.modDie (dieOf fold) (fun d => { d with used := d.used ++ [e] })

/-! ## The connection table and the remote map (R410, R417, R421, R428) -/

/-- A connection of the transport engine (R421). -/
structure ConnEnt where
  dev : Nat
  dconn : Nat
  mode : Nat
  tc : BitVec 3
  peer : BitVec 128
  allowW : Bool
  allowR : Bool
  allowA : Bool
  asid : Nat
  w0 : Nat
  minW : Nat
  rxRing : Nat
  rxLog2 : Nat
  bufLog2 : Nat
deriving DecidableEq, Repr

/-- A valid entry of the connection table; none when VALID is 0 or MODE is reserved (R421). -/
def State.connEnt (s : State) (i : Nat) : Option ConnEnt :=
  let a := bits s.pkg.connBase.toNat 47 18 * 2 ^ 18 + 64 * (i % 4096)
  let d := Memory.readN s.mem a 64
  let fl := field d 6 1
  if bit fl 0 = false ∨ 2 < field d 4 1 then none
  else some { dev := field d 0 2, dconn := field d 2 2, mode := field d 4 1, tc := BitVec.ofNat 3 (field d 5 1),
              peer := BitVec.ofNat 128 (field d 32 16), allowW := bit fl 1, allowR := bit fl 2,
              allowA := bit fl 3, asid := field d 7 1, w0 := field d 8 4, minW := max 4096 (field d 12 4),
              rxRing := field d 16 8, rxLog2 := field d 24 1, bufLog2 := field d 25 1 }

/-- Whether a die can reach a device by load and store (R417, R428): its I/O die is reached, and the device's remote map entry is
valid and names a ROD connection. -/
def State.peerOk (s : State) (die dev : Nat) : Bool :=
  let e := s.rd (bits s.pkg.rmapBase.toNat 47 15 * 2 ^ 15 + 2 * (dev % 2 ^ 14)) 2
  (s.nxIo die).isSome && bit e 15 && bits e 14 12 == 0 &&
    (match s.connEnt (bits e 11 0) with
    | some c => c.mode == 1
    | none => false)

/-! ### Connections at run time (R422, R423) -/

/-- The whole part of an estimate, and the comparison with a whole number (R423). -/
def Frac.floor (x : Frac) : Nat := x.num / 2 ^ x.exp
def Frac.above (x : Frac) (n : Nat) : Bool := decide (n * 2 ^ x.exp < x.num)
def Frac.atLeast (x : Frac) (n : Nat) : Bool := decide (n * 2 ^ x.exp ≤ x.num)

/-- An estimate moved towards a whole number by 1/2^k of the difference, exactly (R423). -/
def Frac.towards (x : Frac) (n k : Nat) : Frac := { num := x.num * (2 ^ k - 1) + n * 2 ^ x.exp, exp := x.exp + k }

/-- A whole number added. -/
def Frac.plus (x : Frac) (n : Nat) : Frac := { x with num := x.num + n * 2 ^ x.exp }

/-- W − W · F / 2, but no less than a whole number (R423). F is at most 1. -/
def Frac.shrink (w f : Frac) (least : Nat) : Frac :=
  let y : Frac := { num := w.num * (2 ^ (f.exp + 1) - f.num), exp := w.exp + f.exp + 1 }
  if y.above least then y else ⟨least, 0⟩

/-- A connection as it is enabled (R423). -/
def Conn.enabled (c : ConnEnt) : Conn :=
  { w := ⟨c.w0, 0⟩, rtt := ⟨10000, 0⟩, f := ⟨0, 0⟩, marked := false, round := 0, rxTaken := 0, rx := [], seen := [], entropy := 0, skip := [],
    sendSeq := 0, expect := 0, answers := [], flying := [] }

/-- The bytes in flight of a connection (R423). -/
def Conn.inFlight (x : Conn) : Nat := (x.flying.map (fun y => y.2.1)).sum

/-- The run-time values of a connection: those of its enabling when it has not been used since. -/
def State.conn (s : State) (i : Nat) (c : ConnEnt) : Conn := Tbl.get s.pkg.conns i (Conn.enabled c)
def State.setConn (s : State) (i : Nat) (x : Conn) : State := { s with pkg := { s.pkg with conns := Tbl.put s.pkg.conns i x } }

/-- The package's time in ns (R385, R423). -/
def State.nanos (s : State) : Nat := s.ticks * 10

/-- An entropy value has seen a mark or a loss (R422). -/
def Conn.avoid (x : Conn) (v now : Nat) : Conn := { x with skip := x.skip.filter (fun y => y.1 != v) ++ [(v, now)] }

/-- The next entropy value that has seen no mark and no loss within the last RTT estimate; when all have, the next (R422). -/
def Conn.nextEntropy (x : Conn) (now : Nat) : Nat :=
  ((((List.range 256).map (fun i => (x.entropy + i) % 256)).find? (fun v =>
    !x.skip.any (fun y => y.1 == v && x.rtt.atLeast (now - y.2)))).getD x.entropy) % 256

/-- A packet takes its entropy value (R422): the next for RUD and RUDI, always one value for ROD. -/
def Conn.spray (x : Conn) (mode now : Nat) : Conn × BitVec 8 :=
  if mode = 1 then (x, BitVec.ofNat 8 x.entropy)
  else
    let v := x.nextEntropy now
    ({ x with entropy := (v + 1) % 256 }, BitVec.ofNat 8 v)

/-- A packet leaves on the fabric for a device; one for the own device is its next arrival (R421). -/
def State.emitPacket (s : State) (dev : Nat) (p : NxPacket) : State :=
  if dev = s.pkg.devId.toNat then { s with agenda := s.agenda ++ [.nxPacketArrive p] }
  else { s with pkg := { s.pkg with out := s.pkg.out ++ [.packet p] } }

/-! ## Bytes at a place, and what another device is asked (R140, R428) -/

/-- Why a die cannot reach a page at the control node or at another device (R417, R428, R429). -/
def State.unreachable (s : State) (die : Nat) : Place → Option (BitVec 7)
  | .pkg _ => none
  | .host _ => if !s.lumenRoute die then some 0x53 else if s.pkg.lumenUp then none else some 0x35
  | .remote dev _ => if s.peerOk die dev then none else some 0x53

/-- A request to another device leaves over the ROD connection that the remote map names, in its order (R140, R428). It is
answered by the event that performs the access, or by a free value of Config (DESIGN CHOICE: log entry 78). -/
def State.askRemote (s : State) (dev : Nat) (kind : NxKind) (a n : Nat) (payload : List Byte) : State :=
  let i := bits (s.rd (bits s.pkg.rmapBase.toNat 47 15 * 2 ^ 15 + 2 * (dev % 2 ^ 14)) 2) 11 0
  match s.connEnt i with
  | none => s
  | some c =>
    let x := s.conn i c
    let p : NxPacket :=
      { conn := c.dconn, sconn := i, src := s.pkg.devId, peer := c.peer, tc := c.tc, entropy := BitVec.ofNat 8 x.entropy,
        seq := x.sendSeq, msg := 2 ^ 48 + x.sendSeq, kind := kind, raddr := BitVec.ofNat 64 a, offset := 0, total := n,
        payload := payload, key := 0xFFFF }
    (s.setConn i { x with sendSeq := x.sendSeq + 1 }).emitPacket c.dev p

/-- Consecutive bytes of other devices, in their order, each run with its device and first address; a run is one packet's at
most (R422). -/
def remoteRuns : List (Place × Byte) → List (Nat × Nat × List Byte)
  | [] => []
  | (.remote dev a, b) :: r =>
    (match remoteRuns r with
    | (d, a1, bs) :: q =>
      if d = dev ∧ a1 = a + 1 ∧ bs.length < 4096 then (dev, a, b :: bs) :: q else (dev, a, [b]) :: (d, a1, bs) :: q
    | [] => [(dev, a, [b])])
  | _ :: r => remoteRuns r

/-- Bytes stored at a place by an agent that has no L1 (R225, R302): every copy of them is recalled. Those of another device
are sent to it (R140, R428). -/
def State.putAt (s : State) (p : Place) (bs : List Byte) : State :=
  match p with
  | .remote dev a => s.askRemote dev .write a bs.length bs
  | _ =>
    let s1 := s.recallAll p.tag bs.length
    { s1 with mem := Memory.writeN s1.mem p.tag bs }

/-- Bytes read at a place; what another device holds is not known here. -/
def State.getAt (s : State) (p : Place) (n : Nat) : List Byte :=
  match p with
  | .pkg k => Memory.readN s.mem k n
  | .host a => Memory.readN s.mem (Memory.hostKey a) n
  | .remote dev a => (List.range n).map (fun i => Config.remoteByte dev (a + i) s.pkg.clk)

/-- The bytes at resolved places. -/
def State.readPlaces (s : State) (ps : List Place) : List Byte := ps.flatMap (fun p => s.getAt p 1)

/-- The requests for bytes of other devices that a read of places sends. -/
def State.askPlaces (s : State) (ps : List Place) : State :=
  (remoteRuns (ps.map (fun p => (p, 0)))).foldl (fun s r => s.askRemote r.1 .read r.2.1 r.2.2.length []) s

/-- Bytes stored at resolved places of this device and the control node. -/
def State.writeHere (s : State) : List Place → List Byte → State
  | p :: ps, b :: bs => State.writeHere (if p.key.isSome then s.putAt p [b] else s) ps bs
  | _, _ => s

/-- Bytes stored at resolved places. -/
def State.writePlaces (s : State) (ps : List Place) (bs : List Byte) : State :=
  (remoteRuns (ps.zip bs)).foldl (fun s r => s.askRemote r.1 .write r.2.1 r.2.2.length r.2.2) (s.writeHere ps bs)

/-- The entry of a die's region table that decides an address, with its index (R231). -/
def State.regionAt (s : State) (die va : Nat) : Option (Nat × Region) :=
  (s.die die).regions.find? (fun kv => decide (1 ≤ kv.2.state.toNat ∧ kv.2.state.toNat ≤ 3 ∧ kv.2.base.toNat ≤ va ∧
    va < kv.2.limit.toNat))

/-- Whether the region table refuses an access (R231). A context that belongs to no flock matches no FLOCK. -/
def State.regionFails (s : State) (die va : Nat) (flock : Option W32) (write : Bool) : Bool :=
  match s.regionAt die va with
  | none => false
  | some (_, r) => if r.state = 1 then write else if r.state = 2 then decide (flock ≠ some r.flock) else false

/-- A die's own store of bytes in its shadow address space (R451); none when it faults. -/
def State.shadowStore (s : State) (die : Nat) (addr : Nat) (bs : List Byte) : Option State :=
  match s.translate die (256 + die) (BitVec.ofNat 64 addr) .store false with
  | .error _ => none
  | .ok t => some ((s.applyAD t).putAt t.place bs)

/-- The size a ring register names, when it enables the ring: a SIZELOG2 in its range (R232, R248). -/
def ringSize (ctl : W64) (lo hi : Nat) : Option Nat :=
  let k := bits ctl.toNat 4 0
  if lo ≤ k ∧ k ≤ hi then some (2 ^ k) else none

/-- WIDX of a ring register. -/
def ringWidx (ctl : W64) : Nat := bits ctl.toNat 63 32

/-- A ring register with WIDX advanced by one. -/
def ringBump (ctl : W64) : W64 := BitVec.ofNat 64 ((ringWidx ctl + 1) % 2 ^ 32 * 2 ^ 32 + bits ctl.toNat 31 0)

/-- A dropped migration record: OVF, and its notice once (R248). -/
def State.migOvf (s : State) (die : Nat) : State :=
  if (s.die die).migqCtl.getLsbD 8 then s
  else (s.modDie die (fun d => { d with migqCtl := d.migqCtl ||| 0x100 })).dieNotice 0x34 0 0

/-- The PSIZE code of a page size (R248). -/
def psizeOf (size : Nat) : Nat := if size = 4096 then 0 else if size = 65536 then 1 else if size = 2 ^ 21 then 2 else 3

/-- Post a record to a die's migration queue (R248). -/
def State.postMig (s : State) (die fold asid page size mt : Nat) : State :=
  let d := s.die die
  match ringSize d.migqCtl 4 16 with
  | none => s
  | some n =>
    let w := ringWidx d.migqCtl
    if (w + 2 ^ 32 - bits d.migqRidx.toNat 31 0) % 2 ^ 32 = n then s.migOvf die
    else
      let rec_ := bytesOf 8 page ++ bytesOf 2 asid ++ bytesOf 2 fold ++ bytesOf 1 mt ++ bytesOf 1 (psizeOf size) ++
        bytesOf 2 w
      match s.shadowStore die (bits d.migqBase.toNat 56 12 * 4096 + 16 * (w % n)) rec_ with
      | none => s.migOvf die
      | some s1 =>
        let s2 := s1.modDie die (fun d => { d with migqCtl := ringBump d.migqCtl })
        if d.migqCtl.getLsbD 23 then { s2 with agenda := s2.agenda ++ [.qnotify die (bits d.migqCtl.toNat 22 17)] }
        else s2

/-- Counted accesses of a die to a page (R245 to R247): the count of the entry used is updated, and at THRESH a record is
posted and the count returns to 0. THRESH 0 disables counting. -/
def State.countAccess (s : State) (fold asid : Nat) (t : Trans) (n : Nat) : State :=
  let die := dieOf fold
  let d := s.die die
  let th := bits d.migThresh.toNat 15 0
  if t.pte.getLsbD 62 = false ∨ n = 0 ∨ th = 0 then s
  else
    let old := ((d.counts.find? (fun c => c.asid == asid && c.page == t.ent)).map AccCount.count).getD 0
    let rest := d.counts.filter (fun c => !(c.asid == asid && c.page == t.ent))
    let rest1 := if 4096 ≤ rest.length then rest.drop 1 else rest
    let hit := decide (th ≤ old + n)
    let s1 := s.setDie die { d with counts := rest1 ++ [{ asid := asid, page := t.ent, count := if hit then 0 else old + n }] }
    if hit then s1.postMig die fold asid t.page t.size (pteMt t.pte) else s1

/-- A dropped dirty-range record: OVF, and its notice once (R233). -/
def State.dlogOvf (s : State) (die : Nat) : State :=
  if (s.die die).dlogCtl.getLsbD 8 then s
  else (s.modDie die (fun d => { d with dlogCtl := d.dlogCtl ||| 0x100 })).dieNotice 0x33 0 0

/-- Append one record to the die's dirty-range log (R232, R233). -/
def State.postDlog (s : State) (fold : Nat) (p : DlogSpan) : State :=
  let die := dieOf fold
  let d := s.die die
  match ringSize d.dlogCtl 8 20 with
  | none => s
  | some n =>
    let w := ringWidx d.dlogCtl
    if (w + 2 ^ 32 - bits d.dlogRidx.toNat 31 0) % 2 ^ 32 = n then s.dlogOvf die
    else
      let rec_ := bytesOf 8 p.lo ++ bytesOf 4 (p.hi + 1 - p.lo) ++ bytesOf 2 fold ++ bytesOf 2 w
      match s.shadowStore die (bits d.dlogBase.toNat 56 12 * 4096 + 16 * (w % n)) rec_ with
      | none => s.dlogOvf die
      | some s1 => s1.modDie die (fun d => { d with dlogCtl := ringBump d.dlogCtl })

/-- The fold's merged record goes to memory: before a release, a fence or a disable (R233). -/
def State.flushDlog (s : State) (fold : Nat) : State :=
  match (s.fold fold).dlog with
  | none => s
  | some p => (s.modFold fold (fun f => { f with dlog := none })).postDlog fold p

/-- A write of bytes lo to hi of one 4 KiB block (R233): merged with the fold's record while they form one contiguous
span of one region in the block, a new record otherwise. Each lane of a move, and each run of written bytes of a write-back, is
a write of its own (DESIGN CHOICE, unsafe: log entry 89). -/
def State.logSpan (s : State) (fold region lo hi : Nat) : State :=
  match (s.fold fold).dlog with
  | some p =>
    if p.region = region ∧ p.lo / 4096 = lo / 4096 ∧ lo ≤ p.hi + 1 ∧ p.lo ≤ hi + 1 then
      s.modFold fold (fun f => { f with dlog := some { region := region, lo := min p.lo lo, hi := max p.hi hi } })
    else (s.flushDlog fold).modFold fold (fun f => { f with dlog := some { region := region, lo := lo, hi := hi } })
  | none => s.modFold fold (fun f => { f with dlog := some { region := region, lo := lo, hi := hi } })

/-- A performed write of bytes lo to hi of one 4 KiB block is recorded when its region asks for it (R231, R233). -/
def State.logBlock (s : State) (fold lo hi : Nat) : State :=
  match s.regionAt (dieOf fold) lo with
  | some (i, r) =>
    if r.state = 3 ∧ r.log = true ∧ (ringSize (s.die (dieOf fold)).dlogCtl 8 20).isSome = true
    then s.logSpan fold i lo hi else s
  | none => s

/-- A performed write of `n` bytes, block by block: a record lies within one 4 KiB block, and so does a region's end
(R230, R233). -/
def State.logWrite (s : State) (fold va n : Nat) : State :=
  if n = 0 then s
  else (List.range ((va + n - 1) / 4096 + 1 - va / 4096)).foldl (fun s i =>
    let b := 4096 * (va / 4096 + i)
    s.logBlock fold (max va b) (min (va + n - 1) (b + 4095))) s

/-! ## Reads and writes of many bytes by the agents that act for a space -/

/-- `n` bytes from a virtual address, read for an agent of a queue or of the die (R164, R244): the bytes with the state
after the walks, or the fault with its address and the state that the walks up to it leave (R242). A port that is down stops
it as it stops a fold (R429). -/
def State.readVirt (s : State) (die asid : Nat) (user : Bool) (va : Nat) :
    Nat → Except (BitVec 7 × Nat × State) (List Byte × State)
  | 0 => .ok ([], s)
  | n + 1 =>
    match s.walkTo die asid (BitVec.ofNat 64 va) .load user with
    | (s1, .error e) => .error (e, va, s1)
    | (s1, .ok t) =>
      match s1.unreachable die t.place with
      | some e => .error (e, va, s1)
      | none =>
        match State.readVirt s1 die asid user (va + 1) n with
        | .error e => .error e
        | .ok (bs, s2) => .ok (s1.getAt t.place 1 ++ bs, s2)

/-- Bytes stored from a virtual address upward for such an agent; nothing is written when any byte faults. -/
def State.writeVirt (s : State) (die asid : Nat) (user : Bool) (va : Nat) :
    List Byte → Except (BitVec 7 × Nat × State) State
  | [] => .ok s
  | b :: r =>
    match s.walkTo die asid (BitVec.ofNat 64 va) .store user with
    | (s1, .error e) => .error (e, va, s1)
    | (s1, .ok t) =>
      match s1.unreachable die t.place with
      | some e => .error (e, va, s1)
      | none =>
        match State.writeVirt s1 die asid user (va + 1) r with
        | .error e => .error e
        | .ok s2 => .ok (s2.putAt t.place [b])

/-- The walks of a store of `n` bytes from a virtual address upward (R242), and the first byte that faults, for an agent that
writes all or nothing. -/
def State.walkStore (s : State) (die asid : Nat) (user : Bool) (va : Nat) : Nat → State × Option Nat
  | 0 => (s, none)
  | n + 1 =>
    match s.walkTo die asid (BitVec.ofNat 64 va) .store user with
    | (s1, .error _) => (s1, some va)
    | (s1, .ok t) =>
      if (s1.unreachable die t.place).isSome then (s1, some va) else State.walkStore s1 die asid user (va + 1) n

/-! ## Fetch (R46) -/

/-- Code bytes from an address, or the fault with the first byte that has it (R46). -/
def State.fetchBytes (s : State) (die asid : Nat) (user : Bool) (pc : Nat) : Nat → Except (BitVec 7 × Nat) (List Byte)
  | 0 => .ok []
  | n + 1 =>
    let a := BitVec.ofNat 64 pc
    match s.translate die asid a .fetch user, State.fetchBytes s die asid user (pc + 1) n with
    | .error e, .ok _ => .error (e, pc)
    | .error e, .error (e2, a2) => if e = 0x21 ∧ e2 = 0x20 then .error (e2, a2) else .error (e, pc)
    | .ok _, .error e => .error e
    | .ok t, .ok bs => .ok (s.getAt t.place 1 ++ bs)

/-- Where a code address is mapped, whatever its page grants (R46): through tag 0x0 alone. -/
def State.codePlace (s : State) (die asid : Nat) (addr : W64) : Option Place :=
  let va := bits addr.toNat 56 0
  if bits addr.toNat 63 57 ≠ 0 then none
  else match s.root asid with
    | none => if 256 ≤ asid ∧ va < 2 ^ 48 ∧ physOk va 1 = true then some (.pkg va) else none
    | some base =>
      match s.leafOf die asid va .fetch base with
      | none => none
      | some l => s.leafPlace die l.pte l.desc l.size va

/-- The walks of a fetch set A in each leaf that grants it (R242). -/
def State.walkCode (s : State) (die asid : Nat) (user : Bool) (pc : Nat) : Nat → State
  | 0 => s
  | n + 1 =>
    match s.translate die asid (BitVec.ofNat 64 pc) .fetch user with
    | .error _ => State.walkCode s die asid user (pc + 1) n
    | .ok t => State.walkCode (s.applyAD t) die asid user (pc + 1) n

end Sys2Proof.Machine
end

