-- ==== Sys2Proof/Machine/Home.lean ====
section
/-! DEFINITION. The mapped sectors of a scratchpad block (R214 to R216), their fills and write-backs. -/

namespace Sys2Proof.Machine

/-! ## Mapped sectors (R214 to R216) -/

/-- A valid map of a gang's half: its number, global base, range in the block and WRITE. -/
structure SMap where
  n : Nat
  vbase : Nat
  off : Nat
  len : Nat
  write : Bool

/-- The valid maps of a half (R214). -/
def Gang.maps (g : Gang) (half : Nat) : List SMap :=
  (List.range 8).filterMap (fun n =>
    let v := (Tbl.get g.smapV (8 * half + n) 0).toNat
    let w := (Tbl.get g.smapS (8 * half + n) 0).toNat
    if bit w 63 then
      some { n := n, vbase := bits v 56 8 * 256, off := bits w 19 8 * 256, len := bits w 44 32 * 256, write := bit w 62 }
    else none)

/-- The map that covers an offset of the block (R216). -/
def Gang.mapAt (g : Gang) (half off : Nat) : Option SMap :=
  (g.maps half).find? (fun m => decide (m.off ≤ off ∧ off < m.off + m.len))

def Sector.fresh : Sector := { filled := false, dirty := 0 }
def Gang.sector (g : Gang) (half k : Nat) : Sector := Tbl.get g.sectors (4096 * half + k) Sector.fresh
def Gang.setSector (g : Gang) (half k : Nat) (x : Sector) : Gang :=
  { g with sectors := Tbl.put g.sectors (4096 * half + k) x }

/-- The global address of sector `k` of a block under a map. -/
def SMap.global (m : SMap) (k : Nat) : Nat := m.vbase + (256 * k - m.off)

/-- The fold that holds a half of a gang (R177). -/
def Gang.foldOf (g : Gang) (half : Nat) : Nat := if g.block.pair then g.fold / 2 * 2 + half else g.fold

/-- The watchpoints of the gang's fold at a fill or write-back of a map, over the intervals of bytes it moves (R364): blocked,
or reported to the shadow context with the address's bits 56:16 as an engine element is (R366). A report is made even when
another watchpoint blocks (R384). -/
def State.mapWatch (s : State) (g : Gang) (fold : Nat) (spans : List (Nat × Nat)) (wr : Bool) : State × Option (BitVec 7) :=
  let hits := spans.map (fun x => (x.1, (s.fold fold).watchHit 0 g.asid g.flock g.conf x.1 (x.1 + x.2 - 1) (!wr) wr))
  let s1 := match hits.find? (fun x => x.2.user || x.2.shadow) with
    | some x => s.pushEvent fold (eventWord 0x29 0 0 true false (bits x.1 56 16))
    | none => s
  (s1, if hits.any (fun x => x.2.block) then some 0x29 else none)

/-- Whether an island that an address of package memory needs is Off: its home's slice, its near-memory channel group or its
LPDDR-6 controller (R221, R224, R442, R444). -/
def Die.dark (d : Die) (p : Nat) : Bool :=
  let off (i : Nat) : Bool := Tbl.get d.islands i 0 == 7
  d.islands.any (fun kv => kv.2 == 7 && decide (192 ≤ kv.1 ∧ kv.1 < 248)) &&
    (off (192 + (homeOf p).2) ||
      (if p < 2 ^ 44 then off (224 + (Config.nearGroup (homeDie p) (p % 2 ^ 36 / 1024)).toNat) else off (240 + p / 4096 % 8)))

/-- Whether bytes of package memory hold an uncorrectable error (R224). What an island that is Off would hold is lost, which the
access meets as one (DESIGN CHOICE: log entry 48). -/
def State.eccHit (s : State) (p : Place) (n : Nat) : Bool :=
  match p with
  | .pkg k => (s.die (homeDie k)).eccBad.any (fun b => overlap k (k + n - 1) b (b + 127)) || (s.die (homeDie k)).dark k
  | _ => false

/-- What another device answers to an element of an engine, a fill or a write-back (R428): that it refuses the access
(C_REMOTEERR), that it stays unreachable (C_PEERDOWN), or nothing of the kind. The device decides, so it is a free value
(DESIGN CHOICE: log entry 78). -/
def State.remoteFault (s : State) : Place → Option (BitVec 7)
  | .remote dev a =>
    let v := Config.remoteFate dev a s.pkg.clk
    if v = 1 then some 0x36 else if v = 2 then some 0x53 else none
  | _ => none

/-- A read fault of a fill as the touching lane records it (R215): the load or store fault of that address. -/
def AccKind.fillCause (k : AccKind) (e : BitVec 7) : BitVec 7 :=
  if e = 0x22 then k.xlate else if e = 0x23 then k.perm else e

/-- The checks of a page of a map that a fill or a write-back meets once its walk has granted the access (R215, R231, R364,
R224, R428, R429): the state they leave, and what fails first. -/
def State.mapChecks (s : State) (g : Gang) (fold va : Nat) (t : Trans) (spans : List (Nat × Nat)) (wr : Bool) :
    State × Option (BitVec 7) :=
  if s.regionFails (dieOf fold) va (some g.flock) wr then (s, some 0x27)
  else match s.mapWatch g fold spans wr with
    | (s1, some e) => (s1, some e)
    | (s1, none) =>
      match s1.unreachable (dieOf fold) t.place, s1.eccHit t.place 256 with
      | some e, _ => (s1, some e)
      | none, true => (s1, some 0x2C)
      | none, false => (s1, s1.remoteFault t.place)

/-- The bytes of a sector that a fill has read, in the gang's block. -/
def State.putSector (s : State) (gid half k : Nat) (g : Gang) (bs : List Byte) : State :=
  let key := Memory.spmKey (g.foldOf half) (Tbl.get g.base half 0 + 256 * k)
  { s with mem := Memory.writeN s.mem key bs }.setGang gid (g.setSector half k { filled := true, dirty := 0 })

/-- Fill a mapped sector that is not filled (R215): one read of its 256 bytes as a `.si` load. With a fault that a lane of kind
`kind` records, the sector stays unfilled; the walk's A bit (R242) and a watchpoint's report stand. -/
def State.fillSector (s : State) (gid half k : Nat) (m : SMap) (kind : AccKind) : State × Option (BitVec 7) :=
  match s.gang gid with
  | none => (s, none)
  | some g =>
    if (g.sector half k).filled then (s, none)
    else
      let fold := g.foldOf half
      let va := m.global k
      match s.walkTo (dieOf fold) g.asid (BitVec.ofNat 64 va) .load true with
      | (s0, .error e) => (s0, some (kind.fillCause e))
      | (s0, .ok t) =>
        match s0.mapChecks g fold va t [(va, 256)] false with
        | (s1, some e) => (s1, some e)
        | (s1, none) =>
          let s2 := s1.countAccess fold g.asid t 1
          let s3 := match t.place with
            | .pkg p => (s2.l2Touch p false).meshAccess fold p 0 0
            | .remote dev a => s2.askRemote dev .read a 256 []
            | .host _ => s2
          (s3.putSector gid half k g (s2.getAt t.place 256), none)

/-- Mark bytes of a filled sector dirty (R215). -/
def State.dirtyBytes (s : State) (gid half off n : Nat) : State :=
  s.modGang gid (fun g =>
    let x := g.sector half (off / 256)
    g.setSector half (off / 256) { x with dirty := x.dirty ||| BitVec.ofNat 256 ((2 ^ n - 1) * 2 ^ (off % 256)) })

/-- Write back the dirty bytes of a sector as `.wt` stores (R215, R225); with a fault, they stay dirty, and the walk's A and D
bits (R242) and a watchpoint's report stand. What goes to another device is sent there. -/
def State.writeBack (s : State) (gid half k : Nat) (m : SMap) : State × Option (BitVec 7) :=
  match s.gang gid with
  | none => (s, none)
  | some g =>
    let x := g.sector half k
    if x.dirty = 0 then (s, none)
    else
      let fold := g.foldOf half
      let va := m.global k
      let dirty := (List.range 256).filter (fun i => x.dirty.getLsbD i)
      match s.walkTo (dieOf fold) g.asid (BitVec.ofNat 64 va) .store true with
      | (s0, .error e) => (s0, some e)
      | (s0, .ok t) =>
        match s0.mapChecks g fold va t ((runs dirty).map (fun r => (va + r.1, r.2))) true with
        | (s1, some e) => (s1, some e)
        | (s1, none) =>
          let s2 := s1.countAccess fold g.asid t 1
          let key := Memory.spmKey fold (Tbl.get g.base half 0 + 256 * k)
          let put (s : State) (i : Nat) : State :=
            let b := Memory.read s.mem (key + i)
            let s1 := match t.place.key with
              | some p =>
                let s1 := s.storeL1 fold 1 (p + i) [b]
                { s1 with mem := Memory.write s1.mem (p + i) b }
              | none => s
            s1.logWrite fold (va + i) 1
          let s3 := dirty.foldl put s2
          let s4 := match t.place with
            | .pkg p => s3.meshAccess fold p 2 0
            | .remote dev a => (runs dirty).foldl (fun (s : State) (r : Nat × Nat) =>
                s.askRemote dev .write (a + r.1) r.2 (Memory.readN s.mem (key + r.1) r.2)) s3
            | .host _ => s3
          (s4.setGang gid (g.setSector half k { x with dirty := 0 }), none)

/-- Whether a sector's dirty bytes go to a page whose writes are held (R250): its write-back waits. -/
def State.sectorHeld (s : State) (gid half k : Nat) (m : SMap) : Bool :=
  match s.gang gid with
  | none => false
  | some g =>
    (g.sector half k).dirty != 0 &&
      (match s.translate (dieOf (g.foldOf half)) g.asid (BitVec.ofNat 64 (m.global k)) .store true with
      | .error _ => false
      | .ok t => t.pte.getLsbD 63)

/-- Whether some sector of a map waits so. -/
def State.mapHeld (s : State) (gid half : Nat) (m : SMap) : Bool :=
  (List.range (m.len / 256)).any (fun i => s.sectorHeld gid half (m.off / 256 + i) m)

/-- Write back every sector of a map; a fault keeps its sector dirty and is reported to `onFault` (R215). -/
def State.writeBackMap (s : State) (gid half : Nat) (m : SMap) (onFault : State → Nat → State) : State :=
  (List.range (m.len / 256)).foldl (fun s i =>
    match s.writeBack gid half (m.off / 256 + i) m with
    | (s1, none) => s1
    | (s1, some _) => onFault s1 (m.global (m.off / 256 + i))) s

/-- The sectors of a map become unfilled and clean (R215). -/
def Gang.clearMap (g : Gang) (half : Nat) (m : SMap) : Gang :=
  { g with sectors := g.sectors.filter (fun kv =>
      !(decide (4096 * half + m.off / 256 ≤ kv.1 ∧ kv.1 < 4096 * half + (m.off + m.len) / 256))) }

end Sys2Proof.Machine
end

