-- ==== Sys2Proof/Machine/Sync.lean ====
section
/-! DEFINITION. Teams of a gang together: barriers (R187, R188), stage rings (R191 to R193), register grow (R194), flags,
yields and fences (R189, R190, R279, R308), the end of a team (R98, R182), and SY's rows. claim, unclaim and rgn are
completed in Machine/MemUnits.lean, where memory is read. -/

namespace Sys2Proof.Machine

/-! ## Blocked operations of SY, SF, XL and SV -/

/-- An operation in flight for a trigger. -/
def Trig.op (t : Trig) (a tv : Vals) (vals : Option Vals) (notBefore : Nat) : VarOp :=
  { uid := t.uid, unit := t.unit, opcode := t.opcode, mask := t.mask, a := a, t := tv, vals := vals,
    notBefore := notBefore, token := none, addr := 0, scope := t.scope, bundle := t.pc, cycle := t.cycle, locks := 0 }

/-- The operation joins those in flight of its context; the range locks that stand now bind it (R306). -/
def State.addOp (s : State) (id : CtxId) (o : VarOp) : State :=
  s.modCtx id (fun c => { c with ops := c.ops ++ [{ o with locks := (s.fold id.fold).lockSeq }] })

/-- The first operation in flight that satisfies `p`. -/
def Ctx.findOp (c : Ctx) (p : VarOp → Bool) : Option VarOp := c.ops.find? p

/-- The context without operation `uid` in flight. -/
def Ctx.dropOp (c : Ctx) (uid : Nat) : Ctx := { c with ops := c.ops.filter (fun o => o.uid != uid) }

/-- Operation `o` completes with one value on every triggered lane (R186). -/
def Ctx.complete (c : Ctx) (o : VarOp) (v : W64) : Ctx := (c.dropOp o.uid).finish o.unit o.uid o.mask (fun _ => v) none

/-- A fault record of an operation that ends in a token on all its lanes (R360). -/
def VarOp.record (o : VarOp) (cause : BitVec 7) (addr : W64) : FaultRec :=
  { cause := cause, opcode := o.opcode, bundle := o.bundle, cycle := o.cycle, lanes := o.mask,
    addrs := List.replicate 1024 addr, mask := o.mask, a := o.a, b := [], c := [], t := o.t, r := [], scope := o.scope }

/-- Operation `o` completes with a token (R141, R193, R375). -/
def Ctx.completeToken (c : Ctx) (o : VarOp) (cause : BitVec 7) (addr : W64) : Ctx :=
  (c.dropOp o.uid).finish o.unit o.uid o.mask (fun _ => 0) (some (o.record cause addr))

/-- An execution-time fault of a trigger, due before the team's next bundle (R350). -/
def State.raise (s : State) (id : CtxId) (t : Trig) (code : BitVec 7) : State :=
  s.modCtx id (fun c => c.addDue (DueTrap.of code t.pc t.cycle))

/-- A trigger that fills R at once with one value (R186). -/
def State.answer (s : State) (id : CtxId) (t : Trig) (v : W64) : State :=
  s.modCtx id (fun c => c.finish t.unit t.uid t.mask (fun _ => v) none)

/-- A trigger that refills R at once with its earlier contents (R133, R160, R186). -/
def State.keep (s : State) (id : CtxId) (t : Trig) : State := s.modCtx id (fun c => c.finishKeep t.unit t.uid)

/-- The T value of a once-per-bundle trigger: that of its lowest triggered lane (R186). -/
def Ctx.tVal (c : Ctx) (t : Trig) : W64 := (c.us.unit t.unit).held.at (t.lane c)
/-- The A value of a once-per-bundle trigger; SV.A is uniform (R14, R370). -/
def Ctx.aVal (c : Ctx) (t : Trig) : W64 := (c.us.unit t.unit).a.at (if t.unit = U.sv then 0 else t.lane c)

/-! ## Barriers (R187, R188) -/

/-- Whether BARMASK names a role as a participant of barrier `i` (R173). -/
def Block.barRole (b : Block) (i role : Nat) : Bool :=
  if i < 8 then bit b.barMask.toNat (4 * i + role) else bit b.barMaskHi.toNat (4 * (i - 8) + role)

def Gang.barrier (g : Gang) (i : Nat) : Barrier := Tbl.get g.barriers i { gen := 0, arrivals := 0 }

/-- The expected count of a barrier (R187): its teams that have not exited, and the landing counters bound to it. -/
def State.expected (s : State) (gid : Nat) (g : Gang) (i : Nat) : Nat :=
  (g.teams.filter (fun kv => g.block.barRole i kv.2)).length +
    ((List.range 4).flatMap (fun d =>
      (s.die d).landing.filter (fun kv => kv.2.bound && kv.2.gang == gid && kv.2.barrier == i))).length

/-- The waiters of a completed barrier go on (R188): SY.R takes the new generation. -/
def Ctx.barWake (c : Ctx) (i gen : Nat) : Ctx :=
  if c.wait = .barrier i ∧ (Tbl.get c.barMem i { gen := 0, waiting := false }).gen < gen then
    let c1 := { c with wait := .ready, barMem := Tbl.upd c.barMem i { gen := 0, waiting := false } (fun m =>
      { m with waiting := false }) }
    match c1.findOp (fun o => o.unit == U.sy && decide (0x10 ≤ o.opcode.toNat) && decide (o.opcode.toNat < 0x30)) with
    | some o => c1.complete o (BitVec.ofNat 64 gen)
    | none => c1
  else c

/-- The key of a landing counter (R424). -/
def Landing.key (l : Landing) (die idx : Nat) : BitVec 16 := BitVec.ofNat 16 (l.gen % 64 * 1024 + die % 4 * 256 + idx % 256)

/-- An acquire by a team of a fold: the fold keeps no self-invalidating copy (R187, R191, R220). -/
def State.acquireAt (s : State) (f : Nat) : State := s.modFold f Fold.dropSi

/-- The folds on which teams of a gang run: those of its place, and any on which a team was restored (R195). -/
def State.gangFolds (s : State) (gid : Nat) (g : Gang) : List Nat :=
  [g.foldOf 0, g.foldOf 1] ++ (s.ctxs.filter (fun kv => kv.2.gang == gid && !kv.2.shadow)).map (fun kv => (ctxOfKey kv.1).fold)

/-- An acquire by the teams of a gang, wherever they run (R187, R191, R220). -/
def State.gangAcquire (s : State) (gid : Nat) (g : Gang) : State := (s.gangFolds gid g).foldl State.acquireAt s

/-- Test a barrier for completion (R187). When its generation rises, a landing counter with COUNT ≥ TARGET arrives again
at once (R424). -/
def State.barTest (s : State) (gid i : Nat) : State :=
  match s.gang gid with
  | none => s
  | some g =>
    let b := g.barrier i
    if b.arrivals ≠ 0 ∧ b.arrivals = s.expected gid g i then
      let s1 := s.setGang gid { g with barriers := Tbl.put g.barriers i { gen := b.gen + 1, arrivals := 0 } }
      let again := (List.range 4).flatMap (fun d => ((s.die d).landing.filter (fun kv =>
        kv.2.bound && kv.2.gang == gid && kv.2.barrier == i && decide (kv.2.target ≤ kv.2.count))).map (fun kv =>
          .landingCount d (kv.2.key d kv.1) 0))
      let s2 := s1.gangAcquire gid g
      { s2 with
        ctxs := s2.ctxs.map (fun kv =>
          if kv.2.gang == gid && !kv.2.shadow then (kv.1, kv.2.barWake i (b.gen + 1)) else kv)
        agenda := s2.agenda ++ again }
    else s

/-- One arrival at barrier `i` of a gang, by a team or a landing counter (R187, R424). -/
def State.barArrive (s : State) (gid i : Nat) : State :=
  (s.modGang gid (fun g =>
    let b := g.barrier i
    { g with barriers := Tbl.put g.barriers i { b with arrivals := b.arrivals + 1 } })).barTest gid i

/-- Whether a team's earlier arrival at the current generation has not completed (R188). -/
def Ctx.arrivedAt (c : Ctx) (i gen : Nat) : Bool :=
  match Tbl.find c.barMem i with
  | some m => m.gen == gen
  | none => false

/-- bar.arr, bar.wait and bar.sync (R188): `arr` and `wait` say which parts the trigger has. A trigger that is not performed
keeps R and completes the flag that it owns (DESIGN CHOICE, unsafe: log entry 87). -/
def startBar (arr wait : Bool) (i : Nat) : Start := fun s id t =>
  match s.ctx id with
  | none => s
  | some c =>
    match s.gang c.gang with
    | none => (s.raise id t 0x39).keep id t
    | some g =>
      let gen := (g.barrier i).gen
      let waiting := (Tbl.get c.barMem i { gen := 0, waiting := false }).waiting
      if !g.block.barRole i c.role || (arr && c.arrivedAt i gen) || (wait && !arr && !waiting) then
        (s.raise id t 0x39).keep id t
      else
        let s0 := if wait then s.addOp id (t.op [] [] none 0) else s
        let a := if arr then gen else (Tbl.get c.barMem i { gen := 0, waiting := false }).gen
        let s1 := s0.modCtx id (fun c => { c with
          barMem := Tbl.put c.barMem i { gen := a, waiting := true }
          wait := if wait then .barrier i else c.wait })
        let s2 := if arr then (s1.flushDlog id.fold).barArrive c.gang i else s1
        if wait then
          let now := (match s2.gang c.gang with | some g2 => (g2.barrier i).gen | none => gen)
          (if a < now then s2.acquireAt id.fold else s2).modCtx id (fun c => if a < now then c.barWake i now else c)
        else s2.answer id t (BitVec.ofNat 64 a)

/-! ## Stage rings (R191 to R193) -/

/-- A slot that nothing has written: empty, with phase bit 1 (R180). -/
def RingSlot.fresh : RingSlot := { full := false, phase := true }

def Ring.slotAt (r : Ring) (i : Nat) : RingSlot := Tbl.get r.slot (i % r.slots) RingSlot.fresh

/-- Whether producer index `p` can be granted: its slot is empty and every earlier lap of it has been released. -/
def Ring.prodOk (r : Ring) (p : Nat) : Bool := !(r.slotAt p).full && Tbl.get r.released (p % r.slots) 0 == p / r.slots

/-- Whether consumer index `c` can be granted: its slot is full with the phase of its lap. -/
def Ring.consOk (r : Ring) (c : Nat) : Bool := (r.slotAt c).full && b2n (r.slotAt c).phase == c / r.slots % 2

/-- The slot offset that SY.R receives (R192). The slots lie in the even fold's block (R177). -/
def Ring.offset (r : Ring) (half i : Nat) : W64 :=
  BitVec.ofNat 64 (r.off + i % r.slots * r.size + (if half = 1 then 2 ^ 31 else 0))

/-- The operation in flight of a ring trigger. -/
def Ctx.ringOp (c : Ctx) (n : Nat) (cons : Bool) : Option VarOp :=
  c.findOp (fun o => o.unit == U.sy && o.opcode.toNat == (if cons then 0x90 else 0x80) + n)

/-- A ring grant reaches a team (R192). -/
def Ctx.ringGrant (c : Ctx) (n : Nat) (cons : Bool) (off : W64) : Ctx :=
  let c1 := { c with wait := .ready }
  match c1.ringOp n cons with
  | some o => c1.complete o off
  | none => c1

/-- A ring wait that can never be granted ends in a token (R193). The team keeps the index that it took (DESIGN CHOICE, unsafe:
log entry 88). -/
def Ctx.ringGone (c : Ctx) (n : Nat) (cons : Bool) : Ctx :=
  let c1 := { c with wait := .ready }
  match c1.ringOp n cons with
  | some o => c1.completeToken o (if cons then 0x11 else 0x3A) 0
  | none => c1

/-- The teams of a gang that wait on ring `n`, with their index. -/
def State.ringWaiters (s : State) (gid n : Nat) (cons : Bool) : List (Nat × Nat) :=
  s.ctxs.filterMap (fun kv =>
    if kv.2.gang = gid ∧ kv.2.shadow = false ∧ kv.2.wait = .ring n cons then
      (if cons then (Tbl.get kv.2.ringMem n { prod := none, cons := none }).cons
        else (Tbl.get kv.2.ringMem n { prod := none, cons := none }).prod).map (fun i => (i, kv.1))
    else none)

/-- The waiter of lowest index. -/
def lowestWaiter : List (Nat × Nat) → Option (Nat × Nat)
  | [] => none
  | x :: r => match lowestWaiter r with
    | none => some x
    | some y => some (if y.1 < x.1 then y else x)

/-- Whether some team of a role has not exited. -/
def Gang.roleAlive (g : Gang) (role : Nat) : Bool := g.teams.any (fun kv => kv.2 == role)

/-- Grant what can be granted on a ring, producers in index order, and end the waits that cannot be (R191, R193). The
count bounds the grants of one test. -/
def State.ringTest (s : State) (gid n : Nat) : Nat → State
  | 0 => s
  | fuel + 1 =>
    match s.gang gid with
    | none => s
    | some g =>
      match Tbl.find g.rings n with
      | none => s
      | some r =>
        let at_ (kv : Nat × Nat) (f : Ctx → Ctx) : State := s.modCtx (ctxOfKey kv.2) f
        let noProd (i : Nat) : Bool := (r.slotAt i).full && !g.roleAlive r.cons
        let noCons (i : Nat) : Bool := !(r.slotAt i).full && !g.roleAlive r.prod
        let half (kv : Nat × Nat) : Nat := g.half (ctxOfKey kv.2).fold
        let ps := s.ringWaiters gid n false
        let prod := ((lowestWaiter ps).filter (fun w => r.prodOk w.1)).or (ps.find? (fun w => !r.prodOk w.1 && noProd w.1))
        let cons := (s.ringWaiters gid n true).find? (fun w => r.consOk w.1 || noCons w.1)
        match prod, cons with
        | some w, _ =>
          (at_ w (fun c => if r.prodOk w.1 then c.ringGrant n false (r.offset (half w) w.1)
            else c.ringGone n false)).ringTest gid n fuel
        | none, some w =>
          let s1 := at_ w (fun c => if r.consOk w.1 then c.ringGrant n true (r.offset (half w) w.1) else c.ringGone n true)
          (s1.acquireAt (ctxOfKey w.2).fold).ringTest gid n fuel
        | none, none => s

/-- racq and rwait (R191, R192). A trigger that raises C_RINGOVER keeps R (DESIGN CHOICE, unsafe: log entry 87). -/
def startRingTake (cons : Bool) (n : Nat) : Start := fun s id t =>
  match s.ctx id with
  | none => s
  | some c =>
    let mem := Tbl.get c.ringMem n { prod := none, cons := none }
    match (s.gang c.gang).bind (fun g => (Tbl.find g.rings n).map (fun r => (g, r))) with
    | none => (s.raise id t 0x3A).keep id t
    | some (g, r) =>
      if c.role ≠ (if cons then r.cons else r.prod) ∨ (if cons then mem.cons else mem.prod).isSome = true then
        (s.raise id t 0x3A).keep id t
      else
        let i := if cons then r.c else r.p
        let r1 := if cons then { r with c := r.c + 1 } else { r with p := r.p + 1 }
        let mem1 := if cons then { mem with cons := some i } else { mem with prod := some i }
        let s1 := s.setGang c.gang { g with rings := Tbl.put g.rings n r1 }
        let s2 := (s1.addOp id (t.op [] [] none 0)).modCtx id (fun c =>
          { c with ringMem := Tbl.put c.ringMem n mem1, wait := .ring n cons })
        s2.ringTest c.gang n 64

/-- rcom and rrel (R191, R192). A trigger that raises C_RINGOVER keeps R (DESIGN CHOICE, unsafe: log entry 87). -/
def startRingGive (cons : Bool) (n : Nat) : Start := fun s id t =>
  match s.ctx id with
  | none => s
  | some c =>
    let mem := Tbl.get c.ringMem n { prod := none, cons := none }
    match (s.gang c.gang).bind (fun g => (Tbl.find g.rings n).map (fun r => (g, r))),
        (if cons then mem.cons else mem.prod) with
    | some (g, r), some i =>
      if c.role ≠ (if cons then r.cons else r.prod) then (s.raise id t 0x3A).keep id t
      else
        let k := i % r.slots
        let old := r.slotAt i
        let r1 := if cons then
            { r with slot := Tbl.put r.slot k { old with full := false },
                     released := Tbl.upd r.released k 0 (fun x => x + 1) }
          else { r with slot := Tbl.put r.slot k { full := true, phase := decide (i / r.slots % 2 = 1) } }
        let mem1 := if cons then { mem with cons := none } else { mem with prod := none }
        let s1 := s.setGang c.gang { g with rings := Tbl.put g.rings n r1 }
        let s2 := s1.modCtx id (fun c => { c with ringMem := Tbl.put c.ringMem n mem1 })
        let s3 := if cons then s2 else s2.flushDlog id.fold
        (s3.keep id t).ringTest c.gang n 64
    | _, _ => (s.raise id t 0x3A).keep id t

/-! ## Register words (R179, R194) -/

/-- The words of PREEMPT_RESERVE (R378). -/
def reserveWords (v : W64) : Nat := min 32 (bits v.toNat 17 12) * 1024

/-- Whether a queue's base PRIO is 7, so that its gangs count the reserved words as free (R378). -/
def State.prio7 (s : State) (asid : Nat) : Bool :=
  bits (Tbl.get (s.die (asid / 64)).queues (asid % 64) Queue.fresh).ent1.toNat 15 8 == 7

/-- The register words of a fold that are free for a queue's gangs (R179, R378). -/
def State.freeWords (s : State) (f : Nat) (all : Bool) : Nat :=
  let used := (s.onFold f).foldl (fun a x => if x.2.shadow then a else a + x.2.nlanes * x.2.budget) 0
  131072 - (if all then 0 else reserveWords (s.fold f).preemptReserve) - used

/-- Grant the fold's grows in order of request (R194). -/
def State.growTest (s : State) (f : Nat) : Nat → State
  | 0 => s
  | fuel + 1 =>
    match (s.fold f).growQ with
    | [] => s
    | slot :: r =>
      let id : CtxId := { fold := f, slot := slot }
      match s.ctx id with
      | none => (s.modFold f (fun x => { x with growQ := r })).growTest f fuel
      | some c =>
        match c.wait with
        | .grow b =>
          if c.nlanes * (b - c.budget) ≤ s.freeWords f (s.prio7 c.asid) then
            let c1 := { c with budget := b, wait := .ready }
            let c2 := match c1.findOp (fun o => o.unit == U.sy && o.opcode == 0xA0) with
              | some o => c1.complete o (BitVec.ofNat 64 b)
              | none => c1
            ((s.setCtx id c2).modFold f (fun x => { x with growQ := r })).growTest f fuel
          else s
        | _ => (s.modFold f (fun x => { x with growQ := r })).growTest f fuel

/-- rgrow (R194). -/
def startRgrow : Start := fun s id t =>
  match s.ctx id with
  | none => s
  | some c =>
    let b := roundUp (c.budget + (c.tVal t).toNat) 8
    if 128 < b then s.answer id t (BitVec.ofNat 64 c.budget)
    else
      let s1 := (s.addOp id (t.op [] [] none 0)).modCtx id (fun c => { c with wait := .grow b })
      (s1.modFold id.fold (fun x => { x with growQ := x.growQ ++ [id.slot] })).growTest id.fold 33

/-- rshrink (R194). -/
def startRshrink : Start := fun s id t =>
  match s.ctx id with
  | none => s
  | some c =>
    let b := roundUp (c.budget - (c.tVal t).toNat) 8
    let s1 := s.modCtx id (fun c => { c with budget := b, g := c.g.filter (fun kv => decide (kv.1 < b)) })
    (s1.answer id t (BitVec.ofNat 64 b)).growTest id.fold 33

/-! ## Flags, yields, fences (R189, R190, R279, R308, R309) -/

/-- fset and fclr (R189): a clear of SETA or SETB in the bundle wins. -/
def startFlag (v : Bool) (j : Nat) : Start := fun s id t =>
  (s.modCtx id (fun c => if t.cleared.contains j then c else { c with us := c.us.setFlag j v })).keep id t

/-- yield (R190). -/
def startYield : Start := fun s id t => (s.modCtx id (fun c => { c with wait := .yield 0 })).keep id t

/-- A branch to `target` (R97, R100): C_LOOPREC inside a loop record, C_ALIGN for an odd target, else `f` acts.
DEDUCED (entry 79): FAULT_LANES marks the lanes that the trigger was live in. -/
def State.jump (s : State) (id : CtxId) (t : Trig) (target : W64) (f : Ctx → Ctx) : State :=
  s.modCtx id (fun c =>
    if (match c.loop with | some l => l.started && !c.inh | none => false) then
      c.addDue (DueTrap.of 0x3C t.pc t.cycle)
    else if target.getLsbD 0 then
      c.addDue { DueTrap.of 0x26 t.pc t.cycle with addr := some target, lanes := some t.mask }
    else f c)

/-- yieldc (R308, R309). -/
def startYieldc (j : Nat) : Start := fun s id t =>
  match s.ctx id with
  | none => s
  | some c =>
    let target := t.pc + sx (lo32 (c.tVal t))
    (s.jump id t target (fun c =>
      if c.us.flag j then { c with pc := target, lines := [] }
      else if c.us.owned j then { c with pc := target, lines := [], wait := .yieldc j }
      else c.addDue (DueTrap.of 0x3E t.pc t.cycle))).keep id t

/-- fence (R279): the team's next bundle waits for its completion. -/
def startFence : Start := fun s id t =>
  (s.addOp id (t.op [] [] none 0)).modCtx id (fun c => { c with us := { c.us with fence := some t.scope } })

/-- claim, unclaim and rgn: the descriptor's address is taken at the trigger and read when the operation completes
(R280 to R282). -/
def startClaim : Start := fun s id t =>
  match s.ctx id with
  | none => s
  | some c =>
    let o := t.op (c.us.unit t.unit).a (c.us.unit t.unit).held none 0
    s.addOp id { o with addr := BitVec.ofNat 64 ((lo32 (c.aVal t)).toNat * 2 ^ 32 + (lo32 (c.tVal t)).toNat) }

def startBarArr (i : BitVec 4) : Start := startBar true false i.toNat
def startBarWait (i : BitVec 4) : Start := startBar false true i.toNat
def startBarSync (i : BitVec 4) : Start := startBar true true i.toNat
def startFset (j : BitVec 4) : Start := startFlag true j.toNat
def startFclr (j : BitVec 4) : Start := startFlag false j.toNat
def startYieldcOn (j : BitVec 4) : Start := startYieldc j.toNat
def startRacq (n : BitVec 3) : Start := startRingTake false n.toNat
def startRwait (n : BitVec 3) : Start := startRingTake true n.toNat
def startRcom (n : BitVec 3) : Start := startRingGive false n.toNat
def startRrel (n : BitVec 3) : Start := startRingGive true n.toNat
def startUnclaim : Start := startClaim
def startRgn : Start := startClaim

/-! ## The end of a team (R98, R182, R187, R193) -/

/-- Barriers and rings of a gang are tested again: a team has left it. -/
def State.retest (s : State) (gid : Nat) : State :=
  let s1 := (List.range 16).foldl (fun a i => a.barTest gid i) s
  (List.range 8).foldl (fun a n => a.ringTest gid n 64) s1

/-- A context is emptied (R182, R195, R379): what its fold has merged for the dirty log is in memory (R233), no
self-invalidating word of the fold serves the team any more (R220), and its grow waits there no longer. -/
def State.vacate (s : State) (id : CtxId) (c : Ctx) : State :=
  ((s.flushDlog id.fold).dropCtx id).modFold id.fold (fun f =>
    { f.leaveSi c.tid with growQ := f.growQ.filter (fun x => x != id.slot) })

/-- A team leaves its gang: its pending arrivals are withdrawn, its link watches end and its residency is released (R98, R187, R426). -/
def State.teamExit (s : State) (id : CtxId) : State :=
  match s.ctx id with
  | none => s
  | some c =>
    let s1 := s.modGang c.gang (fun g =>
      { g with teams := Tbl.drop g.teams c.teamId
               barriers := g.barriers.map (fun kv =>
                 if c.arrivedAt kv.1 kv.2.gen then (kv.1, { kv.2 with arrivals := kv.2.arrivals - 1 }) else kv) })
    let s2 := (s1.vacate id c).modDie (dieOf id.fold) (fun d => { d with watches := d.watches.filter (fun w =>
      w.1 != c.tid) })
    (s2.retest c.gang).growTest id.fold 33

/-- A team issues nothing more (R98, R99, R357): the stores and atomics it has queued are still performed, and it is gone
when they have been. -/
def State.leave (s : State) (id : CtxId) : State :=
  match s.ctx id with
  | none => s
  | some c =>
    let left := c.memq.filter MemOp.isStore
    if left.isEmpty then s.teamExit id
    else s.setCtx id { c with memq := left, wait := .exiting, due := [], ops := [], frozen := false }

/-! ## The rows of SY -/

/-- R188. The team arrives at a barrier's current generation. -/
def execSyBarArr (bar : BitVec 4) (m : MoveF) (s : State) : Out3 :=
  issueOne (syllable true 16 3 (0 + bar.toNat) m) (startBarArr bar) s
/-- R188. The team waits until the barrier passes its arrival. -/
def execSyBarWait (bar : BitVec 4) (m : MoveF) (s : State) : Out3 :=
  issueOne (syllable true 16 3 (16 + bar.toNat) m) (startBarWait bar) s
/-- R188. The team arrives and waits at a barrier. -/
def execSyBarSync (bar : BitVec 4) (m : MoveF) (s : State) : Out3 :=
  issueOne (syllable true 16 3 (32 + bar.toNat) m) (startBarSync bar) s
/-- R279. The team waits until earlier accesses are performed at the fence's scope. -/
def execSyFence (m : MoveF) (s : State) : Out3 :=
  issueOne (syllable true 16 3 48 m) startFence s
/-- R189. Sets a flag to 1. -/
def execSyFset (flag : BitVec 4) (m : MoveF) (s : State) : Out3 :=
  issueOne (syllable true 16 3 (64 + flag.toNat) m) (startFset flag) s
/-- R189. Clears a flag to 0. -/
def execSyFclr (flag : BitVec 4) (m : MoveF) (s : State) : Out3 :=
  issueOne (syllable true 16 3 (80 + flag.toNat) m) (startFclr flag) s
/-- R190. Holds the team until another team issues or 16 idle cycles pass. -/
def execSyYield (m : MoveF) (s : State) : Out3 :=
  issueOne (syllable true 16 3 96 m) startYield s
/-- R308. Continues at a label when a flag reads 1, holding the team meanwhile. -/
def execSyYieldc (flag : BitVec 4) (m : MoveF) (s : State) : Out3 :=
  issueOne (syllable true 16 3 (112 + flag.toNat) m) (startYieldcOn flag) s
/-- R191. Takes a producer index of a ring and waits for its slot to be empty. -/
def execSyRacq (ring : BitVec 3) (m : MoveF) (s : State) : Out3 :=
  issueOne (syllable true 16 3 (128 + ring.toNat) m) (startRacq ring) s
/-- R191. Marks the held producer slot full with its phase, as a release. -/
def execSyRcom (ring : BitVec 3) (m : MoveF) (s : State) : Out3 :=
  issueOne (syllable true 16 3 (136 + ring.toNat) m) (startRcom ring) s
/-- R191. Takes a consumer index and waits for its slot full with matching phase. -/
def execSyRwait (ring : BitVec 3) (m : MoveF) (s : State) : Out3 :=
  issueOne (syllable true 16 3 (144 + ring.toNat) m) (startRwait ring) s
/-- R191. Empties the held consumer slot. -/
def execSyRrel (ring : BitVec 3) (m : MoveF) (s : State) : Out3 :=
  issueOne (syllable true 16 3 (152 + ring.toNat) m) (startRrel ring) s
/-- R194. Requests a larger register budget, refused above 128 or waited for. -/
def execSyRgrow (m : MoveF) (s : State) : Out3 :=
  issueOne (syllable true 16 3 160 m) startRgrow s
/-- R194. Shrinks the register budget and frees its words. -/
def execSyRshrink (m : MoveF) (s : State) : Out3 :=
  issueOne (syllable true 16 3 161 m) startRshrink s
/-- R281. Makes the fold owner of a described strided range at its homes. -/
def execSyClaim (m : MoveF) (s : State) : Out3 :=
  issueOne (syllable true 16 3 176 m) startClaim s
/-- R281. Writes back and releases the fold's ownership of a described range. -/
def execSyUnclaim (m : MoveF) (s : State) : Out3 :=
  issueOne (syllable true 16 3 177 m) startUnclaim s
/-- R282. Writes a region table entry of the die from a descriptor. -/
def execSyRgn (m : MoveF) (s : State) : Out3 :=
  issueOne (syllable true 16 3 192 m) startRgn s

end Sys2Proof.Machine
end

