-- ==== Sys2Proof/Machine/MemUnits.lean ====
section
/-! DEFINITION. LA, LB, ST and AT (R128 to R143, R449): what a trigger queues, the checks of a lane, its performance,
tokens and the store fault buffer (R360 to R363), held writes (R250), fences, claim, unclaim and rgn (R279 to R282), and
the events of the homes and of translation. -/

namespace Sys2Proof.Machine

/-! ## Kinds of a queued access -/

def MemOp.isLoadUnit (o : MemOp) : Bool := o.unit == U.la || o.unit == U.lb
def MemOp.isPf (o : MemOp) : Bool := o.isLoadUnit && 0xC0 ≤ o.opcode.toNat
def MemOp.isLoad (o : MemOp) : Bool := o.isLoadUnit && !o.isPf
def MemOp.isMaint (o : MemOp) : Bool := o.unit == U.st && 0x80 ≤ o.opcode.toNat
def MemOp.isRed (o : MemOp) : Bool := o.unit == U.at_ && o.opcode.toNat / 32 % 4 == 3
/-- An atomic that returns a value. -/
def MemOp.isAtom (o : MemOp) : Bool := o.unit == U.at_ && !o.isRed

/-- The size of each lane's access (R58, R59, R131, R134, R136). -/
def MemOp.size (o : MemOp) : Nat :=
  if o.isMaint then 1
  else if o.unit = U.at_ then (if o.opcode.getLsbD 4 then 8 else 4) else 2 ^ (o.opcode.toNat / 16 % 4)

/-- The request type of a load or a store (R131, R134): 0 own, 1 wt, 2 si, 3 uc. -/
def MemOp.rt (o : MemOp) : Nat := o.opcode.toNat / 2 % 4

/-- The access kind for translation (R244). -/
def MemOp.kind (o : MemOp) : AccKind := if o.isLoadUnit then .load else if o.isAtom then .atomic else .store

/-- Whether it reads, for a watchpoint: an atomic is both a read and a write (R364). -/
def MemOp.reads (o : MemOp) : Bool := o.isLoadUnit || o.unit == U.at_

/-! ## Triggers (R128 to R137) -/

/-- What R449's first two steps find for a lane at issue and, for a window, what the range locks and the watchpoints say:
an untranslated space is checked there (R306, R364). -/
def State.laneAt (s : State) (id : CtxId) (c : Ctx) (o : MemOp) (l : Nat) (addr x cmp : W64) : MemLane :=
  let mk (win : Option Nat) (fault : Option (BitVec 7)) (watch : BitVec 2) : MemLane :=
    { lane := l, addr := addr, x := x, cmp := cmp, win := win, fault := fault, watch := watch }
  if addr.toNat % o.size ≠ 0 ∧ o.isMaint = false ∧ o.isPf = false then mk none (some 0x26) 0
  else
    match tagOf addr with
    | 0 => mk none (if bits addr.toNat 59 57 ≠ 0 then some o.kind.xlate else none) 0
    | 3 => mk none (some 0x2A) 0
    | 1 => win mk
    | 2 => win mk
    | _ => mk none (some o.kind.xlate) 0
where
  /-- A window address (R211). A shadow context belongs to no gang and has no window. -/
  win (mk : Option Nat → Option (BitVec 7) → BitVec 2 → MemLane) : MemLane :=
    match (s.gang c.gang).bind (fun g => if c.shadow then none else g.window id.fold addr) with
    | none => mk none (some 0x2A) 0
    | some (f, off) =>
      let fo := s.fold id.fold
      let hit := fo.lockHit 1 f off (off + o.size - 1) fo.lockSeq
      let bad := if o.isLoad then hit.2 else !o.isMaint && (hit.1 || hit.2)
      let w := fo.watchHit 1 0 c.flock c.conf off (off + o.size - 1) o.reads o.kind.isWrite
      let own := decide (f = id.fold)
      mk (some (Memory.spmKey f off)) (if bad then some 0x28 else if own && w.block then some 0x29 else none)
        (if own then BitVec.ofNat 2 (b2n w.user + 2 * b2n w.shadow) else 0)

/-- Whether a lane does nothing at all: a prefetch of a window or of a bad address (R133), or a maintenance operation on
the wide-register window (R135, R210). -/
def MemLane.idle (o : MemOp) (x : MemLane) : Bool :=
  (o.isPf && (x.win.isSome || x.fault.isSome)) ||
    (o.isMaint && tagOf x.addr == 3 && bits x.addr.toNat 59 15 == 0)

/-- The operand, the expected value and the address of a lane as the ports give them (R128, R134, R136). -/
def UPorts.lane (p : UPorts) (o : MemOp) (l : Nat) : W64 × W64 × W64 :=
  let t := lo32 (p.held.at l)
  let b := lo32 (p.b.at l)
  let ch := lo32 (p.c.at l)
  let off := p.a.at l + sx t
  let pair (h w : W32) : W64 := (zx h <<< 32) ||| zx w
  if o.unit = U.st then
    if !o.isMaint && o.size == 8 then (p.a.at l, pair t b, 0) else (off, zx b, 0)
  else if o.unit = U.at_ then
    if o.size = 8 then (off, pair ch b, p.r.at l)
    else if o.opcode.toNat % 16 = 10 then (off, zx ch, zx b)
    else (off, zx b, 0)
  else (off, 0, 0)

/-- The record that a trigger opens for its port (R360): no lane has faulted yet. -/
def Trig.openRec (t : Trig) (p : UPorts) : FaultRec :=
  { cause := 0, opcode := t.opcode, bundle := t.pc, cycle := t.cycle, lanes := 0, addrs := [], mask := t.mask, a := p.a,
    b := p.b, c := p.c, t := p.held, r := p.r, scope := t.scope }

/-- A memory move of no lane yet. -/
def MemOp.blank (uid unit : Nat) (opcode : BitVec 8) (scope : BitVec 3) (mask : Lanes) (locks : Nat)
    (bundle cycle : W64) (issued : Nat := 0) : MemOp :=
  { uid := uid, unit := unit, opcode := opcode, scope := scope, lanes := [], pass := 0, mask := mask,
    locks := locks, res := [], toks := [], begun := false, bundle := bundle, cycle := cycle, issued := issued,
    replay := none }

/-- The bytes a lane touches share a byte with another lane of a write. -/
def lanesMeet (a : W64) (n : Nat) (o : MemOp) : Bool :=
  o.lanes.any (fun x => overlap a.toNat (a.toNat + n - 1) x.addr.toNat (x.addr.toNat + o.size - 1))

/-- The entry of the store fault buffer that a lane touches (R362): the cause its loads record. A joined entry's own
cause is 0, so that of the oldest stands for it. A move that waits for an entry counts as one. -/
def Ctx.sfbHit (c : Ctx) (o : MemOp) (x : MemLane) : Option (BitVec 7) :=
  let oldest := (c.sfb.head?.map SfbEntry.cause).getD 0
  ((c.sfb ++ c.sfbWait).find? (fun e => lanesMeet x.addr o.size e.op)).map (fun e => if e.cause = 0 then oldest else e.cause)

/-- The traps of a team's report-mode watchpoints (R365): one for each bundle and route, with the lanes that hit and the address
of the lowest (R353). -/
def Ctx.addWatch (c : Ctx) (o : MemOp) (x : MemLane) (toShadow : Bool) : Ctx :=
  let m : Lanes := BitVec.ofNat 1024 (2 ^ x.lane)
  let same (d : DueTrap) : Bool :=
    d.code == 0x29 && d.toShadow == toShadow && d.bundle == some (o.bundle, o.cycle) && !d.held
  if c.due.any same then
    let low (d : DueTrap) : Bool := x.lane < Lanes.low (d.lanes.getD 0) 1024
    { c with due := c.due.map (fun d =>
        if same d then { d with lanes := d.lanes.map (· ||| m), addr := if low d then some x.addr else d.addr } else d) }
  else c.addDue { DueTrap.of 0x29 o.bundle o.cycle with lanes := some m, addr := some x.addr, toShadow := toShadow }

/-- Report an access to the watchpoints that saw it (R365). -/
def State.report (s : State) (id : CtxId) (o : MemOp) (x : MemLane) (w : WatchHit) : State :=
  let s1 := if w.user then s.modCtx id (fun c => c.addWatch o x false) else s
  if w.shadow then s1.modCtx id (fun c => c.addWatch o x true) else s1

/-- The windows of a move meet the watchpoints at its issue (R364): a lane that no earlier check of R449 stops is reported, a
blocked one too (R365, R384). -/
def Ctx.watchAtIssue (c : Ctx) (o : MemOp) : Ctx :=
  o.lanes.foldl (fun c x =>
    let stopped := x.fault.any (fun e => e != 0x29) || (!o.isMaint && !o.isPf && (c.sfbHit o x).isSome)
    if stopped then c
    else
      let c1 := if x.watch.getLsbD 0 then c.addWatch o x false else c
      if x.watch.getLsbD 1 then c1.addWatch o x true else c1) c

/-- A trigger of LA, LB, ST or AT: its lanes join the team's queue pass by pass (R29, R138, R145). A prefetch and a red
refill R at once (R133, R137). -/
def startMem : Start := fun s id t =>
  match s.ctx id with
  | none => s
  | some c =>
    let p := c.us.unit t.unit
    let o := MemOp.blank t.uid t.unit t.opcode t.scope t.mask (s.fold id.fold).lockSeq t.pc t.cycle (s.fold id.fold).cycle
    let lane (l : Nat) : MemLane :=
      let v := p.lane o l
      s.laneAt id c o l v.1 v.2.1 v.2.2
    let ps := Lanes.passes t.mask c.nlanes
    let ops := ps.map (fun w =>
      { o with pass := w,
               lanes := ((Lanes.list (Lanes.only t.mask w) c.nlanes).map lane).filter (fun x => !x.idle o) })
    let quick := o.isPf || o.isRed
    s.modCtx id (fun c =>
      let c1 := if t.unit = U.st || quick then c
        else { c with us := c.us.setUnit t.unit { c.us.unit t.unit with frec := some (t.openRec p) } }
      let c2 := ops.foldl Ctx.watchAtIssue { c1 with memq := c1.memq ++ ops }
      if quick then c2.finishKeep t.unit t.uid else c2)

/-! ## The checks of a lane (R449) -/

/-- What the checks find. -/
inductive Check where
  | fault (code : BitVec 7)
  /-- The lane joins the store fault buffer (R362). -/
  | join
  | window (fold off : Nat)
  | place (t : Trans)
  | hold (t : Trans)
deriving DecidableEq, Repr

/-- An atomic that the page's memory type does not support (R139): MT host has no minimum, maximum or addition of floats,
MT remote no fadd.bf16x2. -/
def badAtomType (o : MemOp) (t : Trans) : Bool :=
  let op := o.opcode.toNat % 16
  o.unit == U.at_ &&
    (match pteMt t.pte with
    | 2 => (5 ≤ op && op ≤ 8) || 11 ≤ op
    | 4 => op == 12
    | _ => false)

/-- Steps 4 to 9 of R449 for a global address, by a fold for a space and a flock. -/
def State.checkGlobal (s : State) (fold asid : Nat) (flock : Option W32) (conf : Bool) (o : MemOp) (size : Nat)
    (addr : W64) : Check :=
  match s.translate (dieOf fold) asid addr o.kind (decide (asid < 256)) with
  | .error e => .fault e
  | .ok t =>
    let va := bits addr.toNat 56 0
    let hi := va + size - 1
    let wr := o.kind.isWrite
    let hit := (s.fold fold).lockHit 0 asid va hi o.locks
    if s.regionFails (dieOf fold) va flock wr then .fault 0x27
    else if if o.isPf then hit.1 || hit.2 else !o.isMaint && (hit.2 || (hit.1 && wr)) then .fault 0x28
    else if ((s.fold fold).watchHit 0 asid (flock.getD 0) conf va hi o.reads wr).block then .fault 0x29
    else if badAtomType o t then .fault 0x2D
    else if t.pte.getLsbD 63 && wr && !o.isMaint then .hold t
    else .place t

/-- The flock of a context, for the region table: a shadow context belongs to none. -/
def Ctx.flock? (c : Ctx) : Option W32 := if c.shadow then none else some c.flock

/-- The first three checks of R449 and, for a window, what its issue found: alignment, the tag and its window, the team's
store fault buffer. None when they pass. -/
def State.early (c : Ctx) (o : MemOp) (x : MemLane) : Option Check :=
  match x.fault.filter (fun e => e != 0x28 && e != 0x29), if o.isMaint || o.isPf then none else c.sfbHit o x with
  | some e, _ => some (.fault e)
  | none, some e => some (if o.isLoad then .fault e else .join)
  | none, none => x.fault.map Check.fault

/-- The checks of R449 for a lane of a queued move, in their order. -/
def State.check (s : State) (id : CtxId) (c : Ctx) (o : MemOp) (x : MemLane) : Check :=
  match State.early c o x with
  | some k => k
  | none =>
    match x.win with
    | none => s.checkGlobal id.fold c.asid c.flock? c.conf o o.size x.addr
    | some key =>
      let off := key - Memory.spmKey 0 0
      let hit := (s.fold id.fold).lockHit 1 (off / 2 ^ 20) (off % 2 ^ 20) (off % 2 ^ 20 + o.size - 1) o.locks
      if !o.isMaint && !o.isPf && (hit.2 || (hit.1 && o.kind.isWrite)) then .fault 0x28
      else .window (off / 2 ^ 20) (off % 2 ^ 20)

/-- What the watchpoints say of a lane of global memory, at its translation (R364); a window's were asked at issue. -/
def State.seen (s : State) (id : CtxId) (c : Ctx) (o : MemOp) (x : MemLane) : WatchHit :=
  if x.win.isSome then { block := x.fault == some 0x29, user := false, shadow := false }
  else
    let va := bits x.addr.toNat 56 0
    (s.fold id.fold).watchHit 0 c.asid c.flock c.conf va (va + o.size - 1) o.reads o.kind.isWrite

/-- The walk of a global lane (R242): a leaf that grants the access has its A and D bits set before the access is performed,
whatever the later checks say. A prefetch walks as any access does, so that "misses" in R133 is a walk that fails, and one that
performs nothing sets none (R306; DESIGN CHOICE: log entry 82). -/
def State.walked (s : State) (id : CtxId) (c : Ctx) (o : MemOp) (x : MemLane) (k : Check) : State :=
  let none_ := o.isPf && (match k with | .place _ => false | _ => true)
  if x.win.isSome || none_ || (State.early c o x).isSome then s
  else (s.walkTo (dieOf id.fold) c.asid x.addr o.kind (decide (c.asid < 256))).1

/-! ## Performance -/

/-- A load's value, extended as its opcode says (R131). -/
def MemOp.extend (o : MemOp) (v : Nat) : W64 :=
  if o.opcode.getLsbD 3 && o.size < 8 then sextN (8 * o.size) v else BitVec.ofNat 64 v

/-- One BF16 or FP32 addition of an atomic (R136): round to nearest even, canonical NaN, BF16 subnormals flushed. -/
def atomFadd (f : Fmt) (ftz : Bool) (a b : Nat) : Nat :=
  let v (x : Nat) : Fv := if ftz then f.flushIn (f.decode x) else f.decode x
  (f.sum 0 ftz [v a, v b]).1

/-- The new value of an atomic's location (R136): operation, width in bits, old value, operand, expected value. -/
def atomNew (op w old x cmp : Nat) : Nat :=
  let sg (v : Nat) : Int := (BitVec.ofNat w v).toInt
  match op with
  | 0 => (old + x) % 2 ^ w
  | 1 => (old + 2 ^ w - x % 2 ^ w) % 2 ^ w
  | 2 => old &&& x
  | 3 => old ||| x
  | 4 => old ^^^ x
  | 5 => if sg x < sg old then x else old
  | 6 => min old x
  | 7 => if sg old < sg x then x else old
  | 8 => max old x
  | 9 => x
  | 10 => if old = cmp then x else old
  | 11 => atomFadd Fmt.f32 false old x
  | _ => atomFadd Fmt.bf16 true (old % 2 ^ 16) (x % 2 ^ 16) + atomFadd Fmt.bf16 true (old / 2 ^ 16) (x / 2 ^ 16) * 2 ^ 16

/-- A checked lane is performed at a memory key: the state after, and the value for R. -/
def State.accessAt (s : State) (o : MemOp) (x : MemLane) (key : Nat) : State × W64 :=
  let old := s.rd key o.size
  if o.isLoadUnit then (s, o.extend old)
  else if o.unit = U.st then (s.wr key o.size x.x.toNat, 0)
  else (s.wr key o.size (atomNew (o.opcode.toNat % 16) (8 * o.size) old x.x.toNat x.cmp.toNat), BitVec.ofNat 64 old)

/-- The lane's value goes to R when the last pass has been performed. -/
def MemOp.gives (o : MemOp) (x : MemLane) (v : W64) : MemOp :=
  if o.isLoad || o.isAtom then { o with res := Tbl.put o.res x.lane v } else o

/-- A lane enters the store fault buffer (R362): one entry for each move; the sixteenth entry makes C_SFBFULL due. A move
that finds the buffer full waits in the store port for an entry (DESIGN CHOICE, safe: log entry 58). -/
def Ctx.sfbAdd (c : Ctx) (o : MemOp) (x : MemLane) (cause : BitVec 7) : Ctx :=
  let mine (e : SfbEntry) : Bool := e.op.uid == o.uid && e.op.bundle == o.bundle && e.op.cycle == o.cycle
  let more (l : List SfbEntry) : List SfbEntry := l.map (fun e =>
    if mine e then { e with cause := if e.cause = 0 then cause else e.cause
                            op := { e.op with lanes := e.op.lanes ++ [{ x with trip := .here }] } } else e)
  let new : SfbEntry := { cause := cause, op := { o with lanes := [{ x with trip := .here }], res := [], toks := [] } }
  if c.sfb.any mine then { c with sfb := more c.sfb }
  else if c.sfbWait.any mine then { c with sfbWait := more c.sfbWait }
  else if 16 ≤ c.sfb.length then { c with sfbWait := c.sfbWait ++ [new] }
  else
    let c1 := { c with sfb := c.sfb ++ [new] }
    if c1.sfb.length = 16 then c1.addDue (DueTrap.of 0x18 o.bundle o.cycle) else c1

/-- A lane's fault (R141): a token to be, or an entry of the store fault buffer; a prefetch takes none (R133). -/
def State.laneFault (s : State) (id : CtxId) (o : MemOp) (x : MemLane) (cause : BitVec 7) : State × MemOp :=
  if o.isPf then (s, o)
  else if o.isLoad || o.isAtom then (s, { o with toks := o.toks ++ [(x.lane, cause, x.addr)] })
  else (s.modCtx id (fun c => c.sfbAdd o x cause), o)

/-- The gang and half whose block holds a scratchpad byte, with the byte's offset in the block (R211). -/
def State.blockAt (s : State) (fold off : Nat) : Option (Nat × Gang × Nat × Nat) :=
  s.gangs.findSome? (fun kv =>
    let g := kv.2
    let half := g.half fold
    let b := Tbl.get g.base half 0
    if g.foldOf half = fold ∧ g.block.scrLog2 ≠ 0 ∧ b ≤ off ∧ off < b + 2 ^ g.block.scrLog2 then
      some (kv.1, g, half, off - b)
    else none)

/-- A window byte range made ready (R215): an unfilled mapped sector is filled, a write to a map without WRITE refused,
a write marked. -/
def State.touchWindow (s : State) (fold off n : Nat) (kind : AccKind) : State × Option (BitVec 7) :=
  match s.blockAt fold off with
  | none => (s, none)
  | some (gid, g, half, o) =>
    match g.mapAt half o with
    | none => (s, none)
    | some m =>
      if kind.isWrite && !m.write then (s, some 0x2A)
      else match s.fillSector gid half (o / 256) m kind with
        | (s1, some e) => (s1, some e)
        | (s1, none) => (if kind.isWrite then s1.dirtyBytes gid half o n else s1, none)

/-- A maintenance operation on a scratchpad byte (R135): its mapped sector is written back, and for inv and flush marked
unfilled. -/
def State.maintWindow (s : State) (o : MemOp) (fold off : Nat) : State × Option (BitVec 7) :=
  match s.blockAt fold off with
  | none => (s, none)
  | some (gid, g, half, b) =>
    match g.mapAt half b with
    | none => (s, none)
    | some m =>
      match s.writeBack gid half (b / 256) m with
      | (s1, some e) => (s1, some e)
      | (s1, none) =>
        (if o.opcode = 0x80 then s1 else s1.modGang gid (fun g => g.setSector half (b / 256) Sector.fresh), none)

/-- Whether a maintenance lane waits, because its sector's page holds writes (R250). -/
def State.maintHeld (s : State) (o : MemOp) (fold off : Nat) : Bool :=
  o.isMaint &&
    (match s.blockAt fold off with
    | none => false
    | some (gid, g, half, b) => match g.mapAt half b with
      | none => false
      | some m => s.sectorHeld gid half (b / 256) m)

/-- A lane on a scratchpad byte. C_SPMWINDOW of a map without WRITE and the fault of a sector's fill come after the range
locks and the watchpoints (DESIGN CHOICE, unsafe: log entry 66). -/
def State.laneWindow (s : State) (id : CtxId) (o : MemOp) (x : MemLane) (fold off : Nat) : State × MemOp :=
  match if o.isMaint then s.maintWindow o fold off else s.touchWindow fold off o.size o.kind with
  | (s1, some e) => s1.laneFault id o x e
  | (s1, none) =>
    if o.isMaint then (s1, o)
    else
      let (s2, v) := s1.accessAt o x (Memory.spmKey fold off)
      (s2, o.gives x v)

/-- The request type under which a lane is served (R139, R140): `.own` serves as `.si` for loads and `.wt` for stores on host
memory, and as `.si` for a load of a page whose writes are held. -/
def MemOp.rtAt (o : MemOp) (key : Nat) (wblk : Bool) : Nat :=
  if o.rt ≠ 0 then o.rt
  else if o.isLoadUnit then (if wblk || !tracked key then 2 else 0) else if tracked key then 0 else 1

/-- A prefetch brings the line to the fold (R133). -/
def State.prefetch (s : State) (fold tid rt key : Nat) : State :=
  let b := lineOf key
  let s1 := if rt = 0 then s.ownRange fold b 4 32 4 else s
  s1.fillL1 fold tid rt b (b + 127)

/-- A prefetch of another device's line (R133, R139): `.own` and `.si` bring self-invalidating copies of what the device holds
(a free value), `.wt` a line whose words are read at the device again. -/
def State.prefetchRemote (s : State) (fold tid rt dev a : Nat) : State :=
  let b := lineOf a
  let tag := Memory.remoteTag dev b
  let s1 := s.askRemote dev .read b 128 []
  if rt = 2 then s1.modLine fold tag (fun x => x.keepSi (BitVec.allOnes 32) tid (fun i => s.getAt (.remote dev (b + 4 * i)) 4))
  else if rt = 1 then s1.fillL1 fold tid 1 tag (tag + 127)
  else s1

/-- A maintenance operation on the line that holds an address of global memory (R135): its owned dirty words go to the home;
inv and flush then discard the copy and its ownership. -/
def State.maintLine (s : State) (fold : Nat) (o : MemOp) (key : Nat) : State :=
  let b := lineOf key
  match (s.fold fold).l1.find? (fun x => x.base == b) with
  | none => if o.opcode = 0x80 ∨ tracked key = false then s else s.disown fold b (b + 127)
  | some x =>
    let s1 := (if x.dirty = 0 then s else s.l2Touch b true).modFold fold (fun f => f.cleanBytes b (b + 127))
    if o.opcode = 0x80 then s1
    else (if tracked key then s1.disown fold b (b + 127) else s1).modFold fold (fun f => f.dropWords b (b + 127) true)

/-- Whether a fold's L1 serves an access without its home (R219, R220): a load whose words it holds valid, or a `.own` store to
words that it owns. -/
def Fold.serves (f : Fold) (tid : Nat) (o : MemOp) (key rt : Nat) : Bool :=
  match f.l1.find? (fun x => x.base == lineOf key) with
  | none => false
  | some x =>
    let w := lineWords x.base key (key + o.size - 1)
    if o.unit = U.at_ ∨ rt = 3 then false
    else if o.isLoadUnit then
      (w &&& ~~~(x.valid &&& ~~~x.siWords) == 0) || (rt == 2 && !o.acquires && (f.siBytes tid key o.size).isSome)
    else rt == 0 && w &&& ~~~x.owned == 0

/-- Whether an access of a fold goes to a home on another die (R411, R412). -/
def State.crosses (s : State) (fold tid : Nat) (o : MemOp) (key rt : Nat) : Bool :=
  tracked key && homeDie key != dieOf fold && !o.isMaint && !o.isPf && !(s.fold fold).serves tid o key rt

/-- Whether a lane's access can be performed: its home is on the fold's die, or its request has come there (R413, R436). -/
def State.atHome (s : State) (fold tid : Nat) (o : MemOp) (x : MemLane) (key rt : Nat) : Bool :=
  !s.crosses fold tid o key rt || x.trip == .there (homeDie key)

/-- A load, store or atomic of a fold at a memory key under a request type (R131, R134, R136, R219, R225): the copies of its
bytes change, and a `.si` load is served by the team's own self-invalidating copy where it has one (R220). A home on another
die responds over VC1 (R412). -/
def State.accessGlobal (s : State) (fold tid : Nat) (o : MemOp) (x : MemLane) (key rt : Nat) : State × W64 :=
  let out := s.crosses fold tid o key rt
  let far (s : State) : State := if out then s.meshSend (homeDie key) (dieOf fold) 1 fold o.scope.toNat else s
  if o.isLoadUnit then
    match if rt = 2 && !o.acquires then (s.fold fold).siBytes tid key o.size else none with
    | some bs => (s, o.extend (natOf bs))
    | none => (far (s.fillL1 fold tid rt key (key + o.size - 1)), (s.accessAt o x key).2)
  else
    let (s1, v) := s.accessAt o x key
    (far (s1.storeL1 fold (if o.unit = U.at_ then 3 else rt) key (Memory.readN s1.mem key o.size)), v)

/-- A lane performed at a place of package or control-node memory. -/
def State.lanePlace (s : State) (id : CtxId) (c : Ctx) (o : MemOp) (x : MemLane) (t : Trans) (key : Nat) :
    State × MemOp :=
  let rt := o.rtAt key (t.pte.getLsbD 63)
  let s := if rt = 3 then s else s.useLeaf id.fold c.asid t
  if o.isPf then ((s.prefetch id.fold c.tid rt key).meshAccess id.fold key 0 o.scope.toNat, o)
  else
    let s1 := s.report id o x (s.seen id c o x)
    if o.isMaint then (s1.maintLine id.fold o key, o)
    else
      let (s2, v) := (s1.countAccess id.fold c.asid t 1).accessGlobal id.fold c.tid o x key rt
      (if o.kind.isWrite then s2.logWrite id.fold (bits x.addr.toNat 56 0) o.size else s2, o.gives x v)

/-- Whether a lane touches bytes for which the fold holds a write: of its own team for a load, of its space otherwise
(R29, R250). -/
def State.behindHeld (s : State) (id : CtxId) (c : Ctx) (o : MemOp) (x : MemLane) : Bool :=
  (s.fold id.fold).held.any (fun h =>
    (if o.isLoadUnit then h.slot == id.slot && h.tid == c.tid else h.asid == c.asid) && lanesMeet x.addr o.size h.op)

/-- A held move takes its place by the time of its issue (R250). -/
def holdAt (h : Held) : List Held → List Held
  | [] => [h]
  | x :: r => if h.op.issued < x.op.issued then (h :: x :: r) else x :: holdAt h r

/-- Hold a lane's write (R250): the lanes of one move share a place. None when the fold's 64 places are taken. -/
def State.hold (s : State) (id : CtxId) (c : Ctx) (o : MemOp) (x : MemLane) : Option State :=
  let f := s.fold id.fold
  let mine (h : Held) : Bool := h.slot == id.slot && h.tid == c.tid && h.op.uid == o.uid
  if f.held.any mine then
    some (s.setFold id.fold { f with held := f.held.map (fun h =>
      if mine h then { h with op := { h.op with lanes := h.op.lanes ++ [x] } } else h) })
  else if 64 ≤ f.held.length then none
  else
    let h : Held := { slot := id.slot, tid := c.tid, asid := c.asid, flock := c.flock, conf := c.conf,
                      op := { o with lanes := [x], res := [], toks := [] } }
    some (s.setFold id.fold { f with held := holdAt h f.held })

/-- Whether the team has an earlier write held that a release must follow (R270). -/
def State.heldBefore (s : State) (id : CtxId) (c : Ctx) (o : MemOp) : Bool :=
  (s.fold id.fold).held.any (fun h => h.slot == id.slot && h.tid == c.tid && h.op.uid != o.uid)

/-- What a lane asks of another device (R140, R428). -/
def MemOp.ask (o : MemOp) (x : MemLane) : NxKind × List Byte :=
  if o.isLoadUnit then (.read, [])
  else if o.unit = U.st then (.write, bytesOf o.size x.x.toNat)
  else (.atomic (BitVec.ofNat 4 (o.opcode.toNat % 16)) (o.size == 8) x.x x.cmp, [])

/-- The request of a lane to another device leaves (R428). -/
def State.askLane (s : State) (o : MemOp) (x : MemLane) (dev a : Nat) : State :=
  s.askRemote dev (o.ask x).1 a o.size (o.ask x).2

/-- L1 after an access that another device performed (R139: its request types are MT host's): a `.si` load leaves copies of the
whole words it read, which later loads of the team may be served by. -/
def State.remoteCopies (s : State) (fold tid : Nat) (o : MemOp) (dev a low : Nat) : State :=
  let tag := Memory.remoteTag dev a
  let rt := o.rtAt tag false
  if o.isLoad then
    if rt = 2 ∧ 4 ≤ o.size ∧ o.acquires = false then
      s.modLine fold tag (fun x => x.keepSi (lineWords x.base tag (tag + o.size - 1)) tid (fun i =>
        ((bytesOf o.size low).drop (x.base + 4 * i - tag)).take 4))
    else if rt = 1 then s.fillL1 fold tid 1 tag (tag + o.size - 1)
    else s
  else s.storeL1 fold (if o.unit = U.at_ then 3 else rt) tag (bytesOf o.size low)

/-- A lane whose access another device performed (R140, R428). -/
def State.laneRemote (s : State) (id : CtxId) (c : Ctx) (o : MemOp) (x : MemLane) (t : Trans) (dev a : Nat) (v : W64) :
    State × MemOp :=
  let s1 := ((s.useLeaf id.fold c.asid t).countAccess id.fold c.asid t 1).report id o x (s.seen id c o x)
  let s2 := if o.kind.isWrite then s1.logWrite id.fold (bits x.addr.toNat 56 0) o.size else s1
  let low := v.toNat % 2 ^ (8 * o.size)
  (s2.remoteCopies id.fold c.tid o dev a (if o.isLoad then low else x.x.toNat),
    o.gives x (if o.isLoad then o.extend low else BitVec.ofNat 64 low))

/-- The bytes of another device that the team's own self-invalidating copies serve for a load (R220). -/
def State.remoteSi (s : State) (fold tid : Nat) (o : MemOp) (dev a : Nat) : Option (List Byte) :=
  let tag := Memory.remoteTag dev a
  if o.isLoad && !o.acquires && o.rtAt tag false == 2 then (s.fold fold).siBytes tid tag o.size else none

/-- One lane of a queued move, or none while it must wait: for a held write, for a place in the hold, for the interval of a
range lock, for its request to come to a home on another die, or for another device's answer, which `ans` gives when it has
come (R140, R250, R270, R323, R413, R428). -/
def State.runLane (s : State) (id : CtxId) (o : MemOp) (x : MemLane) (ans : Option RemoteAnswer) :
    Option (State × MemOp) :=
  match s.ctx id with
  | none => none
  | some c =>
    if x.win.isSome && (s.fold id.fold).unread o.locks then none
    else if opRelease o.unit o.opcode.toNat && s.heldBefore id c o then none
    else
    let k := s.check id c o x
    let s1 := s.walked id c o x k
    match k with
    | .fault e => some ((if e = 0x29 then s1.report id o x (s.seen id c o x) else s1).laneFault id o x e)
    | .join => some (s1.modCtx id (fun c => c.sfbAdd o x 0), o)
    | .window f off => if s.maintHeld o f off then none else some (s.laneWindow id o x f off)
    | .hold _ => (s1.hold id c o x).map (fun s2 => (s2, o))
    | .place t =>
      let behind := !o.isMaint && !o.isPf && s.behindHeld id c o x
      if behind && o.isLoad then none
      else if behind then (s1.hold id c o x).map (fun s2 => (s2, o))
      else if s.eccHit t.place o.size then some (s1.laneFault id o x 0x2C)
      else match t.place with
        | .pkg p =>
          if s.atHome id.fold c.tid o x p (o.rtAt p (t.pte.getLsbD 63)) then some (s1.lanePlace id c o x t p) else none
        | .host a => (match s.unreachable (dieOf id.fold) t.place with
          | none => some (s1.lanePlace id c o x t (Memory.hostKey a))
          | some e => some (s1.laneFault id o x e))
        | .remote dev a =>
          if o.isMaint then some (s1.maintLine id.fold o (Memory.remoteTag dev a), o)
          else if !s.peerOk (dieOf id.fold) dev then some (s1.laneFault id o x 0x53)
          else if o.isPf then
            some ((s1.useLeaf id.fold c.asid t).prefetchRemote id.fold c.tid (o.rtAt (Memory.remoteTag dev a) false) dev a, o)
          else match s.remoteSi id.fold c.tid o dev a, ans with
            | some bs, _ => some (s1.laneRemote id c o x t dev a (BitVec.ofNat 64 (natOf bs)))
            | none, none => none
            | none, some .refused => some ((s1.askLane o x dev a).laneFault id o x 0x36)
            | none, some .unreachable => some ((s1.askLane o x dev a).laneFault id o x 0x53)
            | none, some (.done v) => some ((s1.askLane o x dev a).laneRemote id c o x t dev a v)

/-- The lane of the bundle's other load with which a lane forms one access of 8 bytes (R132). A store or an atomic that
stands between the two in slot order and touches the other's bytes keeps them apart (R29, R142). -/
def Ctx.twin (c : Ctx) (o : MemOp) (x : MemLane) : Option (MemOp × MemLane) :=
  let same (p : MemOp) : Bool := p.isLoad && p.unit != o.unit && p.uid / 8 == o.uid / 8 && p.size == 4 && p.rt == o.rt &&
    p.opcode.toNat / 64 == o.opcode.toNat / 64 && p.replay.isNone
  let fits (y : MemLane) : Bool := y.lane == x.lane && decide (min x.addr.toNat y.addr.toNat % 8 = 0) &&
    decide (max x.addr.toNat y.addr.toNat = min x.addr.toNat y.addr.toNat + 4)
  if !o.isLoad || o.size != 4 || o.replay.isSome then none
  else
    (c.memq.findSome? (fun p => if same p then (p.lanes.find? fits).map (fun y => (p, y)) else none)).filter (fun py =>
      !(c.memq.takeWhile (fun q => q.uid != py.1.uid)).any (fun q => q.isStore && lanesMeet py.2.addr 4 q))

/-- The half of an 8-byte answer that belongs to a lane of a pair. -/
def answerHalf (a : RemoteAnswer) (x y : MemLane) : RemoteAnswer :=
  match a with
  | .done v => .done (if x.addr.toNat < y.addr.toNat then v &&& 0xFFFFFFFF else v >>> 32)
  | r => r

/-- Where a lane's bytes would be found in L1, when its checks let it be performed. -/
def State.laneTag (s : State) (id : CtxId) (c : Ctx) (o : MemOp) (x : MemLane) : Option Nat :=
  match s.check id c o x with
  | .place t => some t.place.tag
  | _ => none

/-- The two halves of a pair are of one moment (R132, R276): unless the team's self-invalidating copies serve both, they serve
neither. -/
def State.pairFresh (s : State) (id : CtxId) (c : Ctx) (o p : MemOp) (x y : MemLane) : State :=
  match s.laneTag id c o x, s.laneTag id c p y with
  | some a, some b =>
    let f := s.fold id.fold
    if (f.siBytes c.tid a 4).isSome && (f.siBytes c.tid b 4).isSome then s
    else s.setFold id.fold ((f.dropSiOf c.tid a (a + 3)).dropSiOf c.tid b (b + 3))
  | _, _ => s

/-- A lane of a queued move together with its twin, if it has one: both are performed or neither (R132). -/
def State.runPair (s : State) (id : CtxId) (o : MemOp) (x : MemLane) (ans : Option RemoteAnswer) :
    Option (State × MemOp) :=
  match (s.ctx id).bind (fun c => (c.twin o x).map (fun r => (c, r))) with
  | none => s.runLane id o x ans
  | some (c, p, y) =>
    match (s.pairFresh id c o p x y).runLane id o x (ans.map (fun a => answerHalf a x y)) with
    | none => none
    | some (s1, o1) =>
      (s1.runLane id p y (ans.map (fun a => answerHalf a y x))).map (fun r =>
        (r.1.modCtx id (fun c => { c with memq := c.memq.map (fun q =>
          if q.uid = p.uid ∧ q.pass = p.pass then { r.2 with lanes := p.lanes.filter (fun z => z != y) } else q) }), o1))

/-- The lanes of a move in ascending order, as far as they can go. The answer serves the first lane alone. -/
def State.runLanes (s : State) (id : CtxId) (o : MemOp) (ans : Option RemoteAnswer) : List MemLane → State × MemOp
  | [] => (s, { o with lanes := [] })
  | x :: r =>
    match s.runPair id o x ans with
    | none => (s, { o with lanes := x :: r })
    | some (s1, o1) => State.runLanes s1 id o1 none r

/-- The lanes of a whole move, over all its passes (R145, R215, R226). -/
def Ctx.moveLanes (c : Ctx) (uid : Nat) : List MemLane := (c.memq.filter (fun q => q.uid == uid)).flatMap MemOp.lanes

/-- The virtual and physical addresses of a `.own` move's lanes whose checks hold, on pages without WBLK (R140, R226). -/
def State.ownAddrs (s : State) (id : CtxId) (c : Ctx) (o : MemOp) : List (Nat × Nat) :=
  (c.moveLanes o.uid).filterMap (fun x =>
    if x.win.isSome then none
    else match s.check id c o x with
      | .place t => if t.pte.getLsbD 63 then none else match t.place with
        | .pkg p => some (bits x.addr.toNat 56 0, p)
        | _ => none
      | _ => none)

/-- The sectors of mapped blocks whose 256 bytes a set of scratchpad bytes covers become filled without a read (R215). -/
def State.coverBytes (s : State) (bytes : List (Nat × Nat)) : State :=
  let one (s : State) (b : Nat × Nat) : State :=
    if (List.range 256).all (fun i => bytes.contains (b.1, b.2 + i)) then
      match s.blockAt b.1 b.2 with
      | none => s
      | some (gid, g, half, off) =>
        match g.mapAt half off with
        | some m =>
          if m.write && !(g.sector half (off / 256)).filled then
            s.setGang gid (g.setSector half (off / 256) { filled := true, dirty := 0 })
          else s
        | none => s
    else s
  (bytes.filter (fun b => b.2 % 256 == 0)).foldl one s

/-- The scratchpad sectors that the other moves of a move's bundle still touch: fold and physical number. -/
def Ctx.siblingSectors (c : Ctx) (o : MemOp) : List (Nat × Nat) :=
  (c.memq.filter (fun q => q.uid / 8 == o.uid / 8 && q.uid != o.uid && !q.isMaint && !q.isPf)).flatMap (fun q =>
    q.lanes.filterMap (fun x => x.win.map (fun key =>
      let off := key - Memory.spmKey 0 0
      (off / 2 ^ 20, off % 2 ^ 20 / 256))))

/-- The sectors that the lanes of a store cover between them, over all its passes, as far as their checks hold (R215). One that
another move of the bundle touches is filled by reading instead: that move's lanes of a later pass come before some of the
store's (R29, R145). -/
def State.coverSectors (s : State) (id : CtxId) (c : Ctx) (o : MemOp) : State :=
  if s.gangs.all (fun kv => (kv.2.maps 0 ++ kv.2.maps 1).isEmpty) then s
  else
    let others := c.siblingSectors o
    s.coverBytes ((c.moveLanes o.uid).flatMap (fun x => match s.check id c o x with
      | .window f off => if others.contains (f, off / 256) then [] else (List.range o.size).map (fun i => (f, off + i))
      | _ => []))

/-- What a move does before its lanes, once for all its passes: a `.own` move's entries (R226) and the sectors that a store
covers (R215). -/
def State.begin (s : State) (id : CtxId) (o : MemOp) : State :=
  match s.ctx id with
  | none => s
  | some c =>
    let plain := o.unit == U.st && !o.isMaint
    let s1 := if (o.isLoad || plain) && o.rt == 0 then 
      s.ownElems id.fold o.size ((c.moveLanes o.uid).map (fun x => x.addr.toNat)) (s.ownAddrs id c o) else s
    let s2 := if plain then s1.coverSectors id c o else s1
    s2.modCtx id (fun c => { c with memq := c.memq.map (fun q => if q.uid = o.uid then { q with begun := true } else q) })

/-- What ordering asks of a move before its lanes: an acquire invalidates the fold's self-invalidating copies (R220), and a
release follows the fold's logged writes (R233). -/
def State.orderFirst (s : State) (id : CtxId) (o : MemOp) : State :=
  let s1 := if o.acquires then s.modFold id.fold Fold.dropSi else s
  if opRelease o.unit o.opcode.toNat then s1.flushDlog id.fold else s1

/-! ## Completion (R131, R141, R360, R363) -/

/-- The record of a port after its lanes `toks` have faulted: the cause is that of the lowest lane. -/
def FaultRec.with (r : FaultRec) (toks : List (Nat × BitVec 7 × W64)) : FaultRec :=
  match toks.foldl (fun (a : Option (Nat × BitVec 7 × W64)) y => match a with
      | none => some y
      | some b => if y.1 < b.1 then some y else some b) none with
  | none => { r with cause := 0, lanes := 0, addrs := [] }
  | some x =>
    let m : Lanes := toks.foldl (fun acc y => acc ||| BitVec.ofNat 1024 (2 ^ y.1)) 0
    let addr (l : Nat) : W64 := ((toks.find? (fun y => y.1 == l)).map (fun y => y.2.2)).getD 0
    let top := toks.foldl (fun a y => max a (y.1 + 1)) 0
    { r with cause := x.2.1, lanes := m, addrs := (List.range top).map addr }

/-- The record that operation `uid` opened, where its unit state holds it. -/
def Ctx.recOf (c : Ctx) (u uid : Nat) : Option FaultRec :=
  let p := c.us.unit u
  if p.last = uid then p.frec
  else c.frame.bind (fun f => if (f.unit u).last = uid then (f.unit u).frec else none)

/-- A load or a returning atomic has been performed on every lane of every pass. -/
def Ctx.finishMem (c : Ctx) (o : MemOp) : Ctx :=
  let fr := if o.toks.isEmpty then none else (c.recOf o.unit o.uid).map (fun r => r.with o.toks)
  let c1 := c.finish o.unit o.uid o.mask (fun l => Tbl.get o.res l 0) fr
  match fr with
  | some r => if o.acquires then c1.addDue (c1.poisoned o.unit r) else c1
  | none => c1

/-- A replay of a port's record has been performed (R363): its lanes' values stand in R and their tokens are gone. -/
def UnitState.replayed (us : UnitState) (n : Nat) (o : MemOp) : UnitState :=
  let p := us.unit o.unit
  match p.frec with
  | none => us
  | some r =>
    us.setUnit o.unit { p with
      r := Vals.merge n (Lanes.of n (fun l => (Tbl.find o.res l).isSome)) (fun l => Tbl.get o.res l 0) p.r
      frec := if o.toks.isEmpty then none else some (r.with o.toks) }

/-- Every lane of a move has been performed. -/
def Ctx.closeMem (c : Ctx) (o : MemOp) : Ctx :=
  let c1 := { c with wait := c.wake }
  match o.replay with
  | some inFrame =>
    if o.isStore && !o.isAtom then c1
    else match inFrame, c.frame with
      | true, some f => { c1 with frame := some (f.replayed c.nlanes o) }
      | _, _ => { c1 with us := c1.us.replayed c.nlanes o }
  | none => if o.isLoad || o.isAtom then c1.finishMem o else c1

/-- The values and tokens of lanes already performed join those of another part of the same move. -/
def MemOp.absorb (x o : MemOp) : MemOp :=
  { x with res := o.res.foldl (fun t kv => Tbl.put t kv.1 kv.2) x.res, toks := x.toks ++ o.toks }

/-- The first operation `uid` of a queue absorbs a part of its move. -/
def passOn (o : MemOp) : List MemOp → List MemOp
  | [] => []
  | x :: r => if x.uid = o.uid then x.absorb o :: r else x :: passOn o r

/-- A part of a move has been performed (R18, R250, R362): it closes the move, unless another pass is queued, a returning
atomic's lane is held, or one waits in the store fault buffer, which then takes what this part found. -/
def State.closeOp (s : State) (id : CtxId) (o : MemOp) : State :=
  match s.ctx id with
  | none => s
  | some c =>
    let mine (h : Held) : Bool := h.slot == id.slot && h.tid == c.tid && h.op.uid == o.uid
    let same (e : SfbEntry) : Bool := e.op.uid == o.uid
    let more (l : List SfbEntry) : List SfbEntry := l.map (fun e => if same e then { e with op := e.op.absorb o } else e)
    if c.memq.any (fun q => q.uid == o.uid) then s.setCtx id { c with memq := passOn o c.memq }
    else if o.isAtom && (s.fold id.fold).held.any mine then
      s.modFold id.fold (fun f => { f with held := f.held.map (fun h => if mine h then { h with op := h.op.absorb o } else h) })
    else if o.isAtom && (c.sfb ++ c.sfbWait).any same then
      s.setCtx id { c with sfb := more c.sfb, sfbWait := more c.sfbWait, wait := c.wake }
    else s.setCtx id (c.closeMem o)

/-- An exiting team is gone once its queued stores have been performed (R98). -/
def State.exitIfDone (s : State) (id : CtxId) : State :=
  match s.ctx id with
  | none => s
  | some c => if c.wait = .exiting ∧ c.memq.any MemOp.isStore = false then s.teamExit id else s

/-- A write of SMAP_S in flight that an access follows: the access sees the map as the write leaves it (R372). -/
def Ctx.mapPending (c : Ctx) (uid : Nat) : Bool :=
  c.ops.any (fun v => v.unit == U.sv && 1 ≤ v.opcode.toNat && decide (v.opcode.toNat ≤ 3) && decide (v.uid / 8 < uid / 8) &&
    bits (v.t.at (Lanes.low v.mask c.nlanes)).toNat 11 0 == 0x31)

/-- Whether a claim, unclaim or rgn stands before an access of its team, which follows the read of the descriptor in program
order (R29, R281, R282). -/
def Ctx.descPending (c : Ctx) (uid : Nat) : Bool :=
  c.ops.any (fun v => v.unit == U.sy && v.opcode.toNat ∈ [0xB0, 0xB1, 0xC0] && decide (v.uid < uid))

/-- Whether a load waits for a write that its own team has held (R250). -/
def State.waitsHeld (s : State) (id : CtxId) (c : Ctx) (o : MemOp) : Bool :=
  o.isLoad && (match o.lanes with
    | [] => false
    | x :: _ => match s.check id c o x with
      | .place _ => s.behindHeld id c o x
      | _ => false)

/-- Whether a move may go before an earlier one that waits: it is of another bundle, is no release, and touches none of the
other's bytes (R29). -/
def MemOp.mayPass (o w : MemOp) : Bool :=
  o.uid / 8 != w.uid / 8 && !opRelease o.unit o.opcode.toNat && !o.lanes.any (fun x => lanesMeet x.addr o.size w)

/-- A queue with the move that goes next at its head: the loads `ws` that wait for their team's held writes let a move pass
that touches none of their bytes (R29, R250; DEDUCED, entry 80). -/
def State.passHeld (s : State) (id : CtxId) (c : Ctx) (ws : List MemOp) : List MemOp → List MemOp
  | [] => ws
  | o :: r =>
    if s.waitsHeld id c o then State.passHeld s id c (ws ++ [o]) r
    else if ws.all o.mayPass then o :: ws ++ r
    else ws ++ o :: r

/-- The home on another die to which a lane's request is still to be sent (R411). -/
def State.laneHome (s : State) (id : CtxId) (c : Ctx) (o : MemOp) (x : MemLane) : Option Nat :=
  match s.check id c o x with
  | .place t => (match t.place with
    | .pkg p =>
      if s.atHome id.fold c.tid o x p (o.rtAt p (t.pte.getLsbD 63)) || s.behindHeld id c o x ||
          (match x.trip with
          | .sent d _ => d == homeDie p
          | _ => false) then none
      else some (homeDie p)
    | _ => none)
  | _ => none

/-- The requests of a move's lanes leave for their homes on VC0, lowest lane first (R411, R412); none when there are none. -/
def State.sendLanes (s : State) (id : CtxId) (c : Ctx) (o : MemOp) : Option State :=
  let one (a : State × List MemLane) (x : MemLane) : State × List MemLane :=
    match s.laneHome id c o x with
    | none => (a.1, a.2 ++ [x])
    | some d =>
      let n := Tbl.get a.1.pkg.meshNext (meshKey (dieOf id.fold) 0) 0
      ((a.1.walked id c o x (s.check id c o x)).meshSend (dieOf id.fold) d 0 id.fold o.scope.toNat,
        a.2 ++ [{ x with trip := .sent d n }])
  if o.lanes.all (fun x => (s.laneHome id c o x).isNone) then none
  else
    let (s1, ls) := o.lanes.foldl one (s, [])
    some (s1.modCtx id (fun c => { c with memq := c.memq.map (fun q =>
      if q.uid = o.uid ∧ q.pass = o.pass ∧ q.lanes = o.lanes then { q with lanes := ls } else q) }))

/-- While the move that goes next waits, the requests of the first move that has some left leave (R412, R438). One that a held
write of its team keeps back does not. -/
def State.sendNext (s : State) (id : CtxId) (c : Ctx) : List MemOp → Option State
  | [] => none
  | o :: r =>
    if opRelease o.unit o.opcode.toNat && s.heldBefore id c o then none
    else match s.sendLanes id c o with
      | some s1 => some s1
      | none => State.sendNext s id c r

/-- Perform the move that goes next in a context's queue, or send a request to another die while it waits; none when it must
wait or the queue is empty. -/
def State.performNext (s : State) (id : CtxId) (ans : Option RemoteAnswer) : Option State :=
  match s.ctx id with
  | none => none
  | some c =>
    match s.passHeld id c [] c.memq with
    | [] => none
    | o :: q =>
      if c.mapPending o.uid || (c.descPending o.uid && o.replay.isNone) then none
      else
        let s := if c.memq = o :: q then s else s.setCtx id { c with memq := o :: q }
        let s0 := (if o.begun then s else s.begin id o).orderFirst id o
        let (s1, o1) := s0.runLanes id { o with begun := true } ans o.lanes
        if o1.lanes.length = o.lanes.length ∧ o.lanes ≠ [] then s.sendNext id c (o :: q)
        else if o1.lanes ≠ [] then some (s1.modCtx id (fun c1 => { c1 with memq := o1 :: c1.memq.drop 1 }))
        else some (((s1.modCtx id (fun c1 => { c1 with memq := c1.memq.drop 1 })).closeOp id o1).exitIfDone id)

/-- The move that goes next in a context's queue. -/
def State.memHead (s : State) (id : CtxId) : Option MemOp := (s.ctx id).bind (fun c => (s.passHeld id c [] c.memq).head?)

/-- Perform the head of a context's queue when it is of a kind; nothing happens otherwise. -/
def State.performIf (s : State) (id : CtxId) (p : MemOp → Bool) : State :=
  match s.memHead id with
  | some o => if p o then (s.performNext id none).getD s else s
  | none => s

/-- R131. The load that goes next in the team's queue is performed; with its last pass, R fills. -/
def execLoadComplete (c : CtxId) (s : State) : Out3 := .next (s.performIf c MemOp.isLoadUnit)

/-- R136. The returning atomic that goes next in the team's queue is performed at its home. -/
def execAtomicComplete (c : CtxId) (s : State) : Out3 := .next (s.performIf c MemOp.isAtom)

/-- R134, R135, R137. The store, red or maintenance operation that goes next in the team's queue is performed. -/
def execStorePerformed (c : CtxId) (s : State) : Out3 :=
  .next (s.performIf c (fun o => o.unit == U.st || o.isRed))

/-- The other device that performs a lane of a queued move, when one does. -/
def State.laneDevice (s : State) (id : CtxId) (c : Ctx) (o : MemOp) (x : MemLane) : Option Nat :=
  match s.check id c o x with
  | .place t => match t.place with
    | .remote dev a =>
      if s.peerOk (dieOf id.fold) dev && !o.isMaint && !o.isPf && (s.remoteSi id.fold c.tid o dev a).isNone then some dev else none
    | _ => none
  | _ => none

/-- Whether another team of the fold has issued an access to a device before the fold cycle `at_` that is not performed
yet: the device performs the accesses of one fold in their order of issue (R428). -/
def State.remoteBefore (s : State) (id : CtxId) (dev at_ : Nat) : Bool :=
  (s.onFold id.fold).any (fun kv => kv.1 != id.slot && kv.2.memq.any (fun q => decide (q.issued < at_) &&
    q.lanes.any (fun x => s.laneDevice { fold := id.fold, slot := kv.1 } kv.2 q x == some dev)))

/-- Whether the head's first lane waits for another device, and for no access that the fold issued to it before. -/
def State.awaitsRemote (s : State) (id : CtxId) : Bool :=
  match s.ctx id, s.memHead id with
  | some c, some o =>
    match o.lanes with
    | [] => false
    | x :: _ => match s.laneDevice id c o x with
      | some dev => !s.behindHeld id c o x && !s.remoteBefore id dev o.issued
      | none => false
  | _, _ => false

/-- R140, R428. The answer of another device to the access that goes next in the team's queue. -/
def execRemoteAccess (c : CtxId) (ans : RemoteAnswer) (s : State) : Out3 :=
  .next (if s.awaitsRemote c then (s.performNext c (some ans)).getD s else s)

/-! ## Held writes (R250, R253) -/

/-- The context of a held move's team, while the team has not exited. -/
def State.holder (s : State) (fold : Nat) (h : Held) : Option Ctx :=
  (s.ctx { fold := fold, slot := h.slot }).filter (fun c => c.tid == h.tid)

/-- A move joins its team's queue in program order: behind what came before it, and behind the replays at the front. -/
def queueAt (o : MemOp) : List MemOp → List MemOp
  | [] => [o]
  | q :: r => if q.replay.isNone && decide (o.uid < q.uid) then o :: q :: r else q :: queueAt o r

/-- The space and the flock against which a held lane is checked again. -/
def Held.flock? (h : Held) : Option W32 := if h.asid < 256 then some h.flock else none

/-- A held lane translates again (R250): performed, a fault for its team, or none while its page is still blocked. A lane
that another device or another die's home must now perform goes back to its team's queue, in its order; one whose team has
exited leaves for that device or home. -/
def State.drainLane (s : State) (fold : Nat) (h : Held) (o : MemOp) (x : MemLane) : Option (State × MemOp) :=
  let id : CtxId := { fold := fold, slot := h.slot }
  let alive := (s.holder fold h).isSome
  let bad (s : State) (e : BitVec 7) : State × MemOp := if alive then s.laneFault id o x e else (s, o)
  let va := bits x.addr.toNat 56 0
  let w := (s.fold fold).watchHit 0 h.asid h.flock h.conf va (va + o.size - 1) o.reads true
  let seen (s : State) : State := if alive then s.report id o x w else s
  let s1 := (s.walkTo (dieOf fold) h.asid x.addr o.kind (decide (h.asid < 256))).1
  match s.checkGlobal fold h.asid h.flock? h.conf o o.size x.addr with
  | .fault e => some (bad (if e = 0x29 then seen s1 else s1) e)
  | .hold _ => none
  | .place t =>
    if s.eccHit t.place o.size then some (bad s1 0x2C)
    else
      let s2 := (((seen s1).countAccess fold h.asid t 1).useLeaf fold h.asid t).orderFirst id o
      let perform (key : Nat) : State × MemOp :=
        let (s3, v) := s2.accessGlobal fold h.tid o x key (o.rtAt key false)
        (s3.logWrite fold va o.size, o.gives x v)
      let back : State × MemOp :=
        let again := { o with lanes := [{ x with trip := .here }], res := [], toks := [], begun := true }
        (s1.modCtx id (fun c => { c with memq := queueAt again c.memq }), o)
      match t.place with
      | .pkg p =>
        let rt := o.rtAt p false
        if !s.crosses fold h.tid o p rt then some (perform p)
        else if alive then some back
        else
          let (s3, o1) := perform p
          some (s3.meshSend (dieOf fold) (homeDie p) 0 fold o.scope.toNat, o1)
      | .host a => (match s.unreachable (dieOf fold) t.place with
        | none => some (perform (Memory.hostKey a))
        | some e => some (bad s1 e))
      | .remote dev a =>
        if !s.peerOk (dieOf fold) dev then some (bad s1 0x53)
        else if alive then some back
        else some ((s2.logWrite fold va o.size).askLane o x dev a, o)
  | _ => some (s, o)

/-- The lanes of a held `.own` store that can be performed form ownership entries as the move does (R226, R250). -/
def State.ownHeld (s : State) (fold : Nat) (h : Held) : State :=
  let o := h.op
  if o.unit != U.st || o.isMaint || o.rt != 0 then s
  else s.ownElems fold o.size (o.lanes.map (fun x => x.addr.toNat)) (o.lanes.filterMap (fun x =>
    match s.checkGlobal fold h.asid h.flock? h.conf o o.size x.addr with
    | .place t => (match t.place with
      | .pkg p => some (bits x.addr.toNat 56 0, p)
      | _ => none)
    | _ => none))

/-- The lanes of a held move translate again in order. A lane stays held while its page is blocked, or behind one of its
space that stays and shares a byte with it. -/
def State.drainOp (s : State) (fold : Nat) (h : Held) (kept : List Held) : List MemLane → MemOp → State × MemOp
  | [], o => (s, o)
  | x :: r, o =>
    let behind := (kept ++ [{ h with op := o }]).any (fun k => k.asid == h.asid && lanesMeet x.addr o.size k.op)
    match if behind then none else s.drainLane fold h o x with
    | none => s.drainOp fold h kept r { o with lanes := o.lanes ++ [x] }
    | some (s1, o1) => s1.drainOp fold h kept r o1

/-- The held moves of a fold translate again, oldest first; a returning atomic whose lanes are all performed returns. -/
def State.drainAll (s : State) (fold : Nat) : List Held → List Held → State
  | [], kept => s.modFold fold (fun f => { f with held := kept })
  | h :: r, kept =>
    let (s1, o) := (s.ownHeld fold h).drainOp fold h kept h.op.lanes { h.op with lanes := [] }
    if o.lanes ≠ [] then s1.drainAll fold r (kept ++ [{ h with op := o }])
    else
      let s2 := s1.modFold fold (fun f => { f with held := kept ++ r })
      (if o.isAtom && (s2.holder fold h).isSome then s2.closeOp { fold := fold, slot := h.slot } o else s2).drainAll fold r kept

/-- The writes that a fold holds translate again, in their order (R250). -/
def State.drainHeld (s : State) (fold : Nat) : State := (s.drainAll fold (s.fold fold).held []).wakeFold fold

/-! ## Fences (R279) -/

/-- Whether a pending fence's conditions hold: nothing queued or held, and an empty store fault buffer. -/
def State.fenceMet (s : State) (id : CtxId) (c : Ctx) : Bool :=
  c.memq.isEmpty && c.sfb.isEmpty && c.sfbWait.isEmpty && !(s.fold id.fold).held.any (fun h => h.slot == id.slot && h.tid == c.tid)

/-- The operations of the pending fences: one in force, and one that the frame holds (R355). -/
def Ctx.fenceOps (c : Ctx) : List VarOp := c.ops.filter (fun o => o.unit == U.sy && o.opcode == 0x30)

/-- Whether a fence is pending in force or in the frame. -/
def Ctx.fenced (c : Ctx) : Bool := c.us.fence.isSome || (c.frame.bind UnitState.fence).isSome

/-- Every pending fence is over: SY refills, and the team may issue again. -/
def Ctx.fenceOver (c : Ctx) : Ctx :=
  let c1 := { c with us := { c.us with fence := none }, wait := c.wake,
                     frame := c.frame.map (fun f => { f with fence := none }) }
  c.fenceOps.foldl (fun c o => (c.dropOp o.uid).finishKeep o.unit o.uid) c1

/-- R279. The fence completes: the team may issue again, its logged writes are in memory (R233), and the fold holds no
self-invalidating copy (R220). -/
def execFenceComplete (c : CtxId) (s : State) : Out3 :=
  match s.ctx c with
  | none => .next s
  | some x =>
    if x.fenced && s.fenceMet c x then
      .next (((s.setCtx c x.fenceOver).flushDlog c.fold).modFold c.fold Fold.dropSi)
    else .next s

/-! ## claim, unclaim and rgn (R280 to R282) -/

/-- The read of a descriptor's 16-byte parts as one `.uc` load: its bytes, each part's page once in `pages` (R247), with the
state that the walks leave (R242). Both halves of a part meet the checks of R449, against the range locks that stood when the
operation issued (R306). -/
def State.readParts (s : State) (id : CtxId) (c : Ctx) (locks : Nat) (addr : W64) :
    Nat → List Trans → State × Except (BitVec 7) (List Byte × List Trans)
  | 0, pages => (s, .ok ([], pages))
  | n + 1, pages =>
    let o := MemOp.blank 0 U.la 0x36 0 0 locks 0 0
    let k (a : W64) : Check := s.check id c o (s.laneAt id c o 0 a 0 0)
    let s0 := s.walked id c o (s.laneAt id c o 0 addr 0 0) (k addr)
    let rest (s1 : State) (bs : List Byte) (pages : List Trans) : State × Except (BitVec 7) (List Byte × List Trans) :=
      match State.readParts s1 id c locks (addr + 16) n pages with
      | (s2, .error e) => (s2, .error e)
      | (s2, .ok (r, pages1)) => (s2, .ok (bs ++ r, pages1))
    match k addr, k (addr + 8) with
    | .fault e, _ => (s0, .error e)
    | _, .fault e => (s0, .error e)
    | .window f off, _ =>
      (match s0.touchWindow f off 16 .load with
      | (s1, some e) => (s1, .error e)
      | (s1, none) => rest s1 (Memory.readN s1.mem (Memory.spmKey f off) 16) pages)
    | .place t, _ =>
      (match s.unreachable (dieOf id.fold) t.place, s.eccHit t.place 16, s.remoteFault t.place with
      | some e, _, _ => (s0, .error e)
      | none, true, _ => (s0, .error 0x2C)
      | none, false, some e => (s0, .error e)
      | none, false, none =>
        rest (s0.askPlaces ((List.range 16).map t.place.plus)) (s0.getAt t.place 16)
          (if pages.any (fun q => q.page == t.page) then pages else t :: pages))
    | _, _ => (s0, .error 0x22)

/-- The read of a descriptor at an address: its bytes, or the cause. -/
def State.readDesc (s : State) (id : CtxId) (c : Ctx) (locks : Nat) (addr : W64) (n : Nat) :
    State × Except (BitVec 7) (List Byte) :=
  if addr.toNat % 16 ≠ 0 then (s, .error 0x26)
  else match s.readParts id c locks addr (n / 16) [] with
    | (s1, .error e) => (s1, .error e)
    | (s1, .ok (bs, pages)) => (pages.foldl (fun s t => s.countAccess id.fold c.asid t 1) s1, .ok bs)

/-- One byte of an element of a claim or unclaim (R281), as the translation of a write finds it, with what the walk leaves
(R242): its physical address, or nothing for a byte that no directory tracks. -/
def State.claimByte (s : State) (id : CtxId) (c : Ctx) (a : W64) : State × Except (BitVec 7) (Option Nat) :=
  if tagOf a = 1 ∨ tagOf a = 2 then (s, .ok none)
  else if tagOf a = 3 then (s, .error 0x2A)
  else match s.walkTo (dieOf id.fold) c.asid a .store (!c.shadow) with
    | (s1, .error e) => (s1, .error e)
    | (s1, .ok t) =>
      (s1, if s.regionFails (dieOf id.fold) (bits a.toNat 56 0) c.flock? true then .error 0x27
        else match t.place with
          | .pkg p => .ok (some p)
          | _ => .ok none)

/-- A part of an element that lies in one 4 KiB page (R226, R281): its virtual and its physical address and its length. -/
structure ClaimPart where
  va : Nat
  pa : Nat
  len : Nat
deriving DecidableEq, Repr

/-- One part of an element. -/
def State.claimPart (s : State) (id : CtxId) (c : Ctx) (a : W64) (n : Nat) :
    State × Except (BitVec 7) (List ClaimPart) :=
  match s.claimByte id c a with
  | (s1, .error e) => (s1, .error e)
  | (s1, .ok none) => (s1, .ok [])
  | (s1, .ok (some p)) => (s1, .ok [{ va := bits a.toNat 56 0, pa := p, len := n }])

/-- The parts of an element of `width` bytes: one, or two where it crosses a page. -/
def State.claimElem (s : State) (id : CtxId) (c : Ctx) (width : Nat) (a : W64) :
    State × Except (BitVec 7) (List ClaimPart) :=
  let n := min width (4096 - a.toNat % 4096)
  match s.claimPart id c a n with
  | (s1, .error e) => (s1, .error e)
  | (s1, .ok l) =>
    if n = width then (s1, .ok l)
    else match s1.claimPart id c (a + BitVec.ofNat 64 n) (width - n) with
      | (s2, .error e) => (s2, .error e)
      | (s2, .ok r) => (s2, .ok (l ++ r))

/-- The elements in ascending order up to the first that faults, as the parts of each. -/
def State.claimElems (s : State) (id : CtxId) (c : Ctx) (width : Nat) :
    List W64 → State × Except (BitVec 7 × W64) (List (List ClaimPart))
  | [] => (s, .ok [])
  | a :: r =>
    match s.claimElem id c width a with
    | (s1, .error e) => (s1, .error (e, a))
    | (s1, .ok x) => match State.claimElems s1 id c width r with
      | (s2, .error e) => (s2, .error e)
      | (s2, .ok l) => (s2, .ok (x :: l))

/-- The entries of a claim (R226, R281): the elements that lie in one page each are cut at 4 KiB boundaries, and the parts
of an element that crosses a page stand alone. -/
def State.claimParts (s : State) (fold stride width : Nat) (l : List (List ClaimPart)) : State :=
  let whole := l.filterMap (fun e => match e with
    | [x] => if x.len = width then some (x.va, x.pa) else none
    | _ => none)
  let s1 := (pieces whole).foldl (fun s p => match p with
    | [] => s
    | x :: _ => s.ownRange fold x.2 stride p.length width) s
  (l.flatMap (fun e => e.filter (fun x => x.len != width))).foldl (fun s x => s.ownRange fold x.pa 1 1 x.len) s1

/-- claim (`own`) and unclaim (R281). -/
def State.doClaim (s : State) (id : CtxId) (c : Ctx) (o : VarOp) (own : Bool) (d : List Byte) : State :=
  let base := field d 0 8
  let stride := field d 8 4
  let count := field d 12 2
  let width := field d 14 1
  let bad := 3 ≤ base / 2 ^ 60 || !(width ∈ [1, 2, 4, 8]) || base % width != 0 || stride == 0 || 2 ^ 20 < stride ||
    stride < width || count == 0 || 1024 < count || field d 15 1 != 0
  if bad then s.modCtx id (fun c => c.completeToken o 0x2E o.addr)
  else
    match s.claimElems id c width ((List.range count).map (fun i => BitVec.ofNat 64 (base + stride * i))) with
    | (s1, .error (e, a)) => s1.modCtx id (fun c => c.completeToken o e a)
    | (s1, .ok ps) =>
      let s2 := if own then s1.claimParts id.fold stride width ps
        else ps.flatten.foldl (fun s p => s.disown id.fold p.pa (p.pa + p.len - 1)) s1
      s2.modCtx id (fun c => c.complete o 0)

/-- A region entry image (R230, R282): none when a field is outside its limits. -/
def regionImage (d : List Byte) : Option Region :=
  let base := field d 0 8
  let limit := field d 8 8
  let st := field d 16 1
  let flags := field d 17 1
  let live := 1 ≤ st && st ≤ 3
  if 1 < flags ∨ (flags = 1 ∧ st ≠ 3) ∨ field d 18 2 ≠ 0 ∨ field d 24 8 ≠ 0 ∨
      (live = true ∧ (base % 4096 ≠ 0 ∨ limit % 4096 ≠ 0 ∨ limit ≤ base)) then none
  else some { base := BitVec.ofNat 64 base, limit := BitVec.ofNat 64 limit, state := BitVec.ofNat 8 st,
              log := flags == 1, flock := BitVec.ofNat 32 (field d 20 4) }

/-- An entry of a die's region table is written (R231). -/
def State.setRegion (s : State) (die idx : Nat) (r : Region) : State :=
  s.modDie die (fun d => { d with regions := Tbl.put d.regions idx r })

/-- rgn (R282). -/
def State.doRgn (s : State) (id : CtxId) (o : VarOp) (d : List Byte) : State :=
  let idx := field d 32 2
  match regionImage d with
  | some r =>
    if 255 < idx ∨ field d 34 14 ≠ 0 then s.modCtx id (fun c => c.completeToken o 0x2E o.addr)
    else (s.setRegion (dieOf id.fold) idx r).modCtx id (fun c => c.complete o 0)
  | none => s.modCtx id (fun c => c.completeToken o 0x2E o.addr)

/-- The claim, unclaim or rgn in flight whose descriptor can be read: the team's older accesses have been performed. -/
def Ctx.claimOp (c : Ctx) : Option VarOp :=
  (c.findOp (fun o => o.unit == U.sy && o.opcode.toNat ∈ [0xB0, 0xB1, 0xC0])).filter (fun o =>
    !c.memq.any (fun m => m.replay.isNone && decide (m.uid < o.uid)))

/-- R281, R282. A claim, unclaim or rgn completes: SY.R receives 0 or a token. -/
def execClaimComplete (c : CtxId) (s : State) : Out3 :=
  match s.ctx c with
  | none => .next s
  | some x =>
    match x.claimOp with
    | none => .next s
    | some o =>
      match s.readDesc c x o.locks o.addr (if o.opcode = 0xC0 then 48 else 16) with
      | (s1, .error e) => .next (s1.modCtx c (fun x => x.completeToken o e o.addr))
      | (s1, .ok d) =>
        .next (if o.opcode = 0xC0 then s1.doRgn c o d else s1.doClaim c x o (o.opcode == 0xB0) d)

/-! ## Replay of the memory ports and the store fault buffer (R363, R374) -/

/-- Queue the recorded accesses of a port's record again, ahead of what is queued: the faulting lanes only. -/
def State.replayPort (s : State) (id : CtxId) (u uid : Nat) (r : FaultRec) (inFrame : Bool) : State :=
  match s.ctx id with
  | none => s
  | some c =>
    let o := { MemOp.blank uid u r.opcode r.scope r.mask (s.fold id.fold).lockSeq r.bundle r.cycle with
               replay := some inFrame, issued := (s.fold id.fold).cycle }
    let p : UPorts := { UPorts.fresh with a := r.a, b := r.b, c := r.c, held := r.t, r := r.r }
    let lane (l : Nat) : MemLane :=
      let v := p.lane o l
      s.laneAt id c o l (r.addrs.at l) v.2.1 v.2.2
    let o1 := { o with lanes := (Lanes.list r.lanes c.nlanes).map lane }
    s.modCtx id (fun c => { c with memq := o1 :: c.memq }.watchAtIssue o1)

/-- Queue the entries of the store fault buffer again, from the oldest, ahead of what is queued (R363), with the moves that
wait for an entry behind them. Each keeps its move; a window lane is resolved and meets the locks as they stand now. A
returning atomic completes as the move it is part of (R362). -/
def State.replaySfb (s : State) (id : CtxId) : State :=
  match s.ctx id with
  | none => s
  | some c =>
    let again (e : SfbEntry) : MemOp :=
      let o := { e.op with locks := (s.fold id.fold).lockSeq, begun := false, issued := (s.fold id.fold).cycle,
                           replay := if e.op.isAtom then none else some false }
      { o with lanes := e.op.lanes.map (fun x => s.laneAt id c o x.lane x.addr x.x x.cmp) }
    let ops := (c.sfb ++ c.sfbWait).map again
    s.setCtx id (ops.foldl Ctx.watchAtIssue { c with sfb := [], sfbWait := [], memq := ops ++ c.memq })

/-! ## Events of the homes, the maps and translation -/

/-- R225. A home serves a request of a fold for bytes at a physical address: words of other owners are recalled or read,
and a `.own` request takes ownership. -/
def execHomeRequest (fold : Nat) (rt : BitVec 2) (write : Bool) (phys size : Nat) (s : State) : Out3 :=
  if size = 0 ∨ physOk phys size = false then .next s
  else
    let s1 := s.l2Touch phys write
    .next (if rt = 0 then s1.ownElems fold size [phys] [(phys, phys)]
      else if write then s1.takeBytes (some fold) phys (phys + size - 1) false else s1)

/-- R215. The map unit fills a mapped sector that is not filled; a fault leaves it unfilled. -/
def execSectorFill (gang fold sector : Nat) (s : State) : Out3 :=
  match s.gang gang with
  | none => .next s
  | some g =>
    let half := g.half fold
    match g.mapAt half (256 * sector) with
    | none => .next s
    | some m => .next (s.fillSector gang half sector m .load).1

/-- R242. A walk: A and D are set in the leaf, and the translation is cached. A walk that faults changes nothing. -/
def execPageWalk (die asid : Nat) (va : W64) (write : Bool) (s : State) : Out3 :=
  let k : AccKind := if write then .store else .load
  match s.translate die asid va k (decide (asid < 256)) with
  | .error _ => .next s
  | .ok t =>
    if (s.root asid).isNone then .next s
    else
      let ent : Tlb := { asid := asid, page := t.page, size := t.size, pte := t.pte, ent := t.ent, desc := t.desc }
      .next ((s.applyAD t).modDie die (fun d => { d with tlb := ent :: d.tlb.filter (fun x => x != ent) }))

/-- R247. A translated access of a fold adds to its page's count. -/
def execAccessCount (fold asid : Nat) (va : W64) (n : Nat) (s : State) : Out3 :=
  match s.translate (dieOf fold) asid va .load (decide (asid < 256)) with
  | .error _ => .next s
  | .ok t => .next (s.countAccess fold asid t n)

/-! ## The rows of LA, LB, ST and AT -/

/-- R131. LA loads from base plus offset with a request type. -/
def execLaLd (size : BitVec 2) (sgn : BitVec 1) (rt : BitVec 2) (m : MoveF) (s : State) : Out3 :=
  issueOne (syllable true 11 3 (0 + size.toNat * 16 + sgn.toNat * 8 + rt.toNat * 2) m) startMem s
/-- R131. LA loads as an acquire at the bundle's scope. -/
def execLaLdAcq (size : BitVec 2) (sgn : BitVec 1) (rt : BitVec 2) (m : MoveF) (s : State) : Out3 :=
  issueOne (syllable true 11 3 (64 + size.toNat * 16 + sgn.toNat * 8 + rt.toNat * 2) m) startMem s
/-- R266. LA loads as an acquire with remote-scope promotion. -/
def execLaLdAcqRem (size : BitVec 2) (sgn : BitVec 1) (rt : BitVec 2) (m : MoveF) (s : State) : Out3 :=
  issueOne (syllable true 11 3 (128 + size.toNat * 16 + sgn.toNat * 8 + rt.toNat * 2) m) startMem s
/-- R133. LA prefetches a line towards the fold without changing R. -/
def execLaPf (rt : BitVec 2) (m : MoveF) (s : State) : Out3 :=
  issueOne (syllable true 11 3 (0xC0 + rt.toNat * 2) m) startMem s
/-- R131. LB loads from base plus offset. -/
def execLbLd (size : BitVec 2) (sgn : BitVec 1) (rt : BitVec 2) (m : MoveF) (s : State) : Out3 :=
  issueOne (syllable true 12 3 (0 + size.toNat * 16 + sgn.toNat * 8 + rt.toNat * 2) m) startMem s
/-- R131. LB loads as an acquire. -/
def execLbLdAcq (size : BitVec 2) (sgn : BitVec 1) (rt : BitVec 2) (m : MoveF) (s : State) : Out3 :=
  issueOne (syllable true 12 3 (64 + size.toNat * 16 + sgn.toNat * 8 + rt.toNat * 2) m) startMem s
/-- R266. LB loads as a promoting acquire. -/
def execLbLdAcqRem (size : BitVec 2) (sgn : BitVec 1) (rt : BitVec 2) (m : MoveF) (s : State) : Out3 :=
  issueOne (syllable true 12 3 (128 + size.toNat * 16 + sgn.toNat * 8 + rt.toNat * 2) m) startMem s
/-- R133. LB prefetches a line. -/
def execLbPf (rt : BitVec 2) (m : MoveF) (s : State) : Out3 :=
  issueOne (syllable true 12 3 (0xC0 + rt.toNat * 2) m) startMem s
/-- R134. ST writes B (and T for d) at the address. -/
def execStSt (size : BitVec 2) (rt : BitVec 2) (m : MoveF) (s : State) : Out3 :=
  issueOne (syllable true 13 3 (0 + size.toNat * 16 + rt.toNat * 2) m) startMem s
/-- R134. ST writes as a release at the bundle's scope. -/
def execStStRel (size : BitVec 2) (rt : BitVec 2) (m : MoveF) (s : State) : Out3 :=
  issueOne (syllable true 13 3 (64 + size.toNat * 16 + rt.toNat * 2) m) startMem s
/-- R135. ST writes back owned dirty words or dirty sector bytes, keeping the line. -/
def execStWb (m : MoveF) (s : State) : Out3 :=
  issueOne (syllable true 13 3 128 m) startMem s
/-- R135. ST writes back and discards the L1 copy or unfills the sector. -/
def execStInv (m : MoveF) (s : State) : Out3 :=
  issueOne (syllable true 13 3 129 m) startMem s
/-- R135. ST writes back and discards up to the scope's point of coherence. -/
def execStFlush (m : MoveF) (s : State) : Out3 :=
  issueOne (syllable true 13 3 130 m) startMem s
/-- R136. AT atomically adds, as atom or red. -/
def execAtAdd (rem : BitVec 1) (ord : BitVec 2) (size : BitVec 1) (m : MoveF) (s : State) : Out3 :=
  issueOne (syllable true 14 3 (rem.toNat * 128 + ord.toNat * 32 + size.toNat * 16 + 0) m) startMem s
/-- R136. AT atomically subtracts. -/
def execAtSub (rem : BitVec 1) (ord : BitVec 2) (size : BitVec 1) (m : MoveF) (s : State) : Out3 :=
  issueOne (syllable true 14 3 (rem.toNat * 128 + ord.toNat * 32 + size.toNat * 16 + 1) m) startMem s
/-- R136. AT atomically ANDs. -/
def execAtAnd (rem : BitVec 1) (ord : BitVec 2) (size : BitVec 1) (m : MoveF) (s : State) : Out3 :=
  issueOne (syllable true 14 3 (rem.toNat * 128 + ord.toNat * 32 + size.toNat * 16 + 2) m) startMem s
/-- R136. AT atomically ORs. -/
def execAtOr (rem : BitVec 1) (ord : BitVec 2) (size : BitVec 1) (m : MoveF) (s : State) : Out3 :=
  issueOne (syllable true 14 3 (rem.toNat * 128 + ord.toNat * 32 + size.toNat * 16 + 3) m) startMem s
/-- R136. AT atomically XORs. -/
def execAtXor (rem : BitVec 1) (ord : BitVec 2) (size : BitVec 1) (m : MoveF) (s : State) : Out3 :=
  issueOne (syllable true 14 3 (rem.toNat * 128 + ord.toNat * 32 + size.toNat * 16 + 4) m) startMem s
/-- R136. AT atomic signed minimum. -/
def execAtMinS (rem : BitVec 1) (ord : BitVec 2) (size : BitVec 1) (m : MoveF) (s : State) : Out3 :=
  issueOne (syllable true 14 3 (rem.toNat * 128 + ord.toNat * 32 + size.toNat * 16 + 5) m) startMem s
/-- R136. AT atomic unsigned minimum. -/
def execAtMinN (rem : BitVec 1) (ord : BitVec 2) (size : BitVec 1) (m : MoveF) (s : State) : Out3 :=
  issueOne (syllable true 14 3 (rem.toNat * 128 + ord.toNat * 32 + size.toNat * 16 + 6) m) startMem s
/-- R136. AT atomic signed maximum. -/
def execAtMaxS (rem : BitVec 1) (ord : BitVec 2) (size : BitVec 1) (m : MoveF) (s : State) : Out3 :=
  issueOne (syllable true 14 3 (rem.toNat * 128 + ord.toNat * 32 + size.toNat * 16 + 7) m) startMem s
/-- R136. AT atomic unsigned maximum. -/
def execAtMaxN (rem : BitVec 1) (ord : BitVec 2) (size : BitVec 1) (m : MoveF) (s : State) : Out3 :=
  issueOne (syllable true 14 3 (rem.toNat * 128 + ord.toNat * 32 + size.toNat * 16 + 8) m) startMem s
/-- R136. AT atomically exchanges. -/
def execAtXchg (rem : BitVec 1) (ord : BitVec 2) (size : BitVec 1) (m : MoveF) (s : State) : Out3 :=
  issueOne (syllable true 14 3 (rem.toNat * 128 + ord.toNat * 32 + size.toNat * 16 + 9) m) startMem s
/-- R136. AT atomically compares and swaps. -/
def execAtCas (rem : BitVec 1) (ord : BitVec 2) (size : BitVec 1) (m : MoveF) (s : State) : Out3 :=
  issueOne (syllable true 14 3 (rem.toNat * 128 + ord.toNat * 32 + size.toNat * 16 + 10) m) startMem s
/-- R136. AT atomically adds FP32. -/
def execAtFaddF32 (rem : BitVec 1) (ord : BitVec 2) (size : BitVec 1) (m : MoveF) (s : State) : Out3 :=
  issueOne (syllable true 14 3 (rem.toNat * 128 + ord.toNat * 32 + size.toNat * 16 + 11) m) startMem s
/-- R136. AT atomically adds packed BF16. -/
def execAtFaddBf16x2 (rem : BitVec 1) (ord : BitVec 2) (size : BitVec 1) (m : MoveF) (s : State) : Out3 :=
  issueOne (syllable true 14 3 (rem.toNat * 128 + ord.toNat * 32 + size.toNat * 16 + 12) m) startMem s

end Sys2Proof.Machine
end

