-- ==== Sys2Proof/Machine/CrossLane.lean ====
section
/-! DEFINITION. XL (R150 to R163): shuffles, votes, scans and reductions over the lanes of a team, and the operations on
the gang's wide registers. -/

namespace Sys2Proof.Machine

/-! ## Lane operations (R153 to R155) -/

/-- A lane operation: its values are taken after step 2 of the bundle and fill R when it completes (R151). -/
def xlLane (f : Ctx → Trig → UPorts → Nat → W32) : Start := fun s id t =>
  match s.ctx id with
  | none => s
  | some c =>
    let p := c.us.unit t.unit
    let vals := (List.range c.nlanes).map (fun l => if t.mask.getLsbD l then zx (f c t p l) else 0)
    s.addOp id (t.op [] [] (some vals) 0)

def UPorts.aw (p : UPorts) (l : Nat) : W32 := lo32 (p.a.at l)
def UPorts.bw (p : UPorts) (l : Nat) : W32 := lo32 (p.b.at l)
def UPorts.tw (p : UPorts) (l : Nat) : W32 := lo32 (p.held.at l)

/-- A shuffle's value: A of lane `m` when it is a live lane of the team, else the fill value (R153). -/
def shuffle (c : Ctx) (p : UPorts) (l : Nat) (m : Int) : W32 :=
  if 0 ≤ m ∧ m < c.nlanes ∧ c.live.getLsbD m.toNat = true then p.aw m.toNat else p.bw l

def startShflIdx : Start := xlLane (fun c _ p l => shuffle c p l (p.tw l).toNat)
def startShflUp : Start := xlLane (fun c _ p l => shuffle c p l ((l : Int) - (p.tw l).toNat))
def startShflDn : Start := xlLane (fun c _ p l => shuffle c p l ((l : Int) + (p.tw l).toNat))
def startShflXor : Start := xlLane (fun c _ p l => shuffle c p l ((l ^^^ (p.tw l).toNat : Nat) : Int))
def startBcast : Start := xlLane (fun c t p l => shuffle c p l (p.tw (t.lane c)).toNat)

/-- The triggered lanes whose t0 is 1 (R154). -/
def votes (c : Ctx) (t : Trig) (p : UPorts) : Lanes :=
  Lanes.of c.nlanes (fun l => t.mask.getLsbD l && (p.tw l).getLsbD 0)

def startVoteAny : Start := xlLane (fun c t p _ => if votes c t p != 0 then 1 else 0)
def startVoteAll : Start := xlLane (fun c t p _ => if votes c t p == t.mask then 1 else 0)
def startBallot : Start := xlLane (fun c t p l => Lanes.word (votes c t p) ((p.aw l).toNat % 32))

/-- The T values of the triggered lanes up to lane `l` (R155). -/
def tVals (c : Ctx) (t : Trig) (p : UPorts) (l : Nat) : List W32 :=
  ((Lanes.list t.mask c.nlanes).filter (fun m => m ≤ l)).map p.tw

/-- All T values of the triggered lanes. -/
def tAll (c : Ctx) (t : Trig) (p : UPorts) : List W32 := tVals c t p c.nlanes

def sumI32 (xs : List W32) : W32 := xs.foldl (· + ·) 0
/-- The exact sum rounded once by RN (R155). -/
def sumF32 (xs : List W32) : W32 := BitVec.ofNat 32 (Fmt.f32.sum 0 false (xs.map (fun x => Fmt.f32.decode x.toNat))).1

/-- A chain of a two-operand choice over a list that is not empty. -/
def chain (f : W32 → W32 → W32) : List W32 → W32
  | [] => 0
  | x :: r => r.foldl f x

def startScanAddI32 : Start := xlLane (fun c t p l => sumI32 (tVals c t p l))
def startScanAddF32 : Start := xlLane (fun c t p l => sumF32 (tVals c t p l))
def startRedAddI32 : Start := xlLane (fun c t p _ => sumI32 (tAll c t p))
def startRedAddF32 : Start := xlLane (fun c t p _ => sumF32 (tAll c t p))
def startRedMinS : Start := xlLane (fun c t p _ => chain (fun a x => if x.toInt < a.toInt then x else a) (tAll c t p))
def startRedMinN : Start := xlLane (fun c t p _ => chain (fun a x => if x.toNat < a.toNat then x else a) (tAll c t p))
def startRedMaxS : Start := xlLane (fun c t p _ => chain (fun a x => if a.toInt < x.toInt then x else a) (tAll c t p))
def startRedMaxN : Start := xlLane (fun c t p _ => chain (fun a x => if a.toNat < x.toNat then x else a) (tAll c t p))
/-- fmin and fmax of two FP32 codes (R116), with no exception. -/
def mm32 (isMax : Bool) (a x : W32) : W32 :=
  BitVec.ofNat 32 (Fmt.f32.minmax isMax (Fmt.f32.decode a.toNat) (Fmt.f32.decode x.toNat)).1
/-- A chain over one value still gives the canonical NaN for a NaN (R152). -/
def startRedMinF32 : Start := xlLane (fun c t p _ => let x := tAll c t p; chain (mm32 false) (x ++ x.take 1))
def startRedMaxF32 : Start := xlLane (fun c t p _ => let x := tAll c t p; chain (mm32 true) (x ++ x.take 1))

/-- R151. The oldest lane operation in flight completes. -/
def execXlLaneOpComplete (c : CtxId) (s : State) : Out3 :=
  match s.ctx c with
  | none => .next s
  | some x =>
    match x.findOp (fun o => o.unit == U.xl && decide (o.opcode.toNat < 0x40)) with
    | none => .next s
    | some o =>
      .next (s.setCtx c ((x.dropOp o.uid).finish U.xl o.uid o.mask (fun l => (o.vals.getD []).at l) none))

/-! ## Wide registers (R157 to R162) -/

/-- A control word (R158). -/
structure WideCtl where
  wdst : Nat
  ty : Nat
  amt : Nat
  col : Nat
  row : Nat
  wreg : Nat

def WideCtl.of (w : W32) : WideCtl :=
  let n := w.toNat
  { wdst := bits n 31 28, ty := bits n 27 26, amt := bits n 23 18, col := bits n 17 12, row := bits n 11 8,
    wreg := bits n 3 0 }

/-- The window offset of the container at row r and column c of register w (R157, R217). -/
def contOff (w r c : Nat) : Nat := 2048 * w + 128 * r + 2 * c

/-- What a wide-register operation touches: the registers it names, the containers it reads and those it writes with
their values (R159). -/
structure WideAct where
  regs : List Nat
  reads : List Nat
  writes : List (Nat × Nat)

/-- The lane pairs of a pass: for each triggered lane, its row and its two columns (R157, R159). -/
def wideLanes (t : Trig) (n row : Nat) : List (Nat × Nat × Nat) :=
  (Lanes.list t.mask n).map (fun l => (l, (row + l / 32) % 16, l % 32))

/-- fold(TYPE, x) (R159). -/
def wideFold (ty : Nat) (xs : List Nat) : Nat :=
  let sg : Int := (xs.map (fun x => (BitVec.ofNat 16 x).toInt)).foldl (· + ·) 0
  match ty with
  | 0 => (BitVec.ofInt 16 sg).toNat
  | 1 => (BitVec.ofInt 16 (satInt true 16 sg)).toNat
  | 2 => (Fmt.f16.sum 0 false (xs.map Fmt.f16.decode)).1
  | _ => (Fmt.bf16.sum 0 true (xs.map (fun x => Fmt.bf16.flushIn (Fmt.bf16.decode x)))).1

/-- pack(TYPE, v) (R159). -/
def widePack (ty : Nat) (v : W32) : Nat :=
  let x := Fmt.f32.decode v.toNat
  (match ty with
  | 0 => (toIntCode true 16 0 false x).1
  | 1 => (toIntCode true 16 0 true x).1
  | 2 => (Fmt.f16.convert 0 false x).1
  | _ => (Fmt.bf16.convert 0 false x).1) % 2 ^ 16

/-- What an operation does (R159), with `rd` reading the container at an offset. -/
def wideAct (op : Nat) (k : WideCtl) (t : Trig) (n : Nat) (tv : Nat → W32) (rd : Nat → Nat) : WideAct :=
  let rows := List.range 16
  let cols := List.range 64
  let all (w : Nat) (f : Nat → Nat → Nat) : List (Nat × Nat) :=
    rows.flatMap (fun r => cols.map (fun c => (contOff w r c, f r c)))
  let w := k.wreg
  match op with
  | 0x40 =>
    { regs := [w], writes := [],
      reads := (wideLanes t n k.row).flatMap (fun x => [contOff w x.2.1 (2 * x.2.2), contOff w x.2.1 (2 * x.2.2 + 1)]) }
  | 0x41 =>
    { regs := [w], reads := [],
      writes := (wideLanes t n k.row).flatMap (fun x =>
        [(contOff w x.2.1 (2 * x.2.2), (tv x.1).toNat % 2 ^ 16),
          (contOff w x.2.1 (2 * x.2.2 + 1), (tv x.1).toNat / 2 ^ 16)]) }
  | 0x42 =>
    { regs := [w], reads := cols.map (contOff w k.row),
      writes := cols.map (fun c => (contOff w k.row c, rd (contOff w k.row ((c + 64 - k.amt) % 64)))) }
  | 0x43 =>
    { regs := [w], reads := rows.map (fun r => contOff w r k.col),
      writes := rows.map (fun r => (contOff w r k.col, rd (contOff w ((r + 16 - k.amt % 16) % 16) k.col))) }
  | 0x44 =>
    { regs := [w, k.wdst], reads := cols.map (contOff w k.row),
      writes := all k.wdst (fun _ c => rd (contOff w k.row c)) }
  | 0x45 =>
    { regs := [w, k.wdst], reads := rows.map (fun r => contOff w r k.col),
      writes := all k.wdst (fun r _ => rd (contOff w r k.col)) }
  | 0x46 =>
    { regs := [w, k.wdst], reads := [contOff w 0 0, contOff w 15 63],
      writes := rows.map (fun r =>
        (contOff k.wdst r k.col, wideFold k.ty (cols.map (fun c => rd (contOff w r c))))) }
  | 0x47 =>
    { regs := [w, k.wdst], reads := [contOff w 0 0, contOff w 15 63],
      writes := cols.map (fun c =>
        (contOff k.wdst k.row c, wideFold k.ty (rows.map (fun r => rd (contOff w r c))))) }
  | 0x48 => { regs := [w], reads := [], writes := all w (fun _ _ => 0) }
  | _ =>
    { regs := [w], reads := [],
      writes := (wideLanes t n k.row).map (fun x =>
        (contOff w x.2.1 (32 * (k.col / 32 % 2) + x.2.2), widePack k.ty (tv x.1))) }

/-- Beats (R161). -/
def wideBeats (op passes : Nat) : Nat :=
  match op with
  | 0x40 => passes
  | 0x41 => passes
  | 0x42 => 1
  | 0x43 => 4
  | 0x44 => 2
  | 0x45 => 4
  | 0x46 => 3
  | 0x47 => 6
  | 0x48 => 1
  | _ => 2 * passes

/-- The bounding interval of byte offsets of 2-byte containers. -/
def bound2 : List Nat → Option (Nat × Nat)
  | [] => none
  | x :: r => match bound2 r with
    | none => some (x, x + 1)
    | some (a, b) => some (min a x, max b (x + 1))

/-- The owner number of a gang's wide registers on one half, for keys and locks (R177, R305). -/
def wideOwner (gid half : Nat) : Nat := 2 * gid + half

/-- A scratchpad byte as it will stand once the stores that a team has queued have been performed. -/
def State.byteAfter (s : State) (c : Ctx) (key : Nat) : Nat :=
  (c.memq.filter (fun o => o.unit == U.st && !o.isMaint)).foldl (fun v o => o.lanes.foldl (fun v x => match x.win with
    | some k => if k ≤ key ∧ key < k + o.size then x.x.toNat / 256 ^ (key - k) % 256 else v
    | none => v) v) (Memory.read s.mem key).toNat

/-- The wide registers that the mma operations of a gang's team will read whose blocks have not been read yet (R323): byte 2
of each block. Only a trigger of the same bundle can meet one, since a later bundle waits (R306, R337). -/
def State.blockRegs (s : State) (fold : Nat) (c : Ctx) (g : Gang) : List Nat :=
  (s.fold fold).eng.filterMap (fun e =>
    if (s.fold fold).locks.any (fun k => k.uid == e.uid && k.space == Lock.unreadSpace) then
      let l := Lanes.low e.mask 1024
      (g.window fold (e.a.at l + sx (lo32 (e.t.at l)))).map (fun w => s.byteAfter c (Memory.spmKey w.1 (w.2 + 2)))
    else none)

/-- Whether a wide-register operation meets a range lock (R160); `regs` are source registers whose entries are not known
yet. -/
def wideLocked (f : Fold) (owner : Nat) (regs : List Nat) (a : WideAct) : Bool :=
  let hit (b : Option (Nat × Nat)) : Bool × Bool := match b with
    | none => (false, false)
    | some (lo, hi) => f.lockHit 2 owner lo hi f.lockSeq
  let w := hit (bound2 (a.writes.map Prod.fst))
  w.1 || w.2 || (hit (bound2 a.reads)).2 || a.writes.any (fun x => regs.contains (x.1 / 2048))

/-- A wide-register operation (R158 to R162): C_WIDEREG or C_RANGELOCK with R refilled at once, or its effect now and
its completion two cycles after the last beat. FAULT_ADDR of C_RANGELOCK names the container at WREG, ROW and COL of the
control word, and FAULT_LANES every triggered lane (DESIGN CHOICE, unsafe: log entry 59). -/
def startWide (op : Nat) : Start := fun s id t =>
  match s.ctx id with
  | none => s
  | some c =>
    let p := c.us.unit t.unit
    let k := WideCtl.of (p.aw (t.lane c))
    match s.gang c.gang with
    | none => (s.raise id t 0x17).keep id t
    | some g =>
      let half := g.half id.fold
      let rd (off : Nat) : Nat := s.rd (Memory.wideKey c.gang half off) 2
      let a := wideAct op k t c.nlanes p.tw rd
      let f := s.fold id.fold
      if c.shadow || a.regs.any (fun w => decide (g.block.wide ≤ w)) then (s.raise id t 0x17).keep id t
      else if wideLocked f (wideOwner c.gang half) (s.blockRegs id.fold c g) a then
        (s.modCtx id (fun c => c.addDue { DueTrap.of 0x28 t.pc t.cycle with
          lanes := some t.mask,
          addr := some (BitVec.ofNat 64 (3 * 2 ^ 60 + contOff k.wreg k.row k.col)) })).keep id t
      else
        let ld : Nat → W64 := fun l =>
          let r := (k.row + l / 32) % 16
          BitVec.ofNat 64 (rd (contOff k.wreg r (2 * (l % 32))) + 2 ^ 16 * rd (contOff k.wreg r (2 * (l % 32) + 1)))
        let vals := if op = 0x40 then
            some ((List.range c.nlanes).map (fun l => if t.mask.getLsbD l then ld l else 0)) else none
        let beats := wideBeats op (Lanes.passes c.live c.nlanes).length
        let s1 := a.writes.foldl (fun s x => s.wr (Memory.wideKey c.gang half x.1) 2 x.2) s
        let s2 := s1.addOp id (t.op [] [] vals (f.cycle + beats + 1))
        (s2.modCtx id (fun c => { c with us := { c.us with xlBusy := f.cycle + beats } })).modFold id.fold
          (fun f => { f with widePath := f.cycle + beats })

def startWrLd : Start := startWide 0x40
def startWrSt : Start := startWide 0x41
def startWrRotr : Start := startWide 0x42
def startWrRotc : Start := startWide 0x43
def startWrBcr : Start := startWide 0x44
def startWrBcc : Start := startWide 0x45
def startWrRedr : Start := startWide 0x46
def startWrRedc : Start := startWide 0x47
def startWrZero : Start := startWide 0x48
def startWrPack : Start := startWide 0x49

/-- R161. The oldest wide-register operation in flight completes, once its cycle has come: wr.ld fills R, the others
refill it with its earlier contents. -/
def execWideRegOpComplete (c : CtxId) (s : State) : Out3 :=
  match s.ctx c with
  | none => .next s
  | some x =>
    match x.findOp (fun o => o.unit == U.xl && decide (0x40 ≤ o.opcode.toNat) &&
        decide (o.notBefore ≤ (s.fold c.fold).cycle)) with
    | none => .next s
    | some o =>
      let x1 := x.dropOp o.uid
      .next (s.setCtx c (match o.vals with
        | some v => x1.finish U.xl o.uid o.mask (fun l => v.at l) none
        | none => x1.finishKeep U.xl o.uid))

/-! ## The rows of XL -/

/-- R153. XL gives each lane the A value of the lane that T names. -/
def execXlShflIdx (m : MoveF) (s : State) : Out3 :=
  issueOne (syllable true 10 3 0 m) startShflIdx s
/-- R153. XL shuffles from lane l minus T. -/
def execXlShflUp (m : MoveF) (s : State) : Out3 :=
  issueOne (syllable true 10 3 1 m) startShflUp s
/-- R153. XL shuffles from lane l plus T. -/
def execXlShflDn (m : MoveF) (s : State) : Out3 :=
  issueOne (syllable true 10 3 2 m) startShflDn s
/-- R153. XL shuffles from lane l XOR T. -/
def execXlShflXor (m : MoveF) (s : State) : Out3 :=
  issueOne (syllable true 10 3 3 m) startShflXor s
/-- R153. XL broadcasts the A value of one lane. -/
def execXlBcast (m : MoveF) (s : State) : Out3 :=
  issueOne (syllable true 10 3 4 m) startBcast s
/-- R154. XL delivers 1 if any triggered lane's t0 is 1. -/
def execXlVoteAny (m : MoveF) (s : State) : Out3 :=
  issueOne (syllable true 10 3 5 m) startVoteAny s
/-- R154. XL delivers 1 if every triggered lane's t0 is 1. -/
def execXlVoteAll (m : MoveF) (s : State) : Out3 :=
  issueOne (syllable true 10 3 6 m) startVoteAll s
/-- R154. XL delivers a word of the ballot set. -/
def execXlBallot (m : MoveF) (s : State) : Out3 :=
  issueOne (syllable true 10 3 7 m) startBallot s
/-- R155. XL computes an inclusive integer prefix sum. -/
def execXlScanAddI32 (m : MoveF) (s : State) : Out3 :=
  issueOne (syllable true 10 3 8 m) startScanAddI32 s
/-- R155. XL computes an exact-then-rounded FP32 prefix sum. -/
def execXlScanAddF32 (m : MoveF) (s : State) : Out3 :=
  issueOne (syllable true 10 3 9 m) startScanAddF32 s
/-- R155. XL sums T over the triggered lanes. -/
def execXlRedAddI32 (m : MoveF) (s : State) : Out3 :=
  issueOne (syllable true 10 3 10 m) startRedAddI32 s
/-- R155. XL sums FP32 T exactly and rounds once. -/
def execXlRedAddF32 (m : MoveF) (s : State) : Out3 :=
  issueOne (syllable true 10 3 11 m) startRedAddF32 s
/-- R155. XL reduces to the signed minimum. -/
def execXlRedMinS (m : MoveF) (s : State) : Out3 :=
  issueOne (syllable true 10 3 12 m) startRedMinS s
/-- R155. XL reduces to the unsigned minimum. -/
def execXlRedMinN (m : MoveF) (s : State) : Out3 :=
  issueOne (syllable true 10 3 13 m) startRedMinN s
/-- R155. XL reduces to the FP32 minimum. -/
def execXlRedMinF32 (m : MoveF) (s : State) : Out3 :=
  issueOne (syllable true 10 3 14 m) startRedMinF32 s
/-- R155. XL reduces to the signed maximum. -/
def execXlRedMaxS (m : MoveF) (s : State) : Out3 :=
  issueOne (syllable true 10 3 15 m) startRedMaxS s
/-- R155. XL reduces to the unsigned maximum. -/
def execXlRedMaxN (m : MoveF) (s : State) : Out3 :=
  issueOne (syllable true 10 3 16 m) startRedMaxN s
/-- R155. XL reduces to the FP32 maximum. -/
def execXlRedMaxF32 (m : MoveF) (s : State) : Out3 :=
  issueOne (syllable true 10 3 17 m) startRedMaxF32 s
/-- R159. XL loads a wide-register row into R. -/
def execXlWrLd (m : MoveF) (s : State) : Out3 :=
  issueOne (syllable true 10 3 64 m) startWrLd s
/-- R159. XL stores lane values into a wide-register row. -/
def execXlWrSt (m : MoveF) (s : State) : Out3 :=
  issueOne (syllable true 10 3 65 m) startWrSt s
/-- R159. XL rotates a wide-register row. -/
def execXlWrRotr (m : MoveF) (s : State) : Out3 :=
  issueOne (syllable true 10 3 66 m) startWrRotr s
/-- R159. XL rotates a wide-register column. -/
def execXlWrRotc (m : MoveF) (s : State) : Out3 :=
  issueOne (syllable true 10 3 67 m) startWrRotc s
/-- R159. XL broadcasts a row over a wide register. -/
def execXlWrBcr (m : MoveF) (s : State) : Out3 :=
  issueOne (syllable true 10 3 68 m) startWrBcr s
/-- R159. XL broadcasts a column over a wide register. -/
def execXlWrBcc (m : MoveF) (s : State) : Out3 :=
  issueOne (syllable true 10 3 69 m) startWrBcc s
/-- R159. XL reduces each row into a column. -/
def execXlWrRedr (m : MoveF) (s : State) : Out3 :=
  issueOne (syllable true 10 3 70 m) startWrRedr s
/-- R159. XL reduces each column into a row. -/
def execXlWrRedc (m : MoveF) (s : State) : Out3 :=
  issueOne (syllable true 10 3 71 m) startWrRedc s
/-- R159. XL zeroes a wide register. -/
def execXlWrZero (m : MoveF) (s : State) : Out3 :=
  issueOne (syllable true 10 3 72 m) startWrZero s
/-- R159. XL converts FP32 lane values into wide-register containers. -/
def execXlWrPack (m : MoveF) (s : State) : Out3 :=
  issueOne (syllable true 10 3 73 m) startWrPack s

end Sys2Proof.Machine
end

