-- ==== Sys2Proof/Machine/Copy.lean ====
section
/-! DEFINITION. What the engines share (R267, R302 to R307, R366): operations in flight, the bytes of a side, tokens and
completion; and the copy engine (R294 to R312). -/

namespace Sys2Proof.Machine

/-! ## Operations in flight -/

/-- An operation of an engine as its trigger leaves it. -/
def State.newEng (s : State) (id : CtxId) (c : Ctx) (t : Trig) : EngOp :=
  let p := c.us.unit t.unit
  { uid := (s.fold id.fold).nextEng, slot := id.slot, tid := c.tid, opUid := t.uid, gang := c.gang, unit := t.unit,
    opcode := t.opcode, mask := t.mask, a := p.a, b := p.b, c := p.c, t := p.held, scope := t.scope, bundle := t.pc,
    cycle := t.cycle, asid := c.asid, flock := c.flock, conf := c.conf, started := false, dispatch := none, block := [],
    scaleA := [], scaleB := [], fms := match s.gang c.gang with | some g => g.fm | none => [], done := 0, starts := [],
    finishes := [], token := none, tokenAddr := 0, progress := 0, acked := 0,
    sent := [], redo := 0, landed := [], tokIdx := 0, nxRefused := false, born := s.pkg.clk }

/-- The operation joins its fold's engines and registers its entries (R305). -/
def State.pushEng (s : State) (fold : Nat) (e : EngOp) (ls : List Lock) : State :=
  s.modFold fold (fun f => { f.addLocks (ls.map (fun k => { k with uid := e.uid })) with
    eng := f.eng ++ [e], nextEng := e.uid + 1 })

def State.findEng (s : State) (fold uid : Nat) : Option EngOp := (s.fold fold).eng.find? (fun e => e.uid == uid)

def State.modEng (s : State) (fold uid : Nat) (g : EngOp → EngOp) : State :=
  s.modFold fold (fun f => { f with eng := f.eng.map (fun e => if e.uid = uid then g e else e) })

/-- The operands of a uniform engine trigger (R296, R314): those of its lowest triggered lane. -/
def EngOp.lane (e : EngOp) : Nat := Lanes.low e.mask 1024
def EngOp.a0 (e : EngOp) : W64 := e.a.at e.lane
def EngOp.t0 (e : EngOp) : W32 := lo32 (e.t.at e.lane)

/-- The flock that an engine's accesses are checked against (R231): a shadow context belongs to none. -/
def EngOp.flock? (e : EngOp) : Option W32 := if e.asid < 256 then some e.flock else none

/-- The fault record of an engine operation (R360). -/
def EngOp.record (e : EngOp) (cause : BitVec 7) (lanes : Lanes) (addrs : Vals) : FaultRec :=
  { cause := cause, opcode := e.opcode, bundle := e.bundle, cycle := e.cycle, lanes := lanes, addrs := addrs,
    mask := e.mask, a := e.a, b := e.b, c := e.c, t := e.t, r := [], scope := e.scope }

/-- An operation ends (R304): its entries are removed, R fills for the team that is still resident, its flag reads 1. What the
fold's self-invalidating copies hold of the bytes it wrote is of before them (R220, R267). -/
def State.endEng (s : State) (fold : Nat) (e : EngOp) (v : Nat → W64) (fr : Option FaultRec) : State :=
  let s1 := s.modFold fold (fun f => { f.dropSi.dropLocks e.uid with eng := f.eng.filter (fun x => x.uid != e.uid) })
  let id : CtxId := { fold := fold, slot := e.slot }
  let s2 := s1.modCtx id (fun c => if c.tid = e.tid then c.finish e.unit e.opUid e.mask v fr else c)
  s2.wakeFold fold

/-- An operation ends with a token on every triggered lane. -/
def State.endToken (s : State) (fold : Nat) (e : EngOp) (cause : BitVec 7) (addr : W64) : State :=
  s.endEng fold e (fun _ => 0) (some (e.record cause e.mask (List.replicate 1024 addr)))

/-- Whether the team's accesses before the operation have been performed (R256, R302). -/
def State.olderDone (s : State) (fold : Nat) (e : EngOp) : Bool :=
  (match s.ctx { fold := fold, slot := e.slot } with
    | some c => c.tid != e.tid ||
        (!c.memq.any (fun m => m.replay.isNone && decide (m.uid < e.opUid)) && !c.mapPending e.opUid &&
          !c.descPending e.opUid)
    | none => true) &&
    !(s.fold fold).held.any (fun h => h.slot == e.slot && h.tid == e.tid && decide (h.op.uid < e.opUid))

/-! ## The bytes of a side -/

/-- What a side names (R296, R297): a generic address, a staging name, or an offset of the accumulator store. -/
inductive SideKind where
  | generic | staging | acc
deriving DecidableEq, Repr

/-- What resolving bytes finds: their places in order, with the translations made; a fault; or a wait for a blocked
page (R250). -/
inductive Piece where
  | bytes (places : List Place) (trans : List Trans)
  | fault (code : BitVec 7)
  | wait
deriving DecidableEq, Repr

/-- The staging store's size on a slice in bytes, none while BUSY (R222). -/
def State.stageSize (s : State) (die slice : Nat) : Option Nat :=
  let w := Tbl.get (s.die die).l2Stage slice 0
  if w.getLsbD 4 then none else some (min 8 (bits w.toNat 3 0) * 2 ^ 19)

/-- One byte of global memory for an engine (R302, R303), once its walk has set A and D (R242): a watchpoint in block mode
faults (R366), and none is a wait for a blocked page (R250). -/
def State.engGlobal (s : State) (fold : Nat) (e : EngOp) (wr : Bool) (addr : W64) :
    State × Except (BitVec 7) (Option Trans) :=
  match s.walkTo (dieOf fold) e.asid addr (if wr then .store else .load) (decide (e.asid < 256)) with
  | (s1, .error c) => (s1, .error c)
  | (s1, .ok t) =>
    let va := bits addr.toNat 56 0
    (s1,
      if s.regionFails (dieOf fold) va e.flock? wr then .error 0x27
      else if ((s.fold fold).watchHit 0 e.asid e.flock e.conf va va (!wr) wr).block then .error 0x29
      else if t.pte.getLsbD 63 && wr then .ok none
      else match s.unreachable (dieOf fold) t.place, s.eccHit t.place 1 with
        | some c, _ => .error c
        | none, true => .error 0x2C
        | none, false => match s.remoteFault t.place with
          | some c => .error c
          | none => .ok (some t))

/-- Consecutive bytes of global memory: the first fault decides, and a wait waits. -/
def State.engGlobals (s : State) (fold : Nat) (e : EngOp) (wr : Bool) (addr : W64) : Nat → State × Piece
  | 0 => (s, .bytes [] [])
  | n + 1 =>
    match s.engGlobal fold e wr addr with
    | (s1, .error c) => (s1, .fault c)
    | (s1, .ok none) => (s1, .wait)
    | (s1, .ok (some t)) =>
      match State.engGlobals s1 fold e wr (addr + 1) n with
      | (s2, .bytes ps ts) => (s2, .bytes (t.place :: ps) (t :: ts))
      | r => r

/-- Whether a block-mode watchpoint of the operation's fold stops an access to a scratchpad (R364, R366). -/
def State.winBlocked (s : State) (fold : Nat) (e : EngOp) (wr : Bool) (f off n : Nat) : Bool :=
  decide (f = fold) && ((s.fold fold).watchHit 1 0 e.flock e.conf off (off + n - 1) (!wr) wr).block

/-- Bytes of a scratchpad window (R211): mapped sectors fill and take dirty marks (R215). -/
def State.engWindow (s : State) (fold : Nat) (e : EngOp) (wr : Bool) (addr : W64) (n : Nat) : State × Piece :=
  match (s.gang e.gang).bind (fun g => if e.asid < 256 then some g else none) with
  | none => (s, .fault 0x2A)
  | some g =>
    match g.window fold addr, g.window fold (addr + BitVec.ofNat 64 (n - 1)) with
    | some (f, off), some (f2, off2) =>
      if f2 ≠ f ∨ off2 ≠ off + (n - 1) then (s, .fault 0x2A)
      else
        if s.winBlocked fold e wr f off n then (s, .fault 0x29)
        else
          let k : AccKind := if wr then .store else .load
          let secs := (List.range (n / 256 + 2)).filterMap (fun i =>
            let lo := max off ((off / 256 + i) * 256)
            let hi := min (off + n) ((off / 256 + i + 1) * 256)
            if lo < hi then some (lo, hi - lo) else none)
          match secs.foldl (fun acc x => if acc.2.isSome then acc else acc.1.touchWindow f x.1 x.2 k) (s, none) with
          | (s1, some c) => (s1, .fault c)
          | (s1, none) => (s1, .bytes ((List.range n).map (fun i => .pkg (Memory.spmKey f (off + i)))) [])
    | _, _ => (s, .fault 0x2A)

/-- Bytes of the wide-register window (R217). -/
def State.engWide (s : State) (fold : Nat) (e : EngOp) (addr : W64) (n : Nat) : Piece :=
  match (s.gang e.gang).bind (fun g => if e.asid < 256 then some g else none) with
  | none => .fault 0x2A
  | some g =>
    let off := bits addr.toNat 59 0
    if off + n ≤ 2048 * g.block.wide then
      .bytes ((List.range n).map (fun i => .pkg (Memory.wideKey e.gang (g.half fold) (off + i)))) []
    else .fault 0x2A

/-- The bytes that a side's element names, as the engine's checks find them. The walks set A and D (R242). -/
def State.engBytes (s : State) (fold : Nat) (e : EngOp) (k : SideKind) (wr : Bool) (addr : W64) (n : Nat) :
    State × Piece :=
  match k with
  | .acc => (s, .bytes ((List.range n).map (fun i => .pkg (Memory.accKey fold (addr.toNat + i)))) [])
  | .staging =>
    let a := addr.toNat
    let die := bits a 29 28
    let slice := bits a 27 23
    let off := bits a 22 0
    if 2 ^ 30 ≤ a then (s, .fault 0x2F)
    else match s.stageSize die slice with
      | none => (s, .fault 0x2F)
      | some z =>
        if off + n ≤ z then (s, .bytes ((List.range n).map (fun i => .pkg (Memory.stageKey die slice (off + i)))) [])
        else (s, .fault 0x2F)
  | .generic =>
    match tagOf addr with
    | 0 => s.engGlobals fold e wr addr n
    | 1 => s.engWindow fold e wr addr n
    | 2 => s.engWindow fold e wr addr n
    | 3 => (s, s.engWide fold e addr n)
    | _ => (s, .fault (if wr then 0x24 else 0x22))

/-! ## Elements -/

/-- One element of a shape, or one lane of a gather or scatter: its linear index or lane, its two addresses and its
length in bytes (R298, R300). -/
structure Elem where
  idx : Nat
  src : W64
  dst : W64
  len : Nat
deriving DecidableEq, Repr

/-- A plan of an engine's movement: its elements and its sides; a fill has no source (R301). -/
structure Plan where
  elems : List Elem
  srcKind : SideKind
  dstKind : SideKind
  pattern : Option (List Byte)
deriving DecidableEq, Repr

/-- The bytes from a window address that lie in the block it names: the fold, the first physical offset and how many (R211). -/
def Gang.windowSpan (g : Gang) (fold : Nat) (a : W64) (n : Nat) : Option (Nat × Nat × Nat) :=
  (g.window fold a).map (fun p => (p.1, p.2, min n (2 ^ g.block.scrLog2 - bits a.toNat 30 0)))

/-- The space, owner and interval that an element's bytes take in the range-lock table (R305): a window's end where its block
does, since no byte beyond it is touched. Staging names are one space: die, slice and offset stand in one number, whose
bounding interval a side registers. -/
def State.lockOf (s : State) (fold : Nat) (e : EngOp) (k : SideKind) (addr : W64) (n : Nat) :
    Option (Nat × Nat × Nat × Nat) :=
  let a := addr.toNat
  match k with
  | .acc => some (3, fold, a, a + n - 1)
  | .staging => some (4, 0, a, a + n - 1)
  | .generic =>
    match tagOf addr, s.gang e.gang with
    | 0, _ => some (0, e.asid, bits a 56 0, bits a 56 0 + n - 1)
    | 1, some g => (g.windowSpan fold addr n).map (fun p => (1, p.1, p.2.1, p.2.1 + p.2.2 - 1))
    | 2, some g => (g.windowSpan fold addr n).map (fun p => (1, p.1, p.2.1, p.2.1 + p.2.2 - 1))
    | 3, some g => some (2, wideOwner e.gang (g.half fold), bits a 59 0, min (bits a 59 0 + n) (max (bits a 59 0 + 1) (2048 * g.block.wide)) - 1)
    | _, _ => none

/-- An interval joins the bounding interval of its space (R305). -/
def addSpan (x : Nat × Nat × Nat × Nat) : List (Nat × Nat × Nat × Nat) → List (Nat × Nat × Nat × Nat)
  | [] => [x]
  | y :: r =>
    if y.1 = x.1 ∧ y.2.1 = x.2.1 then (y.1, y.2.1, min y.2.2.1 x.2.2.1, max y.2.2.2 x.2.2.2) :: r
    else y :: addSpan x r

/-- The entries of one side: one for each space it touches. -/
def State.sideLocks (s : State) (fold : Nat) (e : EngOp) (k : SideKind) (dst : Bool) (as : List (W64 × Nat)) :
    List Lock :=
  ((as.filterMap (fun x => s.lockOf fold e k x.1 x.2)).foldl (fun acc x => addSpan x acc) []).map (fun x =>
    { uid := e.uid, space := x.1, owner := x.2.1, lo := x.2.2.1, hi := x.2.2.2, dst := dst, mx := e.unit == U.mx,
      seq := 0 })

/-- The entries of a plan (R305). -/
def State.planLocks (s : State) (fold : Nat) (e : EngOp) (p : Plan) : List Lock :=
  (if p.pattern.isSome then [] else s.sideLocks fold e p.srcKind false (p.elems.map (fun x => (x.src, x.len)))) ++
    s.sideLocks fold e p.dstKind true (p.elems.map (fun x => (x.dst, x.len)))

/-! ## The shape descriptor (R295 to R301) -/

/-- Word j of the descriptor. -/
def EngOp.word (e : EngOp) (j : Nat) : W32 := lo32 (e.b.at j)
/-- A 64-bit pair of descriptor words. -/
def EngOp.pair (e : EngOp) (j : Nat) : W64 := (zx (e.word (j + 1)) <<< 32) ||| zx (e.word j)

/-- The source and destination base of a shape operation (R296). -/
def EngOp.srcBase (e : EngOp) : W64 := e.pair 0 + e.a0
def EngOp.dstBase (e : EngOp) : W64 := e.pair 2 + sx e.t0

/-- The dimensions a shape operation uses (R294). -/
def EngOp.dims (e : EngOp) : Nat := if e.opcode = 0 then 1 else if e.opcode = 1 then 2 else 3
def EngOp.esize (e : EngOp) : Nat := 2 ^ (bits (e.word 4).toNat 1 0)
def EngOp.dir (e : EngOp) : Nat := bits (e.word 4).toNat 3 2
/-- The count of dimension d in use. -/
def EngOp.cnt (e : EngOp) (d : Nat) : Nat := if d < e.dims then (e.word (5 + d)).toNat else 1
def EngOp.isFill (e : EngOp) : Bool := e.opcode == 6

/-- The sides of a shape operation (R294, R297). -/
def EngOp.sides (e : EngOp) : SideKind × SideKind :=
  if e.opcode = 3 then (if e.dir = 0 then .generic else .staging, if e.dir = 1 then .generic else .staging)
  else if e.opcode = 7 then (.generic, .acc)
  else if e.opcode = 8 then (.acc, .generic)
  else (.generic, .generic)

/-- The elements of a shape operation in ascending linear index (R298). -/
def EngOp.elems (e : EngOp) : List Elem :=
  let n0 := e.cnt 0
  let n1 := e.cnt 1
  let st (j i : Nat) : W64 := BitVec.ofNat 64 i * sx (e.word j)
  let d1 (j i : Nat) : W64 := if 1 < e.dims then st j i else 0
  let d2 (j i : Nat) : W64 := if 2 < e.dims then st j i else 0
  (List.range (e.cnt 2 * n1 * n0)).map (fun l =>
    let i0 := l % n0
    let i1 := l / n0 % n1
    let i2 := l / (n0 * n1)
    { idx := l, src := e.srcBase + st 8 i0 + d1 10 i1 + d2 12 i2, dst := e.dstBase + st 9 i0 + d1 11 i1 + d2 13 i2,
      len := e.esize })

/-- Whether an accumulator side leaves the gang's tiles (R297, R299): all 32 belong to a gang that holds the engine. -/
def accBad (hasEngine : Bool) (as : List W64) : Bool := !hasEngine || as.any (fun a => decide (2 ^ 18 ≤ a.toNat))

/-- Whether a staging side holds a name with a bit of 63:30 set (R297, R299). -/
def stageBad (as : List W64) : Bool := as.any (fun a => decide (2 ^ 30 ≤ a.toNat))

/-- The number that C_CPSHAPE reports (R299, R300), if the operation fails its checks. -/
def EngOp.shapeFault (e : EngOp) (live : Lanes) (hasEngine : Bool) : Option Nat :=
  let E := e.esize
  let (sk, dk) := e.sides
  let fill := e.isFill
  let strideBad (j d : Nat) (src : Bool) : Bool :=
    decide (d < e.dims) && !(fill && src) && (e.word j).toNat % E != 0
  let countBad (d lim : Nat) : Bool := decide (d < e.dims) && ((e.word (5 + d)).toNat == 0 || lim < (e.word (5 + d)).toNat)
  let n := e.cnt 0 * e.cnt 1 * e.cnt 2
  let limits := countBad 0 65536 || countBad 1 65536 || countBad 2 4096
  let big := decide (2 ^ 26 < n * E)
  let es := if limits || big then [] else e.elems
  let acc := sk == .acc || dk == .acc
  let fails : List (Bool × Nat) := [
    (live &&& 0xFFFF != 0xFFFF, 16),
    (!fill && (e.srcBase.toNat % E != 0 || (sk == .staging && stageBad (e.srcBase :: es.map Elem.src)) ||
      (sk == .acc && (2 ^ 18 ≤ e.srcBase.toNat || accBad hasEngine (es.map Elem.src)))), 0),
    (e.dstBase.toNat % E != 0 || (dk == .staging && stageBad (e.dstBase :: es.map Elem.dst)) ||
      (dk == .acc && (2 ^ 18 ≤ e.dstBase.toNat || accBad hasEngine (es.map Elem.dst))), 2),
    (bits (e.word 4).toNat 31 4 != 0 || e.dir == 3 || (e.dir != 0 && e.opcode != 3) || (acc && E != 4), 4),
    (countBad 0 65536 || big, 5), (countBad 1 65536, 6), (countBad 2 4096, 7),
    (strideBad 8 0 true, 8), (strideBad 9 0 false, 9), (strideBad 10 1 true, 10), (strideBad 11 1 false, 11),
    (strideBad 12 2 true, 12), (strideBad 13 2 false, 13), (e.word 14 != 0, 14), (e.word 15 != 0, 15)]
  (fails.find? Prod.fst).map Prod.snd

/-- The byte pattern of a fill (R301). -/
def EngOp.pattern (e : EngOp) : List Byte :=
  let c := (lo32 (e.c.at e.lane)).toNat
  if e.esize = 8 then bytesOf 4 c ++ bytesOf 4 c else bytesOf e.esize c

/-- Whether the operation is a gather or a scatter. -/
def EngOp.perLane (e : EngOp) : Bool := e.opcode == 4 || e.opcode == 5

/-- The lanes of a gather or scatter (R300): the window side is an offset of tag 0x1. -/
def EngOp.laneElems (e : EngOp) : List Elem :=
  (Lanes.list e.mask 1024).map (fun l =>
    let g := e.a.at l
    let w : W64 := BitVec.ofNat 64 (2 ^ 60 + (lo32 (e.t.at l)).toNat)
    { idx := l, src := if e.opcode = 4 then g else w, dst := if e.opcode = 4 then w else g,
      len := (lo32 (e.b.at l)).toNat })

/-- The plan of a copy-engine operation, or the number of C_CPSHAPE. -/
def EngOp.plan (e : EngOp) (live : Lanes) (hasEngine : Bool) : Except Nat Plan :=
  if e.perLane then
    let es := e.laneElems
    if es.any (fun x => x.len == 0 || 4096 < x.len) then .error 17
    else .ok { elems := es, srcKind := .generic, dstKind := .generic, pattern := none }
  else match e.shapeFault live hasEngine with
    | some n => .error n
    | none => .ok { elems := e.elems, srcKind := e.sides.1, dstKind := e.sides.2,
                    pattern := if e.isFill then some e.pattern else none }

/-- Whether a gang holds its fold's engine (R313). -/
def State.holdsEngine (s : State) (gid : Nat) : Bool :=
  match s.gang gid with
  | some g => g.hasEngine
  | none => false

/-- A CP trigger (R294, R299): it joins the engine with its entries, or takes C_CPSHAPE. -/
def startCopy : Start := fun s id t =>
  match s.ctx id with
  | none => s
  | some c =>
    let e := s.newEng id c t
    match e.plan c.live (s.holdsEngine c.gang) with
    | .error n => (s.modCtx id (fun c => c.addDue { DueTrap.of 0x4A t.pc t.cycle with
        addr := some (BitVec.ofNat 64 n) })).keep id t
    | .ok p => s.pushEng id.fold e (s.planLocks id.fold e p)

/-- The entries a CP trigger needs (R305). -/
def needCopy (s : State) (id : CtxId) (t : Trig) : Option Nat :=
  match s.ctx id with
  | none => some 0
  | some c =>
    let e := s.newEng id c t
    match e.plan c.live (s.holdsEngine c.gang) with
    | .error _ => some 0
    | .ok p => some (s.planLocks id.fold e p).length

/-! ## Effect and completion (R298, R302 to R304, R366) -/

/-- A side resolved: the element, and what was found. -/
abbrev Found := List (Elem × Piece)

/-- Resolve one side of the elements in ascending order; state changes are the sector fills and marks. -/
def State.resolveSide (s : State) (fold : Nat) (e : EngOp) (k : SideKind) (wr : Bool) : List Elem → State × Found
  | [] => (s, [])
  | x :: r =>
    let (s1, p) := s.engBytes fold e k wr (if wr then x.dst else x.src) x.len
    let (s2, q) := State.resolveSide s1 fold e k wr r
    (s2, (x, p) :: q)

/-- The places of a found side. -/
def Piece.places : Piece → List Place
  | .bytes ps _ => ps
  | _ => []

/-- The distinct lines of each page among translated bytes, with the page's translation used last (R240, R247). -/
def pageLines (xs : List (Nat × Trans)) : List (Trans × Nat) :=
  let pages := (xs.map (fun x => x.2.page)).eraseDups
  pages.filterMap (fun pg =>
    let mine := xs.filter (fun x => x.2.page == pg)
    (mine.getLast?).map (fun h => (h.2, (mine.map (fun x => x.1 / 128)).eraseDups.length)))

/-- The bytes of a side that were translated, by virtual address. -/
def sideBytes (wr : Bool) (f : Found) : List (Nat × Trans) :=
  f.flatMap (fun x => match x.2 with
    | .bytes _ ts => ts.zipIdx.map (fun y => (bits (if wr then x.1.dst else x.1.src).toNat 56 0 + y.2, y.1))
    | _ => [])

/-- The counts of a copy: one addition for each page, of the lines that its performed elements touch there (R247). -/
def State.countSides (s : State) (fold : Nat) (e : EngOp) (bs : List (Nat × Trans)) : State :=
  (pageLines bs).foldl (fun s x => s.countAccess fold e.asid x.1 x.2) s

/-- The homes serve the lines of a side (R302, R411, R412). -/
def State.serveSide (s : State) (fold : Nat) (e : EngOp) (wr : Bool) (bs : List (Nat × Trans)) : State :=
  let lines := (bs.filterMap (fun x => match x.2.place with
    | .pkg p => some (lineOf p)
    | _ => none)).eraseDups
  lines.foldl (fun s b => (s.l2Touch b wr).meshAccess fold b 3 e.scope.toNat) s

/-- The writes of a side are recorded (R233). -/
def State.logSide (s : State) (fold : Nat) (f : Found) : State :=
  f.foldl (fun s x => match x.2, tagOf x.1.dst with
    | .bytes _ (_ :: _), 0 => s.logWrite fold (bits x.1.dst.toNat 56 0) x.1.len
    | _, _ => s) s

/-- An event for each element that a report-mode watchpoint saw (R366). -/
def State.engReport (s : State) (fold : Nat) (e : EngOp) (wr : Bool) (f : Found) : State :=
  f.foldl (fun s x =>
    let addr := if wr then x.1.dst else x.1.src
    let fo := s.fold fold
    let n := x.1.len
    let w : WatchHit := match x.2 with
      | .bytes (.pkg key :: _) [] =>
        let off := key - Memory.spmKey 0 0
        if Memory.spmKey fold 0 ≤ key ∧ key < Memory.spmKey (fold + 1) 0 then
          fo.watchHit 1 0 e.flock e.conf (off % 2 ^ 20) (off % 2 ^ 20 + n - 1) (!wr) wr
        else { block := false, user := false, shadow := false }
      | .bytes _ (_ :: _) =>
        fo.watchHit 0 e.asid e.flock e.conf (bits addr.toNat 56 0) (bits addr.toNat 56 0 + n - 1) (!wr) wr
      | _ => { block := false, user := false, shadow := false }
    if w.user || w.shadow then
      let gone := match s.ctx { fold := fold, slot := e.slot } with
        | some c => c.tid != e.tid
        | none => true
      s.pushEvent fold (eventWord 0x29 0 e.slot false gone (bits addr.toNat 56 16))
    else s) s

/-- Sectors of the gang's maps whose 256 bytes the destination covers become filled without a read (R215); an element that
a watchpoint stops covers nothing. -/
def State.coverPlan (s : State) (fold : Nat) (e : EngOp) (xs : List Elem) : State :=
  match s.gang e.gang with
  | none => s
  | some g =>
    if e.asid ≥ 256 ∨ (g.maps 0 ++ g.maps 1).isEmpty = true then s
    else s.coverBytes (xs.flatMap (fun x =>
      match if tagOf x.dst = 1 ∨ tagOf x.dst = 2 then g.window fold x.dst else none with
      | none => []
      | some (f, off) =>
        if s.winBlocked fold e true f off x.len then []
        else (List.range x.len).filterMap (fun i => g.window fold (x.dst + BitVec.ofNat 64 i))))

/-- What a plan did: the state, the elements written, and the faults in ascending index with their addresses. -/
structure Moved where
  s : State
  good : List Elem
  bad : List (Nat × BitVec 7 × W64)

/-- Perform a plan (R298, R300, R303): every value is read before any byte is written. None while a page is blocked. -/
def State.runPlan (s : State) (fold : Nat) (e : EngOp) (p : Plan) : Option Moved :=
  let fill := p.pattern.isSome
  let (s1, srcs) := if fill then (s, p.elems.map (fun x => (x, Piece.bytes [] []))) else
    s.resolveSide fold e p.srcKind false p.elems
  let ok := srcs.filterMap (fun x => match x.2 with | .bytes _ _ => some x.1 | _ => none)
  let s2 := if p.dstKind = .generic then s1.coverPlan fold e ok else s1
  let (s3, dsts) := s2.resolveSide fold e p.dstKind true ok
  if srcs.any (fun x => x.2 == .wait) || dsts.any (fun x => x.2 == .wait) then none
  else
    let done := dsts.filterMap (fun x => match x.2 with | .bytes ps _ => some (x.1, ps) | _ => none)
    let value (x : Elem) : List Byte := match p.pattern with
      | some b => b
      | none => match srcs.find? (fun y => y.1.idx == x.idx) with
        | some y => s3.readPlaces y.2.places
        | none => []
    let vals := done.map (fun x => (x.2, value x.1))
    let s4 := vals.foldl (fun s x => s.writePlaces x.1 x.2) s3
    let good := done.map Prod.fst
    let gs := if fill then [] else srcs.filter (fun x => good.contains x.1)
    let gd := dsts.filter (fun x => good.contains x.1)
    let rd := sideBytes false gs
    let wr := sideBytes true gd
    let s5 := (((s4.askPlaces (gs.flatMap (fun x => x.2.places))).countSides fold e (rd ++ wr)).serveSide fold e false rd).serveSide fold e true wr
    let s6 := ((s5.logSide fold gd).engReport fold e false gs).engReport fold e true gd
    let fault (wr : Bool) (x : Elem × Piece) : Option (Nat × BitVec 7 × W64) := match x.2 with
      | .fault c => some (x.1.idx, c, if wr then x.1.dst else x.1.src)
      | _ => none
    let bad := srcs.filterMap (fault false) ++ dsts.filterMap (fault true)
    some { s := s6, good := good, bad := bad }

/-- The fault of lowest index. -/
def lowBad : List (Nat × BitVec 7 × W64) → Option (Nat × BitVec 7 × W64)
  | [] => none
  | x :: r => match lowBad r with
    | none => some x
    | some y => some (if y.1 < x.1 then y else x)

/-- A copy-engine operation performs its elements and completes (R298, R303, R304). None while it must wait. -/
def State.finishCopy (s : State) (fold : Nat) (e : EngOp) : Option State :=
  match e.plan (BitVec.allOnes 1024) (s.holdsEngine e.gang) with
  | .error _ => none
  | .ok p =>
    match s.runPlan fold e p with
    | none => none
    | some m =>
      let bytes := m.good.foldl (fun a x => a + x.len) 0
      match lowBad m.bad with
      | none =>
        some (m.s.endEng fold e (fun l => if e.perLane then zx (lo32 (e.b.at l)) else zx (BitVec.ofNat 32 bytes)) none)
      | some (_, c, a) =>
        if e.perLane then
          let lanes : Lanes := m.bad.foldl (fun acc x => acc ||| BitVec.ofNat 1024 (2 ^ x.1)) 0
          let addrs := (List.range 1024).map (fun l => ((m.bad.find? (fun x => x.1 == l)).map (fun x => x.2.2)).getD 0)
          some (m.s.endEng fold e (fun l => zx (lo32 (e.b.at l))) (some (e.record c lanes addrs)))
        else some (m.s.endToken fold e c a)

/-- Whether an operation of CP or NX can start its elements (R302, R307). -/
def State.engCanStart (s : State) (fold : Nat) (e : EngOp) : Bool :=
  (e.unit == U.cp || e.unit == U.nx) && !e.started && !(s.fold fold).lockHeld e.uid && s.olderDone fold e

/-- R307. An engine operation starts its elements: no earlier operation in flight conflicts with it, and its team's
earlier accesses have been performed. -/
def execEngineOpStart (fold uid : Nat) (s : State) : Out3 :=
  match s.findEng fold uid with
  | some e => .next (if s.engCanStart fold e then s.modEng fold uid (fun e => { e with started := true }) else s)
  | none => .next s

/-- R304. A copy-engine operation that has started performs its elements and completes. -/
def execCopyComplete (fold uid : Nat) (s : State) : Out3 :=
  match s.findEng fold uid with
  | some e =>
    .next (if e.unit == U.cp && e.started then (s.finishCopy fold e).getD s else s)
  | none => .next s

/-! ## The rows of CP -/

/-- R298. Copies a one-dimensional shape. -/
def execCpCopy (m : MoveF) (s : State) : Out3 :=
  issueEngine (syllable true 18 3 0 m) startCopy needCopy s
/-- R298. Copies a two-dimensional shape. -/
def execCpCopy2d (m : MoveF) (s : State) : Out3 :=
  issueEngine (syllable true 18 3 1 m) startCopy needCopy s
/-- R298. Copies a three-dimensional shape. -/
def execCpCopy3d (m : MoveF) (s : State) : Out3 :=
  issueEngine (syllable true 18 3 2 m) startCopy needCopy s
/-- R297. Copies a shape to or from the L2 staging store. -/
def execCpStage (m : MoveF) (s : State) : Out3 :=
  issueEngine (syllable true 18 3 3 m) startCopy needCopy s
/-- R300. Gathers per-lane segments into the own window. -/
def execCpGather (m : MoveF) (s : State) : Out3 :=
  issueEngine (syllable true 18 3 4 m) startCopy needCopy s
/-- R300. Scatters per-lane window segments to generic addresses. -/
def execCpScatter (m : MoveF) (s : State) : Out3 :=
  issueEngine (syllable true 18 3 5 m) startCopy needCopy s
/-- R301. Fills a shape with a pattern. -/
def execCpFill (m : MoveF) (s : State) : Out3 :=
  issueEngine (syllable true 18 3 6 m) startCopy needCopy s
/-- R297. Copies a shape into the accumulator store. -/
def execCpAccin (m : MoveF) (s : State) : Out3 :=
  issueEngine (syllable true 18 3 7 m) startCopy needCopy s
/-- R297. Copies a shape out of the accumulator store. -/
def execCpAccout (m : MoveF) (s : State) : Out3 :=
  issueEngine (syllable true 18 3 8 m) startCopy needCopy s

end Sys2Proof.Machine
end

