-- ==== Sys2Proof/Machine/Sched.lean ====
section
/-! DEFINITION. What happens next: fetch (R46), the choice of the team
that issues (R184), the cycles in which nothing issues (R185), and the order of the machine's own events. -/

namespace Sys2Proof.Machine

/-- The unit of a code, for the name of an event. -/
def unitOf (u : Nat) : UnitId :=
  match u with
  | 1 => .ia | 2 => .ib | 3 => .sh | 4 => .im | 5 => .fa | 6 => .fb | 7 => .cv | 8 => .sf | 9 => .cm | 10 => .xl
  | 11 => .la | 12 => .lb | 13 => .st | 14 => .at | 15 => .br | 16 => .sy | 17 => .mx | 18 => .cp | 19 => .nx
  | 20 => .sv | 21 => .ua | _ => .rf

/-! ## Fetch (R46, R47) -/

/-- The fetched bytes of a bundle: lines fetched ahead give their bytes as they were filled (R46, R47). -/
def Ctx.overlay (c : Ctx) (pc : Nat) (bs : List Byte) : List Byte :=
  if c.lines.isEmpty then bs
  else bs.zipIdx.map (fun x =>
    let a := pc + x.2
    match Tbl.find c.lines (a / 64) with
    | some l => l.getD (a % 64) x.1
    | none => x.1)

/-- The bytes that the bundle at a context's PC spans: its header gives them, and a header on an unmapped page spans its
own two (R46). -/
def State.fetchSpan (s : State) (id : CtxId) (c : Ctx) : Nat :=
  let at_ (a : W64) : Option (List Byte) := (s.codePlace (dieOf id.fold) c.asid a).map (fun p => s.getAt p 1)
  match at_ c.pc, at_ (c.pc + 1) with
  | some a, some b =>
    let h := c.overlay c.pc.toNat (a ++ b)
    2 * headerLength (parcelOf (h.getD 0 0) (h.getD 1 0))
  | _, _ => 2

/-- The parcels of the bundle at a context's PC, or the fetch fault with its address (R46): any unmapped parcel before any
page without X. -/
def State.fetch (s : State) (id : CtxId) (c : Ctx) : Except (BitVec 7 × Nat) (List Byte) :=
  match s.fetchBytes (dieOf id.fold) c.asid (!c.shadow) c.pc.toNat (s.fetchSpan id c) with
  | .error e => .error e
  | .ok bs => .ok (c.overlay c.pc.toNat bs)

/-- The state after the walks of that fetch (R242). -/
def State.fetched (s : State) (id : CtxId) (c : Ctx) : State :=
  s.walkCode (dieOf id.fold) c.asid (!c.shadow) c.pc.toNat (s.fetchSpan id c)

/-- Whether the bundle at a context's PC is an idle bundle, inside whose count a result lands with no trap before it (R34,
R114). -/
def State.nextIdle (s : State) (id : CtxId) (c : Ctx) : Bool :=
  match s.fetch id c with
  | .ok (a :: b :: _) => bits (parcelOf a b).toNat 15 14 == 3
  | _ => false

/-- The trap of a fetch fault: FAULT_BUNDLE, FAULT_CYCLE and FAULT_LANES keep their values (R46, R367). -/
def fetchTrap (e : BitVec 7 × Nat) : DueTrap :=
  { DueTrap.of e.1 0 0 with bundle := none, addr := some (BitVec.ofNat 64 e.2) }

/-- A due trap that waits for the next bundle: a full store fault buffer gives way to a token that the bundle reads (R384),
and an FP trap is one with a trap of SF that the bundle meets (R114). -/
def Ctx.forBundle (c : Ctx) (d : DueTrap) : Bool :=
  d.code == 0x18 || (decide (0x12 ≤ d.code) && decide (d.code ≤ 0x16) && c.us.sfTrap.isSome)

/-- The state in which `cur` meets its next bundle: the sequencer has acted; the flag says that a trap was taken instead
(R450). -/
def State.approach (s : State) : State × Bool :=
  match s.ctx s.cur with
  | none => (s, true)
  | some c0 =>
    let c1 := c0.stepOver
    let c := if s.nextIdle s.cur c1 then c1 else c1.boundary
    let s1 := s.setCtx s.cur c
    if (s.acqOut s.cur c).isSome then (s.setCtx s.cur { c with wait := .port ((s.acqOut s.cur c).getD 0) }, true)
    else match c.nextDue with
    | some d =>
      if c.forBundle d then (s1, false)
      else ((s1.charge s.cur.fold (some s.cur.slot) c.pc 6).settle s.cur, true)
    | none =>
      let c1 := c.loopTurn
      (s.setCtx s.cur c1, false)

/-- A bundle that cannot be fetched (R46): C_SFBFULL comes before it, as any due trap does (R450). -/
def State.fetchFault (s : State) (e : BitVec 7 × Nat) : State :=
  match s.ctx s.cur with
  | none => s
  | some c =>
    if c.nextDue.isSome then (s.charge s.cur.fold (some s.cur.slot) c.pc 6).settle s.cur
    else if s.breaks s.cur c then s.trapInstead s.cur (DueTrap.of 0x0A c.pc (BitVec.ofNat 64 c.sched))
    else s.trapInstead s.cur (fetchTrap e)

/-- A recall header with a reserved bit set (R32, R44): C_MALFORMED at its issue. -/
def State.badHeader (s : State) : State :=
  match s.ctx s.cur with
  | none => s
  | some c =>
    if c.nextDue.isSome then (s.charge s.cur.fold (some s.cur.slot) c.pc 6).settle s.cur
    else if s.breaks s.cur c then s.trapInstead s.cur (DueTrap.of 0x0A c.pc (BitVec.ofNat 64 c.sched))
    else s.trapInstead s.cur (DueTrap.of 0x01 c.pc (BitVec.ofNat 64 c.sched))

/-! ## The choice of the next team (R184, R185) -/

/-- Whether a context comes before another in R184's ranking: class, then the longest since its last issue, then the
rotating pointer. -/
def rankBefore (rot : Nat) (a b : Nat × Ctx) : Bool :=
  let p (c : Ctx) : Nat := if c.shadow then 3 else c.prio
  let d (slot : Nat) : Nat := (slot + 33 - rot % 33) % 33
  if p a.2 ≠ p b.2 then decide (p b.2 < p a.2)
  else if a.2.lastIssue ≠ b.2.lastIssue then decide (a.2.lastIssue < b.2.lastIssue)
  else decide (d a.1 < d b.1)

/-- The first of a list of contexts in R184's ranking. -/
def firstRank (rot : Nat) : List (Nat × Ctx) → Option (Nat × Ctx)
  | [] => none
  | x :: r => match firstRank rot r with
    | none => some x
    | some y => some (if rankBefore rot y x then y else x)

/-- The clock of a fold and its engine in an island state, in ninths of the clock at Full (R442): 3.6, 3.2, 2.8, 2.4 and 1.6
GHz, and none when Off. -/
def foldClock (state : Nat) : Nat :=
  match state with
  | 0 => 9
  | 1 => 8
  | 2 => 7
  | 3 => 6
  | 7 => 0
  | _ => 4

/-- The island state of a fold (R442). -/
def State.foldState (s : State) (f : Nat) : Nat := Tbl.get (s.die (dieOf f)).islands (f % 96) 0

/-- Whether a fold has a cycle to spend before the package's clock advances (R385, R442). -/
def State.active (s : State) (f : Nat) : Bool := s.foldState f != 7 && decide (9 ≤ (s.fold f).phase)

/-- Whether a fold issues a team in its next cycle, having one to spend with no multi-pass bundle in progress (R184). -/
def State.open_ (s : State) (f : Nat) : Bool := s.active f && (s.fold f).pass.isNone

/-- Whether `cur` can issue now. -/
def State.mayIssue (s : State) : Bool := s.canIssue && s.open_ s.cur.fold

/-- The team a fold issues next, among those that are Ready (R184). -/
def State.pick (s : State) (f : Nat) : Option Nat :=
  (firstRank (s.fold f).rot ((s.onFold f).filter (fun x => x.2.ready))).map Prod.fst

/-- The STALL_FOLD index that R183 charges a waiting team to. -/
def Wait.index : Wait → Nat
  | .ready => 6
  | .port u => 32 + u
  | .flag => 4
  | .barrier _ => 2
  | .ring _ _ => 3
  | .grow _ => 5
  | .idle _ => 6
  | .yield _ => 6
  | .yieldc _ => 6
  | .xlPath => 6
  | .fetch => 7
  | .exiting => 32 + U.st

/-- One cycle of a fold that issues no bundle: a pass of the bundle in progress (R145), or a cycle in which nothing issues
(R185). -/
def State.stallCycle (s : State) (f : Nat) : State :=
  let cand := (s.onFold f).filter (fun x => !x.2.frozen && !x.2.stopped && !x.2.shadow)
  match (s.fold f).pass, firstRank (s.fold f).rot cand with
  | some p, _ => s.nextPass f p
  | none, none => s.charge f none 0 1
  | none, some (slot, c) => s.charge f (some slot) c.pc c.wait.index

/-- The folds that exist (R181), lowest first. -/
def State.foldList (s : State) : List Nat := s.folds.map Prod.fst

/-- The end of a round over the folds: each fold that has a cycle left and issues nothing takes it, the package's clock
advances by one cycle at Full, and each fold's clock by what its island's state gives (R385, R442). -/
def State.roundEnd (s : State) : State :=
  let s1 := (s.foldList.filter s.active).foldl State.stallCycle s
  let s2 := s1.foldList.foldl (fun s f => s.modFold f (fun x => { x with phase := x.phase + foldClock (s.foldState f) })) s1
  { s2 with pkg := { s2.pkg with clk := s2.pkg.clk + 1 } }

/-- The context that `cur` names next, and its fold's rotating pointer past it (R184). -/
def State.turnTo (s : State) (c : CtxId) : State :=
  { s.modFold c.fold (fun f => { f with rot := (c.slot + 1) % 33 }) with cur := c }

/-- The fold and team that issue after `cur`'s: the next fold in FOLD_ID order that has a cycle left and a Ready team; when
there is none, the round ends and the next begins. -/
def State.resched (s : State) : State :=
  let pickIn (s : State) (fs : List Nat) : Option CtxId :=
    (fs.filter s.open_).findSome? (fun f => (s.pick f).map (fun sl => { fold := f, slot := sl }))
  let order := s.foldList.filter (fun f => decide (s.cur.fold < f)) ++ s.foldList.filter (fun f => decide (f ≤ s.cur.fold))
  match pickIn s order with
  | some c => s.turnTo c
  | none =>
    let s1 := s.roundEnd
    match pickIn s1 s1.foldList with
    | some c => s1.turnTo c
    | none => s1

/-! ## Events that are due -/

/-- Whether a due trap is a deferred one (R361, R362): it is taken in a cycle in which the team reaches issue (R185). -/
def DueTrap.deferred (d : DueTrap) : Bool := d.code == 0x10 || (d.srcUnit == 0x1F && d.code != 0x18)

/-- The event that takes the trap that is due at a context's boundary (R450), a breakpoint there among them (R400). No trap is
taken between the passes of a bundle (R145), and a deferred one is taken where the team reaches issue (R185). -/
def State.dueNow (s : State) (id : CtxId) (c : Ctx) : Option (CtxId → Instr) :=
  match (s.atBoundary id c).nextDue with
  | none => none
  | some d0 =>
    if c.forBundle d0 || d0.deferred || s.inPasses id c then none
    else
      let d := ((s.atBoundary id (s.withBreak id c)).nextDue).getD d0
      if d.code = 0x3B then some Instr.teamFreeze
      else match (c.redirect d).1 with
        | .user => some Instr.trapRouteU
        | .shadow => some Instr.trapRouteS
        | .host => some Instr.trapRouteH

/-- The event that a context's own state makes due before any bundle. -/
def State.ctxEvent (s : State) (id : CtxId) (c : Ctx) : Option Instr :=
  let f := s.fold id.fold
  if c.us.xlBusy ≠ 0 ∧ c.us.xlBusy ≤ f.cycle then some (.xlBusyEnd id)
  else if c.frozen || c.stopped then none
  else match s.dueNow id c with
    | some e => some (e id)
    | none => match c.wait with
      | .idle 0 => some (.idleCountEnd id)
      | .idle _ => none
      | .yield k => if 16 ≤ k then some (.yieldEnd id) else none
      | .yieldc j => if c.us.flag j then some (.yieldcResume id) else none
      | .xlPath => if f.widePath ≤ f.cycle then some (.xlBusyEnd id) else none
      | _ => if c.wait.woken = .ready ∧ c.landsTrap = true ∧ s.inPasses id c = false ∧ s.nextIdle id c = false then
          (c.dueWithin 1).head?.map (fun p => if p.unit = U.cm then .cmPredicateLand id else .fixedResultLand id (unitOf p.unit))
        else none

/-- The snapshots of a fold whose tick has come: the fold latches in its first cycle from there (R388). -/
def State.snapDue (s : State) (f : Nat) : Bool := (s.fold f).snapReq.any (fun r => decide (r.2.1 + 16 ≤ s.pkg.clk / 36))

/-- The first event that is due: a snapshot's latch, then what some context's state makes due. -/
def State.dueEvent (s : State) : Option Instr :=
  match s.foldList.find? s.snapDue with
  | some f => some (.snapshotLatch f)
  | none => s.ctxs.findSome? (fun kv => s.ctxEvent (ctxOfKey kv.1) kv.2)

end Sys2Proof.Machine
end

