-- ==== Sys2Proof/Machine/Links.lean ====
section
/-! DEFINITION. The package's links (R410 to R419): flits and replay, the windowed error counts, the ladder, retraining,
link events and the link registers. -/

namespace Sys2Proof.Machine

/-! ## Ends and registers (R410, R416) -/

/-- The modules of a link (R410). -/
def linkModules (n : Nat) : Nat := if n < 4 then 4 else 2

def Link.width (l : Link) (m : Nat) : Nat := bits l.mw.toNat (2 * m + 1) (2 * m)
def Link.spare (l : Link) (m : Nat) : Nat := bits l.spares.toNat (3 * m + 2) (3 * m)
def Link.setWidth (l : Link) (m v : Nat) : Link :=
  { l with mw := BitVec.ofNat 8 (l.mw.toNat - l.width m * 4 ^ m + v * 4 ^ m) }
def Link.setSpare (l : Link) (m v : Nat) : Link :=
  { l with spares := BitVec.ofNat 12 (l.spares.toNat - l.spare m * 8 ^ m + v * 8 ^ m) }

/-- A link register 0x300 + n as it reads at an end (R416). -/
def State.linkReg (s : State) (e n : Nat) : W64 :=
  let l := s.link (e / 2)
  let x := s.linkEnd e
  match n with
  | 0 => BitVec.ofNat 64 (l.target.toNat * 256 + l.rate.toNat)
  | 1 => BitVec.ofNat 64 (b2n l.up * 256 + l.mw.toNat)
  | 2 => BitVec.ofNat 64 x.replay
  | 3 => BitVec.ofNat 64 x.crc
  | 4 => BitVec.ofNat 64 l.spares.toNat
  | 5 => x.win
  | 6 => BitVec.ofNat 64 x.degr
  | _ => 0

/-- A write of a link register's RW fields (R416). -/
def State.linkRegWrite (s : State) (e n : Nat) (v : W64) : State :=
  match n with
  | 2 => s.modEnd e (fun x => { x with replay := v.toNat % 2 ^ 48 })
  | 3 => s.modEnd e (fun x => { x with crc := v.toNat % 2 ^ 48 })
  | 5 => s.modEnd e (fun x => { x with win := v &&& 0xFFFFFF })
  | 6 => s.modEnd e (fun x => { x with degr := v.toNat % 2 ^ 48 })
  | _ => s

/-! ## Link events (R417, R418) -/

/-- The event word of a ladder step (R418). -/
def linkEvent (code : BitVec 7) (md lane kind e : Nat) (l : Link) : W64 :=
  eventWord code 0 0 true false
    ((e + l.rate.toNat * 2 ^ 4 + l.mw.toNat * 2 ^ 7 + kind * 2 ^ 15 + lane * 2 ^ 18 + md * 2 ^ 25) % 2 ^ 41)

/-- The link trap of a watching team: FAULT_ADDR bits 26:0 are event bits 49:23 (R418). A pending one takes the new
data. -/
def Ctx.linkTrap (c : Ctx) (addr : W64) : Ctx :=
  if c.due.any (fun d => d.code == 0x4B) then
    { c with due := c.due.map (fun d => if d.code == 0x4B then { d with addr := some addr } else d) }
  else
    c.addDue { DueTrap.async 0x4B with own := true, addr := some addr }

/-- Whether a team holds a watch on a link (R426). -/
def State.watching (s : State) (c : Ctx) (n : Nat) : Bool :=
  (List.range 4).any (fun d => (s.die d).watches.contains (c.tid, n))

/-- The watching teams, resident, evicted or saved, have a link trap (R418). -/
def State.trapWatchers (s : State) (n : Nat) (addr : W64) : State :=
  let one (c : Ctx) : Ctx := if s.watching c n then c.linkTrap addr else c
  let saved (t : SavedTeam) : SavedTeam := { t with ctx := one t.ctx }
  { s with
    ctxs := s.ctxs.map (fun kv => (kv.1, one kv.2))
    dies := s.dies.map (fun kv => (kv.1, { kv.2 with
      evicted := kv.2.evicted.map saved
      saved := kv.2.saved.map (fun g => { g with teams := g.teams.map saved }) })) }

/-- Post one cause of a ladder step to the shadow contexts of the dies at the link's ends and to the control node. -/
def State.postLink (s : State) (n : Nat) (w : W64) : State :=
  ((linkDies n).foldl (fun s d => s.pushEvent (96 * d) w) s).notice w none none 0

/-- C_MACHINECHECK of each die that has lost its last route to another (R417). -/
def State.lostRoutes (s old : State) : State :=
  let lost (a : Nat) : Bool := (List.range 6).any (fun b => (old.route a b).isSome && (s.route a b).isNone)
  (List.range 6).foldl (fun x a => if lost a then x.dieNotice 0x59 0 0 else x) s

/-- A link has gone down (R417): the traffic that it held takes the routes that are left, and what has come already waits for
nothing that is lost. -/
def State.linkGone (s old : State) (n : Nat) : State := (s.meshReroute n).meshSettle.lostRoutes old

/-! ## Retraining (R415) -/

/-- The operations that the end of a retrain completes: NX.R takes LK_RATE bits 31:0 (R426). -/
def State.wakeLink (s : State) (n : Nat) : State :=
  let l := s.link n
  let v := s.linkReg (2 * n) 0 &&& 0xFFFFFFFF
  l.waiters.foldl (fun s w => s.modCtx (ctxOfKey w.1) (fun c =>
    match c.findOp (fun o => o.uid == w.2 && o.unit == U.nx) with
    | some o => c.complete o v
    | none => c)) (s.setLink n { l with waiters := [] })

/-- A link retrains: a replay in progress ends, and senders hold their traffic (R415). One that retrains already does so once
more (R430). -/
def State.retrain (s : State) (n : Nat) : State :=
  let l := s.link n
  let s1 := s.setLink n { l with retraining := true, more := if l.retraining then l.more + 1 else 0 }
  (s1.modEnd (2 * n) (fun x => { x with discarding := false })).modEnd (2 * n + 1) (fun x => { x with discarding := false })

/-- R415. A link finishes retraining: each sender resends from its first unacknowledged flit. -/
def execLinkRetrainEnd (link : Nat) (s : State) : Out3 :=
  let l := s.link link
  if l.retraining ∧ l.more ≠ 0 then .next (s.setLink link { l with more := l.more - 1 })
  else if l.retraining then
    let s1 := s.setLink link { l with retraining := false }
    let back (x : LinkEnd) : LinkEnd := { x with sendNext := x.acked }
    .next (((s1.modEnd (2 * link) back).modEnd (2 * link + 1) back).wakeLink link)
  else .next s

/-! ## The ladder (R414) -/

/-- Every module in service halves, and one at x16 is retired. -/
def Link.halveAll (l : Link) (n : Nat) : Link :=
  (List.range n).foldl (fun l m => if l.width m = 0 then l else l.setWidth m (l.width m - 1)) l

/-- One step of the ladder (R414): the link after it, KIND and the module named. `lane` is none for a link error. -/
def Link.step (l : Link) (n : Nat) (lane : Option Nat) : Link × Nat × Nat :=
  let (l1, kind, md) : Link × Nat × Nat := match lane with
    | some k =>
      let m := k / 68
      if l.spare m ≠ 0 then (l.setSpare m (l.spare m - 1), 1, m)
      else if 1 < l.width m then (l.setWidth m (l.width m - 1), 2, m)
      else (l.setWidth m 0, 3, m)
    | none =>
      if l.rate ≠ 0 then ({ l with rate := l.rate - 1 }, 0, 0)
      else
        let gone := (List.range n).filter (fun m => l.width m == 1)
        let on := (List.range n).filter (fun m => l.width m != 0)
        match gone with
        | m :: _ => (l.halveAll n, 3, m)
        | [] => (l.halveAll n, 2, on.headD 0)
  if l1.mw = 0 then ({ l1 with up := false, retraining := false, more := 0 }, 4, 0) else (l1, kind, md)

/-- A lasting error found at end `e` (R414, R415, R417, R418). -/
def State.ladder (s : State) (e : Nat) (lane : Option Nat) : State :=
  let n := e / 2
  let (l1, kind, md) := (s.link n).step (linkModules n) lane
  let bump (x : LinkEnd) : LinkEnd := { x with degr := (x.degr + 1) % 2 ^ 48 }
  let s1 := ((s.setLink n l1).modEnd (2 * n) bump).modEnd (2 * n + 1) bump
  let s2 := if l1.up then s1.retrain n else (s1.linkGone s n).wakeLink n
  let ln := match lane with
    | some k => k % 68
    | none => 0x7F
  let w (code : BitVec 7) : W64 := linkEvent code md ln kind e l1
  let s3 := s2.postLink n (w 0x4B)
  let s4 := if kind = 3 then s3.postLink n (w 0x4C) else if kind = 4 then s3.postLink n (w 0x4D) else s3
  s4.trapWatchers n ((w 0x4B >>> 23) &&& 0x7FFFFFF)


/-- A windowed count (R414): its value, the THRESH of its window (R416), and the tick at which the window closes. -/
structure WindowCount where
  count : Nat
  thr : Nat
  shut : Nat

/-- One event of a windowed count at a tick (R414): the count after it, and whether the error is lasting. A window opens at
its first event, lasts WINUS µs (0 acts as 1), and keeps the LK_WIN of its opening (R416). -/
def WindowCount.event (x : WindowCount) (win now : Nat) : WindowCount × Bool :=
  let y : WindowCount :=
    if x.count = 0 ∨ x.shut ≤ now then { count := 0, thr := bits win 23 16, shut := now + max 1 (bits win 15 0) * 100 } else x
  if y.thr ≠ 0 ∧ y.thr ≤ y.count + 1 then ({ y with count := 0 }, true) else ({ y with count := y.count + 1 }, false)

/-- The windowed count of a lane, or of the link. -/
def LinkEnd.window (x : LinkEnd) : Option Nat → WindowCount
  | some k => { count := Tbl.get x.laneCounts k 0, thr := Tbl.get x.laneThr k 0, shut := Tbl.get x.laneShut k 0 }
  | none => { count := x.linkCount, thr := x.linkThr, shut := x.linkShut }

/-- A windowed count as it now stands; a lane whose count is 0 is not listed. -/
def LinkEnd.setWindow (x : LinkEnd) (lane : Option Nat) (w : WindowCount) : LinkEnd :=
  match lane with
  | some k =>
    if w.count = 0 then
      { x with laneCounts := Tbl.drop x.laneCounts k, laneThr := Tbl.drop x.laneThr k, laneShut := Tbl.drop x.laneShut k }
    else
      { x with laneCounts := Tbl.put x.laneCounts k w.count, laneThr := Tbl.put x.laneThr k w.thr,
               laneShut := Tbl.put x.laneShut k w.shut }
  | none => { x with linkCount := w.count, linkThr := w.thr, linkShut := w.shut }

/-- An error event at an end, against a lane or the link (R414). -/
def State.linkError (s : State) (e : Nat) (lane : Option Nat) : State :=
  let x := s.linkEnd e
  let w := (x.window lane).event x.win.toNat s.ticks
  let s1 := s.setEnd e (x.setWindow lane w.1)
  if w.2 then s1.ladder e lane else s1

/-- The lane that a flit's parity names, when its module is in service (R414): lane numbers run 68 to a module. -/
def Link.laneOf (l : Link) (n : Nat) (f : Flit) : Option Nat :=
  f.lane.filter (fun k => decide (k / 68 < linkModules n) && l.width (k / 68) != 0)

/-- The flit that a sender keeps under a sequence number: one sent before, or the next new one, which takes the oldest
message that waits, while fewer than 512 are unacknowledged (R413). None when the sender can send no such flit now. -/
def LinkEnd.flit (y : LinkEnd) (q : Nat) : Option (LinkEnd × Option MeshMsg) :=
  match y.unacked.find? (fun u => u.1 == q) with
  | some u => some ({ y with sendNext := (q + 1) % 1024 }, u.2)
  | none =>
    if q = (y.acked + y.unacked.length) % 1024 then
      (if y.unacked.length < 512 then
        some ({ y with sendNext := (q + 1) % 1024, unacked := y.unacked ++ [(q, y.queue.head?)], queue := y.queue.drop 1 },
          y.queue.head?)
      else none)
    else some ({ y with sendNext := (q + 1) % 1024 }, none)

/-- Every flit before number `q` is acknowledged (R413). -/
def LinkEnd.acknowledge (y : LinkEnd) (q : Nat) : LinkEnd :=
  { y with acked := q, unacked := y.unacked.filter (fun u => (u.1 + 1024 - q) % 1024 < 512) }

/-- The number of the flit that a sender sends next, if it has one to send (R413). -/
def LinkEnd.nextFlit (y : LinkEnd) : Option Nat :=
  if y.unacked.any (fun u => u.1 == y.sendNext) then some y.sendNext
  else if y.queue.isEmpty = false ∧ y.unacked.length < 512 then some ((y.acked + y.unacked.length) % 1024) else none

/-- R413, R432. A link end receives a flit: the one expected is delivered with its message, any other is discarded with one
NAK for a run of them, and errors are counted: a lane's at its flit, the link's at the NAK (R414, R438). A null flit carries
nothing and is never resent, so its error sends no NAK; nor does that of a flit that fails while the link retrains and
carries none (R415, R430). -/
def execFlitReceive (linkEnd : Nat) (f : Flit) (s : State) : Out3 :=
  let n := linkEnd / 2
  let l := s.link n
  if linkEnd ≥ 16 ∨ l.up = false then .next s
  else
    let x := s.linkEnd linkEnd
    if f.null ∨ l.retraining = true then
      if f.crcOk then .next s
      else .next ((s.setEnd linkEnd { x with crc := (x.crc + 1) % 2 ^ 48 }).linkError linkEnd (l.laneOf n f))
    else
    match (s.linkEnd (otherEnd linkEnd)).flit f.seq.toNat with
    | none => .next s
    | some (y, msg) =>
      let sent := s.setEnd (otherEnd linkEnd) y
      if f.crcOk ∧ f.seq = x.expect then
        let s1 := sent.setEnd linkEnd { x with expect := x.expect + 1, discarding := false }
        let s2 := s1.modEnd (otherEnd linkEnd) (fun y => y.acknowledge ((f.seq.toNat + 1) % 1024))
        .next (match msg with
          | some m => s2.meshArrive (endNode linkEnd) m
          | none => s2)
      else
        let lane := if f.crcOk then none else l.laneOf n f
        let x1 := { x with crc := if f.crcOk then x.crc else (x.crc + 1) % 2 ^ 48, discarding := true }
        let nak (s : State) : State :=
          if x.discarding then s.setEnd linkEnd x1
          else
            let s1 := s.setEnd linkEnd { x1 with nak := some lane.isNone }
            { s1 with agenda := s1.agenda ++ [Instr.nakReceive (otherEnd linkEnd) x.expect] }
        let s2 := nak sent
        .next (if lane.isSome then s2.linkError linkEnd lane else s2)

/-- The receiver of a link sends the NAK that it owes (R413): LK_REPLAY counts it, and one for an error of no one lane counts
an event against the link (R414). -/
def State.sendNak (s : State) (e : Nat) : State :=
  let x := s.linkEnd e
  match x.nak with
  | none => s
  | some link =>
    let s1 := s.setEnd e { x with nak := none, replay := (x.replay + 1) % 2 ^ 48 }
    if link then s1.linkError e none else s1

/-- R413. The receiver at a link's other end sends a NAK, and the sender goes back to the flit it names: every flit from there
is resent in order. A retrain supersedes that replay (R415). -/
def execNakReceive (linkEnd : Nat) (seq : BitVec 10) (s : State) : Out3 :=
  let l := s.link (linkEnd / 2)
  if linkEnd ≥ 16 ∨ l.up = false then .next s
  else
    let s1 := if l.retraining then s
      else s.modEnd linkEnd (fun x => { x.acknowledge seq.toNat with sendNext := seq.toNat })
    .next (s1.sendNak (otherEnd linkEnd))

/-- Whether a windowed count's time is over (R414). -/
def State.windowOver (s : State) (x : LinkEnd) (lane : Option Nat) : Bool :=
  (x.window lane).count != 0 && decide ((x.window lane).shut ≤ s.ticks)

/-- R414. A count's window closes, WINUS µs after it opened, and the count returns to 0. -/
def execErrorWindowClose (linkEnd : Nat) (lane : Option Nat) (s : State) : Out3 :=
  if linkEnd < 16 ∧ s.windowOver (s.linkEnd linkEnd) lane = true then
    .next (s.modEnd linkEnd (fun x => x.setWindow lane { count := 0, thr := 0, shut := 0 }))
  else .next s

/-- The ports of an I/O die (R420). -/
def State.ethPorts (s : State) (io : Nat) : Nat := 2 * 2 ^ Tbl.get s.pkg.ethSplit io 0

/-- R420. An Ethernet port loses its link and posts C_ETHLINK. Ports are numbered from 8 · die; a number beyond those of the
die's lane split names none. -/
def execEthLinkDown (port : Nat) (s : State) : Out3 :=
  if port < 16 ∧ port % 8 < s.ethPorts (port / 8) then .next (s.dieNotice 0x54 port 0) else .next s

/-- The class of what leaves over the Lumen port, the first served lowest (R429): management, then trace. User-queue traffic and
host-resident memory cross in the step that makes the access (log entry 57). The Ethernet lanes carry packets. -/
def Out.lumenClass : Out → Option Nat
  | .packet _ => none
  | .trace _ => some 3
  | _ => some 0

/-- The Lumen port sends the oldest of what waits in its first class (R429). -/
def State.lumenServe (s : State) : State :=
  let of_ (k : Nat) : Option Out := s.pkg.out.find? (fun o => o.lumenClass == some k)
  match (of_ 0).or (of_ 3) with
  | none => s
  | some o => { s with pkg := { s.pkg with out := s.pkg.out.erase o, sent := s.pkg.sent ++ [o] } }

/-- R396, R429. The Lumen port goes down, its retries cross the threshold and post C_LUMENDEGRADED, its trace channel
becomes busy or free, or it sends what comes first. -/
def execLumenPortDown (e : LumenEvent) (s : State) : Out3 :=
  .next (match e with
    | .down => { s with pkg := { s.pkg with lumenUp := false } }
    | .degraded => s.dieNotice 0x57 0 0
    | .traceBusy b => { s with pkg := { s.pkg with traceBusy := b } }
    | .serve => if s.pkg.lumenUp then s.lumenServe else s)

end Sys2Proof.Machine
end

