-- ==== Sys2Proof/Machine/Transport.lean ====
section
/-! DEFINITION. NX and the fabric transport engine (R421 to R427): put, get, send and atom with their packets,
congestion state, landing counters, receive rings, and the immediate NX operations. -/

namespace Sys2Proof.Machine

/-! ## Operands and checks (R425) -/

def EngOp.isPut (e : EngOp) : Bool := e.opcode == 0
def EngOp.isGet (e : EngOp) : Bool := e.opcode == 1
def EngOp.isNxAtom (e : EngOp) : Bool := e.opcode == 2
def EngOp.isSend (e : EngOp) : Bool := e.opcode == 3

/-- local and remote of R425, and the other descriptor fields. -/
def EngOp.nxLocal (e : EngOp) : W64 := e.pair 0 + e.a0
def EngOp.nxRemote (e : EngOp) : W64 := e.pair 2 + sx e.t0
def EngOp.nxOp (e : EngOp) : Nat := bits (e.word 4).toNat 3 0
def EngOp.nxConn (e : EngOp) : Nat := bits (e.word 5).toNat 11 0
def EngOp.nxKey (e : EngOp) : BitVec 16 := (e.word 6).truncate 16

/-- The bytes of the local range (R425): LEN, or the size of an atom. -/
def EngOp.nxLen (e : EngOp) : Nat :=
  if e.isNxAtom then (if (e.word 4).getLsbD 4 then 8 else 4) else (e.word 4).toNat

/-- The cause of the token that put, get, send or atom completes with before it starts (R425). -/
def EngOp.nxFault (e : EngOp) (live : Lanes) (conn : Option ConnEnt) : Option (BitVec 7) :=
  let w4 := (e.word 4).toNat
  let op := e.nxOp
  let len := e.nxLen
  let tagBad (a : W64) : Bool := decide (2 < tagOf a)
  let bad := live &&& 0xFFF != 0xFFF || tagBad (e.pair 0) || tagBad e.nxLocal ||
    (if e.isNxAtom then bits w4 31 5 != 0 || op == 12 || decide (13 ≤ op) || (len == 8 && op == 11)
      else w4 == 0 || decide (2 ^ 26 < w4)) ||
    bits (e.word 5).toNat 31 12 != 0 || bits (e.word 6).toNat 31 16 != 0 || e.word 11 != 0 ||
    (match conn with
    | none => true
    | some c => c.mode == 2 && (e.isNxAtom || e.isSend || e.nxKey != 0xFFFF))
  if bad then some 0x4E
  else if e.isNxAtom && (e.nxLocal.toNat % len != 0 || e.nxRemote.toNat % len != 0) then some 0x26
  else none

/-- The range-lock entry of the local range (R425). -/
def State.nxLocks (s : State) (fold : Nat) (e : EngOp) : List Lock :=
  s.sideLocks fold e .generic (e.isGet || e.isNxAtom) [(e.nxLocal, e.nxLen)]

/-- put, get, atom and send (R425): the operation joins the engine with its entry, or completes with a token at once. -/
def startNx : Start := fun s id t =>
  match s.ctx id with
  | none => s
  | some c =>
    let e := s.newEng id c t
    match e.nxFault c.live (s.connEnt e.nxConn) with
    | some k => (s.pushEng id.fold e []).endToken id.fold e k e.nxLocal
    | none => s.pushEng id.fold e (s.nxLocks id.fold e)

/-- The entries an NX trigger needs (R305, R425). -/
def needNx (s : State) (id : CtxId) (t : Trig) : Option Nat :=
  match s.ctx id with
  | none => some 0
  | some c =>
    let e := s.newEng id c t
    match e.nxFault c.live (s.connEnt e.nxConn) with
    | some _ => some 0
    | none => some (s.nxLocks id.fold e).length

/-! ## Connections at run time (R423) -/

/-- Connections whose entries are no longer valid are disabled: their run-time values are gone (R421, R423). -/
def State.dropConns (s : State) : State :=
  { s with pkg := { s.pkg with conns := s.pkg.conns.filter (fun kv => (s.connEnt kv.1).isSome) } }

/-- The estimates and the window of R423 after an acknowledgement of `n` bytes. The window is updated once for each RTT of
acknowledged data: when what was in flight at the update before is acknowledged (DESIGN CHOICE: log entry 32). -/
def Conn.ack (x : Conn) (minW n sample : Nat) (marked : Bool) : Conn :=
  let y := { x with rtt := x.rtt.towards sample 3, f := x.f.towards (b2n marked) 4, marked := x.marked || marked,
                    round := x.round - n }
  if y.round = 0 then
    { y with marked := false, w := if y.marked then y.w.shrink y.f minW else y.w.plus 4096, round := x.inFlight - n }
  else y

/-- The place among the packets in flight of a message: of this device, or of an answer to another's. -/
def flightTag (own : Bool) (msg : Nat) : Nat := 2 * msg + b2n own

/-- Nothing of a message is in flight any more. -/
def Conn.land (x : Conn) (tag : Nat) : Conn := { x with flying := x.flying.filter (fun y => y.1 != tag) }

/-! ## Operations in flight -/

/-- Whether an operation is a transport operation on connection `i`. -/
def EngOp.onConn (e : EngOp) (i : Nat) : Bool := e.unit == U.nx && e.nxConn == i

/-- Whether nothing of an operation remains to be sent. -/
def EngOp.sentAll (e : EngOp) : Bool :=
  e.token == some 0x52 ||
    (e.redo == 0 && (e.nxRefused || (if e.isPut || e.isSend then decide (e.nxLen ≤ e.progress) else e.progress != 0)))

/-- Every transport operation of the package in flight, with its fold. -/
def State.nxOps (s : State) : List (Nat × EngOp) :=
  s.folds.flatMap (fun kv => (kv.2.eng.filter (fun e => e.unit == U.nx)).map (fun e => (kv.1, e)))

/-- Whether an operation was issued before another (R422: operations of one ROD connection keep their order). -/
def nxBefore (a b : Nat × EngOp) : Bool :=
  if a.2.born ≠ b.2.born then decide (a.2.born < b.2.born)
  else if a.1 ≠ b.1 then decide (a.1 < b.1) else decide (a.2.uid < b.2.uid)

/-- A token for one byte of the local range: the fault of lowest index stands (R303). -/
def EngOp.localFault (e : EngOp) (i : Nat) (k : BitVec 7) : EngOp :=
  if e.token.isNone || decide (i < e.tokIdx) then
    { e with token := some k, tokIdx := i, tokenAddr := e.nxLocal + BitVec.ofNat 64 i }
  else e

/-- The local bytes from index `i`, up to `n`, that can be accessed before the first that cannot: their places and
translations, and what stopped them. -/
def State.nxRun (s : State) (fold : Nat) (e : EngOp) (wr : Bool) (i : Nat) :
    Nat → State × List Place × List Trans × Option Piece
  | 0 => (s, [], [], none)
  | n + 1 =>
    match s.engBytes fold e .generic wr (e.nxLocal + BitVec.ofNat 64 i) 1 with
    | (s1, .bytes ps ts) =>
      let (s2, qs, us, x) := State.nxRun s1 fold e wr (i + 1) n
      (s2, ps ++ qs, ts ++ us, x)
    | (s1, p) => (s1, [], [], some p)

/-- The element that a run of local bytes forms, for accounting and watchpoints. -/
def EngOp.runElem (e : EngOp) (i : Nat) (ps : List Place) (ts : List Trans) : Found :=
  let a := e.nxLocal + BitVec.ofNat 64 i
  if ps.isEmpty then [] else [({ idx := i, src := a, dst := a, len := ps.length }, .bytes ps ts)]

/-- What a run of local bytes does besides moving its values: the counts of its lines (R247), their homes' service (R302),
the log (R233) and the watchpoints' reports (R366). -/
def State.nxAccount (s : State) (fold : Nat) (e : EngOp) (wr : Bool) (f : Found) : State :=
  let bs := sideBytes wr f
  let s1 := (s.countSides fold e bs).serveSide fold e wr bs
  (if wr then s1.logSide fold f else s1).engReport fold e wr f

/-! ## Sending (R422, R423) -/

/-- A packet between a die and its I/O die crosses the mesh as the bulk data of an engine operation (R411, R412). -/
def State.nxMesh (s : State) (fold : Nat) (out : Bool) : State :=
  match s.nxIo (dieOf fold) with
  | none => s
  | some io => if out then s.meshSend (dieOf fold) io 3 fold 5 else s.meshSend io (dieOf fold) 3 fold 5

/-- A packet of an operation (R422), before it takes its entropy value and its number. -/
def EngOp.packet (e : EngOp) (fold : Nat) (dev : BitVec 14) (c : ConnEnt) (kind : NxKind) (payload : List Byte) :
    NxPacket :=
  { conn := c.dconn, sconn := e.nxConn, src := dev, peer := c.peer, tc := c.tc, entropy := 0, seq := 0,
    msg := 512 * e.uid + fold, kind := kind, raddr := e.nxRemote, offset := e.progress,
    total := e.nxLen, payload := payload, key := e.nxKey }

/-- Whether a packet of an operation may be sent now (R302, R422, R423). -/
def State.nxMaySend (s : State) (fold : Nat) (e : EngOp) (c : ConnEnt) : Bool :=
  e.started && !e.sentAll && (s.conn e.nxConn c).w.above (s.conn e.nxConn c).inFlight &&
    (c.mode != 1 || !s.nxOps.any (fun x => x.2.onConn e.nxConn && nxBefore x (fold, e) && !x.2.sentAll))

/-- A packet of an operation is sent, for the first time or again: it takes its entropy value and joins those in flight. -/
def State.launch (s : State) (fold : Nat) (e : EngOp) (c : ConnEnt) (p : NxPacket) (again : Bool) : State :=
  let x := s.conn e.nxConn c
  let (y, v) := x.spray c.mode s.nanos
  let q := { p with entropy := v, seq := if again then p.seq else x.sendSeq }
  let z := { y with sendSeq := if again then x.sendSeq else x.sendSeq + 1,
                    flying := if p.payload.isEmpty then y.flying
                      else y.flying ++ [(flightTag true p.msg, p.payload.length, v.toNat)] }
  let keep (e : EngOp) : EngOp :=
    if again then { e with redo := e.redo - 1, sent := e.sent.set (e.sent.length - e.redo) q }
    else { e with sent := e.sent ++ [q] }
  (((s.setConn e.nxConn z).modEng fold e.uid keep).nxMesh fold true).emitPacket c.dev q

/-- The next packet of a put or a send: bytes that fault locally are not sent (R303). -/
def State.sendData (s : State) (fold : Nat) (e : EngOp) (c : ConnEnt) : State :=
  let n := min 4096 (e.nxLen - e.progress)
  let (s1, ps, ts, stop) := s.nxRun fold e false e.progress n
  match ps, stop with
  | [], some (.fault k) =>
    s1.modEng fold e.uid (fun e =>
      { e.localFault e.progress k with progress := e.progress + 1, acked := e.acked + 1 })
  | [], _ => s1
  | _, _ =>
    let s2 := s1.nxAccount fold e false (e.runElem e.progress ps ts)
    let p := e.packet fold s2.pkg.devId c (if e.isPut then .write else .send) (s2.readPlaces ps)
    (s2.modEng fold e.uid (fun e => { e with progress := e.progress + ps.length })).launch fold e c p false

/-- R423. The transport engine sends the next packet of an operation that has started, while its connection's bytes in
flight are below the window: one that waits to be sent again before any new one. An operation whose die reaches no I/O die
ends with C_PEERDOWN (R417). -/
def execNxPacketSend (fold uid : Nat) (s : State) : Out3 :=
  match s.findEng fold uid with
  | none => .next s
  | some e =>
    if e.unit = U.nx ∧ e.started = true ∧ e.sentAll = false then
      match s.connEnt e.nxConn with
      | none => .next (s.modEng fold uid (fun e => { e with nxRefused := true, redo := 0, sent := [] }))
      | some c =>
        if (s.nxIo (dieOf fold)).isNone then .next (s.endToken fold e 0x53 e.nxLocal)
        else if !s.nxMaySend fold e c then .next s
        else match e.sent[e.sent.length - e.redo]? with
          | some p => .next (s.launch fold e c p true)
          | none =>
            if e.isPut || e.isSend then .next (s.sendData fold e c)
            else
              let kind : NxKind :=
                if e.isGet then .read else .atomic (BitVec.ofNat 4 e.nxOp) ((e.word 4).getLsbD 4) (e.pair 7) (e.pair 9)
              .next ((s.modEng fold uid (fun e => { e with progress := 1 })).launch fold e c
                (e.packet fold s.pkg.devId c kind []) false)
    else .next s

/-! ## Acknowledgements and timeouts (R423) -/

/-- The packets in flight that `n` acknowledged bytes cover, oldest first, of those with an entropy value that satisfies
`p`: the bytes left over, what is acknowledged, and what stays in flight. -/
def takeAck (p : Nat → Bool) : Nat → List (Nat × Nat × Nat) → Nat × List (Nat × Nat × Nat) × List (Nat × Nat × Nat)
  | n, [] => (n, [], [])
  | n, x :: r =>
    if p x.2.2 && decide (x.2.1 ≤ n) then
      let (m, c, l) := takeAck p (n - x.2.1) r
      (m, x :: c, l)
    else
      let (m, c, l) := takeAck p n r
      (m, c, x :: l)

/-- An acknowledged packet of this device's: its operation progresses and keeps it no longer. -/
def State.creditAck (s : State) (x : Nat × Nat × Nat) : State :=
  if x.1 % 2 = 0 then s
  else
    let msg := x.1 / 2
    s.modEng (msg % 512) (msg / 512) (fun e =>
      if e.unit = U.nx then
        { e with acked := e.acked + x.2.1,
                 sent := eraseOne (fun q => q.payload.length == x.2.1 && q.entropy.toNat == x.2.2) e.sent }
      else e)

/-- Answers that wait are sent while the window lets them (R423). -/
def State.sendAnswers (s : State) (i : Nat) (c : ConnEnt) : List NxPacket → State
  | [] => s.setConn i { s.conn i c with answers := [] }
  | p :: r =>
    let x := s.conn i c
    if x.w.above x.inFlight then
      let (y, v) := x.spray c.mode s.nanos
      let z := { y with flying := y.flying ++ [(flightTag false p.msg, p.payload.length, v.toNat)] }
      State.sendAnswers ((s.setConn i z).emitPacket c.dev { p with entropy := v }) i c r
    else s.setConn i { x with answers := p :: r }

/-- R423. An acknowledgement of bytes on a connection: the estimates move, and what it covers progresses: packets with the
entropy value it names first, then any, oldest first. A marked value is skipped for one RTT (R422). -/
def execNxAckReceive (conn : Nat) (acked : AckedBytes) (sampleNs : Nat) (marked _rttEnd : Bool) (s : State) : Out3 :=
  match s.connEnt conn with
  | none => .next s
  | some c =>
    let x := (s.conn conn c).ack c.minW acked.bytes sampleNs marked
    let (n, done, left) := takeAck (fun v => v == acked.entropy.toNat) acked.bytes x.flying
    let (_, more, left) := takeAck (fun _ => true) n left
    let y := if marked && c.mode != 1 then x.avoid acked.entropy.toNat s.nanos else x
    let s1 := (done ++ more).foldl State.creditAck (s.setConn conn { y with flying := left })
    .next (s1.sendAnswers conn c y.answers)

/-- R423. A retransmission timeout: W := MINW, and what is not acknowledged is sent again (R422), or the operation ends with
a token that records C_NXTIMEOUT. The entropy values of what was lost are skipped for one RTT. -/
def execNxRetransmitTimeout (fold uid : Nat) (exhausted : Bool) (s : State) : Out3 :=
  match s.findEng fold uid with
  | none => .next s
  | some e =>
    if e.unit = U.nx ∧ e.started = true then
      let s1 := match s.connEnt e.nxConn with
        | none => s
        | some c =>
          let x := (s.conn e.nxConn c).land (flightTag true (512 * e.uid + fold))
          let y := if c.mode = 1 then x else e.sent.foldl (fun x (p : NxPacket) => x.avoid p.entropy.toNat s.nanos) x
          s.setConn e.nxConn { y with w := ⟨c.minW, 0⟩ }
      .next (if exhausted then s1.endToken fold e 0x52 e.nxLocal
        else s1.modEng fold uid (fun e => { e with redo := e.sent.length }))
    else .next s

/-! ## Landing counters (R424) -/

/-- Whether the landing counter of a key is bound (R424). -/
def State.landingOf (s : State) (die : Nat) (key : BitVec 16) : Option (Nat × Landing) :=
  let i := bits key.toNat 7 0
  match Tbl.find (s.die die).landing i with
  | some l => if l.bound = true ∧ l.key die i = key then some (i, l) else none
  | none => none

/-- C_LANDOVER (R424): the count stands at the target or above while the counter's arrival is pending, once for a
generation. -/
def State.landOver (s : State) (die i : Nat) (key : BitVec 16) : State :=
  match Tbl.find (s.die die).landing i with
  | none => s
  | some l => match s.gang l.gang with
    | none => s
    | some g =>
      let gen := (g.barrier l.barrier).gen
      if l.target ≤ l.count ∧ l.arrivedAt = some gen ∧ l.overAt ≠ some gen then
        let s1 := s.modDie die (fun d => { d with landing := Tbl.put d.landing i { l with overAt := some gen } })
        s1.pushEvent (s1.firstFold die) (eventWord 0x51 0 0 true false key.toNat)
      else s

/-- R424. Bytes placed and performed at system scope are added to a landing counter, which arrives at its barrier when it
reaches its target, once for each generation; a further TARGET posts C_LANDOVER. -/
def execLandingCount (die : Nat) (key : BitVec 16) (n : Nat) (s : State) : Out3 :=
  match s.landingOf die key with
  | none => .next s
  | some (i, l) =>
    let l1 := { l with count := l.count + n }
    let put (l : Landing) : State := s.modDie die (fun d => { d with landing := Tbl.put d.landing i l })
    match s.gang l.gang with
    | none => .next (put l1)
    | some g =>
      let gen := (g.barrier l.barrier).gen
      if l1.target ≤ l1.count ∧ l1.arrivedAt ≠ some gen then
        .next (((put { l1 with count := l1.count - l1.target, arrivedAt := some gen }).barArrive l.gang l.barrier).landOver
          die i key)
      else .next ((put l1).landOver die i key)

/-- Bytes that a key counts: the count is its own event. -/
def State.countLanding (s : State) (key : BitVec 16) (n : Nat) : State :=
  if key = 0xFFFF ∨ n = 0 then s
  else { s with agenda := s.agenda ++ [Instr.landingCount (bits key.toNat 9 8) key n] }

/-! ## Arrival at the target (R422, R425, R427) -/

/-- One byte at the target (R422): translated under the entry's ASID, checked against the region table of the die that
homes it as an access of no flock. None is a refusal; a page whose writes are held gives no answer. -/
def State.targetByte (s : State) (asid : Nat) (k : AccKind) (a : Nat) : Except Bool Trans :=
  match s.translate (asid / 64) asid (BitVec.ofNat 64 a) k true with
  | .error _ => .error true
  | .ok t =>
    let die := match t.place with
      | .pkg p => homeDie p
      | _ => asid / 64
    if s.regionFails die a none k.isWrite then .error true
    else if t.pte.getLsbD 63 && k.isWrite then .error false
    else .ok t

/-- The bytes of a packet at the target, or a refusal (`true`) or a wait (`false`). -/
def State.targetBytes (s : State) (asid : Nat) (k : AccKind) (a : Nat) : Nat → Except Bool (List Trans)
  | 0 => .ok []
  | n + 1 =>
    match s.targetByte asid k a, State.targetBytes s asid k (a + 1) n with
    | .error true, _ => .error true
    | _, .error true => .error true
    | .error e, _ => .error e
    | _, .error e => .error e
    | .ok t, .ok r => .ok (t :: r)

/-- A `.uc` store of one byte at its home (R422): no fold keeps a copy of it. -/
def State.placeByte (s : State) (t : Trans) (b : Byte) : State := (s.applyAD t).putAt t.place [b]

/-- Payload placed at an address of the entry's space. -/
def State.placeBytes (s : State) (ts : List Trans) (bs : List Byte) : State :=
  (ts.zip bs).foldl (fun s x => s.placeByte x.1 x.2) s

/-- A packet back to the device that sent `p`, over the connection that the entry names (R421). -/
def State.replyTo (s : State) (c : ConnEnt) (p : NxPacket) (kind : NxKind) (payload : List Byte) : NxPacket :=
  { p with conn := c.dconn, sconn := p.conn, src := s.pkg.devId, peer := c.peer, tc := c.tc, kind := kind, payload := payload }

/-- The sender learns that a packet is refused (R421, R422): over the entry's connection, or, when that is invalid, at the
connection that the packet came from. -/
def State.refuse (s : State) (p : NxPacket) : State :=
  let kind : NxKind := .refusal (p.msg % 512) (p.msg / 512)
  match s.connEnt p.conn with
  | some c =>
    let (y, v) := (s.conn p.conn c).spray c.mode s.nanos
    (s.setConn p.conn y).emitPacket c.dev { s.replyTo c p kind [] with entropy := v }
  | none =>
    s.emitPacket p.src.toNat { p with conn := p.sconn, sconn := p.conn, src := s.pkg.devId,
                                      peer := Config.fabricOf p.src.toNat, kind := kind, payload := [] }

/-- The acknowledgement of a packet from the own device; its round trip and its mark are not the spec's to fix. -/
def State.ackOwn (s : State) (p : NxPacket) : State :=
  if p.src = s.pkg.devId then
    let v := (Config.freeValue s.free).toNat
    { s with free := s.free + 1,
             agenda := s.agenda ++ [.nxAckReceive p.sconn ⟨p.payload.length, p.entropy⟩ (bits v 31 0) (bit v 32) (bit v 33)] }
  else s

/-- Whether a packet's bytes have been counted already; RUDI keeps no state (R422). -/
def Conn.dup (x : Conn) (mode : Nat) (p : NxPacket) : Bool := mode != 2 && x.seen.contains (p.msg, p.offset)

/-- The connection remembers a packet that has been placed (R422); a ROD connection expects the next one. -/
def Conn.note (x : Conn) (mode : Nat) (p : NxPacket) : Conn :=
  let y := if mode = 1 ∧ p.seq = x.expect then { x with expect := x.expect + 1 } else x
  if mode = 2 ∨ x.seen.contains (p.msg, p.offset) then y else { y with seen := y.seen ++ [(p.msg, p.offset)] }

/-- A packet that is refused has had its turn on a ROD connection. -/
def State.refuseAt (s : State) (c : ConnEnt) (p : NxPacket) : State :=
  let x := s.conn p.conn c
  (s.setConn p.conn (if c.mode = 1 ∧ p.seq = x.expect then { x with expect := x.expect + 1 } else x)).refuse p

/-- A write packet (R422). -/
def State.arriveWrite (s : State) (c : ConnEnt) (p : NxPacket) : State :=
  if !c.allowW then s.refuseAt c p
  else match s.targetBytes c.asid .store (p.raddr.toNat + p.offset) p.payload.length with
    | .error true => s.refuseAt c p
    | .error false => s
    | .ok ts =>
      let x := s.conn p.conn c
      let s1 := (s.placeBytes ts p.payload).setConn p.conn (x.note c.mode p)
      (if x.dup c.mode p then s1 else s1.countLanding p.key p.payload.length).ackOwn p

/-- Bytes that answer a get or an atomic, in packets of at most 4,096 (R422), which the window lets out (R423). The answers
to an earlier copy of the request are no longer in flight. -/
def State.answerPackets (s : State) (c : ConnEnt) (p : NxPacket) (bs : List Byte) : State :=
  let x := (s.conn p.conn c).land (flightTag false p.msg)
  let new := (List.range ((bs.length + 4095) / 4096)).map (fun i =>
    { s.replyTo c p (.answer (p.msg % 512) (p.msg / 512)) ((bs.drop (4096 * i)).take 4096) with offset := 4096 * i })
  let old := x.answers.filter (fun q => q.msg != p.msg)
  (s.setConn p.conn x).sendAnswers p.conn c (old ++ new)

/-- A read served here (R422, R425). A repeated one is not performed again, after what followed it: it is answered with the
bytes that the connection keeps. -/
def State.arriveRead (s : State) (c : ConnEnt) (p : NxPacket) : State :=
  let k := s.conn p.conn c
  match (if k.dup c.mode p then Tbl.find k.rx p.msg else none) with
  | some old => s.answerPackets c p (bytesOf old.2 old.1)
  | none =>
    if !c.allowR then s.refuseAt c p
    else match s.targetBytes c.asid .load p.raddr.toNat p.total with
      | .error _ => s.refuseAt c p
      | .ok ts =>
        let s1 := ts.foldl (fun s t => s.applyAD t) s
        let bs := s1.readPlaces (ts.map Trans.place)
        let y := (s1.conn p.conn c).note c.mode p
        (s1.setConn p.conn (if c.mode = 2 then y else { y with rx := Tbl.put y.rx p.msg (natOf bs, bs.length) })).answerPackets c p bs

/-- An atomic performed here at the home (R136, R425). A repeated one is not performed again: it is answered with the old
value that the connection keeps. -/
def State.arriveAtomic (s : State) (c : ConnEnt) (p : NxPacket) (op : BitVec 4) (size : Bool) (x cmp : W64) : State :=
  let n := if size then 8 else 4
  let k := s.conn p.conn c
  match (if k.dup c.mode p then Tbl.find k.rx p.msg else none) with
  | some old => s.answerPackets c p (bytesOf n old.1)
  | none =>
    if !c.allowA then s.refuseAt c p
    else match s.targetBytes c.asid .atomic p.raddr.toNat n with
      | .error true => s.refuseAt c p
      | .error false => s
      | .ok ts =>
        let old := natOf (s.readPlaces (ts.map Trans.place))
        let new := atomNew op.toNat (8 * n) old (x.toNat % 2 ^ (8 * n)) (cmp.toNat % 2 ^ (8 * n))
        let y := k.note c.mode p
        ((s.placeBytes ts (bytesOf n new)).setConn p.conn { y with rx := Tbl.put y.rx p.msg (old, n) }).answerPackets c p
          (bytesOf n old)

/-- A send packet (R427): its message takes a buffer, the payload is placed, and the last byte writes the record. -/
def State.arriveSend (s : State) (c : ConnEnt) (p : NxPacket) : State :=
  let x := s.conn p.conn c
  let n := 2 ^ c.rxLog2
  let recs := c.rxRing + n * 2 ^ c.bufLog2
  if !c.allowW || !(1 ≤ c.rxLog2 && c.rxLog2 ≤ 12 && 12 ≤ c.bufLog2 && c.bufLog2 ≤ 16) ||
      decide (2 ^ c.bufLog2 < p.total) then s.refuseAt c p
  else match s.targetBytes c.asid .load (recs + 16 * n) 8 with
    | .error _ => s.refuseAt c p
    | .ok rs =>
      let ridx := natOf (s.readPlaces (rs.map Trans.place))
      let mine := Tbl.find x.rx p.msg
      if mine.isNone && decide (n ≤ (x.rxTaken + 2 ^ 64 - ridx) % 2 ^ 64) then s
      else
        let (i, had) := mine.getD (x.rxTaken, 0)
        match s.targetBytes c.asid .store (c.rxRing + i % n * 2 ^ c.bufLog2 + p.offset) p.payload.length,
            s.targetBytes c.asid .store (recs + 16 * (i % n)) 16 with
        | .ok ts, .ok us =>
          let got := had + (if x.dup c.mode p then 0 else p.payload.length)
          let y := { x.note c.mode p with rxTaken := if mine.isNone then x.rxTaken + 1 else x.rxTaken
                                          rx := Tbl.put x.rx p.msg (i, got) }
          let s1 := (s.placeBytes ts p.payload).setConn p.conn y
          let rec_ := bytesOf 4 p.total ++ bytesOf 2 p.src.toNat ++ bytesOf 2 c.dconn ++ bytesOf 8 i
          let s2 := if had < p.total ∧ p.total ≤ got then s1.placeBytes us rec_ else s1
          (if x.dup c.mode p then s2 else s2.countLanding p.key p.payload.length).ackOwn p
        | .error true, _ => s.refuseAt c p
        | _, .error true => s.refuseAt c p
        | _, _ => s

/-- Bytes of an answer at the issuing device (R303, R424): each byte that can be written is; the others give a token. -/
def State.landRun (s : State) (fold uid : Nat) : Nat → Nat → List Byte → State × Nat
  | 0, _, _ => (s, 0)
  | fuel + 1, i, bs =>
    match s.findEng fold uid, bs with
    | some e, _ :: _ =>
      let (s1, ps, ts, stop) := s.nxRun fold e true i bs.length
      let n := ps.length
      let s2 := (s1.writePlaces ps (bs.take n)).nxAccount fold e true (e.runElem i ps ts)
      (match stop with
      | some (.fault k) =>
        let s3 := s2.modEng fold uid (fun e => e.localFault (i + n) k)
        let (s4, m) := State.landRun s3 fold uid fuel (i + n + 1) (bs.drop (n + 1))
        (s4, n + m)
      | _ => (s2, n))
    | _, _ => (s, 0)

/-- Whether an answer is ahead of its turn on a ROD connection (R422): bytes before it, or those of an operation issued
before, have not landed. -/
def State.answerEarly (s : State) (fold : Nat) (e : EngOp) (offset : Nat) : Bool :=
  decide (e.acked < offset) || s.nxOps.any (fun x => x.2.onConn e.nxConn && nxBefore x (fold, e) &&
    (x.2.isGet || x.2.isNxAtom) && decide (x.2.acked < x.2.nxLen) && !x.2.nxRefused)

/-- An answer to a get or an atom of this device over a connection of a mode, acknowledged to the device that sent it. One that
has come before is written again and counted no more (R422); one ahead of its turn is dropped, and its sender sends it
again. -/
def State.arriveAnswer (s : State) (mode : Nat) (p : NxPacket) (fold uid : Nat) : State :=
  match s.findEng fold uid with
  | none => s.ackOwn p
  | some e =>
    let dup := e.landed.contains p.offset
    if e.unit ≠ U.nx ∨ !(e.isGet || e.isNxAtom) ∨ p.payload.isEmpty then s.ackOwn p
    else if mode = 1 ∧ dup = false ∧ s.answerEarly fold e p.offset = true then s
    else
      let held := (s.nxRun fold e true p.offset p.payload.length).2.2.2 == some .wait
      if held then s
      else
        let (s1, n) := s.landRun fold uid p.payload.length p.offset p.payload
        if dup then (s1.nxMesh fold false).ackOwn p
        else
        let s2 := (s1.nxMesh fold false).modEng fold uid (fun e =>
          let got := e.acked + p.payload.length
          { e with landed := e.landed ++ [p.offset], acked := got,
                   sent := if e.nxLen ≤ got then [] else e.sent, redo := if e.nxLen ≤ got then 0 else e.redo,
                   block := if e.isNxAtom then p.payload else e.block })
        (if e.isGet then s2.countLanding e.nxKey n else s2).ackOwn p

/-- A packet of this device has been refused (R422): it is no longer in flight, and its operation ends with a token once
nothing that it sent is. -/
def State.arriveRefusal (s : State) (p : NxPacket) (fold uid : Nat) : State :=
  match s.findEng fold uid with
  | none => s
  | some e =>
    if e.unit ≠ U.nx then s
    else
      let gone := e.sent.find? (fun q => q.offset == p.offset)
      let s1 := match s.connEnt e.nxConn, gone with
        | some c, some q =>
          let x := s.conn e.nxConn c
          s.setConn e.nxConn { x with flying := eraseOne (fun y =>
            y.1 == flightTag true q.msg && y.2.1 == q.payload.length && y.2.2 == q.entropy.toNat) x.flying }
        | _, _ => s
      s1.modEng fold uid (fun e =>
        let left := eraseOne (fun q => q.offset == p.offset) e.sent
        { e with nxRefused := true, sent := left, redo := min e.redo left.length })

/-- R422, R425, R427. A packet arrives. Traffic for an invalid entry is refused (R421): an answer is not placed, and its
operation ends as one refused. A ROD connection takes its packets
in their order: one ahead of its turn is dropped, and its sender sends it again (R422, R423). -/
def execNxPacketArrive (p : NxPacket) (s : State) : Out3 :=
  match p.kind with
  | .answer f u => (match s.connEnt (p.conn % 4096) with
    | none => .next (s.modEng f u (fun e => if e.unit = U.nx then { e with nxRefused := true, redo := 0, sent := [] } else e))
    | some c => .next (s.arriveAnswer c.mode p f u))
  | .refusal f u => .next (s.arriveRefusal p f u)
  | k =>
    match s.connEnt (p.conn % 4096) with
    | none => .next (s.refuse p)
    | some c =>
      if c.mode = 1 ∧ (s.conn p.conn c).expect < p.seq then .next s
      else match k with
      | .write => .next (s.arriveWrite c p)
      | .read => .next (s.arriveRead c p)
      | .atomic op size x cmp => .next (s.arriveAtomic c p op size x cmp)
      | _ => .next (s.arriveSend c p)

/-! ## Completion (R425) -/

/-- Whether a transport operation has done what its entry of R425 asks before R fills. -/
def EngOp.nxDone (e : EngOp) : Bool :=
  if e.nxRefused then e.sent.isEmpty else e.started && decide (e.nxLen ≤ e.acked)

/-- R425. A put, get, send or atom completes: LEN, the old value, or a token. -/
def execNxOpComplete (fold uid : Nat) (s : State) : Out3 :=
  match s.findEng fold uid with
  | none => .next s
  | some e =>
    if e.unit = U.nx ∧ e.nxDone = true then
      match e.nxRefused, e.token with
      | true, _ => .next (s.endToken fold e 0x4E e.nxLocal)
      | false, some k => .next (s.endToken fold e k e.tokenAddr)
      | false, none =>
        let v := if e.isNxAtom then natOf (e.block.take 4) else e.nxLen
        .next (s.endEng fold e (fun _ => BitVec.ofNat 64 (v % 2 ^ 32)) none)
    else .next s

/-! ## bind, cstate, lkrate, lkwatch and lkstat (R426) -/

/-- The T operand of an immediate NX operation. -/
def Ctx.nxT (c : Ctx) (t : Trig) : Nat := (lo32 ((c.us.unit U.nx).held.at (t.lane c))).toNat

/-- An NX trigger that completes with a token. -/
def State.nxToken (s : State) (id : CtxId) (t : Trig) (cause : BitVec 7) : State :=
  s.modCtx id (fun c =>
    let p := c.us.unit t.unit
    c.finish t.unit t.uid t.mask (fun _ => 0) (some { t.openRec p with
      cause := cause, lanes := t.mask, addrs := [] }))

/-- Free a landing counter (R424, R426): its barrier no longer expects it. -/
def State.unbind (s : State) (die i : Nat) (l : Landing) : State :=
  (s.modDie die (fun d => { d with landing := Tbl.put d.landing i { l with bound := false } })).barTest l.gang l.barrier

/-- The lowest landing counter of a die that is free (R433). -/
def Die.freeLanding (d : Die) : Option Nat :=
  (List.range 256).find? (fun i => match Tbl.find d.landing i with
    | some l => !l.bound
    | none => true)

/-- bind (R426). -/
def startBind : Start := fun s id t =>
  match s.ctx id with
  | none => s
  | some c =>
    let target := ((c.us.unit U.nx).a.at (t.lane c)).toNat
    let v := c.nxT t
    let die := dieOf id.fold
    let unb := bit v 4
    if bits v 15 5 ≠ 0 then s.nxToken id t 0x4E
    else if unb then
      match s.landingOf die (BitVec.ofNat 16 (v / 2 ^ 16)) with
      | some (i, l) => if l.gang = c.gang then (s.unbind die i l).answer id t 0 else s.nxToken id t 0x4E
      | none => s.nxToken id t 0x4E
    else
      match s.gang c.gang with
      | none => s.nxToken id t 0x4E
      | some g =>
        if v / 2 ^ 16 ≠ 0 ∨ target = 0 ∨ 2 ^ 32 ≤ target ∨ g.block.barRole (v % 16) c.role = false then s.nxToken id t 0x4E
        else match (s.die die).freeLanding with
          | none => s.nxToken id t 0x50
          | some i =>
            let old := ((Tbl.find (s.die die).landing i).map Landing.gen).getD 0
            let l : Landing := { gen := (old + 1) % 64, bound := true, gang := c.gang, barrier := v % 16,
                                 target := target, count := 0, arrivedAt := none, overAt := none }
            (s.modDie die (fun d => { d with landing := Tbl.put d.landing i l })).answer id t
              ((l.key die i).zeroExtend 64)

/-- cstate (R423, R426). -/
def startCstate : Start := fun s id t =>
  match s.ctx id with
  | none => s
  | some c =>
    let v := c.nxT t
    match s.connEnt (v % 4096) with
    | none => s.nxToken id t 0x4E
    | some e =>
      if v / 2 ^ 14 ≠ 0 then s.nxToken id t 0x4E
      else
        let x := s.conn (v % 4096) e
        let r := match bits v 13 12 with
          | 0 => x.w.floor
          | 1 => x.rtt.floor
          | 2 => Frac.floor { x.f with num := x.f.num * 65536 }
          | _ => x.inFlight
        s.answer id t (BitVec.ofNat 64 (min r (2 ^ 32 - 1)))

/-- lkrate (R415, R426): TARGET and the rate are set, the windowed counts return to 0, the link retrains, and R waits for
the end of the retrain. A link that is down has nothing to retrain. -/
def startLkrate : Start := fun s id t =>
  match s.ctx id with
  | none => s
  | some c =>
    let v := c.nxT t
    let n := v % 8
    let r := bits v 6 4
    if bit v 3 = true ∨ v / 2 ^ 7 ≠ 0 ∨ 5 < r ∨ (4 ≤ n ∧ 2 < r) then s.nxToken id t 0x4E
    else
      let l := s.link n
      let clr (x : LinkEnd) : LinkEnd :=
        { x with linkCount := 0, linkThr := 0, linkShut := 0, laneCounts := [], laneThr := [], laneShut := [] }
      let s1 := s.setLink n { l with target := BitVec.ofNat 3 r, rate := BitVec.ofNat 3 r,
                                     waiters := l.waiters ++ [(CtxId.key id, t.uid)] }
      let s2 := (s1.modEnd (2 * n) clr).modEnd (2 * n + 1) clr
      let s3 := s2.addOp id (t.op [] (c.us.unit U.nx).held none 0)
      if l.up then s3.retrain n else s3.wakeLink n

/-- lkwatch (R426): the Shepherd's table holds 256 watches. -/
def startLkwatch : Start := fun s id t =>
  match s.ctx id with
  | none => s
  | some c =>
    let v := c.nxT t
    let die := dieOf id.fold
    let w := (c.tid, v % 8)
    let ws := (s.die die).watches
    if bits v 7 3 ≠ 0 ∨ v / 2 ^ 9 ≠ 0 then s.nxToken id t 0x4E
    else if bit v 8 then (s.modDie die (fun d => { d with watches := d.watches.filter (fun x => x != w) })).answer id t 0
    else if ws.contains w then s.answer id t 0
    else if 256 ≤ ws.length then s.nxToken id t 0x4E
    else (s.modDie die (fun d => { d with watches := d.watches ++ [w] })).answer id t 0

/-- lkstat (R426). -/
def startLkstat : Start := fun s id t =>
  match s.ctx id with
  | none => s
  | some c =>
    let v := c.nxT t
    let r := bits v 7 4
    if v / 2 ^ 9 ≠ 0 ∨ 6 < r then s.nxToken id t 0x4E
    else
      let x := (s.linkReg (v % 16) r).toNat
      s.answer id t (BitVec.ofNat 64 (if bit v 8 then bits x 47 32 else bits x 31 0))

/-- The immediate NX operations register no range. -/
def needNone (_ : State) (_ : CtxId) (_ : Trig) : Option Nat := some 0

/-! ## The rows of NX -/

/-- R425. Writes a local buffer to a peer's memory over a connection. -/
def execNxPut (m : MoveF) (s : State) : Out3 :=
  issueEngine (syllable true 19 3 0 m) startNx needNx s
/-- R425. Reads a peer's memory into a local buffer. -/
def execNxGet (m : MoveF) (s : State) : Out3 :=
  issueEngine (syllable true 19 3 1 m) startNx needNx s
/-- R425. Performs an atomic at the peer and writes the old value locally. -/
def execNxAtom (m : MoveF) (s : State) : Out3 :=
  issueEngine (syllable true 19 3 2 m) startNx needNx s
/-- R425. Places a message in the peer's receive ring. -/
def execNxSend (m : MoveF) (s : State) : Out3 :=
  issueEngine (syllable true 19 3 3 m) startNx needNx s
/-- R426. Binds or unbinds a landing counter to a barrier. -/
def execNxBind (m : MoveF) (s : State) : Out3 :=
  issueEngine (syllable true 19 3 16 m) startBind needNone s
/-- R426. Reads a congestion field of a connection. -/
def execNxCstate (m : MoveF) (s : State) : Out3 :=
  issueEngine (syllable true 19 3 32 m) startCstate needNone s
/-- R426. Sets a link's target rate, clears its windowed counts and retrains it. -/
def execNxLkrate (m : MoveF) (s : State) : Out3 :=
  issueEngine (syllable true 19 3 48 m) startLkrate needNone s
/-- R426. Adds or removes the team's watch on a link. -/
def execNxLkwatch (m : MoveF) (s : State) : Out3 :=
  issueEngine (syllable true 19 3 49 m) startLkwatch needNone s
/-- R426. Reads a link register of one end. -/
def execNxLkstat (m : MoveF) (s : State) : Out3 :=
  issueEngine (syllable true 19 3 50 m) startLkstat needNone s

end Sys2Proof.Machine
end

