-- ==== Sys2Proof/Machine/Shepherd.lean ====
section
/-! DEFINITION. The Shepherd (R164 to R182): queues, launch packets, launch blocks and loop records, arbitration,
placement, and the end of gangs and flocks. -/

namespace Sys2Proof.Machine

/-! ## Queues (R164 to R166) -/

def State.queue (s : State) (die q : Nat) : Queue := Tbl.get (s.die die).queues q Queue.fresh
def State.setQueue (s : State) (die q : Nat) (x : Queue) : State :=
  s.modDie die (fun d => { d with queues := Tbl.put d.queues q x })

/-- Whether a die's Shepherd acts: the shadow contexts have started (R447) and its island has power (R442, R444). -/
def State.shepherdOn (s : State) (die : Nat) : Bool := s.running && Tbl.get (s.die die).islands 252 0 != 7

def Queue.enabled (x : Queue) : Bool := x.ent1.getLsbD 16
def Queue.sizeLog2 (x : Queue) : Nat := bits x.ent1.toNat 7 0
def Queue.prio (x : Queue) : Nat := min 7 (bits x.ent1.toNat 15 8)

/-- The space of a queue (R236). -/
def queueAsid (die q : Nat) : Nat := 64 * die + q

/-- C_QUEUEFAULT: the queue waits for its next notify or enable (R165). -/
def State.queueFault (s : State) (die q : Nat) (addr : Nat) : State :=
  (s.setQueue die q { s.queue die q with stuck := true }).dieNotice 0x42 0 (BitVec.ofNat 64 addr)

/-- What a failed read or write of a queue's agent leaves: the walks made (R242), and C_QUEUEFAULT. -/
def State.failQueue (die q : Nat) (e : BitVec 7 × Nat × State) : State := e.2.2.queueFault die q e.2.1

/-- Read the write index, after the read index when that is still to be read (R165, R166). -/
def State.readIndices (s : State) (die q : Nat) : State :=
  let x := s.queue die q
  let a := queueAsid die q
  let s1 := s.setQueue die q { x with stuck := false }
  let rd (s : State) (at_ : Nat) : Except (BitVec 7 × Nat × State) (Nat × State) := match s.readVirt die a true at_ 8 with
    | .ok (b, s2) => .ok (natOf b, s2)
    | .error e => .error e
  let s2 : Except (BitVec 7 × Nat × State) State :=
    if x.needRidx then (match rd s1 x.ent3.toNat with
      | .ok (v, s2) => .ok (s2.setQueue die q { s2.queue die q with ridx := v, needRidx := false })
      | .error e => .error e)
    else .ok s1
  match s2 with
  | .error e => State.failQueue die q e
  | .ok s3 => match rd s3 x.ent2.toNat with
    | .error e => State.failQueue die q e
    | .ok (v, s4) => s4.setQueue die q { s4.queue die q with widx := v }

/-- A write to QNOTIFY (R165, R168): the write index is read again, and the queue's WAITVALs look at their words. -/
def State.notifyQueue (s : State) (die q : Nat) : State :=
  if s.shepherdOn die && (s.queue die q).enabled then
    let s1 := s.readIndices die q
    if (s1.die die).packets.any (fun p => p.q == q && p.st == .watching) then
      { s1 with agenda := s1.agenda ++ [Instr.waitvalRecheck die q] }
    else s1
  else s

/-- R165. A write to QNOTIFY makes the Shepherd read the queue's write index again. -/
def execQnotify (die q : Nat) (s : State) : Out3 := .next (s.notifyQueue die q)

/-- QENT1 as a write leaves it: SIZELOG2, PRIO and ENABLE. -/
def ent1Fields (v : W64) : W64 := v &&& 0x1FFFF

/-- A write to QENT1 that sets ENABLE (R166): the entry is checked, then both indices are read. The notice of an entry that
fails has address 0, since there is no packet (DESIGN CHOICE, unsafe: log entry 85). -/
def State.enableQueue (s : State) (die q : Nat) (ent1 : W64) : State :=
  let x := s.queue die q
  if x.enabled then s
  else
    let y := { x with ent1 := ent1Fields ent1 }
    let ok := 1 ≤ y.sizeLog2 && y.sizeLog2 ≤ 16 && x.ent0.toNat % 64 == 0 && x.ent2.toNat % 8 == 0 &&
      x.ent3.toNat % 8 == 0
    if !ok then (s.setQueue die q { y with ent1 := y.ent1 &&& 0xFFFF }).dieNotice 0x3D 0 0
    else (s.setQueue die q { y with needRidx := true, effPrio := y.prio, passOver := 0 }).readIndices die q

/-- R166. A QENT1 write that sets ENABLE starts the queue. -/
def execQueueEnable (die q : Nat) (ent1 : W64) (s : State) : Out3 :=
  .next (if s.shepherdOn die && ent1.getLsbD 16 then s.enableQueue die q ent1 else s)

/-- A write to QENT1 that clears ENABLE (R166). -/
def State.disableQueue (s : State) (die q : Nat) : State :=
  s.setQueue die q { s.queue die q with ent1 := (s.queue die q).ent1 &&& 0xFFFF }

/-- R166. A QENT1 write that clears ENABLE stops the queue from starting further packets. -/
def execQueueDisable (die q : Nat) (s : State) : Out3 :=
  .next (if s.shepherdOn die && (s.queue die q).enabled then s.disableQueue die q else s)

/-! ## Packets (R167 to R170) -/

def pktType (b : List Byte) : Nat := bits (field b 0 2) 15 12
def pktBarrier (b : List Byte) : Bool := bit (field b 0 2) 11
def Packet.sigAddr (p : Packet) : Nat := field p.bytes 48 8

/-- Whether a packet passes the checks of LAUNCH_BADPKT (R167 to R169). A WCOND above 3 and a GANGS above 2^24 fail them too
(DESIGN CHOICE, unsafe: log entry 86). -/
def pktOk (b : List Byte) : Bool :=
  let h := field b 0 2
  let common := bits h 4 0 == 0 && bits h 10 8 < 6 && bits h 7 5 < 6 && field b 2 6 == 0 && field b 48 8 % 16 == 0
  match pktType b with
  | 0 => common && field b 8 40 == 0
  | 3 => common && field b 8 40 == 0
  | 4 => common && field b 8 8 % 8 == 0 && field b 32 1 ≤ 3 && field b 33 15 == 0
  | 1 => common && launch && field b 40 8 == 0
  | 2 => common && launch && field b 40 8 % 64 == 0
  | _ => false
where
  /-- The fields that LAUNCH and LOOP share. -/
  launch : Bool := field b 8 8 % 256 == 0 && decide (field b 16 4 ≤ 2 ^ 24) && field b 20 4 == 0 && field b 32 8 % 4096 == 0

/-- Whether the head packet of a queue, whose header is given, may start (R170). -/
def State.mayStart (s : State) (die q : Nat) (hdr : List Byte) : Bool :=
  let mine := (s.die die).packets.filter (fun p => p.q == q)
  if pktBarrier hdr || (s.queue die q).afterWait then mine.isEmpty
  else !mine.any (fun p => p.st == .placing)

/-- Whether a queue has a published packet that it may try to start. -/
def Queue.hasHead (x : Queue) : Bool := x.enabled && !x.stuck && !x.needRidx && decide (x.ridx < x.widx)

/-- The bytes of a queue's head packet, or the fault of reading them. -/
def State.headPacket (s : State) (die q : Nat) : Except (BitVec 7 × Nat × State) (List Byte × State) :=
  let x := s.queue die q
  s.readVirt die (queueAsid die q) true (x.ent0.toNat + 64 * (x.ridx % 2 ^ x.sizeLog2)) 64

/-- A queue is eligible (R171); one whose head cannot be read is tried, so that the fault is found. -/
def State.eligible (s : State) (die q : Nat) : Bool :=
  (s.queue die q).hasHead &&
    (match s.headPacket die q with
    | .error _ => true
    | .ok (b, _) => s.mayStart die q b)

/-- The eligible queues of a die, in queue order. -/
def State.eligibles (s : State) (die : Nat) : List Nat :=
  ((s.die die).queues.map Prod.fst).filter (s.eligible die)

/-- The queue that the Shepherd chooses (R171): the highest effective priority, the first at or after the pointer. -/
def State.chosen (s : State) (die : Nat) : Option Nat :=
  if !s.shepherdOn die then none else
  let es := s.eligibles die
  let top := es.foldl (fun a q => max a (s.queue die q).effPrio) 0
  let best := es.filter (fun q => (s.queue die q).effPrio == top)
  let rot := (s.die die).rot
  match best.find? (fun q => decide (rot ≤ q)) with
  | some q => some q
  | none => best.head?

/-- The counts of an arbitration round (R171). -/
def State.arbitrated (s : State) (die q : Nat) : State :=
  let others := (s.eligibles die).filter (fun x => x != q)
  let s1 := others.foldl (fun s x =>
    let y := s.queue die x
    s.setQueue die x (if y.passOver + 1 = 64 then { y with passOver := 0, effPrio := min 7 (y.effPrio + 1) }
      else { y with passOver := y.passOver + 1 })) s
  let y := s1.queue die q
  (s1.setQueue die q { y with effPrio := y.prio, passOver := 0 }).modDie die (fun d => { d with rot := (q + 1) % 64 })

/-- C_LAUNCH for a packet that fails (R169). -/
def State.launchNotice (s : State) (addr : Nat) : State := s.dieNotice 0x3D 0 (BitVec.ofNat 64 addr)

/-- The chosen packet begins (R165, R171, R172, R181): it is copied, the read index moves on, and a LAUNCH or LOOP takes a
flock number. None while nothing is chosen or its type is another. -/
def State.beginPacket (s : State) (die q : Nat) (type : Nat → Bool) : Option (State × Option Packet) :=
  if s.chosen die ≠ some q then none
  else match s.headPacket die q with
    | .error e => some (State.failQueue die q e, none)
    | .ok (b, s1) =>
      if !type (pktType b) then none
      else
        let x := s1.queue die q
        let s2 := s1.arbitrated die q
        let s3 := s2.setQueue die q { s2.queue die q with ridx := x.ridx + 1, afterWait := pktType b == 4 }
        let s4 := match s3.writeVirt die (queueAsid die q) true x.ent3.toNat (bytesOf 8 (x.ridx + 1)) with
          | .ok s4 => s4
          | .error e => e.2.2.dieNotice 0x42 0 (BitVec.ofNat 64 e.2.1)
        let isFlock := pktType b == 1 || pktType b == 2
        let d := s4.die die
        let p : Packet :=
          { num := s4.nextId, q := q, idx := x.ridx, bytes := b, st := .completing, status := 0, block := none, loop := none,
            gangs := if isFlock then field b 16 4 else 0, placed := 0,
            flock := if isFlock then BitVec.ofNat 32 (die * 2 ^ 30 + d.flockCtr % 2 ^ 30) else 0,
            conf := isFlock && (Tbl.get d.qkey q 0).getLsbD 8, froze := [] }
        let s5 := { (if isFlock then s4.modDie die (fun d => { d with flockCtr := (d.flockCtr + 1) % 2 ^ 30 }) else s4) with
          nextId := s4.nextId + 1 }
        some (s5, some p)

/-- A packet joins those that have started. -/
def State.addPacket (s : State) (die : Nat) (p : Packet) : State :=
  s.modDie die (fun d => { d with packets := d.packets ++ [p] })

/-- The started packet of a number, changed. -/
def State.modPacket (s : State) (die num : Nat) (f : Packet → Packet) : State :=
  s.modDie die (fun d => { d with packets := d.packets.map (fun x => if x.num = num then f x else x) })

/-- A packet that has started, with its status. -/
def State.startWith (s : State) (die : Nat) (p : Packet) (status : Nat) (st : PktState) : State :=
  let s1 := s.addPacket die { p with status := status, st := st }
  if status = 0 ∨ status = 5 then s1
  else s1.launchNotice (if p.sigAddr % 16 ≠ 0 then p.sigAddr
    else (s1.queue die p.q).ent0.toNat + 64 * (p.idx % 2 ^ (s1.queue die p.q).sizeLog2))

/-- A packet of the simple types: checked, then completing or watching. -/
def State.startSimple (s : State) (die q : Nat) (type : Nat → Bool) (st : PktState) : State :=
  match s.beginPacket die q type with
  | none => s
  | some (s1, none) => s1
  | some (s1, some p) =>
    if pktOk p.bytes then s1.startWith die p 0 st else s1.startWith die p 2 .completing

/-- R168. The Shepherd starts a NOP packet, or one whose TYPE is malformed. -/
def execPktNop (die q : Nat) (s : State) : Out3 :=
  .next (s.startSimple die q (fun t => t == 0 || decide (5 ≤ t)) .completing)

/-- R168. The Shepherd starts a SIGNAL packet: its completion write is its effect. -/
def execPktSignal (die q : Nat) (s : State) : Out3 := .next (s.startSimple die q (· == 3) .completing)

/-! ## WAITVAL (R168) -/

/-- Whether a WAITVAL's condition holds for a word. -/
def Packet.waitHolds (p : Packet) (w : W64) : Bool :=
  let m := getWord p.bytes 24
  let a := (w &&& m).toNat
  let b := (getWord p.bytes 16 &&& m).toNat
  match field p.bytes 32 1 with
  | 0 => a == b
  | 1 => a != b
  | 2 => decide (b ≤ a)
  | _ => decide (a < b)
where
  /-- An 8-byte field. -/
  getWord (bs : List Byte) (i : Nat) : W64 := BitVec.ofNat 64 (field bs i 8)

/-- The watching packets of a queue look at their words; a read that faults posts C_WAITFAULT. -/
def State.recheck (s : State) (die q : Nat) : State :=
  ((s.die die).packets.filter (fun p => p.q == q && p.st == .watching)).foldl (fun s p =>
    let a := field p.bytes 8 8
    match s.readVirt die (queueAsid die q) true a 8 with
    | .error e => e.2.2.dieNotice 0x44 0 (BitVec.ofNat 64 e.2.1)
    | .ok (b, s1) =>
      if p.waitHolds (BitVec.ofNat 64 (natOf b)) then s1.modPacket die p.num (fun x => { x with st := .completing }) else s1) s

/-- R168. The Shepherd starts a WAITVAL packet and reads its word. -/
def execPktWaitval (die q : Nat) (s : State) : Out3 :=
  .next ((s.startSimple die q (· == 4) .watching).recheck die q)

/-- R168. A WAITVAL reads its word again and completes when its condition holds. -/
def execWaitvalRecheck (die q : Nat) (s : State) : Out3 := .next (s.recheck die q)

/-! ## Launch blocks and loop records (R173 to R175, R196) -/

/-- A role entry, or none when it fails. -/
def parseRole (d : List Byte) (i : Nat) : Option Role :=
  let f (o n : Nat) : Nat := field d (64 + 64 * i + o) n
  let r : Role := { entry := BitVec.ofNat 64 (f 0 8), kind := f 8 1, prio := f 9 1, regs := f 10 1, lanes := f 12 2,
                    teams := f 14 2 }
  if f 0 8 % 2 = 0 ∧ r.kind ≤ 3 ∧ r.prio ≤ 3 ∧ r.regs ≤ 128 ∧ f 11 1 = 0 ∧ r.lanes % 32 = 0 ∧ 32 ≤ r.lanes ∧
      r.lanes ≤ 1024 ∧ 1 ≤ r.teams ∧ f 16 48 = 0 then some r else none

/-- The gang header and the roles of a launch block, or none when they fail R175. -/
def parseBlock (d : List Byte) : Option Block :=
  let m := field d 32 8
  let scr := field d 40 1
  let nroles := field d 43 1
  let fl := field d 44 1
  let roles := (List.range nroles).map (parseRole d)
  let rs := roles.filterMap id
  let teams : Nat := rs.foldl (fun a r => a + r.teams) 0
  let zero := (List.range 3).all (fun i => decide (i < nroles) || field d (64 + 64 * i) 64 == 0)
  let ok := (List.range 16).all (fun i => !bit m (4 * i + 3)) && (scr == 0 || (12 ≤ scr && scr ≤ 20)) &&
    field d 41 1 ≤ 16 && field d 42 1 ≤ 8 && 1 ≤ nroles && nroles ≤ 3 && fl ≤ 1 && field d 45 19 == 0 &&
    rs.length == nroles && zero && decide (teams ≤ (if fl = 1 then 64 else 32)) &&
    (fl == 0 || rs.all (fun r => r.teams % 2 == 0))
  if !ok then none
  else some { mirrorAddr := BitVec.ofNat 64 (field d 0 8), liveAddr := BitVec.ofNat 64 (field d 16 8),
              barMask := BitVec.ofNat 32 m, barMaskHi := BitVec.ofNat 32 (m / 2 ^ 32), scrLog2 := scr,
              wide := field d 41 1, pair := fl == 1, roles := rs, rings := [], fm := [] }

/-- The bytes that a ring takes of the block. -/
def Ring.span (r : Ring) : Nat × Nat := (r.off, r.off + r.size * r.slots)

/-- A ring descriptor (R79, R175), with its index. -/
def parseRing (b : Block) (d : List Byte) (nrings i : Nat) : Option (Nat × Ring) :=
  let f (o n : Nat) : Nat := field d (16 * i + o) n
  let r : Ring := { prod := f 1 1, cons := f 2 1, slots := f 4 2, size := f 8 4, off := f 12 4, p := 0, c := 0, slot := [],
                    released := [] }
  if f 0 1 < nrings ∧ r.prod < b.roles.length ∧ r.cons < b.roles.length ∧ f 3 1 = 0 ∧ f 6 2 = 0 ∧ 2 ≤ r.slots ∧
      r.slots ≤ 256 ∧ r.size % 16 = 0 ∧ 16 ≤ r.size ∧ r.size ≤ 65536 ∧ r.off % 256 = 0 ∧ b.scrLog2 ≠ 0 ∧
      r.off + r.size * r.slots ≤ 2 ^ b.scrLog2 then some (f 0 1, r) else none

/-- The ring descriptors of a block, or none when they fail R175. -/
def parseRings (b : Block) (d : List Byte) (n : Nat) : Option (Tbl Ring) :=
  let rs := ((List.range n).map (parseRing b d n)).filterMap id
  let clash (x y : Nat × Ring) : Bool :=
    x.1 == y.1 || (decide (x.2.span.1 < y.2.span.2) && decide (y.2.span.1 < x.2.span.2))
  let rec apart : List (Nat × Ring) → Bool
    | [] => true
    | x :: r => !r.any (clash x) && apart r
  if rs.length = n ∧ apart rs = true then some (rs.foldl (fun t x => Tbl.put t x.1 x.2) []) else none

/-- A read of a launch for a queue's packet: the bytes, or the state with the notice posted. -/
def State.launchRead (s : State) (die q : Nat) (code : BitVec 7) (a n : Nat) : Except State (List Byte × State) :=
  match s.readVirt die (queueAsid die q) true a n with
  | .ok x => .ok x
  | .error e => .error (e.2.2.dieNotice code 0 (BitVec.ofNat 64 e.2.1))

/-- A launch block with its ring descriptors and `.fmt` values (R173 to R175), or the state after the failure. -/
def State.readLaunch (s : State) (die q a : Nat) : Except State (Block × State) :=
  match s.launchRead die q 0x45 a 256 with
  | .error s1 => .error s1
  | .ok (d, s1) =>
    match parseBlock d with
    | none => .error s1
    | some b =>
      let n := field d 42 1
      match s1.launchRead die q 0x45 (field d 8 8) (16 * n) with
      | .error s2 => .error s2
      | .ok (rd, s2) =>
        match parseRings b rd n with
        | none => .error s2
        | some rs =>
          let fa := field d 24 8
          if fa = 0 then .ok ({ b with rings := rs }, s2)
          else match s2.launchRead die q 0x45 fa 68 with
            | .error s3 => .error s3
            | .ok (fd, s3) =>
              let fm := (List.range 16).filterMap (fun i =>
                if bit (field fd 0 4) i then some (i, BitVec.ofNat 32 (field fd (4 + 4 * i) 4)) else none)
              .ok ({ b with rings := rs, fm := fm }, s3)

/-- REGS rounded up to a multiple of 8 (R179). -/
def Role.budget (r : Role) : Nat := roundUp r.regs 8

/-- A loop record for a block of one role (R196), or none when it fails. -/
def parseLoop (b : Block) (d : List Byte) : Option LoopRec :=
  let st := field d 46 1
  let kind := field d 47 1
  let lens (o : Nat) : List Nat := (List.range 3).map (fun i => field d (o + 2 * i) 2)
  let ok (l : List Nat) : Bool := l.zipIdx.all (fun x =>
    if x.2 + 1 < st then x.1 != 0 && x.1 % 2 == 0 else x.1 == 0)
  match b.roles with
  | [r] =>
    if 1 ≤ st ∧ st ≤ 4 ∧ ok (lens 32) = true ∧ ok (lens 38) = true ∧ field d 44 2 ≠ 0 ∧ field d 44 2 % 2 = 0 ∧ kind ≤ 1 ∧
        (kind = 0 ∨ field d 48 1 < r.budget) ∧ field d 49 3 = 0 ∧ field d 56 8 = 0 then
      some { pro := BitVec.ofNat 64 (field d 0 8), ker := BitVec.ofNat 64 (field d 8 8),
             epi := BitVec.ofNat 64 (field d 16 8), exit := BitVec.ofNat 64 (field d 24 8), plen := lens 32,
             elen := lens 38, klen := field d 44 2, stages := st, perLane := kind == 1, tripReg := field d 48 1,
             trip := field d 52 4 }
    else none
  | _ => none

/-! ## Room on a fold (R176 to R179) -/

/-- The teams of a block with their role and index within the role, in TEAM_ID order (R180). -/
def Block.teamList (b : Block) : List (Nat × Nat) :=
  b.roles.zipIdx.flatMap (fun x => (List.range x.1.teams).map (fun i => (x.2, i)))

/-- The half of a gang on which a team lands (R177). -/
def Block.teamHalf (b : Block) (i : Nat) : Nat := if b.pair then i % 2 else 0

def Block.role (b : Block) (i : Nat) : Role :=
  b.roles.getD i { entry := 0, kind := 0, prio := 0, regs := 0, lanes := 0, teams := 0 }

/-- The register words that a half of a gang needs (R179). -/
def Block.words (b : Block) (half : Nat) : Nat :=
  (b.teamList.filter (fun t => b.teamHalf t.2 == half)).foldl (fun a t => a + (b.role t.1).lanes * (b.role t.1).budget) 0

/-- The teams of a half. -/
def Block.teamsOn (b : Block) (half : Nat) : Nat := (b.teamList.filter (fun t => b.teamHalf t.2 == half)).length

/-- Whether a block has a matrix role (R313). -/
def Block.needsEngine (b : Block) : Bool := b.roles.any (fun r => r.kind == 1)

/-- The gangs resident on a fold, with their number. -/
def State.gangsOn (s : State) (f : Nat) : List (Nat × Gang) :=
  s.gangs.filter (fun kv => if kv.2.block.pair then kv.2.fold / 2 == f / 2 else kv.2.fold == f)

/-- The scratchpad intervals taken on a fold. -/
def State.scratchTaken (s : State) (f : Nat) : List (Nat × Nat) :=
  (s.gangsOn f).filterMap (fun kv =>
    if kv.2.block.scrLog2 = 0 then none
    else
      let a := Tbl.get kv.2.base (kv.2.half f) 0
      some (a, a + 2 ^ kv.2.block.scrLog2))

/-- Whether an aligned block of a fold's scratchpad is free. -/
def blockFree (taken : List (Nat × Nat)) (a k : Nat) : Bool :=
  a + 2 ^ k ≤ 2 ^ 20 && taken.all (fun t => decide (a + 2 ^ k ≤ t.1) || decide (t.2 ≤ a))

/-- The lowest free block of exactly 2^k bytes: one whose parent is not free as a whole (R178). -/
def lowestBlock (taken : List (Nat × Nat)) (k : Nat) : Option Nat :=
  ((List.range (2 ^ (20 - k))).map (· * 2 ^ k)).find? (fun a =>
    blockFree taken a k && (k == 20 || !blockFree taken (a / 2 ^ (k + 1) * 2 ^ (k + 1)) (k + 1)))

/-- The buddy allocator's answer for 2^k bytes: the lowest free block of its size, or the lower end of the smallest larger
one (R178). -/
def buddy (taken : List (Nat × Nat)) (k : Nat) : Option Nat :=
  ((List.range (21 - k)).map (· + k)).findSome? (lowestBlock taken)

/-- The mirror table that serves a gang of a flock on a fold: one to which a gang of the flock is bound, or a free one; the
flag says that it must be loaded (R176). A table is free when no gang on the fold is bound to it, of whatever flock (R182;
DESIGN CHOICE, unsafe: log entry 83). -/
def State.mirrorFor (s : State) (f : Nat) (flock : W32) : Option (Nat × Bool) :=
  let bound (p : Gang → Bool) (t : Nat) : Bool := (s.gangsOn f).any (fun kv =>
    let sel := Tbl.get kv.2.mirrorSel (kv.2.half f) 0
    p kv.2 && sel.getLsbD 8 && b2n (sel.getLsbD 0) == t)
  match [0, 1].find? (bound (fun g => g.flock == flock)) with
  | some t => some (t, false)
  | none => ([0, 1].find? (fun t => !bound (fun _ => true) t)).map (fun t => (t, true))

/-- The team slots of a fold that are free. -/
def State.freeSlots (s : State) (f : Nat) : List Nat :=
  (List.range 32).filter (fun i => (s.ctx { fold := f, slot := i }).isNone)

/-- Whether an island of a compute die has power and its control register does not ask for Off (R3, R442, R443). -/
def Die.powered (d : Die) (i : Nat) : Bool := Tbl.get d.islands i 0 != 7 && Tbl.get d.islFloor i 0 != 7

/-- Whether a half of a gang fits on a fold (R176): the fold's island is not Off, nor the engine's supply held Off by its own
FLOOR when the gang needs it (R442). -/
def State.halfFits (s : State) (b : Block) (asid : Nat) (flock : W32) (half f : Nat) : Bool :=
  (s.die (dieOf f)).powered (f % 96) &&
    decide (b.teamsOn half ≤ (s.freeSlots f).length) &&
    decide (b.words half ≤ s.freeWords f (s.prio7 asid)) &&
    (b.scrLog2 == 0 || (buddy (s.scratchTaken f) b.scrLog2).isSome) &&
    decide ((s.gangsOn f).foldl (fun a kv => a + kv.2.block.wide) b.wide ≤ 16) &&
    (b.mirrorAddr == 0 || (s.mirrorFor f flock).isSome) &&
    (!b.needsEngine || (!(s.gangsOn f).any (fun kv => kv.2.hasEngine) &&
      Tbl.get (s.die (dieOf f)).islFloor (96 + f % 96) 0 != 7))

/-- Whether a gang fits on a fold, or on the pair of an even fold (R176, R177). -/
def State.fits (s : State) (b : Block) (asid : Nat) (flock : W32) (f : Nat) : Bool :=
  if b.pair then f % 2 == 0 && s.halfFits b asid flock 0 f && s.halfFits b asid flock 1 (f + 1)
  else s.halfFits b asid flock 0 f

/-- The folds of a die. -/
def dieFolds (die : Nat) : List Nat := (List.range 96).map (· + 96 * die)

/-- The free register words by which R176 chooses; a pair counts both folds. -/
def State.roomOf (s : State) (b : Block) (asid f : Nat) : Nat :=
  s.freeWords f (s.prio7 asid) + (if b.pair then s.freeWords (f + 1) (s.prio7 asid) else 0)

/-- The fold of greatest room, the lowest on a tie. -/
def State.roomiest (s : State) (b : Block) (asid : Nat) (fs : List Nat) : Option Nat :=
  fs.foldl (fun acc f => match acc with
    | none => some f
    | some g => if s.roomOf b asid g < s.roomOf b asid f then some f else some g) none

/-- The fold that R176 chooses for a gang. -/
def State.placeFor (s : State) (die : Nat) (b : Block) (asid : Nat) (flock : W32) : Option Nat :=
  s.roomiest b asid ((dieFolds die).filter (s.fits b asid flock))

/-- The words of an empty fold for a queue (R179, R378). -/
def State.emptyWords (s : State) (asid f : Nat) : Nat :=
  131072 - (if s.prio7 asid then 0 else reserveWords (s.fold f).preemptReserve)

/-- Whether some empty fold, or pair, of the die could hold one gang (R179). -/
def State.couldFit (s : State) (die : Nat) (b : Block) (asid : Nat) : Bool :=
  (dieFolds die).any (fun f =>
    if b.pair then f % 2 == 0 && decide (b.words 0 ≤ s.emptyWords asid f) && decide (b.words 1 ≤ s.emptyWords asid (f + 1))
    else decide (b.words 0 ≤ s.emptyWords asid f))

/-! ## Starting LAUNCH and LOOP (R169, R170) -/

/-- A LAUNCH or LOOP packet is checked and then places its gangs. -/
def State.startFlock (s : State) (die q : Nat) (type : Nat) : State :=
  match s.beginPacket die q (· == type) with
  | none => s
  | some (s1, none) => s1
  | some (s1, some p) =>
    if !pktOk p.bytes then s1.startWith die p 2 .completing
    else match s1.readLaunch die q (field p.bytes 8 8) with
      | .error s2 => s2.startWith die p 3 .completing
      | .ok (b, s2) =>
        let place (s : State) (lr : Option LoopRec) : State :=
          if p.gangs = 0 then s.startWith die p 0 .completing
          else if s.couldFit die b (queueAsid die q) then s.startWith die { p with block := some b, loop := lr } 0 .placing
          else s.startWith die p 1 .completing
        if type = 1 then place s2 none
        else match s2.launchRead die q 0x46 (field p.bytes 40 8) 64 with
          | .error s3 => s3.startWith die p 4 .completing
          | .ok (d, s3) => match parseLoop b d with
            | none => s3.startWith die p 4 .completing
            | some lr => place s3 (some lr)

/-- R170. The Shepherd starts a LAUNCH packet. -/
def execPktLaunch (die q : Nat) (s : State) : Out3 := .next (s.startFlock die q 1)

/-- R197. The Shepherd starts a LOOP packet. -/
def execPktLoop (die q : Nat) (s : State) : Out3 := .next (s.startFlock die q 2)

/-! ## Placement (R176 to R181) -/

/-- The entries of a `.mirror` image that are valid (R35, R78). -/
def mirrorEntries (d : List Byte) : Tbl (List Parcel) :=
  (List.range 512).filterMap (fun i =>
    let e := (d.drop (32 * i)).take 32
    let parcels := (List.range 16).map (fun j => parcelOf (e.getD (2 * j) 0) (e.getD (2 * j + 1) 0))
    let h := parcels.headD 0
    let n := headerLength h
    let form := bits h.toNat 15 14
    let okRaw := match takeRaw h (e.drop 2) with
      | some r => !(rawAt r 0 0).malformed
      | none => false
    if bit (field d (512 * 32 + i / 8) 1) (i % 8) && (form == 0 || form == 2) && n ≤ 16 && okRaw then
      some (i, parcels.take n)
    else none)

/-- Load a mirror table (R176); an image that cannot be read leaves every entry invalid. -/
def State.loadMirror (s : State) (die asid f t : Nat) (addr : W64) : State :=
  match s.readVirt die asid true addr.toNat (512 * 32 + 64) with
  | .ok (d, s1) => s1.modFold f (fun x => { x with mirrors := Tbl.put x.mirrors t (mirrorEntries d) })
  | .error e =>
    (e.2.2.modFold f (fun x => { x with mirrors := Tbl.put x.mirrors t [] })).dieNotice 0x47 0 (BitVec.ofNat 64 e.2.1)

/-- The mirror table of a half of a gang: loaded or shared, and MIRROR_SEL written (R36). -/
def State.bindMirror (s : State) (gid f : Nat) (g : Gang) : State :=
  let half := g.half f
  if g.block.mirrorAddr = 0 then s.setGang gid { g with mirrorSel := Tbl.put g.mirrorSel half 0 }
  else match s.mirrorFor f g.flock with
    | none => s
    | some (t, load) =>
      let s1 := if load then s.loadMirror g.die g.asid f t g.block.mirrorAddr else s
      s1.modGang gid (fun g => { g with mirrorSel := Tbl.put g.mirrorSel half (BitVec.ofNat 64 (256 + t)) })

/-- An engine newly held (R313, R387): banks invalid, tiles and the cycle-class table 0. -/
def State.takeEngine (s : State) (f : Nat) : State :=
  let s1 := s.modFold f (fun x => { x with bankValid := [], mxHist := [], mxc := [], mxcOvf := [] })
  { s1 with mem := Memory.clear s1.mem (Memory.accKey f 0) (2 ^ 18) }

/-- What an engine held is lost: its supply is off while no gang holds it (R3, R442). -/
def State.engineOff (s : State) (f : Nat) : State :=
  let s1 := s.modFold f (fun x => { x with bankValid := [], mxHist := [], mxc := [], mxcOvf := [] })
  { s1 with mem := Memory.clear (Memory.clear s1.mem (Memory.accKey f 0) (2 ^ 18)) (Memory.bankKey f 0 0) (2 ^ 15) }

/-- The halves of a gang with their folds. -/
def Gang.halves (g : Gang) : List (Nat × Nat) :=
  if g.block.pair then [(0, g.foldOf 0), (1, g.foldOf 1)] else [(0, g.foldOf 0)]

/-- A gang leaves its place: the contents of its scratchpad blocks, ring slots among them, are lost (R347; what a later
holder of the block reads: log entry 28), and its engines lose their supply. -/
def State.dropGang (s : State) (gid : Nat) (g : Gang) : State :=
  let clear (m : List Host.Cell) (half : Nat) : List Host.Cell :=
    if g.block.scrLog2 = 0 then m
    else Memory.clear m (Memory.spmKey (g.foldOf half) (Tbl.get g.base half 0)) (2 ^ g.block.scrLog2)
  let s1 : State := { s with gangs := Tbl.drop s.gangs gid, mem := g.halves.foldl (fun m h => clear m h.1) s.mem }
  if g.hasEngine then (if g.block.pair then (s1.engineOff (g.foldOf 0)).engineOff (g.foldOf 1) else s1.engineOff g.fold) else s1

/-- A context with nothing in it. -/
def Ctx.blank (n budget : Nat) : Ctx :=
  { tid := 0, gang := 0, role := 0, kind := 3, prio := 3, teamId := 0, gangIdx := 0, flock := 0, asid := 0, nlanes := n,
    budget := budget, shadow := false, stopped := false, conf := false, live := allLanes n, g := [], s := [], k := [],
    pc := 0, sched := 0, us := UnitState.fresh, frame := none, cause := 0, trapPc := 0, tstatus := 0, tvec := 0,
    faultBundle := 0, faultCycle := 0, faultAddr := 0, faultLanes := 0, emu0 := 0, emu1 := 0, emu2 := 0, emu3 := 0,
    fpCtl := 0, terms := [], stall := [], wait := .ready, frozen := false, lastIssue := 0, loop := none, barMem := [],
    ringMem := [], due := [], sfb := [], sfbWait := [], memq := [], ops := [], nextUid := 8, lines := [], brkSkip := false,
    fmtBad := false, sealed := false }

/-- A team as it starts (R180). -/
def Gang.newTeam (g : Gang) (gid tid teamId role i now : Nat) : Ctx :=
  let r := g.block.role role
  { Ctx.blank r.lanes r.budget with
    tid := tid, gang := gid, role := role, kind := r.kind, prio := r.prio, teamId := teamId, gangIdx := g.gangIdx,
    flock := g.flock, asid := g.asid, conf := g.conf, pc := r.entry,
    s := [(0, g.args), (1, BitVec.ofNat 64 g.gangIdx), (2, BitVec.ofNat 64 role), (3, BitVec.ofNat 64 i)],
    lastIssue := now,
    loop := g.loop.map (fun l => { lrec := l, trips := [], armed := true, started := false, step := 0, t := 0, k := 0, stepEnd := 0 }) }

/-- The teams of a gang take slots, in TEAM_ID order (R180). -/
def State.placeTeams (s : State) (gid : Nat) (g : Gang) : State :=
  g.block.teamList.zipIdx.foldl (fun s x =>
    let f := g.foldOf (g.block.teamHalf x.1.2)
    match s.freeSlots f with
    | [] => s
    | slot :: _ =>
      let c := g.newTeam gid s.nextId x.2 x.1.1 x.1.2 (s.fold f).cycle
      { s.setCtx { fold := f, slot := slot } c with nextId := s.nextId + 1 }) s

/-- The blocks, engines, wide registers and mirror tables of a gang whose fold is chosen. -/
def State.seatGang (s : State) (gid : Nat) (g : Gang) (fresh : Bool) : State :=
  let base := g.halves.foldl (fun t h =>
    Tbl.put t h.1 ((if g.block.scrLog2 = 0 then some 0 else buddy (s.scratchTaken h.2) g.block.scrLog2).getD 0)) []
  let g1 := { g with base := base, mirrorSel := [] }
  let s1 := s.setGang gid g1
  g.halves.foldl (fun s h =>
    let s2 := if g.hasEngine then s.takeEngine h.2 else s
    let s3 := if fresh then { s2 with mem := Memory.clear s2.mem (Memory.wideKey gid h.1 0) (2 ^ 15) } else s2
    match s3.gang gid with
    | some g => s3.bindMirror gid h.2 g
    | none => s3) s1

/-- Place the next gang of a packet on a fold. -/
def State.placeGang (s : State) (die : Nat) (p : Packet) (b : Block) (f : Nat) : State :=
  let gid := s.nextId
  let g : Gang :=
    { die := die, queue := p.q, flock := p.flock, gangIdx := p.placed, asid := queueAsid die p.q,
      args := BitVec.ofNat 64 (field p.bytes 24 8), save := BitVec.ofNat 64 (field p.bytes 32 8), conf := p.conf, fold := f,
      block := b, hasEngine := b.needsEngine, base := [], mirrorSel := [], liveBase := b.liveAddr, smapV := [],
      smapS := [], sectors := [], fm := b.fm, barriers := [], rings := b.rings,
      teams := b.teamList.zipIdx.map (fun x => (x.2, x.1.1)), loop := p.loop, pktIdx := p.idx, saving := false, asked := [],
      aborted := false, froze := p.froze }
  let s1 := ({ s with nextId := gid + 1 }.seatGang gid g true).placeTeams gid g
  s1.modPacket die p.num (fun x =>
    { x with placed := x.placed + 1, froze := [], st := if x.placed + 1 = x.gangs then .running else .placing })

/-- The packet of a queue that is placing. -/
def State.placingOf (s : State) (die q : Nat) : Option Packet :=
  if !s.shepherdOn die then none else (s.die die).packets.find? (fun p => p.q == q && p.st == .placing)

/-- The team that a gang of a queue of base priority 7 has frozen next: of the lowest-priority queue on the folds that the
gang takes (R378). -/
def State.nextToFreeze (s : State) (fs : List Nat) : Option (CtxId × Ctx) :=
  let prio (c : Ctx) : Nat := (s.queue (c.asid / 64) (c.asid % 64)).prio
  let all : List (CtxId × Ctx) := fs.flatMap (fun f => (s.onFold f).map (fun x => ({ fold := f, slot := x.1 }, x.2)))
  (all.filter (fun x => !x.2.shadow && !x.2.frozen && decide (prio x.2 < 7) &&
      !x.2.due.any (fun d => d.code == 0x3B))).foldl (fun acc x => match acc with
    | none => some x
    | some y => if prio x.2 < prio y.2 then some x else some y) none

/-- A request to freeze a team (R377). -/
def Ctx.askFreeze (c : Ctx) : Ctx :=
  if c.frozen || c.due.any (fun d => d.code == 0x3B) then c else c.addDue (DueTrap.async 0x3B)

/-- The team to freeze for a gang that fits nowhere (R378): of the fold, or of the pair of folds, on which it has the most
room, when its queue's base priority is 7. -/
def State.toFreeze (s : State) (die : Nat) (b : Block) (asid : Nat) : Option (CtxId × Ctx) :=
  let on (f : Nat) : Bool := (s.die die).powered (f % 96)
  if !s.prio7 asid then none
  else match s.roomiest b asid ((dieFolds die).filter (fun f => on f && (!b.pair || f % 2 == 0 && on (f + 1)))) with
    | none => none
    | some f => s.nextToFreeze (if b.pair then [f, f + 1] else [f])

/-- R176. The next gang of the queue's packet is placed on the fold that R176 chooses; a gang of a queue of base priority 7
that does not fit has the teams of lower-priority queues frozen (R378). -/
def execGangPlace (die q : Nat) (s : State) : Out3 :=
  match s.placingOf die q with
  | none => .next s
  | some p =>
    match p.block with
    | none => .next s
    | some b =>
      let asid := queueAsid die q
      match s.placeFor die b asid p.flock with
      | some f => .next (s.placeGang die p b f)
      | none =>
        match s.toFreeze die b asid with
        | none => .next s
        | some (id, c) =>
          .next ((s.setCtx id c.askFreeze).modPacket die p.num (fun x => { x with froze := x.froze ++ [(CtxId.key id, c.tid)] }))

/-! ## The end of gangs and packets (R169, R172, R182) -/

/-- The engine operations in flight of a gang. -/
def State.gangOps (s : State) (gid : Nat) : Bool := s.folds.any (fun kv => kv.2.eng.any (fun e => e.gang == gid))

/-- Whether a gang has ended (R182). -/
def State.gangDone (s : State) (gid : Nat) (g : Gang) : Bool :=
  g.teams.isEmpty && !s.gangOps gid &&
    (g.aborted || !g.halves.any (fun h => (g.maps h.1).any (s.mapHeld gid h.1)))

/-- The dirty bytes of a gang's maps are written back (R215); a fault posts C_WBFAULT. -/
def State.writeBackGang (s : State) (gid : Nat) (g : Gang) : State :=
  g.halves.foldl (fun s h => (g.maps h.1).foldl (fun s m =>
    s.writeBackMap gid h.1 m (fun s va => s.dieNotice 0x37 0 (BitVec.ofNat 64 va))) s) s

/-- What the folds of a gang have merged for the dirty log is in memory (R233): the end of the gang releases it. -/
def State.flushGang (s : State) (g : Gang) : State := g.halves.foldl (fun s h => s.flushDlog h.2) s

/-- Teams frozen for a gang go on (R378). -/
def State.thaw (s : State) (l : List (Nat × Nat)) : State :=
  l.foldl (fun s x => s.modCtx (ctxOfKey x.1) (fun c =>
    if c.tid ≠ x.2 then c
    else if c.frozen ∧ c.cause = 0x3B then c.resume
    else { c with due := c.due.filter (fun d => d.code != 0x3B) })) s

/-- A gang's landing counters are freed (R424). -/
def State.freeCounters (s : State) (gid : Nat) : State :=
  { s with dies := s.dies.map (fun x => (x.1, { x.2 with landing := x.2.landing.map (fun kv =>
    if kv.2.gang = gid then (kv.1, { kv.2 with bound := false }) else kv) })) }

/-- R182. A gang whose teams have exited and whose engine operations are done gives up what it holds. -/
def execGangEnd (gang : Nat) (s : State) : Out3 :=
  match s.gang gang with
  | none => .next s
  | some g =>
    if !s.gangDone gang g then .next s
    else
      let s1 := (if g.aborted then s else s.writeBackGang gang g).flushGang g
      let s2 := (s1.freeCounters gang).thaw g.froze
      .next (s2.dropGang gang g)

/-- Whether a gang of a flock is resident or saved. -/
def State.flockLives (s : State) (flock : W32) : Bool :=
  s.gangs.any (fun kv => kv.2.flock == flock) ||
    (List.range 4).any (fun d => (s.die d).saved.any (fun x => x.gang.flock == flock))

/-- Whether a packet is ready to complete (R170, R172). -/
def State.packetDone (s : State) (p : Packet) : Bool :=
  let isFlock := pktType p.bytes == 1 || pktType p.bytes == 2
  (p.st == .completing || p.st == .running) && !(isFlock && s.flockLives p.flock)

/-- R169. A packet completes: its signal record is written as one release, or C_SIGFAULT posted. -/
def execPacketComplete (die q idx : Nat) (s : State) : Out3 :=
  match (s.die die).packets.find? (fun p => p.q == q && p.idx == idx && s.packetDone p) with
  | none => .next s
  | some p =>
    let s1 := s.modDie die (fun d => { d with packets := d.packets.filter (fun x => x.num != p.num) })
    let a := p.sigAddr
    if a = 0 ∨ a % 16 ≠ 0 then .next s1
    else match s1.writeVirt die (queueAsid die q) true a
        (bytesOf 8 (field p.bytes 56 8) ++ bytesOf 4 p.status ++ bytesOf 4 0) with
      | .ok s2 => .next s2
      | .error e => .next (e.2.2.dieNotice 0x43 0 (BitVec.ofNat 64 e.2.1))

/-- Perform what is left of a team's queue, up to `fuel` operations. An access that waits for another device ends it. -/
def State.performAll (id : CtxId) : Nat → State → State
  | 0, s => s
  | n + 1, s =>
    match s.performNext id none with
    | none => s
    | some s1 => State.performAll id n s1

/-- A team's stores, atomics and red operations complete, as before an exit (R98). -/
def State.settleTeam (s : State) (id : CtxId) : State :=
  match s.ctx id with
  | none => s
  | some c => State.performAll id c.memq.length s

/-- The end of a flock by the control node or by ctx KILL (R172, R215, R376): its teams exit under R98, the dirty bytes
of its maps are discarded, and its packet completes with LAUNCH_ABORTED. -/
def State.endFlock (s : State) (flock : W32) : State :=
  let abort (g : Gang) : Gang := if g.flock = flock then { g with aborted := true } else g
  let pkt (p : Packet) : Packet :=
    if p.flock = flock ∧ (p.st = .placing ∨ p.st = .running) then { p with st := .completing, status := 5 } else p
  let die (d : Die) : Die :=
    { d with saved := d.saved.filter (fun x => x.gang.flock != flock), packets := d.packets.map pkt }
  let s1 : State := { s with gangs := s.gangs.map (fun kv => (kv.1, abort kv.2))
                             dies := s.dies.map (fun kv => (kv.1, die kv.2)) }
  let mine := s1.ctxs.filter (fun kv => !kv.2.shadow && kv.2.flock == flock)
  let s2 := mine.foldl (fun s kv =>
    let id := ctxOfKey kv.1
    ((s.settleTeam id).pushEvent id.fold (eventWord 0x41 0 id.slot false true 0)).leave id) s1
  let gone := (List.range 4).flatMap (fun d => (s2.die d).evicted.filter (fun t => t.ctx.flock == flock))
  let s3 := gone.foldl (fun s t => s.modGang t.gang (fun g => { g with teams := Tbl.drop g.teams t.ctx.teamId })) s2
  let clean (d : Die) : Die := { d with evicted := d.evicted.filter (fun t => t.ctx.flock != flock) }
  { s3 with dies := s3.dies.map (fun kv => (kv.1, clean kv.2)) }

/-- R172. The control node ends a flock. -/
def execFlockAbort (flock : W32) (s : State) : Out3 := .next (s.endFlock flock)

end Sys2Proof.Machine
end

