-- ==== Sys2Proof/Machine/Spill.lean ====
section
/-! DEFINITION. The team image (R380, R381, R452): its parts in order, each with its bytes and with what a new value of
them does to the team. -/

namespace Sys2Proof.Machine

/-- A part of a team image: its bytes, and the team with other bytes in their place; a fixed part changes nothing. -/
structure Part where
  bytes : List Byte
  put : Ctx → List Byte → Ctx

def Part.fixed (bs : List Byte) : Part := { bytes := bs, put := fun c _ => c }

/-- Bytes padded with zeros to a multiple of 8 (R452). -/
def pad8 (bs : List Byte) : List Byte := bs ++ List.replicate (roundUp bs.length 8 - bs.length) 0

/-- An 8-byte word. -/
def word8 (x : W64) : List Byte := bytesOf 8 x.toNat

/-- The word at byte offset `i`. -/
def getWord (bs : List Byte) (i : Nat) : W64 := BitVec.ofNat 64 (field bs i 8)

/-- A lane set in one bit for each lane (R452). -/
def laneBytes (n : Nat) (m : Lanes) : List Byte := bytesOf (n / 8) m.toNat
def getLanes (n : Nat) (bs : List Byte) (i : Nat) : Lanes := BitVec.ofNat 1024 (field bs i (n / 8))

/-- One value for each lane, of `w` bytes. -/
def valBytes (n w : Nat) (v : Vals) : List Byte := (List.range n).flatMap (fun l => bytesOf w (v.at l).toNat)
def getVals (n w : Nat) (bs : List Byte) (i : Nat) : Vals :=
  (List.range n).map (fun l => BitVec.ofNat 64 (field bs (i + w * l) w))

/-! ## The head (R381) -/

/-- The code of a wait state. -/
def Wait.code : Wait → Nat
  | .ready => 0
  | .port _ => 1
  | .exiting => 1
  | .flag => 2
  | .barrier _ => 3
  | .ring _ _ => 4
  | .grow _ => 5
  | .idle _ => 6
  | .yield _ => 6
  | .yieldc _ => 6
  | .xlPath => 6
  | .fetch => 7

/-- HKIND and DETAIL of a wait state. -/
def Wait.detail : Wait → Nat × Nat
  | .barrier i => (0, i % 16)
  | .ring i c => (0, i % 8 + 8 * b2n c)
  | .grow b => (0, b % 256)
  | .idle k => (0, k % 2 ^ 15)
  | .yield k => (1, k % 32)
  | .yieldc j => (2, j % 16)
  | .xlPath => (3, 0)
  | _ => (0, 0)

/-- The wait state that a code and its detail name (R381); a port, flag or fetch wait finds again what it waits for. -/
def Wait.ofImage (w : Wait) (code hkind d : Nat) : Wait :=
  match code with
  | 0 => .ready
  | 1 => if w.code = 1 then w else .port 0
  | 2 => .flag
  | 3 => .barrier (d % 16)
  | 4 => .ring (d % 8) (bit d 3)
  | 5 => .grow (d % 256)
  | 6 => (match hkind with
    | 0 => .idle (d % 2 ^ 15)
    | 1 => .yield (d % 32)
    | 2 => .yieldc (d % 16)
    | _ => .xlPath)
  | _ => .fetch

/-- A wait state with a new detail. -/
def Wait.withDetail (w : Wait) (hkind d : Nat) : Wait := w.ofImage w.code hkind d

/-- A pending fence as bits 63 and 62:60. -/
def fenceBits (f : Option (BitVec 3)) : Nat :=
  match f with
  | some x => 2 ^ 63 + x.toNat * 2 ^ 60
  | none => 0

def getFence (v : Nat) : Option (BitVec 3) := if bit v 63 then some (BitVec.ofNat 3 (bits v 62 60)) else none

/-- The address at which the team resumes: that of its latest trap when it is Frozen. -/
def Ctx.resumePc (c : Ctx) : W64 := if c.frozen then c.trapPc else c.pc

/-- The loop sequencer's 16 bytes (R381). -/
def loopBytes (l : Option LoopSeq) : List Byte :=
  match l with
  | none => List.replicate 16 0
  | some q => bytesOf 4 q.step ++ bytesOf 4 q.t ++ bytesOf 4 q.k ++ bytesOf 1 (b2n q.armed + 2 * b2n q.started) ++
      List.replicate 3 0

/-- An index that a team may hold, with HELD in bit 31. -/
def heldWord (x : Option Nat) : Nat :=
  match x with
  | some i => i % 2 ^ 31 + 2 ^ 31
  | none => 0

def getHeld (v : Nat) : Option Nat := if bit v 31 then some (v % 2 ^ 31) else none

/-- A written index, taken as the index nearest above the one held that agrees with it modulo 2^31. -/
def rehold (old : Option Nat) (v : Nat) : Option Nat :=
  match getHeld v, old with
  | some i, some j => some (if i = j % 2 ^ 31 then j else i)
  | x, _ => x

/-- A part of one 8-byte word. -/
def wordPart (x : W64) (f : Ctx → W64 → Ctx) : Part := { bytes := word8 x, put := fun c bs => f c (getWord bs 0) }

/-- The head, offsets 0x000 to 0x41F; `len` is the image's length. -/
def Ctx.headParts (c : Ctx) (len : Nat) : List Part :=
  let (hk, d) := c.wait.detail
  [ Part.fixed ([0x4B, 0x43, 0x58, 0x01] ++ bytesOf 4 len),
    wordPart c.resumePc (fun c v => { c with pc := v &&& ~~~1, trapPc := v &&& ~~~1 }),
    Part.fixed (bytesOf 8 c.sched),
    Part.fixed (bytesOf 2 c.nlanes ++ bytesOf 1 c.budget ++ bytesOf 1 c.role ++ bytesOf 2 c.teamId ++ bytesOf 1 c.asid ++
      bytesOf 1 c.wait.code),
    wordPart (BitVec.ofNat 64 (fenceBits c.us.fence + hk * 2 ^ 58 + d)) (fun c v =>
      { c with us := { c.us with fence := getFence v.toNat },
               wait := c.wait.withDetail (bits v.toNat 59 58) (bits v.toNat 31 0) }),
    wordPart (BitVec.ofNat 64 c.us.flags.toNat) (fun c v => { c with us := { c.us with flags := v.truncate 12 } }),
    { bytes := loopBytes c.loop
      put := fun c bs => { c with loop := c.loop.map (fun q =>
        { q with step := field bs 0 4, t := field bs 4 4, k := field bs 8 4, armed := bit (field bs 12 1) 0,
                 started := bit (field bs 12 1) 1,
                 stepEnd := if field bs 0 4 = q.step ∧ field bs 8 4 = q.k then q.stepEnd
                   else (q.lrec.region (field bs 8 4) (field bs 0 4)).2 }) } },
    wordPart c.cause (fun c v => { c with cause := v &&& 0x7F }),
    wordPart c.trapPc (fun c v => { c with trapPc := v &&& ~~~1 }),
    wordPart c.faultBundle (fun c v => { c with faultBundle := v }),
    wordPart c.faultCycle (fun c v => { c with faultCycle := v &&& 0xFFFFFFFFFFFF }),
    wordPart c.faultAddr (fun c v => { c with faultAddr := v }),
    wordPart c.tvec (fun c v => { c with tvec := v &&& ~~~1 }),
    wordPart c.tstatus (fun c v => { c with tstatus := v &&& 0xFFFE0300 }),
    wordPart c.fpCtl (fun c v => { c with fpCtl := v &&& 0x1F1F }),
    wordPart c.emu0 (fun c v => { c with emu0 := v }), wordPart c.emu1 (fun c v => { c with emu1 := v }),
    wordPart c.emu2 (fun c v => { c with emu2 := v }), wordPart c.emu3 (fun c v => { c with emu3 := v }),
    { bytes := bytesOf 128 c.faultLanes.toNat, put := fun c bs => { c with faultLanes := BitVec.ofNat 1024 (natOf bs) } },
    { bytes := bytesOf 128 c.live.toNat
      put := fun c bs => { c with live := BitVec.ofNat 1024 (natOf bs) &&& allLanes c.nlanes } },
    { bytes := (List.range 32).flatMap (fun i => word8 (c.sReg i))
      put := fun c bs => { c with s := (List.range 32).map (fun i => (i, getWord bs (8 * i))) } },
    { bytes := (List.range 32).flatMap (fun i => bytesOf 8 (Tbl.get c.terms i 0))
      put := fun c bs => { c with terms := (List.range 32).map (fun i => (i, field bs (8 * i) 8 % 2 ^ 48)) } },
    { bytes := (List.range 16).flatMap (fun i => bytesOf 8 (Tbl.get c.stall i 0))
      put := fun c bs => { c with stall := (List.range 8).map (fun i => (i, field bs (8 * i) 8 % 2 ^ 48)) } } ]

/-- The memory of a barrier as a written word gives it: a generation that agrees modulo 2^31 is the one held. -/
def putBar (t : Tbl BarMem) (i v : Nat) : Tbl BarMem :=
  match Tbl.find t i with
  | none => if v = 0 then t else Tbl.put t i { gen := v % 2 ^ 31, waiting := bit v 31 }
  | some m =>
    let gen := if v % 2 ^ 31 = m.gen % 2 ^ 31 then m.gen else v % 2 ^ 31
    Tbl.put t i { gen := gen, waiting := bit v 31 }

/-- The held indices of a ring as the ring part gives them. -/
def putRing (t : Tbl RingMem) (i : Nat) (bs : List Byte) : Tbl RingMem :=
  let m := Tbl.get t i { prod := none, cons := none }
  let p := rehold m.prod (field bs (8 * i) 4)
  let c := rehold m.cons (field bs (8 * i + 4) 4)
  if p = m.prod ∧ c = m.cons then t else Tbl.put t i { prod := p, cons := c }

/-- Barrier memory and ring holds, offsets 0x450 to 0x4CF, and the zeros after them. -/
def Ctx.syncParts (c : Ctx) : List Part :=
  [ { bytes := (List.range 16).flatMap (fun i =>
        let m := Tbl.get c.barMem i { gen := 0, waiting := false }
        bytesOf 4 (m.gen % 2 ^ 31 + b2n m.waiting * 2 ^ 31))
      put := fun c bs => { c with barMem := (List.range 16).foldl (fun t i => putBar t i (field bs (4 * i) 4)) c.barMem } },
    { bytes := (List.range 8).flatMap (fun i =>
        let m := Tbl.get c.ringMem i { prod := none, cons := none }
        bytesOf 4 (heldWord m.prod) ++ bytesOf 4 (heldWord m.cons))
      put := fun c bs => { c with ringMem := (List.range 8).foldl (fun t i => putRing t i bs) c.ringMem } },
    Part.fixed (List.replicate 48 0) ]

/-! ## g registers (R380) -/

/-- Which registers are live at the team's PC (R380); none when the liveness table is bad, and then every register is
saved as Full (R368, C_LIVEBAD). -/
abbrev Liveness := Option (Nat → Bool)

/-- The format tag of a register's lanes (R380). -/
def gTag (vs : List W32) (live : Liveness) (j : Nat) : Nat :=
  let v0 := vs.headD 0
  let d := vs.getD 1 0 - v0
  let sext8 (v : W32) : Bool := (v.truncate 8 : BitVec 8).signExtend 32 == v
  let sext16 (v : W32) : Bool := (v.truncate 16 : BitVec 16).signExtend 32 == v
  if live.isNone then 0
  else if !(live.getD (fun _ => true)) j then 6
  else if vs.all (· == 0) then 5
  else if vs.all (· == v0) then 1
  else if vs.zipIdx.all (fun x => x.1 == v0 + BitVec.ofNat 32 x.2 * d) then 2
  else if vs.all sext8 then 3
  else if vs.all sext16 then 4
  else 0

/-- The packed data of a register under a tag (R380). -/
def gData (vs : List W32) (tag : Nat) : List Byte :=
  let v0 := vs.headD 0
  match tag with
  | 1 => bytesOf 4 v0.toNat
  | 2 => bytesOf 4 v0.toNat ++ bytesOf 4 (vs.getD 1 0 - v0).toNat
  | 3 => vs.map (fun v => v.truncate 8)
  | 4 => vs.flatMap (fun v => bytesOf 2 v.toNat)
  | 0 => vs.flatMap (fun v => bytesOf 4 v.toNat)
  | _ => []

/-- How many bytes a register takes under a tag. -/
def gSize (n tag : Nat) : Nat :=
  match tag with
  | 1 => 4
  | 2 => 8
  | 3 => n
  | 4 => 2 * n
  | 0 => 4 * n
  | _ => 0

/-- The register that packed data give under a tag. -/
def gUnpack (n tag : Nat) (bs : List Byte) : List W32 :=
  let f (i k : Nat) : Nat := field bs i k
  match tag with
  | 1 => List.replicate n (BitVec.ofNat 32 (f 0 4))
  | 2 => (List.range n).map (fun l => BitVec.ofNat 32 (f 0 4) + BitVec.ofNat 32 l * BitVec.ofNat 32 (f 4 4))
  | 3 => (List.range n).map (fun l => (BitVec.ofNat 8 (f l 1)).signExtend 32)
  | 4 => (List.range n).map (fun l => (BitVec.ofNat 16 (f (2 * l) 2)).signExtend 32)
  | 0 => (List.range n).map (fun l => BitVec.ofNat 32 (f (4 * l) 4))
  | _ => List.replicate n 0

/-- The lanes of a register, retired ones included. -/
def Ctx.gLanes (c : Ctx) (j : Nat) : List W32 := (List.range c.nlanes).map (fun l => c.gReg j l)

/-- The tags of the registers below the budget. -/
def Ctx.tags (c : Ctx) (live : Liveness) : List Nat := (List.range c.budget).map (fun j => gTag (c.gLanes j) live j)

/-- Registers read from packed bytes under tags; `same` keeps those whose tag says dead and has not changed. -/
def loadG (n : Nat) (old : List Nat) : Nat → List Nat → List Byte → Tbl (List W32) → Tbl (List W32)
  | _, [], _, t => t
  | j, tag :: r, bs, t =>
    let t1 := if tag = 6 ∧ old.getD j 0 = 6 then t else Tbl.put t j (gUnpack n tag bs)
    loadG n old (j + 1) r (bs.drop (gSize n tag)) t1

/-- The tag part: 3 bits a register. New tags read the packed data anew; tag 7 spoils the image. -/
def Ctx.tagPart (c : Ctx) (live : Liveness) : Part :=
  let ts := c.tags live
  let packed := (List.range c.budget).flatMap (fun j => gData (c.gLanes j) (ts.getD j 0))
  { bytes := bytesOf 48 (ts.zipIdx.foldl (fun a x => a + x.1 * 8 ^ x.2) 0)
    put := fun c bs =>
      let v := natOf bs
      let new := (List.range c.budget).map (fun j => v / 8 ^ j % 8)
      { c with g := loadG c.nlanes ts 0 new packed c.g, fmtBad := c.fmtBad || new.contains 7 } }

/-- The packed registers. -/
def Ctx.gPart (c : Ctx) (live : Liveness) : Part :=
  let ts := c.tags live
  { bytes := pad8 ((List.range c.budget).flatMap (fun j => gData (c.gLanes j) (ts.getD j 0)))
    put := fun c bs => { c with g := loadG c.nlanes ts 0 ts bs c.g } }

/-! ## Unit records (R452) -/

/-- The width in bytes of a unit's R. -/
def rWidth (u : Nat) : Nat := if u ∈ [11, 12, 14, 20, 21] then 8 else 4

/-- The bytes of a port: one value for a uniform port, one for each lane otherwise. -/
def portBytes (n u p : Nat) (v : Vals) : List Byte :=
  if !hasPort u p then [] else if uniformPort u p then word8 (v.at 0)
  else pad8 (valBytes n (if port64 u p then 8 else 4) v)

/-- The size of a port's element. -/
def portSize (n u p : Nat) : Nat :=
  if !hasPort u p then 0 else if uniformPort u p then 8 else roundUp (n * (if port64 u p then 8 else 4)) 8

/-- A port read from its element. -/
def getPort (n u p : Nat) (bs : List Byte) (i : Nat) (old : Vals) : Vals :=
  if !hasPort u p then old else if uniformPort u p then [getWord bs i] else getVals n (if port64 u p then 8 else 4) bs i

/-- The offsets of the ports A, B, C, T after an offset, and the offset that follows them. -/
def portOffs (n u i : Nat) : Nat × Nat × Nat × Nat × Nat :=
  let a := i
  let b := a + portSize n u 0
  let c := b + portSize n u 1
  let t := c + portSize n u 2
  (a, b, c, t, t + portSize n u 3)

/-- The size of R in a unit record. -/
def rSize (n u : Nat) : Nat := if !hasR u then 0 else if u = 21 then 8 else roundUp (n * rWidth u) 8

/-- R in a unit record: a lane that holds a token holds 0. -/
def rBytes (n u : Nat) (p : UPorts) : List Byte :=
  let tok : Lanes := (p.frec.map FaultRec.lanes).getD 0
  let v : Vals := (List.range n).map (fun l => if tok.getLsbD l then 0 else p.r.at l)
  if !hasR u then [] else if u = 21 then word8 (p.r.at 0) else pad8 (valBytes n (rWidth u) v)

/-- A pending entry of a unit. -/
def Pend.bytes (n : Nat) (p : Pend) : List Byte :=
  bytesOf 4 p.left ++ bytesOf 1 (if p.unit = 9 then p.kdst.toNat else 0) ++ List.replicate 3 0 ++
    pad8 (laneBytes n p.mask) ++ pad8 (valBytes n (rWidth p.unit) p.vals)

/-- The size of a pending entry. -/
def pendSize (n u : Nat) : Nat := 8 + roundUp (n / 8) 8 + roundUp (n * rWidth u) 8

/-- A pending entry read from its bytes; what the image does not hold stays. -/
def getPend (n u : Nat) (bs : List Byte) (i : Nat) (old : Option Pend) : Pend :=
  let p := old.getD { unit := u, left := 0, mask := 0, vals := [], carry := none, kdst := 0, excs := [], bundle := 0,
                      cycle := 0 }
  { p with left := field bs i 4, kdst := BitVec.ofNat 3 (field bs (i + 4) 1), mask := getLanes n bs (i + 8),
           vals := getVals n (rWidth u) bs (i + 8 + roundUp (n / 8) 8) }

/-- The flag that a unit's latest operation owns. -/
def UnitState.ownedFlag (us : UnitState) (u : Nat) : Option Nat :=
  (us.owners.find? (fun kv => kv.2 == (us.unit u).last && (us.unit u).last != 0)).map Prod.fst

/-- The record of unit `u`. -/
def UnitState.record (us : UnitState) (n u : Nat) : List Byte :=
  let p := us.unit u
  let mine := us.pend.filter (fun x => x.unit == u)
  let own := us.ownedFlag u
  bytesOf 1 u ++ bytesOf 1 (b2n p.full + 2 * b2n own.isSome) ++ bytesOf 1 (own.getD 0xFF) ++ [0] ++
    bytesOf 2 mine.length ++ [0, 0] ++ portBytes n u 0 p.a ++ portBytes n u 1 p.b ++ portBytes n u 2 p.c ++
    portBytes n u 3 p.held ++ rBytes n u p ++ (if u = 1 ∨ u = 2 then pad8 (laneBytes n p.carry) else []) ++
    mine.flatMap (Pend.bytes n)

/-- The unit state with the record of unit `u` read from bytes, and the offset after it. -/
def UnitState.load (n : Nat) (bs : List Byte) (us : UnitState) (u i : Nat) : UnitState × Nat :=
  let p := us.unit u
  let mine := us.pend.filter (fun x => x.unit == u)
  let fl := field bs (i + 1) 1
  let cnt := field bs (i + 4) 2
  let (a, b, c, t, e) := portOffs n u (i + 8)
  let e1 := e + rSize n u
  let e2 := e1 + (if u = 1 ∨ u = 2 then roundUp (n / 8) 8 else 0)
  let tok : Lanes := (p.frec.map FaultRec.lanes).getD 0
  let r1 : Vals := if !hasR u then p.r else if u = 21 then [getWord bs e]
    else (getVals n (rWidth u) bs e).zipIdx.map (fun x => if tok.getLsbD x.2 then p.r.at x.2 else x.1)
  let p1 := { p with a := getPort n u 0 bs a p.a, b := getPort n u 1 bs b p.b, c := getPort n u 2 bs c p.c,
                     held := getPort n u 3 bs t p.held, r := r1, full := bit fl 0,
                     carry := if u = 1 ∨ u = 2 then getLanes n bs e1 else p.carry }
  let j := field bs (i + 2) 1
  let others := us.owners.filter (fun kv => kv.2 != p.last)
  let owners := if us.ownedFlag u = (if bit fl 1 then some j else none) then us.owners
    else if bit fl 1 ∧ j < 12 then Tbl.put (others.filter (fun kv => kv.1 != j)) j p.last else others
  let ps := (List.range cnt).map (fun k => getPend n u bs (e2 + k * pendSize n u) (mine[k]?))
  let us1 := us.setUnit u p1
  ({ us1 with owners := owners, pend := us1.pend.filter (fun x => x.unit != u) ++ ps }, e2 + cnt * pendSize n u)

/-- The unit codes of the 21 records. -/
def recordUnits : List Nat := (List.range 21).map (· + 1)

/-- All 21 records, and the unit state read from them. -/
def UnitState.records (us : UnitState) (n : Nat) : List Byte := recordUnits.flatMap (us.record n)
def UnitState.loadAll (us : UnitState) (n : Nat) (bs : List Byte) (i : Nat) : UnitState :=
  (recordUnits.foldl (fun (x : UnitState × Nat) u => UnitState.load n bs x.1 u x.2) (us, i)).1

/-! ## The store fault buffer, the fault records and the frame (R452) -/

/-- The SIZE, RT and ORD or KIND codes of a store, red or maintenance move (R59). -/
def MemOp.codes (o : MemOp) : Nat × Nat × Nat :=
  let k := o.opcode.toNat
  if o.unit = U.at_ then (bits k 4 4, 0, bits k 6 5) else if 0x80 ≤ k then (0, 0, k - 0x80)
  else (bits k 5 4, bits k 2 1, bits k 6 6)

/-- An entry of the store fault buffer. -/
def SfbEntry.bytes (n : Nat) (e : SfbEntry) : List Byte :=
  let (sz, rt, ord) := e.op.codes
  let at_ (f : MemLane → W64) : Vals :=
    (List.range n).map (fun l => ((e.op.lanes.find? (fun x => x.lane == l)).map f).getD 0)
  let mask := e.op.lanes.foldl (fun (m : Lanes) x => m ||| BitVec.ofNat 1024 (2 ^ x.lane)) 0
  bytesOf 1 e.cause.toNat ++ bytesOf 1 e.op.unit ++ bytesOf 1 sz ++ bytesOf 1 rt ++ bytesOf 1 ord ++
    bytesOf 1 e.op.scope.toNat ++ bytesOf 1 e.op.opcode.toNat ++ [0] ++ pad8 (laneBytes n mask) ++
    valBytes n 8 (at_ MemLane.addr) ++ valBytes n 8 (at_ MemLane.x)

/-- An entry read from its bytes; what the image does not hold stays. -/
def getSfb (n : Nat) (bs : List Byte) (i : Nat) (old : Option SfbEntry) : SfbEntry :=
  let m := getLanes n bs (i + 8)
  let a := i + 8 + roundUp (n / 8) 8
  let o : MemOp := (old.map SfbEntry.op).getD
    { uid := 0, unit := 0, opcode := 0, scope := 0, lanes := [], pass := 0, mask := 0, locks := 0, res := [],
      toks := [], begun := false, bundle := 0, cycle := 0, issued := 0, replay := none }
  let lane (l : Nat) : MemLane :=
    { lane := l, addr := BitVec.ofNat 64 (field bs (a + 8 * l) 8), x := BitVec.ofNat 64 (field bs (a + 8 * n + 8 * l) 8),
      cmp := ((o.lanes.find? (fun x => x.lane == l)).map MemLane.cmp).getD 0, win := none, fault := none,
      watch := 0 }
  { cause := BitVec.ofNat 7 (field bs i 1)
    op := { o with unit := field bs (i + 1) 1, scope := BitVec.ofNat 3 (field bs (i + 5) 1),
                   opcode := BitVec.ofNat 8 (field bs (i + 6) 1), lanes := (Lanes.list m n).map lane } }

/-- The store fault buffer's part, with the moves that wait for an entry after it. -/
def Ctx.sfbPart (c : Ctx) : Part :=
  let es := c.sfb ++ c.sfbWait
  { bytes := bytesOf 8 es.length ++ es.flatMap (SfbEntry.bytes c.nlanes)
    put := fun c bs =>
      let sz := 8 + roundUp (c.nlanes / 8) 8 + 16 * c.nlanes
      let old := c.sfb ++ c.sfbWait
      let new := (List.range (min (max 16 old.length) (field bs 0 1))).map (fun k => getSfb c.nlanes bs (8 + k * sz) old[k]?)
      { c with sfb := new.take 16, sfbWait := new.drop 16 } }

/-- The variable-latency units in ascending code. -/
def recUnits : List Nat := [8, 10, 11, 12, 14, 16, 17, 18, 19, 20]

/-- The size of a fault record. -/
def recSize (n u : Nat) : Nat :=
  let (_, _, _, _, e) := portOffs n u 0
  24 + roundUp (n / 8) 8 + 8 * n + e

/-- A fault record, or zeros for none. -/
def recBytes (n u : Nat) (x : Option FaultRec) : List Byte :=
  match x.filter (fun r => r.lanes != 0) with
  | none => [0] ++ bytesOf 1 u ++ List.replicate (recSize n u - 2) 0
  | some r =>
    bytesOf 1 r.cause.toNat ++ bytesOf 1 u ++ bytesOf 1 r.opcode.toNat ++ List.replicate 5 0 ++ word8 r.bundle ++
      word8 r.cycle ++ pad8 (laneBytes n r.lanes) ++ valBytes n 8 r.addrs ++ portBytes n u 0 r.a ++ portBytes n u 1 r.b ++
      portBytes n u 2 r.c ++ portBytes n u 3 r.t

/-- A fault record read from its bytes. -/
def getRec (n u : Nat) (bs : List Byte) (i : Nat) (old : Option FaultRec) : Option FaultRec :=
  let lanes := getLanes n bs (i + 24)
  let a0 := i + 24 + roundUp (n / 8) 8
  let (a, b, c, t, _) := portOffs n u (a0 + 8 * n)
  if field bs i 1 = 0 ∧ (old.filter (fun r => r.lanes != 0)).isNone then old
  else if lanes = 0 then none
  else
    let r : FaultRec := old.getD
      { cause := 0, opcode := 0, bundle := 0, cycle := 0, lanes := 0, addrs := [], mask := lanes, a := [], b := [], c := [],
        t := [], r := [], scope := 0 }
    some { r with cause := BitVec.ofNat 7 (field bs i 1), opcode := BitVec.ofNat 8 (field bs (i + 2) 1),
                  bundle := getWord bs (i + 8), cycle := getWord bs (i + 16), lanes := lanes, addrs := getVals n 8 bs a0,
                  a := getPort n u 0 bs a r.a, b := getPort n u 1 bs b r.b, c := getPort n u 2 bs c r.c,
                  t := getPort n u 3 bs t r.t }

/-- The fault records' part. -/
def Ctx.recPart (c : Ctx) : Part :=
  { bytes := recUnits.flatMap (fun u => recBytes c.nlanes u (c.us.unit u).frec)
    put := fun c bs =>
      let one (x : UnitState × Nat) (u : Nat) : UnitState × Nat :=
        let p := x.1.unit u
        (x.1.setUnit u { p with frec := getRec c.nlanes u bs x.2 p.frec }, x.2 + recSize c.nlanes u)
      { c with us := (recUnits.foldl one (c.us, 0)).1 } }

/-- The frame's part. -/
def Ctx.framePart (c : Ctx) : List Part :=
  if c.inh then
    let f := c.frame.getD UnitState.fresh
    [{ bytes := word8 (BitVec.ofNat 64 (fenceBits f.fence + f.flags.toNat)) ++ f.records c.nlanes
       put := fun c bs =>
        let g := c.frame.getD UnitState.fresh
        let v := field bs 0 8
        { c with frame := some (({ g with flags := BitVec.ofNat 12 v, fence := getFence v }).loadAll c.nlanes bs 8) } }]
  else []

/-! ## The image -/

/-- The parts of a team's image in order (R381, R452). -/
def Ctx.imageOf (c : Ctx) (live : Liveness) (len : Nat) : List Part :=
  let preds : Part :=
    { bytes := pad8 ((List.range 7).flatMap (fun j => laneBytes c.nlanes (Tbl.get c.k (j + 1) 0)))
      put := fun c bs => { c with k := (List.range 7).map (fun j =>
        (j + 1, getLanes c.nlanes bs (j * (c.nlanes / 8)))) } }
  let units : Part := { bytes := c.us.records c.nlanes
                        put := fun c bs => { c with us := c.us.loadAll c.nlanes bs 0 } }
  c.headParts len ++ [c.tagPart live] ++ c.syncParts ++ [preds, units, c.sfbPart, c.recPart, c.gPart live] ++ c.framePart

/-- The length of a list of parts. -/
def partsLength (ps : List Part) : Nat := ps.foldl (fun a p => a + p.bytes.length) 0

/-- The image with its length (R452). -/
def Ctx.image (c : Ctx) (live : Liveness) : List Part := c.imageOf live (partsLength (c.imageOf live 0))

/-- The bytes of an image. -/
def imageBytes (ps : List Part) : List Byte := ps.flatMap Part.bytes

/-- The team with `n` bytes of its image at offset `i` replaced (R376). -/
def patchImage (c : Ctx) (new : List Byte) : Nat → List Part → Ctx
  | _, [] => c
  | i, p :: r =>
    let k := p.bytes.length
    if i < k then p.put c (p.bytes.take i ++ new ++ p.bytes.drop (i + new.length))
    else patchImage c new (i - k) r

/-- The team that a stored image gives: each part that differs is put (R382). -/
def loadImage (c : Ctx) : List Byte → List Part → Ctx
  | _, [] => c
  | bs, p :: r =>
    let k := p.bytes.length
    let c1 := if bs.take k = p.bytes then c else p.put c (bs.take k)
    loadImage c1 (bs.drop k) r

/-- Whether a team's written image does not fit its wait state or its gang (R381): C_CTXFMT when it resumes. -/
def Ctx.misfit (c : Ctx) (g : Gang) : Bool :=
  c.fmtBad ||
    (match c.wait with
    | .barrier i => !(List.range 3).any (fun r => g.block.barRole i r)
    | .ring n _ => (Tbl.find g.rings n).isNone
    | .grow b => decide (128 < b)
    | .idle k => k == 0 || decide (16384 < k)
    | _ => false) ||
    (match c.loop with
    | some q => q.started && decide (2 * (q.lrec.stages - 1) + q.k ≤ q.step)
    | none => false) ||
    c.barMem.any (fun kv => (kv.2.gen != 0 || kv.2.waiting) && !(List.range 3).any (fun r => g.block.barRole kv.1 r)) ||
    c.ringMem.any (fun kv => (kv.2.prod.isSome || kv.2.cons.isSome) && (Tbl.find g.rings kv.1).isNone)

/-! ## Liveness (R79, R380) -/

/-- The entries of a liveness table ascend and do not overlap (R79). An entry whose TO is not above its FROM counts as
unsorted (DESIGN CHOICE: log entry 60). -/
def sortedEntries : List (Nat × Nat × Nat) → Bool
  | [] => true
  | [x] => decide (x.1 < x.2.1)
  | x :: y :: r => decide (x.1 < x.2.1) && decide (x.2.1 ≤ y.1) && sortedEntries (y :: r)

/-- The registers live at a saved PC (R380), read from the liveness table in the team's space, with the state after the
walks. -/
def State.liveAt (s : State) (die asid : Nat) (liveBase pc : W64) : Liveness × State :=
  if liveBase = 0 then (some (fun _ => true), s)
  else
    match s.readVirt die asid true liveBase.toNat 16 with
    | .error e => (none, e.2.2)
    | .ok (h, s1) =>
      let off := pc.toNat - field h 0 8
      match s1.readVirt die asid true (liveBase.toNat + 16) (24 * field h 8 4) with
      | .error e => (none, e.2.2)
      | .ok (t, s2) =>
        let es := (List.range (field h 8 4)).map (fun i => (field t (24 * i) 4, field t (24 * i + 4) 4, field t (24 * i + 8) 16))
        if !sortedEntries es then (none, s2)
        else match es.find? (fun e => decide (field h 0 8 ≤ pc.toNat) && decide (e.1 ≤ off) && decide (off < e.2.1)) with
          | some e => (some (fun j => bit e.2.2 j), s2)
          | none => (some (fun _ => true), s2)

end Sys2Proof.Machine
end

