-- ==== Sys2Proof/Machine/Evict.lean ====
section
/-! DEFINITION. The spill engine (R195, R269, R378 to R382): eviction of a team, full saves of gangs, and restores. -/

namespace Sys2Proof.Machine

/-! ## What a save waits for (R269, R304, R379) -/

/-- Whether an operation in flight is a wait that is saved and restored with its team (R186), or a pending fence (R279). -/
def VarOp.blocks (o : VarOp) : Bool :=
  o.unit == U.sy && ((0x10 ≤ o.opcode.toNat && o.opcode.toNat ≤ 0x30) || (0x80 ≤ o.opcode.toNat && o.opcode.toNat ≤ 0xA0))

/-- Whether nothing of a team is in flight: every access and held write performed, every operation but a saved wait
complete. -/
def State.quiet (s : State) (id : CtxId) (c : Ctx) : Bool :=
  c.memq.isEmpty && c.ops.all VarOp.blocks &&
    !(s.fold id.fold).held.any (fun h => h.slot == id.slot && h.tid == c.tid) &&
    !(s.fold id.fold).eng.any (fun e => e.slot == id.slot && e.tid == c.tid)

/-! ## The SAVE area (R379) -/

/-- A response leaves over the management path (R371). -/
def State.respond (s : State) (v : Option W64) : State :=
  { s with pkg := { s.pkg with out := s.pkg.out ++ [.response v] } }

/-- Why a save cannot be made. -/
inductive SaveFail where
  | full
  | fault (addr : Nat)
deriving DecidableEq, Repr

/-- Write images one after another into a SAVE area: their addresses, or why nothing is written (R379), with the state
after the walks (R242). -/
def State.writeImages (s : State) (die asid : Nat) (save : W64) (images : List (List Byte)) :
    Except (SaveFail × State) (List W64 × State) :=
  if save = 0 then .error (.full, s)
  else match s.readVirt die asid true save.toNat 16 with
    | .error e => .error (.fault e.2.1, e.2.2)
    | .ok (h, s1) =>
      let limit := field h 8 8
      let step (acc : Nat × List (Nat × List Byte)) (b : List Byte) : Nat × List (Nat × List Byte) :=
        let at_ := roundUp acc.1 4096
        (at_ + b.length, acc.2 ++ [(at_, b)])
      let (next, ps) := images.foldl step (field h 0 8, [])
      if limit < next then .error (.full, s1)
      else
        let all : List (Nat × List Byte) := ps.map (fun x => (save.toNat + x.1, x.2)) ++ [(save.toNat, bytesOf 8 next)]
        let walk (acc : State × Option Nat) (x : Nat × List Byte) : State × Option Nat :=
          if acc.2.isSome then acc else acc.1.walkStore die asid true x.1 x.2.length
        match all.foldl walk (s1, none) with
        | (s2, some a) => .error (.fault a, s2)
        | (s2, none) =>
          let put (s : State) (x : Nat × List Byte) : State := match s.writeVirt die asid true x.1 x.2 with
            | .ok s3 => s3
            | .error e => e.2.2
          .ok (ps.map (fun p => save + BitVec.ofNat 64 p.1), all.foldl put s2)

/-- A team's image as the spill engine writes it (R380, R381); a bad liveness table posts C_LIVEBAD. -/
def State.teamImage (s : State) (g : Gang) (c : Ctx) : List Part × State :=
  let (live, s1) := s.liveAt g.die g.asid g.liveBase c.resumePc
  (c.image live, if live.isSome then s1 else s1.dieNotice 0x32 0 g.liveBase)

/-! ## Eviction (R195) -/

/-- The teams of a fold that are not Frozen. -/
def State.awake (s : State) (f : Nat) : List (Nat × Ctx) := (s.onFold f).filter (fun x => !x.2.shadow && !x.2.frozen)

def Wait.isGrow : Wait → Bool
  | .grow _ => true
  | _ => false

/-- Whether the oldest grow of a fold can be granted (R194). -/
def State.growReady (s : State) (f : Nat) : Bool :=
  match (s.fold f).growQ with
  | [] => false
  | slot :: _ => match s.ctx { fold := f, slot := slot } with
    | none => true
    | some c => match c.wait with
      | .grow b => decide (c.nlanes * (b - c.budget) ≤ s.freeWords f (s.prio7 c.asid))
      | _ => true

/-- Whether every team of a fold that is not Frozen is in Grow wait and none can be granted (R195). -/
def State.starved (s : State) (f : Nat) : Bool :=
  let a := s.awake f
  !a.isEmpty && a.all (fun x => x.2.wait.isGrow) && !s.growReady f

/-- The youngest of a list of teams: the last placed. -/
def youngest (l : List (Nat × Ctx)) : Option (Nat × Ctx) :=
  l.foldl (fun acc x => match acc with
    | none => some x
    | some y => if y.2.tid < x.2.tid then some x else some y) none

/-- C_REGSTARVE of a team in Grow wait: its rgrow is not performed (R195). -/
def Ctx.regStarve (c : Ctx) : Ctx :=
  let c1 := { c with wait := .ready }
  match c1.findOp (fun o => o.unit == U.sy && o.opcode == 0xA0) with
  | some o => ((c1.dropOp o.uid).finishKeep o.unit o.uid).addDue (DueTrap.of 0x38 o.bundle o.cycle)
  | none => c1

/-- A team leaves its slot for the Shepherd's list of evicted teams; its registers are free. -/
def State.unseat (s : State) (id : CtxId) (g : Gang) (c : Ctx) (addr : W64) : State :=
  (s.vacate id c).modDie g.die (fun d => { d with evicted := d.evicted ++
    [{ gang := c.gang, ctx := c, half := g.block.teamHalf c.teamId, addr := addr }] })

/-- R195. The youngest team of a starved fold is evicted to its flock's SAVE area, or every grow of the fold ends in
C_REGSTARVE when that flock has none. -/
def execTeamEvict (fold : Nat) (s : State) : Out3 :=
  if !s.starved fold then .next s
  else match youngest (s.awake fold) with
    | none => .next s
    | some (slot, c) =>
      let id : CtxId := { fold := fold, slot := slot }
      match s.gang c.gang with
      | none => .next s
      | some g =>
        if g.save = 0 then
          let s1 := (s.awake fold).foldl (fun s x => s.setCtx { fold := fold, slot := x.1 } x.2.regStarve) s
          let gone := (s.awake fold).map Prod.fst
          .next (s1.modFold fold (fun f => { f with growQ := f.growQ.filter (fun x => !gone.contains x) }))
        else if !s.quiet id c then .next s
        else
          let (ps, s1) := s.teamImage g c
          match s1.writeImages g.die g.asid g.save [imageBytes ps] with
          | .error (.full, s2) => .next (s2.takeTrap id (DueTrap.async 0x40))
          | .error (.fault a, s2) => .next (s2.takeTrap id { DueTrap.async 0x30 with addr := some (BitVec.ofNat 64 a) })
          | .ok (addrs, s2) =>
            let s3 := s2.unseat id g c (addrs.headD 0)
            .next ((s3.pushEvent fold (eventWord 0x3F 0 slot false false 0)).growTest fold 33)

/-! ## A team comes back (R195, R382) -/

/-- The fold cycle at which a team in Grow wait made its request. -/
def Ctx.growCycle (c : Ctx) : Option Nat := (c.findOp (fun o => o.unit == U.sy && o.opcode == 0xA0)).map (fun o => o.cycle.toNat)

/-- A grow stands in its fold's queue: at the place that it keeps, or, for a team that has taken the slot again, before the
requests made after it (R194). -/
def State.queueGrow (s : State) (id : CtxId) (c : Ctx) : State :=
  let q := (s.fold id.fold).growQ
  let later (slot : Nat) : Bool := match c.growCycle, (s.ctx { fold := id.fold, slot := slot }).bind Ctx.growCycle with
    | some a, some b => decide (a < b)
    | _, _ => false
  if q.contains id.slot then s
  else
    let q1 := q.takeWhile (fun x => !later x) ++ [id.slot] ++ q.dropWhile (fun x => !later x)
    s.modFold id.fold (fun f => { f with growQ := q1 })

/-- The barriers and the ring that a restored team waits for are looked at again, and a grow queues again (R200). -/
def State.rejoin (s : State) (id : CtxId) : State :=
  match s.ctx id with
  | none => s
  | some c =>
    let s1 := match c.wait with
      | .barrier i => (match s.gang c.gang with
        | some g => s.setCtx id (c.barWake i (g.barrier i).gen)
        | none => s)
      | .ring n _ => s.ringTest c.gang n 64
      | .grow _ => (s.queueGrow id c).growTest id.fold 33
      | _ => s
    s1

/-- The loop record of a team that comes back, read again from its flock's LOOP address with the trip counts (R381); it stays
where the flock's packet, the read or the record fails. The state is that after the walks. -/
def State.rereadLoop (s : State) (g : Gang) (c : Ctx) : Ctx × State :=
  match c.loop, (s.die (g.asid / 64)).packets.find? (fun p => p.flock == g.flock) with
  | some q, some p => (match s.readVirt g.die g.asid true (field p.bytes 40 8) 64 with
    | .ok (d, s1) => (match parseLoop g.block d with
      | some r => ({ c with loop := some { q with lrec := r, trips := if q.started then r.tripsOf c else q.trips } }, s1)
      | none => (c, s1))
    | .error e => (c, e.2.2))
  | _, _ => (c, s)

/-- Whether a stored image's fixed fields are not those of the team, or its wait state is no state of R183 (R381). -/
def Ctx.headMisfit (c : Ctx) (bs : List Byte) (len : Nat) : Bool :=
  field bs 0 4 != 0x0158434B || field bs 4 4 != len || decide (8 ≤ field bs 0x1F 1) ||
    (bs.drop 0x18).take 7 != bytesOf 2 c.nlanes ++ bytesOf 1 c.budget ++ bytesOf 1 c.role ++ bytesOf 2 c.teamId ++
      bytesOf 1 c.asid

/-- What a restore takes from an image besides the fields that ctx WRITE changes: SCHED_CYCLE and the wait state, and zero
for each register of tag 6 (R380, R381). -/
def Ctx.fromHead (c : Ctx) (bs : List Byte) : Ctx :=
  let v := field bs 0x20 8
  { c with
    sched := field bs 0x10 8 % 2 ^ 48
    wait := if field bs 0x1F 1 = c.wait.code then c.wait else c.wait.ofImage (field bs 0x1F 1) (bits v 59 58) (bits v 31 0)
    g := c.g.filter (fun kv => field bs 0x420 48 / 8 ^ kv.1 % 8 != 6) }

/-- The fences of a team whose image names none are over. -/
def Ctx.fencesOf (c : Ctx) : Ctx :=
  if c.fenced then c else c.fenceOps.foldl (fun c o => (c.dropOp o.uid).finishKeep o.unit o.uid) c

/-- A saved team as its image gives it when it takes a slot again: resumed in its saved wait state, or Frozen by the
trap of a restore that fails (R376, R380 to R382). XL is not busy on its new fold (R162). -/
def State.seatTeam (s0 : State) (id : CtxId) (g : Gang) (t : SavedTeam) : State :=
  let (live, s) := s0.liveAt g.die g.asid g.liveBase t.ctx.resumePc
  let ps := t.ctx.image live
  let idle (u : UnitState) : UnitState := { u with xlBusy := 0 }
  let c0 := { t.ctx with lastIssue := (s.fold id.fold).cycle, us := idle t.ctx.us, frame := t.ctx.frame.map idle }
  match s.readVirt g.die g.asid true t.addr.toNat (partsLength ps) with
  | .error e =>
    (e.2.2.setCtx id { c0 with frozen := true }).takeTrap id
      { DueTrap.async 0x31 with addr := some (BitVec.ofNat 64 e.2.1), pc := some c0.resumePc }
  | .ok (bs, s1) =>
    let c1 := ((loadImage c0 bs ps).fromHead bs).fencesOf
    if c0.headMisfit bs (partsLength ps) || c1.misfit g then
      (s1.setCtx id { c1 with frozen := true }).takeTrap id
        { DueTrap.async 0x0E with addr := some t.addr, pc := some c1.resumePc }
    else
      let (c2, s2) := s1.rereadLoop g (if c1.frozen then c1.resume else { c1 with lines := [] })
      (s2.setCtx id c2).rejoin id

/-- The words that a waiting grow asks for with its team. -/
def Ctx.footprint (c : Ctx) : Nat := c.nlanes * (match c.wait with | .grow b => b | _ => c.budget)

/-- Whether a gang holds something of its fold, which a team that lives on it needs there (R176): a scratchpad block, wide
registers, an engine or a mirror table. -/
def Gang.tied (g : Gang) : Bool :=
  g.block.scrLog2 != 0 || g.block.wide != 0 || g.hasEngine || g.block.mirrorAddr != 0

/-- Where an evicted team fits now (R195, R200): on its own fold of its gang's placement, or, when its footprint is register
words and a slot alone, on any fold of the die (DEDUCED: log entry 38). -/
def State.seatFor (s : State) (t : SavedTeam) : Option (Gang × CtxId) :=
  match s.gang t.gang with
  | none => none
  | some g =>
    let f := g.foldOf t.half
    let seat (f : Nat) : Option CtxId := match s.freeSlots f with
      | [] => none
      | slot :: _ =>
        if t.ctx.footprint ≤ s.freeWords f (s.prio7 t.ctx.asid) ∧ (s.die (dieOf f)).powered (f % 96) = true ∧
            s.shepherdOn (dieOf f) = true then
          some { fold := f, slot := slot }
        else none
    ((seat f).or (if g.tied then none else (dieFolds (dieOf f)).findSome? seat)).map (fun id => (g, id))

/-- R195. The Shepherd restores an evicted team on a fold where its new footprint fits. -/
def execTeamRestore (die : Nat) (s : State) : Out3 :=
  match (s.die die).evicted.find? (fun t => (s.seatFor t).isSome) with
  | none => .next s
  | some t =>
    match s.seatFor t with
    | none => .next s
    | some (g, id) =>
      let s1 := s.modDie die (fun d => { d with evicted := d.evicted.filter (fun x => x.ctx.tid != t.ctx.tid) })
      .next (s1.seatTeam id g t)

/-! ## Full save (R379, R382) -/

/-- The resident teams of a gang. -/
def State.teamsOf (s : State) (gid : Nat) : List (CtxId × Ctx) :=
  (s.ctxs.filter (fun kv => !kv.2.shadow && kv.2.gang == gid)).map (fun kv => (ctxOfKey kv.1, kv.2))

/-- Start a full save: every team of the gang is to be frozen (R379). -/
def State.startSave (s : State) (gid : Nat) : State :=
  let s1 := s.modGang gid (fun g => { g with saving := true })
  (s1.teamsOf gid).foldl (fun s x => s.modCtx x.1 Ctx.askFreeze) s1

/-- Whether a save's waits are over. -/
def State.saveReady (s : State) (gid : Nat) (g : Gang) : Bool :=
  g.saving && (s.teamsOf gid).all (fun x => x.2.frozen && s.quiet x.1 x.2) && !s.gangOps gid

/-! ## The gang image (R382)

R382 lists what a gang image holds and gives no layout. This model writes the parts one after another: for each fold of the
gang its scratchpad block, the filled bit and the dirty mask of each sector, SMAP_V, SMAP_S, MIRROR_SEL, the wide registers,
and for an engine its banks with VALID and ES and its tiles; then the format registers, LIVE_BASE, the barriers and the
rings (DESIGN CHOICE: log entry 37). -/

/-- The bytes of a gang's block on a fold. -/
def Gang.blockSize (g : Gang) : Nat := if g.block.scrLog2 = 0 then 0 else 2 ^ g.block.scrLog2

/-- A sector's filled bit and dirty mask. -/
def Sector.bytes (x : Sector) : List Byte := bytesOf 1 (b2n x.filled) ++ bytesOf 32 x.dirty.toNat

/-- The part of one fold. -/
def State.halfImage (s : State) (gid : Nat) (g : Gang) (half f : Nat) : List Byte :=
  let n := g.blockSize
  let bank (i : Nat) : Bool × Bool := Tbl.get (s.fold f).bankValid i (false, false)
  Memory.readN s.mem (Memory.spmKey f (Tbl.get g.base half 0)) n ++
    (List.range (n / 256)).flatMap (fun k => (g.sector half k).bytes) ++
    (List.range 8).flatMap (fun i => bytesOf 8 (Tbl.get g.smapV (8 * half + i) 0).toNat) ++
    (List.range 8).flatMap (fun i => bytesOf 8 (Tbl.get g.smapS (8 * half + i) 0).toNat) ++
    bytesOf 8 (Tbl.get g.mirrorSel half 0).toNat ++ Memory.readN s.mem (Memory.wideKey gid half 0) (2048 * g.block.wide) ++
    (if g.hasEngine then
      Memory.readN s.mem (Memory.bankKey f 0 0) (2 ^ 15) ++
        [0, 1].flatMap (fun i => bytesOf 1 (b2n (bank i).1) ++ bytesOf 1 (b2n (bank i).2)) ++
        Memory.readN s.mem (Memory.accKey f 0) (2 ^ 18)
    else [])

/-- The size of the part of one fold. -/
def Gang.halfSize (g : Gang) : Nat :=
  g.blockSize + g.blockSize / 256 * 33 + 136 + 2048 * g.block.wide + (if g.hasEngine then 2 ^ 15 + 4 + 2 ^ 18 else 0)

/-- A ring's indices and slot bits. -/
def Ring.image (r : Ring) : List Byte :=
  bytesOf 8 r.p ++ bytesOf 8 r.c ++ (List.range r.slots).flatMap (fun k =>
    let x := Tbl.get r.slot k { full := false, phase := true }
    bytesOf 1 (b2n x.full + 2 * b2n x.phase))

/-- The part of the gang as a whole. -/
def Gang.ownImage (g : Gang) : List Byte :=
  (List.range 16).flatMap (fun i => bytesOf 4 (Tbl.get g.fm i 0).toNat) ++ bytesOf 8 g.liveBase.toNat ++
    (List.range 16).flatMap (fun i => bytesOf 8 (g.barrier i).gen ++ bytesOf 8 (g.barrier i).arrivals) ++
    g.rings.flatMap (fun kv => kv.2.image)

/-- A gang image. -/
def State.gangImage (s : State) (gid : Nat) (g : Gang) : List Byte :=
  g.halves.flatMap (fun h => s.halfImage gid g h.1 h.2) ++ g.ownImage

/-- The length of a gang image. -/
def Gang.imageSize (g : Gang) : Nat :=
  g.halves.length * g.halfSize + 328 + g.rings.foldl (fun a r => a + 16 + r.2.slots) 0

/-- A fold's part put back at the gang's new place: the maps and masks into the gang, the contents into memory. -/
def State.loadHalf (s : State) (gid : Nat) (g : Gang) (half f : Nat) (bs : List Byte) : State :=
  let n := g.blockSize
  let i1 := n + n / 256 * 33
  let i2 := i1 + 136 + 2048 * g.block.wide
  let word (i : Nat) : W64 := BitVec.ofNat 64 (field bs i 8)
  let s1 := s.modGang gid (fun x =>
    let x1 := (List.range (n / 256)).foldl (fun x k => x.setSector half k
      { filled := bit (field bs (n + 33 * k) 1) 0, dirty := BitVec.ofNat 256 (field bs (n + 33 * k + 1) 32) }) x
    (List.range 8).foldl (fun x i => { x with smapV := Tbl.put x.smapV (8 * half + i) (word (i1 + 8 * i)),
                                              smapS := Tbl.put x.smapS (8 * half + i) (word (i1 + 64 + 8 * i)) }) x1)
  let m1 := Memory.writeN s1.mem (Memory.spmKey f (Tbl.get g.base half 0)) (bs.take n)
  let m2 := Memory.writeN m1 (Memory.wideKey gid half 0) ((bs.drop (i1 + 136)).take (2048 * g.block.wide))
  if g.hasEngine then
    let m3 := Memory.writeN m2 (Memory.bankKey f 0 0) ((bs.drop i2).take (2 ^ 15))
    let m4 := Memory.writeN m3 (Memory.accKey f 0) ((bs.drop (i2 + 2 ^ 15 + 4)).take (2 ^ 18))
    { s1 with mem := m4 }.modFold f (fun x => { x with bankValid := [0, 1].map (fun i =>
      (i, bit (field bs (i2 + 2 ^ 15 + 2 * i) 1) 0, bit (field bs (i2 + 2 ^ 15 + 2 * i + 1) 1) 0)) })
  else { s1 with mem := m2 }

/-- A ring with the indices and slot bits of an image at an offset. -/
def Ring.load (r : Ring) (bs : List Byte) (i : Nat) : Ring :=
  { r with p := field bs i 8, c := field bs (i + 8) 8,
           slot := (List.range r.slots).map (fun k =>
            (k, { full := bit (field bs (i + 16 + k) 1) 0, phase := bit (field bs (i + 16 + k) 1) 1 })) }

/-- The gang with what the part of the gang as a whole holds. -/
def Gang.loadOwn (g : Gang) (bs : List Byte) : Gang :=
  let ring (acc : Nat × Tbl Ring) (kv : Nat × Ring) : Nat × Tbl Ring :=
    (acc.1 + 16 + kv.2.slots, acc.2 ++ [(kv.1, kv.2.load bs acc.1)])
  { g with fm := (List.range 16).map (fun i => (i, BitVec.ofNat 32 (field bs (4 * i) 4))),
           liveBase := BitVec.ofNat 64 (field bs 64 8),
           barriers := (List.range 16).map (fun i =>
            (i, { gen := field bs (72 + 16 * i) 8, arrivals := field bs (80 + 16 * i) 8 })),
           rings := (g.rings.foldl ring (328, [])).2 }

/-- A gang image read into the gang at its new place. -/
def State.loadGang (s : State) (gid : Nat) (bs : List Byte) : State :=
  match s.gang gid with
  | none => s
  | some g =>
    let s1 := g.halves.foldl (fun s h => s.loadHalf gid g h.1 h.2 (bs.drop (h.1 * g.halfSize))) s
    s1.modGang gid (fun x => x.loadOwn (bs.drop (g.halves.length * g.halfSize)))

/-- The operations of shadow contexts that asked for a gang's save: the context, the operation and the slot asked. -/
def State.saveOps (s : State) (gid : Nat) (g : Gang) : List (CtxId × VarOp × Nat) :=
  g.halves.flatMap (fun h =>
    let id : CtxId := { fold := h.2, slot := CtxId.shadowSlot }
    match s.ctx id with
    | none => []
    | some c => (c.ops.filter (fun o => o.unit == U.sv && o.opcode == 0x30 &&
        bits (o.t.at (Lanes.low o.mask c.nlanes)).toNat 31 28 == 4 &&
        ((s.ctx { fold := h.2, slot := bits (o.t.at (Lanes.low o.mask c.nlanes)).toNat 27 23 }).map Ctx.gang) == some gid)).map
      (fun o => (id, o, bits (o.t.at (Lanes.low o.mask c.nlanes)).toNat 27 23)))

/-- R379. A full save that has waited for everything: images are written and the gang's resources freed, or nothing is
written and C_SAVEFULL or C_SAVEXLATE is raised. -/
def execGangSaveComplete (gang : Nat) (s : State) : Out3 :=
  match s.gang gang with
  | none => .next s
  | some g =>
    if !s.saveReady gang g then .next s
    else
      let ts := s.teamsOf gang
      let asked := s.saveOps gang g
      let image (acc : List (List Byte) × State) (x : CtxId × Ctx) : List (List Byte) × State :=
        let (ps, s1) := acc.2.teamImage g x.2
        (acc.1 ++ [imageBytes ps], s1)
      let (imgs, s0) := ts.foldl image ([], s)
      let fail (s : State) (code : BitVec 7) (addr : Option W64) : State :=
        let s1 := (g.asked.foldl (fun s _ => s.respond none) s).modGang gang (fun g => { g with saving := false, asked := [] })
        let s2 := asked.foldl (fun s x => s.modCtx x.1 (fun c => c.completeToken x.2.1 code 0)) s1
        match ts with
        | [] => s2
        | x :: _ =>
          let id := (asked.head?.map (fun y => ({ fold := y.1.fold, slot := y.2.2 } : CtxId))).getD x.1
          s2.takeTrap id { DueTrap.async code with addr := addr, pc := (s2.ctx id).map Ctx.resumePc }
      match s0.writeImages g.die g.asid g.save (imgs ++ [s0.gangImage gang g]) with
      | .error (.full, s1) => .next (fail s1 0x40 none)
      | .error (.fault a, s1) => .next (fail s1 0x30 (some (BitVec.ofNat 64 a)))
      | .ok (addrs, s1) =>
        let teams := ts.zipIdx.map (fun x =>
          { gang := gang, ctx := x.1.2, half := g.block.teamHalf x.1.2.teamId, addr := addrs.getD x.2 0 : SavedTeam })
        let rec_ : SavedGang :=
          { addr := addrs.getD ts.length 0, gang := { g with saving := false, asked := [], froze := [] }, teams := teams }
        let s2 := asked.foldl (fun s x => s.modCtx x.1 (fun c =>
          let i := ts.findIdx (fun y => y.1.fold == x.1.fold && y.1.slot == x.2.2)
          c.complete x.2.1 (addrs.getD i 0))) (g.asked.foldl (fun s id =>
            s.respond (some (addrs.getD (ts.findIdx (fun y => y.1 == id)) 0))) s1)
        let s3 := ts.foldl (fun s x => s.vacate x.1 x.2) s2
        let s4 := s3.modDie g.die (fun d => { d with saved := d.saved ++ [rec_] })
        let s5 := (s4.thaw g.froze).dropGang gang g
        .next (g.halves.foldl (fun s h => s.growTest h.2 33) s5)

/-! ## Restore of a gang (R382) -/

/-- The number by which a saved gang was known. -/
def SavedGang.gid (x : SavedGang) : Nat := ((x.teams.head?).map SavedTeam.gang).getD 0

/-- Whether a saved gang fits on a fold or pair: its teams that have not exited, with their budgets (R176, R382). -/
def State.savedFits (s : State) (x : SavedGang) (f : Nat) : Bool :=
  let b := { x.gang.block with roles := x.gang.block.roles.map (fun r => { r with teams := 0 }) }
  let half (h f : Nat) : Bool :=
    let ts := x.teams.filter (fun t => t.half == h)
    s.halfFits b x.gang.asid x.gang.flock h f && decide (ts.length ≤ (s.freeSlots f).length) &&
      decide (ts.foldl (fun a t => a + t.ctx.nlanes * t.ctx.budget) 0 ≤ s.freeWords f (s.prio7 x.gang.asid)) &&
      (!x.gang.hasEngine || !(s.gangsOn f).any (fun kv => kv.2.hasEngine))
  if x.gang.block.pair then f % 2 == 0 && half 0 f && half 1 (f + 1) else half 0 f

/-- The saved gang at an address, with the die that saved it: of the die asked when it has one, else of another (R275). -/
def State.savedAt (s : State) (die : Nat) (addr : W64) : Option (Nat × SavedGang) :=
  ([die] ++ List.range 4).findSome? (fun d => ((s.die d).saved.find? (fun x => x.addr == addr)).map (fun x => (d, x)))

/-- The saved gang that a restore request of a die can place now, with the die that saved it and its fold. -/
def State.restorable (s : State) (die : Nat) (addr : W64) : Option (Nat × SavedGang × Nat) :=
  if !(s.die die).restores.contains addr || !s.shepherdOn die then none
  else match s.savedAt die addr with
    | none => none
    | some (d, x) =>
      (s.roomiest x.gang.block x.gang.asid ((dieFolds die).filter (s.savedFits x))).map (fun f => (d, x, f))

/-- R382. The Shepherd places a saved gang on a fold or pair of its die where it fits, and its teams resume in their saved
wait states. A request that names no saved gang is C_CTXFMT, and a gang image that cannot be read is C_RESTOREXLATE. -/
def execGangRestore (die : Nat) (addr : W64) (s : State) : Out3 :=
  let drop (d : Die) : Die := { d with restores := d.restores.erase addr }
  if (s.die die).restores.contains addr ∧ (s.savedAt die addr).isNone then
    .next ((s.modDie die drop).dieNotice 0x0E 0 addr)
  else match s.restorable die addr with
    | none => .next s
    | some (d, x, f) =>
      let gid := x.gid
      let home := { x.gang with die := die, fold := f }
      match s.readVirt die home.asid true addr.toNat home.imageSize with
      | .error e => .next ((e.2.2.modDie die drop).dieNotice 0x31 0 (BitVec.ofNat 64 e.2.1))
      | .ok (bs, s0) =>
        let s1 := (s0.modDie die drop).modDie d (fun d => { d with saved := d.saved.filter (fun y => y.addr != addr) })
        let s2 := (s1.seatGang gid home false).loadGang gid bs
        let g := (s2.gang gid).getD home
        let s3 := x.teams.foldl (fun s t =>
          match s.freeSlots (g.foldOf t.half) with
          | [] => s
          | slot :: _ => s.seatTeam { fold := g.foldOf t.half, slot := slot } g t) s2
        let again := (List.range 4).flatMap (fun d => ((s3.die d).landing.filter (fun kv =>
          kv.2.bound && kv.2.gang == gid)).map (fun kv => Instr.landingCount d (kv.2.key d kv.1) 0))
        let s4 := s3.retest gid
        .next { s4 with agenda := s4.agenda ++ again }

end Sys2Proof.Machine
end

