-- ==== Sys2Proof/Machine/Matrix.lean ====
section
/-! DEFINITION. The matrix engine (R313 to R339): bank loads, the multiply-accumulate with its recoding and its time,
paired operations, accumulator transfers, the format registers and the term counters. -/

namespace Sys2Proof.Machine

/-! ## Format registers (R316 to R318) -/

def fmSk (w : W32) : Nat := bits w.toNat 13 12
def fmCap (w : W32) : Nat := bits w.toNat 11 8
/-- The scale block length L (R316). -/
def fmLen (w : W32) : Nat := 8 * 2 ^ (bits w.toNat 16 14)
/-- The bytes of one block scale. -/
def fmScaleSize (w : W32) : Nat := if fmSk w = 2 then 2 else 1

/-- A register that an mma refuses (R316): every field is checked. -/
def fmBad (w : W32) : Bool := (Narrow.of w).malformed || fmSk w == 3 || (fmSk w != 0 && 4 ≤ bits w.toNat 16 14)

/-- Whether a format is FP16 or BF16, whose bank elements take two bytes (R318). -/
def fmWide (w : W32) : Bool := bits w.toNat 7 0 == 1 || bits w.toNat 7 0 == 2

/-- Whether a format's values are integers. -/
def fmInt (w : W32) : Bool :=
  let d := Narrow.of w
  d.sel == 3 || d.sel == 4 || (d.sel == 0 && d.e == 0)

/-- The value of a block scale (R325). -/
def scaleVal (w : W32) (bs : List Byte) (i : Nat) : Fv :=
  match fmSk w with
  | 0 => .num false 1 0
  | 1 =>
    let u := field bs i 1
    if u = 255 then .nan false else .num false 1 ((u : Int) - 127)
  | _ => Fmt.f16.decode (field bs (2 * i) 2)

/-! ## Recoding (R322) -/

/-- The digits of a non-adjacent form, lowest first; the first argument bounds their number. -/
def naf : Nat → Int → List Int
  | 0, _ => []
  | k + 1, n =>
    if n = 0 then []
    else if n % 2 = 1 then
      let d : Int := 2 - n % 4
      d :: naf k ((n - d) / 2)
    else 0 :: naf k (n / 2)

/-- Keep the highest `cap` non-zero digits of a list given highest first (R322); cap 0 keeps all. -/
def capDigits (cap : Nat) : List Int → Nat → List Int
  | [], _ => []
  | d :: r, kept =>
    if d = 0 then 0 :: capDigits cap r kept
    else if cap ≠ 0 ∧ cap ≤ kept then 0 :: capDigits cap r kept
    else d :: capDigits cap r (kept + 1)

/-- The number whose digits are given highest first. -/
def fromDigits (l : List Int) : Int := l.foldl (fun a d => 2 * a + d) 0

/-- A value recoded under a term cap: the value used, and its term count (R322). -/
def recode (cap : Nat) (v : Fv) : Fv × Nat :=
  match v with
  | .num n m e =>
    if m = 0 then (.num n 0 e, 0)
    else
      let ds := capDigits cap (naf 64 m).reverse 0
      (.num n (fromDigits ds).natAbs e, (ds.filter (fun d => d != 0)).length)
  | x => (x, 1)

/-! ## The format block (R323, R324) -/

/-- The fields of a format block. -/
structure Blk where
  fmta : Nat
  fmtb : Nat
  wreg : Nat
  tile : Nat
  acc : Nat
  kg : Nat
  zd : Bool
  scaleA : W64
  scaleB : W64

def Blk.of (b : List Byte) : Blk :=
  { fmta := field b 0 1 % 16, fmtb := field b 1 1 % 16, wreg := field b 2 1, tile := field b 3 1, acc := field b 4 1,
    kg := field b 5 1, zd := field b 6 1 % 2 == 1, scaleA := BitVec.ofNat 64 (field b 8 8),
    scaleB := BitVec.ofNat 64 (field b 16 8) }

/-- A zero field that is not zero, or ACC, KGROUPS or TILE out of range (R324). -/
def blkBad (b : List Byte) : Bool :=
  field b 0 1 / 16 != 0 || field b 1 1 / 16 != 0 || 31 < field b 3 1 || 2 < field b 4 1 || field b 5 1 == 0 ||
    8 < field b 5 1 || 1 < field b 6 1 || field b 7 1 != 0 || field b 24 8 != 0

/-- The format registers of an operation as they stood at its issue. -/
def EngOp.fm (e : EngOp) (i : Nat) : W32 := Tbl.get e.fms i 0
def EngOp.blk (e : EngOp) : Blk := Blk.of e.block
def EngOp.fa (e : EngOp) : W32 := e.fm e.blk.fmta
def EngOp.fb (e : EngOp) : W32 := e.fm e.blk.fmtb
def EngOp.isMmap (e : EngOp) : Bool := e.isMma && e.opcode.toNat % 16 / 2 == 1
/-- The bank that an mma, mmap or bload names. -/
def EngOp.bank (e : EngOp) : Nat := e.opcode.toNat % 2
def EngOp.isBload (e : EngOp) : Bool := e.unit == U.mx && e.opcode.toNat < 2
/-- zero, drain and aload (R328). -/
def EngOp.isMoveCmd (e : EngOp) : Bool := e.isCmd && !e.isMma

/-- The address of the format block. -/
def EngOp.blockAddr (e : EngOp) : W64 := e.a0 + sx e.t0

/-- Bytes of the gang's windows, tags 0x1 and 0x2 alone, or the cause; mapped sectors fill, and a report-mode watchpoint
posts its event (R366). -/
def State.mxWindow (s : State) (fold : Nat) (e : EngOp) (addr : W64) (n : Nat) : Except (BitVec 7) (List Byte × State) :=
  if tagOf addr ≠ 1 ∧ tagOf addr ≠ 2 then .error 0x2A
  else match s.engWindow fold e false addr n with
    | (_, .fault c) => .error c
    | (s1, .bytes ps _) =>
      .ok (s1.readPlaces ps, s1.engReport fold e false [({ idx := 0, src := addr, dst := addr, len := n }, .bytes ps [])])
    | (_, .wait) => .error 0x2A

/-- The scales that take part (R325, R337), up to the last one in use: of A for its 16 rows, of B for its 128 columns, with
the k-rows below 8 · KGROUPS. None is in use when SK is 0. -/
def scaleCount (w : W32) (isA : Bool) (kg : Nat) : Nat :=
  let q := (8 * kg - 1) / fmLen w
  if fmSk w = 0 then 0 else if isA then 15 * (64 / fmLen w) + q + 1 else q * 128 + 128

/-- The bytes of a scale array that are in use. -/
def State.mxScales (s : State) (fold : Nat) (e : EngOp) (w : W32) (addr : W64) (n : Nat) :
    Except (BitVec 7) (List Byte × State) :=
  if n = 0 then .ok ([], s) else s.mxWindow fold e addr (n * fmScaleSize w)

/-- Read an operation's block and scales with the checks of R324 that need no bank: the operation with what was read,
or the cause. -/
def State.readBlock (s : State) (fold : Nat) (e : EngOp) : Except (BitVec 7) (EngOp × State) :=
  if e.blockAddr.toNat % 32 ≠ 0 then .error 0x26
  else match s.mxWindow fold e e.blockAddr 32 with
    | .error c => .error c
    | .ok (b, s1) =>
      let k := Blk.of b
      let fa := e.fm k.fmta
      let fb := e.fm k.fmtb
      let sa := if fmBad fa then 0 else fa
      let sb := if fmBad fb then 0 else fb
      let kg := min 8 (max 1 k.kg)
      let mis (w : W32) (a : W64) : Bool := fmSk w != 0 && a.toNat % fmScaleSize w != 0
      if mis sa k.scaleA || mis sb k.scaleB then .error 0x26
      else match s1.mxScales fold e sa k.scaleA (scaleCount sa true kg) with
        | .error c => .error c
        | .ok (ba, s2) => match s2.mxScales fold e sb k.scaleB (scaleCount sb false kg) with
          | .error c => .error c
          | .ok (bb, s3) =>
            let intBad := k.acc != 0 && (!fmInt fa || !fmInt fb || fmSk fa != 0 || fmSk fb != 0)
            if blkBad b || fmBad fa || fmBad fb || intBad then .error 0x48
            else if (match s.gang e.gang with | some g => decide (g.block.wide ≤ k.wreg) | none => true) then .error 0x17
            else .ok ({ e with block := b, scaleA := ba, scaleB := bb }, s3)

/-- The half of its gang that a fold holds (R177). -/
def State.halfOf (s : State) (gid fold : Nat) : Nat :=
  match s.gang gid with
  | some g => g.half fold
  | none => 0

/-- The range-lock interval of a window operand (R305). -/
def State.mxLock (s : State) (fold : Nat) (e : EngOp) (dst : Bool) (addr : W64) (n : Nat) : List Lock :=
  s.sideLocks fold e .generic dst [(addr, n)]

/-- A tile's entry in the accumulator space. -/
def tileLock (fold : Nat) (e : EngOp) (lo hi : Nat) (dst : Bool) : Lock :=
  { uid := e.uid, space := 3, owner := fold, lo := 8192 * lo, hi := 8192 * hi + 8191, dst := dst, mx := true, seq := 0 }

/-- The entries of an mma once its block is read (R315, R337): those of scale arrays not in use have returned. -/
def State.mmaLocks (s : State) (fold : Nat) (e : EngOp) : List Lock :=
  let k := e.blk
  let wreg : Lock := { uid := e.uid, space := 2, owner := wideOwner e.gang (s.halfOf e.gang fold), lo := 2048 * k.wreg,
                       hi := 2048 * k.wreg + 2047, dst := false, mx := true, seq := 0 }
  let scale (bs : List Byte) (a : W64) : List Lock := if bs.isEmpty then [] else s.mxLock fold e false a bs.length
  [wreg] ++ scale e.scaleA k.scaleA ++ scale e.scaleB k.scaleB ++ [tileLock fold e k.tile k.tile true]

/-- The four entries that an mma holds before its block is read (R315). -/
def unreadLocks (e : EngOp) : List Lock :=
  List.replicate 4 { uid := e.uid, space := Lock.unreadSpace, owner := 0, lo := 0, hi := 0, dst := true, mx := true,
                     seq := 0 }

/-- The entries of an operation replaced by others, in its place of the order of registration. -/
def Fold.swapLocks (f : Fold) (uid : Nat) (ls : List Lock) : Fold :=
  let seq := ((f.locks.find? (fun k => k.uid == uid)).map Lock.seq).getD f.lockSeq
  { f with locks := f.locks.filter (fun k => k.uid != uid) ++ ls.map (fun k => { k with seq := seq }) }

/-! ## Triggers (R314, R315) -/

/-- A token at once on the triggered lanes, with no other effect (R313, R314). -/
def State.mxToken (s : State) (id : CtxId) (e : EngOp) (t : Trig) (cause : BitVec 7) : State :=
  s.modCtx id (fun c => c.finish t.unit t.uid t.mask (fun _ => 0)
    (some (e.record cause e.mask (List.replicate 1024 (e.blockAddr)))))

/-- The gang that a team's MX trigger acts for: one that holds the engine (R313). -/
def State.mxGang (s : State) (c : Ctx) : Option Gang :=
  (s.gang c.gang).filter (fun g => g.hasEngine && !c.shadow)

/-- A bank load's element size and row distance (R320). -/
def bloadSize (w : Nat) : Nat := bits w 16 16 + 1
def bloadPitch (w : Nat) : Nat := if bits w 15 0 = 0 then 128 * bloadSize w else bits w 15 0

/-- Whether `n` bytes from a window address lie in one block of the gang's (R211). -/
def Gang.inWindow (g : Gang) (fold : Nat) (addr : W64) (n : Nat) : Bool :=
  match g.window fold addr, g.window fold (addr + BitVec.ofNat 64 (n - 1)) with
  | some (f, off), some (f2, off2) => (tagOf addr == 1 || tagOf addr == 2) && f2 == f && off2 == off + (n - 1)
  | _, _ => false

/-- The checks of a bank load (R320), and the bytes its rows span. -/
def bloadCheck (g : Gang) (fold : Nat) (e : EngOp) : Except (BitVec 7) Nat :=
  let w := e.t0.toNat
  let size := bloadSize w
  let p := bloadPitch w
  let span := 63 * p + 128 * size
  if bits w 31 17 ≠ 0 then .error 0x48
  else if e.a0.toNat % size ≠ 0 ∨ p % size ≠ 0 then .error 0x26
  else if g.inWindow fold e.a0 span then .ok span else .error 0x2A

/-- bload (R320). -/
def startBload : Start := fun s id t =>
  match s.ctx id with
  | none => s
  | some c =>
    let e := s.newEng id c t
    match s.mxGang c with
    | none => s.mxToken id e t 0x4F
    | some g => match bloadCheck g id.fold e with
      | .error k => s.mxToken id e t k
      | .ok n => s.pushEng id.fold e (s.mxLock id.fold e false e.a0 n)

/-- mma and mmap (R323, R330): the block is read later. A gang that is no PAIR gang has no mmap. -/
def startMma : Start := fun s id t =>
  match s.ctx id with
  | none => s
  | some c =>
    let e := s.newEng id c t
    match s.mxGang c with
    | none => s.mxToken id e t 0x4F
    | some g =>
      if e.isMmap && !g.block.pair then s.mxToken id e t 0x49 else s.pushEng id.fold e (unreadLocks e)

/-- The tiles of a mask, lowest first. -/
def maskTiles (w : W32) : List Nat := (List.range 32).filter (fun i => w.getLsbD i)

/-- zero (R331). -/
def startZero : Start := fun s id t =>
  match s.ctx id with
  | none => s
  | some c =>
    let e := s.newEng id c t
    if (s.mxGang c).isNone then s.mxToken id e t 0x4F
    else match maskTiles e.t0 with
      | [] => s.answer id t 0
      | lo :: r => s.pushEng id.fold e [tileLock id.fold e lo (r.getLastD lo) true]

/-- The element size of a conversion; 6 and 7 name none (R333). -/
def convSize (c : Nat) : Nat :=
  match c with
  | 0 => 4 | 1 => 2 | 2 => 2 | 3 => 4 | 4 => 2 | 5 => 1 | _ => 0

/-- The row distance of a transfer (R332). -/
def tilePitch (w size : Nat) : Nat := if bits w 31 16 = 0 then 128 * size else bits w 31 16

/-- The checks of drain and aload (R332, R333), and the bytes the elements span. -/
def tileCheck (g : Gang) (fold : Nat) (e : EngOp) : Except (BitVec 7) Nat :=
  let w := e.t0.toNat
  let size := convSize (bits w 7 5)
  let p := tilePitch w size
  let span := 15 * p + 128 * size
  if bits w 15 9 ≠ 0 ∨ size = 0 ∨ (e.opcode = 0x40 ∧ bit w 8 = true) then .error 0x48
  else if e.a0.toNat % size ≠ 0 ∨ p % size ≠ 0 then .error 0x26
  else if tagOf e.a0 = 3 then
    (if bits e.a0.toNat 59 0 + span ≤ 2048 * g.block.wide then .ok span else .error 0x2A)
  else if g.inWindow fold e.a0 span then .ok span else .error 0x2A

/-- drain and aload (R333). -/
def startTile : Start := fun s id t =>
  match s.ctx id with
  | none => s
  | some c =>
    let e := s.newEng id c t
    match s.mxGang c with
    | none => s.mxToken id e t 0x4F
    | some g => match tileCheck g id.fold e with
      | .error k => s.mxToken id e t k
      | .ok n =>
        let tile := e.t0.toNat % 32
        let drain := e.opcode == 0x30
        s.pushEng id.fold e (s.mxLock id.fold e drain e.a0 n ++ [tileLock id.fold e tile tile (!drain)])

/-- fmt (R317): it completes at issue. -/
def startFmt : Start := fun s id t =>
  match s.ctx id with
  | none => s
  | some c =>
    let e := s.newEng id c t
    match s.mxGang c with
    | none => s.mxToken id e t 0x4F
    | some g =>
      let i := e.t0.toNat
      if 16 ≤ i then s.mxToken id e t 0x48
      else (s.setGang c.gang { g with fm := Tbl.put g.fm i (lo32 e.a0) }).answer id t (zx (Tbl.get g.fm i 0))

/-- stat (R335): it waits for the team's earlier operations. -/
def startStat : Start := fun s id t =>
  match s.ctx id with
  | none => s
  | some c =>
    let e := s.newEng id c t
    if (s.mxGang c).isNone then s.mxToken id e t 0x4F
    else if bits e.t0.toNat 31 7 ≠ 0 then s.mxToken id e t 0x48
    else s.pushEng id.fold e []

/-- The entries that an MX trigger needs; none when its queue is full (R315). -/
def needMx (s : State) (id : CtxId) (t : Trig) : Option Nat :=
  let q := (s.fold id.fold).eng
  let o := t.opcode.toNat
  if (match s.ctx id with | some c => (s.mxGang c).isNone | none => true) then some 0
  else if o < 2 then (if 2 ≤ (q.filter EngOp.isBload).length then none else some 1)
  else if 0x50 ≤ o then some 0
  else if 8 ≤ (q.filter (fun e => e.isCmd && e.dispatch.isNone)).length then none
  else if o / 16 = 1 then some 4
  else if o = 0x20 then some 1
  else some 2

/-! ## Bank loads (R320, R321) -/

/-- Whether a bank load can perform: earlier loads and operations of its bank have completed, and no earlier CP or NX
operation conflicts. -/
def State.bloadReady (s : State) (fold : Nat) (e : EngOp) : Bool :=
  e.isBload && !(s.fold fold).eng.any (fun x => (x.isBload || x.isMma) && x.bank == e.bank && decide (x.uid < e.uid)) &&
    !(s.fold fold).lockHeld e.uid && s.olderDone fold e

/-- The 64 rows of a bank load, or the cause of a fill or a watchpoint. -/
def State.bloadRows (s : State) (fold : Nat) (e : EngOp) (size p : Nat) : Nat → Except (BitVec 7) (List (List Byte) × State)
  | 0 => .ok ([], s)
  | k + 1 =>
    match State.bloadRows s fold e size p k with
    | .error c => .error c
    | .ok (rows, s1) => match s1.mxWindow fold e (e.a0 + BitVec.ofNat 64 (k * p)) (128 * size) with
      | .error c => .error c
      | .ok (b, s2) => .ok (rows ++ [b], s2)

/-- R320. A bank load completes: the bank holds its rows, with VALID and ES. -/
def execMxBloadComplete (fold uid : Nat) (s : State) : Out3 :=
  match s.findEng fold uid with
  | none => .next s
  | some e =>
    if !s.bloadReady fold e then .next s
    else
      let size := bloadSize e.t0.toNat
      match s.bloadRows fold e size (bloadPitch e.t0.toNat) 64 with
      | .error c => .next (s.endToken fold e c e.a0)
      | .ok (rows, s1) =>
        let s2 := rows.zipIdx.foldl (fun s x =>
          { s with mem := Memory.writeN s.mem (Memory.bankKey fold e.bank (x.2 * 128 * size)) x.1 }) s1
        let s3 := s2.modFold fold (fun f => { f with bankValid := Tbl.put f.bankValid e.bank (true, size == 2) })
        .next (s3.endEng fold e (fun _ => BitVec.ofNat 64 (64 * 128 * size)) none)

/-! ## Reading the block (R323) -/

/-- Whether an earlier copy or transport operation in flight still writes scale bytes that the block names (R307, R337). -/
def State.scalesHeld (s : State) (fold : Nat) (e : EngOp) : Bool :=
  match s.mxWindow fold e e.blockAddr 32 with
  | .error _ => false
  | .ok (b, _) =>
    let k := Blk.of b
    let f := s.fold fold
    let seq := ((f.locks.find? (fun l => l.uid == e.uid)).map Lock.seq).getD f.lockSeq
    let held (w : W32) (isA : Bool) (a : W64) : Bool :=
      let n := if fmBad w then 0 else scaleCount w isA (min 8 (max 1 k.kg)) * fmScaleSize w
      n != 0 && (s.mxLock fold e false a n).any (fun l => f.locks.any (fun o => decide (o.seq < seq) && l.conflicts o))
    held (e.fm k.fmta) true k.scaleA || held (e.fm k.fmtb) false k.scaleB

/-- R323. The engine reads the block and the scales of an mma or mmap once, after its team's earlier accesses and the copies
that its scales follow. A fault ends an mma; an mmap keeps it until its partner is there. -/
def execMxFormatBlockRead (fold uid : Nat) (s : State) : Out3 :=
  match s.findEng fold uid with
  | none => .next s
  | some e =>
    if !(e.isMma && e.block.isEmpty && e.token.isNone && s.olderDone fold e) || s.scalesHeld fold e then .next s
    else match s.readBlock fold e with
      | .error c =>
        if e.isMmap then
          .next (((s.modEng fold uid (fun e => { e with token := some c, tokenAddr := e.blockAddr })).modFold fold
            (fun f => f.dropLocks uid)).wakeFold fold)
        else .next (s.endToken fold e c e.blockAddr)
      | .ok (e1, s1) =>
        .next (((s1.modEng fold uid (fun _ => e1)).modFold fold (fun f => f.swapLocks uid (s1.mmaLocks fold e1))).wakeFold
          fold)

/-! ## Dispatch (R321, R328 to R330) -/

/-- Operand element A[m][k] recoded, with its term count (R318, R322). -/
def State.aElem (s : State) (fold : Nat) (e : EngOp) (m k : Nat) : Fv × Nat :=
  let code := s.rd (Memory.wideKey e.gang (s.halfOf e.gang fold) (contOff e.blk.wreg m k)) 2
  recode (fmCap e.fa) ((Narrow.of e.fa).decode code)

/-- Term counts of a group in a row (R329). -/
def State.rowTerms (s : State) (fold : Nat) (e : EngOp) (g m : Nat) : List Nat :=
  (List.range 8).map (fun i => (s.aElem fold e m (8 * g + i)).2)

/-- The step counts c(g, m) of a group in the 16 rows (R329). -/
def State.steps (s : State) (fold : Nat) (e : EngOp) (g : Nat) : List Nat :=
  (List.range 16).map (fun m => if g < e.blk.kg then (s.rowTerms fold e g m).foldl max 0 else 0)

/-- The starts and finishes of the 8 groups for a dispatch at cycle `d` (R329). -/
def State.groupTimes (s : State) (fold : Nat) (e : EngOp) (d : Nat) : List Nat × List Nat :=
  let h := (s.fold fold).mxHist
  let prevF (g : Nat) : Nat := match h with
    | x :: _ => x.2.getD g 0
    | [] => 0
  let older : Nat := match h with
    | _ :: y :: _ => y.1.foldl max 0
    | _ => 0
  let st := (List.range 8).map (fun g => max (max d (prevF g)) older)
  let fi := (List.range 8).map (fun g => st.getD g 0 + (s.steps fold e g).foldl (· + ·) 0)
  (st, fi)

/-- A team's term counters after an operation (R334): counter 8 · KIND + GROUP. -/
def State.addTerms (s : State) (fold : Nat) (e : EngOp) (d : Nat) (st : List Nat) : State :=
  let prevF (g : Nat) : Nat := match (s.fold fold).mxHist with
    | x :: _ => x.2.getD g 0
    | [] => 0
  let add (t : Tbl Nat) (i n : Nat) : Tbl Nat := Tbl.upd t i 0 (fun x => (x + n) % 2 ^ 48)
  let one (t : Tbl Nat) (g : Nat) : Tbl Nat :=
    let cs := s.steps fold e g
    let terms := ((List.range 16).map (fun m => (s.rowTerms fold e g m).foldl (· + ·) 0)).foldl (· + ·) 0
    let t1 := add (add t g terms) (8 + g) (cs.foldl (· + ·) 0)
    add (add t1 (16 + g) (cs.filter (fun x => x == 0)).length) (24 + g) (st.getD g 0 - max d (prevF g))
  s.modCtx { fold := fold, slot := e.slot } (fun c =>
    if c.tid = e.tid then { c with terms := (List.range e.blk.kg).foldl one c.terms } else c)

/-- The bank check at dispatch (R324). -/
def State.bankOk (s : State) (fold : Nat) (e : EngOp) : Bool :=
  let (v, es) := Tbl.get (s.fold fold).bankValid e.bank (false, false)
  v && es == fmWide e.fb

/-- The first command that has not dispatched (R328). -/
def Fold.headCmd (f : Fold) : Option EngOp := f.eng.find? (fun e => e.isCmd && e.dispatch.isNone)

/-- Whether the head command may dispatch (R328), but for the partner of an mmap. -/
def State.headReady (s : State) (fold : Nat) (e : EngOp) : Bool :=
  let f := s.fold fold
  let run := f.eng.filter (fun x => x.isCmd && x.dispatch.isSome)
  if e.isMma then
    (e.token.isSome || !e.block.isEmpty) && !run.any EngOp.isMoveCmd &&
      !f.eng.any (fun x => x.isBload && x.bank == e.bank && decide (x.uid < e.uid)) && !f.lockHeld e.uid
  else run.isEmpty && !f.lockHeld e.uid && s.olderDone fold e

/-- One side's dispatch of an mma or mmap: times, counters, and the operation's length from its own groups plus `tail`. -/
def State.dispatchMma (s : State) (fold : Nat) (e : EngOp) (tail : Nat) : State :=
  let d := (s.fold fold).cycle
  let (st, fi) := s.groupTimes fold e d
  let s1 := s.addTerms fold e d st
  let s2 := s1.modEng fold e.uid (fun e => { e with dispatch := some d, starts := st, finishes := fi,
                                                    done := fi.foldl max 0 - d + tail })
  s2.modFold fold (fun f => { f with mxHist := (st, fi) :: f.mxHist.take 1 })

/-- Whether two sides of an mmap agree (R330): bytes 0 to 7 of the blocks and the registers they name. -/
def pairsMatch (a b : EngOp) : Bool :=
  a.token.isNone && b.token.isNone && a.block.take 8 == b.block.take 8 && a.fa == b.fa && a.fb == b.fb

/-- Both sides of a mismatched mmap end: a side keeps a cause of its own (R330). -/
def State.endPair (s : State) (f : Nat) (a : EngOp) (g : Nat) (b : EngOp) : State :=
  (s.endToken f a (a.token.getD 0x49) a.blockAddr).endToken g b (b.token.getD 0x49) b.blockAddr

/-- Whether every matrix or general team of a gang on a fold has exited (R330): neither resident there nor evicted from it
(R195). -/
def State.noMxTeams (s : State) (gid fold : Nat) : Bool :=
  let mx (c : Ctx) : Bool := c.gang == gid && !c.shadow && (c.kind == 1 || c.kind == 3)
  let half := s.halfOf gid fold
  !(s.onFold fold).any (fun x => mx x.2 && x.2.wait != .exiting) &&
    !(s.die (dieOf fold)).evicted.any (fun x => x.gang == gid && mx x.ctx && x.half == half)

/-- The mmap of an engine that pairs with the next one of its partner (R330): its oldest that has not dispatched. -/
def Fold.nextMmap (f : Fold) (gang : Nat) : Option EngOp :=
  f.eng.find? (fun x => x.isMmap && x.dispatch.isNone && x.gang == gang)

/-- Dispatch an mmap with its partner (R330). None while the partner is not ready. -/
def State.dispatchPair (s : State) (fold : Nat) (e : EngOp) : Option State :=
  let other := partner fold
  match (s.fold other).nextMmap e.gang with
  | none => if s.noMxTeams e.gang other then some (s.endToken fold e (e.token.getD 0x49) e.blockAddr) else none
  | some x =>
    if ((s.fold other).headCmd).map EngOp.uid ≠ some x.uid ∨ !s.headReady other x then none
    else if !pairsMatch e x then some (s.endPair fold e other x)
    else if !(s.bankOk fold e && s.bankOk other x) then
      let bad (f : Nat) (y : EngOp) : EngOp := if s.bankOk f y then y else { y with token := some 0x48 }
      some (s.endPair fold (bad fold e) other (bad other x))
    else
      let s1 := (s.dispatchMma fold e 16).dispatchMma other x 16
      let len (f uid : Nat) : Nat := ((s1.findEng f uid).map EngOp.done).getD 0
      let n := max (len fold e.uid) (len other x.uid)
      some ((s1.modEng fold e.uid (fun y => { y with done := n })).modEng other x.uid (fun y => { y with done := n }))

/-- Dispatch a fold's head command (R328). None while it cannot. -/
def State.dispatchHead (s : State) (fold : Nat) : Option State :=
  match (s.fold fold).headCmd with
  | none => none
  | some e =>
    if !s.headReady fold e then none
    else if e.isMmap then (s.dispatchPair fold e).map (fun s => s.wakeFold fold)
    else if e.isMma then
      some ((if s.bankOk fold e then s.dispatchMma fold e 12 else s.endToken fold e 0x48 e.blockAddr).wakeFold fold)
    else
      some ((s.modEng fold e.uid (fun e => { e with dispatch := some (s.fold fold).cycle })).wakeFold fold)

/-- R328. The head command dispatches once its predecessor, block, bank and conflicts allow. -/
def execMxDispatch (fold : Nat) (s : State) : Out3 := .next ((s.dispatchHead fold).getD s)

/-! ## Results (R325 to R327, R330) -/

/-- The exact product p(k) of a row and a column, NaN for ∞ · 0 (R325). -/
def State.product (s : State) (fold : Nat) (e : EngOp) (m n k : Nat) : Fv :=
  let fa := e.fa
  let fb := e.fb
  let es := if fmWide fb then 2 else 1
  let a := (s.aElem fold e m k).1
  let b := (Narrow.of fb).decode (s.rd (Memory.bankKey fold e.bank ((128 * k + n) * es)) es)
  let sa := scaleVal fa e.scaleA (m * (64 / fmLen fa) + k / fmLen fa)
  let sb := scaleVal fb e.scaleB (k / fmLen fb * 128 + n)
  match Fv.mul a sa, Fv.mul b sb with
  | some x, some y => (Fv.mul x y).getD (.nan false)
  | _, _ => .nan false

/-- The products of one side for an element of D. -/
def State.products (s : State) (fold : Nat) (e : EngOp) (m n : Nat) : List Fv :=
  (List.range (8 * e.blk.kg)).map (fun k => s.product fold e m n k)

/-- floor(log2 |p|) of a number that is not zero. -/
def topExp : Fv → Option Int
  | .num _ m e => if m = 0 then none else some ((Nat.log2 m : Int) + e)
  | _ => none

/-- The sum S of R326 over the truncated products. -/
def windowSum (ps : List Fv) : Fv :=
  if ps.any Fv.isNan || (ps.any (Fv.isInf false) && ps.any (Fv.isInf true)) then .nan false
  else if ps.any (Fv.isInf false) then .inf false
  else if ps.any (Fv.isInf true) then .inf true
  else match ps.filterMap topExp with
    | [] => .num false 0 0
    | x :: r =>
      let q := r.foldl max x - 71
      let cutTo (p : Fv) : Int := match p with
        | .num n m e =>
          let v : Nat := if q ≤ e then m * 2 ^ (e - q).toNat else m / 2 ^ (q - e).toNat
          if n then -(v : Int) else v
        | _ => 0
      let v := (ps.map cutTo).foldl (· + ·) 0
      .num (decide (v < 0)) v.natAbs q

/-- The new word of D (R326, R327): the accumulation kind, the old word and the products. -/
def accumulate (acc old : Nat) (ps : List Fv) : Nat :=
  if acc = 0 then (Fmt.f32.sum 0 false [Fmt.f32.decode old, windowSum ps]).1
  else
    let v := (BitVec.ofNat 32 old).toInt + sumAt 0 ps
    if acc = 1 then (BitVec.ofInt 32 v).toNat
    else (BitVec.ofInt 32 (max (-(2 ^ 31)) (min (2 ^ 31 - 1) v))).toNat

/-- The key of a tile word (R218). -/
def tileKey (fold tile m n : Nat) : Nat := Memory.accKey fold (4 * (2048 * tile + 128 * m + n))

/-- The 2,048 new words of an operation's tile, from the tile of `base` and the products of the sides given. -/
def State.newTile (s : State) (base : Nat) (sides : List (Nat × EngOp)) (e : EngOp) : List Nat :=
  (List.range 2048).map (fun i =>
    let m := i / 128
    let n := i % 128
    let old := if e.blk.zd then 0 else s.rd (tileKey base e.blk.tile m n) 4
    accumulate e.blk.acc old (sides.flatMap (fun x => s.products x.1 x.2 m n)))

/-- A tile written whole. -/
def State.putTile (s : State) (fold tile : Nat) (ws : List Nat) : State :=
  { s with mem := Memory.writeN s.mem (tileKey fold tile 0 0) (ws.flatMap (bytesOf 4)) }

/-- An mma completes: its tile is written and R takes C_j − D_j (R329). -/
def State.endMma (s : State) (fold : Nat) (e : EngOp) : State :=
  (s.putTile fold e.blk.tile (s.newTile fold [(fold, e)] e)).endEng fold e
    (fun _ => zx (BitVec.ofNat 32 e.done)) none

/-- An mmap completes on both folds (R330): the even fold supplies D and the lower k. -/
def State.endMmap (s : State) (fold : Nat) (e : EngOp) (x : EngOp) : State :=
  let even := fold / 2 * 2
  let lo := if fold = even then e else x
  let hi := if fold = even then x else e
  let ws := s.newTile even [(even, lo), (even + 1, hi)] lo
  let s1 := (s.putTile even lo.blk.tile ws).putTile (even + 1) lo.blk.tile ws
  let r (y : EngOp) : Nat → W64 := fun _ => zx (BitVec.ofNat 32 y.done)
  (s1.endEng even lo (r lo) none).endEng (even + 1) hi (r hi) none

/-! ## Transfers (R331 to R333) -/

/-- A tile word as a window element (R333). -/
def drainConv (c w : Nat) : Nat :=
  let i := (BitVec.ofNat 32 w).toInt
  match c with
  | 1 => (Fmt.f16.convert 0 false (Fmt.f32.decode w)).1
  | 2 => (Fmt.bf16.convert 0 false (Fmt.f32.decode w)).1
  | 4 => (BitVec.ofInt 16 (max (-(2 ^ 15)) (min (2 ^ 15 - 1) i))).toNat
  | 5 => (BitVec.ofInt 8 (max (-(2 ^ 7)) (min (2 ^ 7 - 1) i))).toNat
  | _ => w

/-- A window element as a tile word (R333). -/
def aloadConv (c x : Nat) : Nat :=
  match c with
  | 1 => (Fmt.f32.convert 0 false (Fmt.f16.decode x)).1
  | 2 => (Fmt.f32.convert 0 false (Fmt.bf16.decode x)).1
  | 4 => (BitVec.ofInt 32 (BitVec.ofNat 16 x).toInt).toNat
  | 5 => (BitVec.ofInt 32 (BitVec.ofNat 8 x).toInt).toNat
  | _ => x

/-- The elements of a transfer, with the window address of each (R333). -/
def EngOp.tileElems (e : EngOp) : List Elem :=
  let w := e.t0.toNat
  let size := convSize (bits w 7 5)
  let p := tilePitch w size
  (List.range 2048).map (fun i =>
    let a := e.a0 + BitVec.ofNat 64 (i / 128 * p + i % 128 * size)
    { idx := i, src := a, dst := a, len := size })

/-- drain and aload (R333): every element is checked before any is moved. A sector that a drain covers is not read first
(R215). -/
def State.endTile (s : State) (fold : Nat) (e : EngOp) : State :=
  let w := e.t0.toNat
  let c := bits w 7 5
  let size := convSize c
  let tile := w % 32
  let drain := e.opcode == 0x30
  let (s1, found) := (if drain then s.coverPlan fold e e.tileElems else s).resolveSide fold e .generic drain e.tileElems
  match found.findSome? (fun x => match x.2 with | .fault k => some (k, x.1.src) | _ => none) with
  | some (k, a) => s.endToken fold e k a
  | none =>
    let s2 :=
      if drain then
        let s2 := found.foldl (fun s x => s.writePlaces x.2.places
          (bytesOf size (drainConv c (s.rd (tileKey fold tile (x.1.idx / 128) (x.1.idx % 128)) 4)))) s1
        if bit w 8 then s2.putTile fold tile (List.replicate 2048 0) else s2
      else s1.putTile fold tile (found.map (fun x => aloadConv c (natOf (s1.readPlaces x.2.places))))
    (s2.engReport fold e drain found).endEng fold e (fun _ => BitVec.ofNat 64 (2048 * size)) none

/-- zero (R331). -/
def State.endZero (s : State) (fold : Nat) (e : EngOp) : State :=
  let ts := maskTiles e.t0
  (ts.foldl (fun s i => s.putTile fold i (List.replicate 2048 0)) s).endEng fold e (fun _ => BitVec.ofNat 64 ts.length) none

/-! ## Completion -/

/-- A term counter as stat gives it (R335), and the context after. -/
def Ctx.stat (c : Ctx) (w : Nat) : W64 × Ctx :=
  let i := w % 32
  let v := Tbl.get c.terms i 0
  (BitVec.ofNat 64 (if bit w 5 then v / 2 ^ 32 else v % 2 ^ 32),
    if bit w 6 then { c with terms := Tbl.put c.terms i 0 } else c)

/-- Whether an mma that has dispatched may complete: its cycles have passed and it is the oldest (R329). -/
def State.mmaDue (s : State) (fold : Nat) (e : EngOp) : Bool :=
  match e.dispatch with
  | none => false
  | some d => decide (d + e.done ≤ (s.fold fold).cycle) &&
      !(s.fold fold).eng.any (fun x => x.isCmd && decide (x.uid < e.uid))

/-- Complete an MX operation other than a bank load. None while it cannot. -/
def State.completeMx (s : State) (fold : Nat) (e : EngOp) : Option State :=
  if e.isMmap then
    if !s.mmaDue fold e then none
    else match (s.fold (partner fold)).eng.find? (fun x => x.isMmap && x.gang == e.gang && x.dispatch.isSome) with
      | some x => if s.mmaDue (partner fold) x then some (s.endMmap fold e x) else none
      | none => none
  else if e.isMma then (if s.mmaDue fold e then some (s.endMma fold e) else none)
  else if e.isMoveCmd then
    if e.dispatch.isNone then none
    else some (if e.opcode = 0x20 then s.endZero fold e else s.endTile fold e)
  else if e.unit = U.mx ∧ e.opcode = 0x60 then
    if (s.fold fold).eng.any (fun x => x.isMma && x.slot == e.slot && x.tid == e.tid && decide (x.uid < e.uid)) then none
    else
      let id : CtxId := { fold := fold, slot := e.slot }
      match (s.ctx id).filter (fun c => c.tid == e.tid) with
      | some c =>
        let (v, c1) := c.stat e.t0.toNat
        some ((s.setCtx id c1).endEng fold e (fun _ => v) none)
      | none => some (s.endEng fold e (fun _ => 0) none)
  else none

/-- R329, R331, R333, R335. An MX operation completes. -/
def execMxOpComplete (fold uid : Nat) (s : State) : Out3 :=
  match s.findEng fold uid with
  | some e => .next ((s.completeMx fold e).getD s)
  | none => .next s

/-! ## The rows of MX -/

/-- R320. Loads a weight bank from scratchpad rows. -/
def execMxBload (bank : BitVec 1) (m : MoveF) (s : State) : Out3 :=
  issueEngine (syllable true 17 3 (0 + bank.toNat) m) startBload needMx s
/-- R325. Queues a term-serial multiply-accumulate into an accumulator tile. -/
def execMxMma (bank : BitVec 1) (m : MoveF) (s : State) : Out3 :=
  issueEngine (syllable true 17 3 (16 + bank.toNat) m) startMma needMx s
/-- R330. Queues a paired multiply-accumulate across both engines of a fold pair. -/
def execMxMmap (bank : BitVec 1) (m : MoveF) (s : State) : Out3 :=
  issueEngine (syllable true 17 3 (18 + bank.toNat) m) startMma needMx s
/-- R331. Zeroes the accumulator tiles in a mask. -/
def execMxZero (m : MoveF) (s : State) : Out3 :=
  issueEngine (syllable true 17 3 32 m) startZero needMx s
/-- R333. Moves a tile to a window with conversion. -/
def execMxDrain (m : MoveF) (s : State) : Out3 :=
  issueEngine (syllable true 17 3 48 m) startTile needMx s
/-- R333. Loads a tile from a window with conversion. -/
def execMxAload (m : MoveF) (s : State) : Out3 :=
  issueEngine (syllable true 17 3 64 m) startTile needMx s
/-- R317. Writes a format register and returns its previous value. -/
def execMxFmt (m : MoveF) (s : State) : Out3 :=
  issueEngine (syllable true 17 3 80 m) startFmt needMx s
/-- R335. Reads one term counter once earlier mma operations complete. -/
def execMxStat (m : MoveF) (s : State) : Out3 :=
  issueEngine (syllable true 17 3 96 m) startStat needMx s

end Sys2Proof.Machine
end

