-- ==== Sys2Proof/Machine/Registers.lean ====
section
/-! DEFINITION. The special registers (R371, R372, R385, R416, R421, R443): selectors, the register table with its
rights, the value each register reads, and what a write of each does. -/

namespace Sys2Proof.Machine

/-! ## Selectors and the table -/

/-- A selector's fields (R371). -/
structure Sel where
  other : Bool
  slot : Nat
  die : Nat
  idx : Nat
  num : Nat
deriving DecidableEq, Repr

/-- The fields of a selector; none when a reserved bit is not zero (R371). -/
def Sel.of (v : W64) : Option Sel :=
  let n := v.toNat
  if bits n 63 32 ≠ 0 ∨ bits n 15 12 ≠ 0 ∨ (bit n 31 = false ∧ bits n 30 26 ≠ 0) then none
  else some { other := bit n 31, slot := bits n 30 26, die := bits n 25 24, idx := bits n 23 16, num := bits n 11 0 }

/-- What a register belongs to. -/
inductive Holder where
  | team | gang | fold | engine | die | pkg
deriving DecidableEq, Repr

/-- Who may read or write a register: any team, the shadow context, the shadow context or the gang that holds the engine,
the control node alone. A write right of `ro` lets the write through and ignores it (R6). -/
inductive Right where
  | any | shadow | engine | control | ro
deriving DecidableEq, Repr

/-- A row of the register table: holder, number of indices, rights, and whether the register is write-only. -/
structure RegDesc where
  holder : Holder
  count : Nat
  rd : Right
  wr : Right
  wo : Bool
deriving DecidableEq, Repr

/-- The register table (R371, R385, R416, R421, R443). -/
def regDesc (n : Nat) : Option RegDesc :=
  let r (h : Holder) (c : Nat) (a b : Right) : Option RegDesc := some { holder := h, count := c, rd := a, wr := b, wo := false }
  if n ≤ 0x008 then r .team 1 .any .ro
  else if 0x010 ≤ n ∧ n ≤ 0x014 then r .team 1 .any .any
  else if n = 0x015 then r .team 32 .any .any
  else if 0x016 ≤ n ∧ n ≤ 0x019 then r .team 1 .any .ro
  else if 0x01A ≤ n ∧ n ≤ 0x01C then r .team 1 .any .any
  else if n = 0x020 ∨ n = 0x021 then r .gang 1 .any .shadow
  else if n = 0x022 then r .gang 1 .any .ro
  else if n = 0x030 ∨ n = 0x031 then r .gang 8 .any .any
  else if 0x040 ≤ n ∧ n ≤ 0x042 then r .fold 8 .shadow .shadow
  else if n = 0x050 then r .fold 1 .any .shadow
  else if n = 0x100 then r .team 16 .any .any
  else if n = 0x101 then r .fold 64 .any .shadow
  else if n = 0x102 then r .fold 1 .any .ro
  else if n = 0x103 then r .pkg 1 .any .ro
  else if 0x110 ≤ n ∧ n ≤ 0x114 then r .engine 256 .engine .ro
  else if n = 0x115 then r .engine 5 .engine .ro
  else if n = 0x116 then r .engine 1 .engine .engine
  else if n = 0x120 ∨ n = 0x121 then r .fold 4 .shadow .shadow
  else if n = 0x122 ∨ n = 0x123 then r .fold 1 .shadow .shadow
  else if 0x130 ≤ n ∧ n ≤ 0x132 then r .fold 1 .any .ro
  else if n = 0x133 then r .fold 64 .any .ro
  else if n = 0x134 then r .fold 5 .any .ro
  else if n = 0x140 then r .die 1 .shadow .shadow
  else if n = 0x141 then r .die 64 .shadow .control
  else if n = 0x150 ∨ n = 0x151 then r .die 32 .any .shadow
  else if n = 0x152 then r .die 16 .any .shadow
  else if n = 0x160 then r .die 1 .shadow .shadow
  else if n = 0x161 ∨ n = 0x162 then r .die 7 .any .shadow
  else if n = 0x207 then some { holder := .die, count := 1, rd := .shadow, wr := .shadow, wo := true }
  else if 0x200 ≤ n ∧ n ≤ 0x208 then r .die 1 .shadow .shadow
  else if n = 0x209 then r .die 64 .shadow .shadow
  else if n = 0x20A then r .die 32 .shadow .shadow
  else if n = 0x20B then r .fold 16 .any .ro
  else if n = 0x20C then r .die 1 .shadow .shadow
  else if 0x210 ≤ n ∧ n ≤ 0x213 then r .die 64 .shadow .shadow
  else if n = 0x214 then some { holder := .die, count := 64, rd := .any, wr := .any, wo := true }
  else if n = 0x220 then r .die 256 .shadow .shadow
  else if n = 0x221 then r .pkg 1 .any .control
  else if n = 0x222 then r .pkg 1 .any .ro
  else if n = 0x223 then r .die 1 .any .ro
  else if n = 0x224 then r .pkg 16 .shadow .shadow
  else if 0x300 ≤ n ∧ n ≤ 0x306 then r .pkg 16 .any .shadow
  else if n = 0x310 ∨ n = 0x311 then r .pkg 1 .any .shadow
  else none

/-- The RW bits of a register (R6). -/
def rwMask (n i : Nat) : W64 :=
  let c48 : W64 := 0xFFFFFFFFFFFF
  match n with
  | 0x010 => 0x7F
  | 0x011 => ~~~1
  | 0x012 => BitVec.allOnes 64
  | 0x013 => c48
  | 0x014 => BitVec.allOnes 64
  | 0x015 => 0xFFFFFFFF
  | 0x01A => ~~~1
  | 0x01B => 0x3FFC0300
  | 0x01C => 0x1F00
  | 0x020 => BitVec.allOnes 64
  | 0x021 => 0x101
  | 0x030 => 0x1FFFFFFFFFFFF00
  | 0x031 => 0xC0001FFF000FFF00
  | 0x040 => BitVec.allOnes 64
  | 0x041 => BitVec.allOnes 64
  | 0x042 => 0xFFFFFFFF0000FFFC
  | 0x050 => 0x3F000
  | 0x100 => if i < 8 then c48 else 0
  | 0x101 => if i < 8 ∨ 32 ≤ i then c48 else 0
  | 0x120 => ~~~1
  | 0x121 => 0xFFFFFFFF00000003
  | 0x122 => 0xFFFFFFFF00001F38
  | 0x123 => 0xFFFFFFFF00001F03
  | 0x140 => 0xF
  | 0x141 => 0x1FF
  | 0x150 => c48
  | 0x151 => c48
  | 0x152 => c48
  | 0x160 => 0xFFFFFF
  | 0x161 => c48
  | 0x162 => c48
  | 0x200 => 0xFFFF
  | 0x201 => 0x1FFFFFFFFFFF000
  | 0x202 => 0xFE001F
  | 0x203 => 0xFFFFFFFF
  | 0x204 => 0x1FFFFFFFFFFF000
  | 0x205 => 0x1F
  | 0x206 => 0xFFFFFFFF
  | 0x208 => 0xFFFFFFFF0000
  | 0x209 => 0xFFFFFFFFF001
  | 0x20A => 0xF
  | 0x20C => 0xFFFFFFFFF001
  | 0x210 => BitVec.allOnes 64
  | 0x211 => 0x1FFFF
  | 0x212 => BitVec.allOnes 64
  | 0x213 => BitVec.allOnes 64
  | 0x220 => 7
  | 0x221 => 0xFFFFFFFF
  | 0x224 => 7
  | 0x302 => c48
  | 0x303 => c48
  | 0x305 => 0xFFFFFF
  | 0x306 => c48
  | 0x310 => 0xFFFFFFFC0000
  | 0x311 => 0xFFFFFFFF8000
  | _ => 0

/-- The W1C bits of a register (R6). -/
def w1cMask (n : Nat) : W64 :=
  match n with
  | 0x01C => 0x1F
  | 0x140 => 0x10
  | 0x202 => 0x100
  | 0x205 => 0x100
  | _ => 0

/-- The kind of a register operation (R372), by opcode. -/
inductive CsrOp where
  | read | write | set | clear
deriving DecidableEq, Repr

/-- What an operation writes before the access codes apply: the bits that a write to SMAP_Sn is checked on (R214). -/
def CsrOp.raw (op : CsrOp) (old a : W64) : W64 :=
  match op with
  | .read => old
  | .write => a
  | .set => old ||| a
  | .clear => old &&& ~~~a

/-- The register after an operation (R6, R372). -/
def CsrOp.apply (op : CsrOp) (old a rw w1c : W64) : W64 :=
  match op with
  | .read => old
  | .write => (old &&& ~~~(rw ||| w1c)) ||| (a &&& rw) ||| (old &&& w1c &&& ~~~a)
  | .set => old ||| (a &&& rw)
  | .clear => old &&& ~~~(a &&& (rw ||| w1c))

/-! ## Rights (R371) -/

/-- Who accesses: a context, or the control node for a fold. -/
structure Who where
  fold : Nat
  self : Option CtxId
  priv : Bool
  control : Bool
deriving DecidableEq, Repr

/-- A context as an accessor. -/
def Who.of (id : CtxId) (c : Ctx) : Who := { fold := id.fold, self := some id, priv := c.shadow, control := false }

/-- A register that an access reaches: its row, number, index, fold and die, and the context of a team or gang register. -/
structure Reg where
  desc : RegDesc
  num : Nat
  idx : Nat
  fold : Nat
  die : Nat
  team : Option CtxId
  other : Bool
deriving DecidableEq, Repr

/-- The gang of a context. -/
def State.gangOf (s : State) (id : CtxId) : Option Gang :=
  match s.ctx id with
  | some c => if c.shadow then none else s.gang c.gang
  | none => none

/-- The register that a selector names for an accessor; none where R371 raises C_CSRACCESS for it. -/
def State.reach (s : State) (w : Who) (sel : W64) : Option Reg :=
  match Sel.of sel with
  | none => none
  | some x =>
    match regDesc x.num with
    | none => none
    | some d =>
      let mk (team : Option CtxId) : Option Reg :=
        some { desc := d, num := x.num, idx := x.idx, fold := w.fold, die := x.die, team := team, other := x.other }
      if d.count ≤ x.idx then none
      else if x.other then
        let id : CtxId := { fold := w.fold, slot := x.slot }
        if !w.priv || (d.holder != .team && d.holder != .gang) || (s.ctx id).isNone then none else mk (some id)
      else match d.holder with
        | .team => (match w.self with
          | some id => mk (some id)
          | none => none)
        | .gang => (match w.self with
          | some id => if w.priv then none else mk (some id)
          | none => none)
        | _ => mk none

/-- Whether the accessor has a right (R371). -/
def State.hasRight (s : State) (w : Who) (r : Right) : Bool :=
  match r with
  | .any => true
  | .ro => true
  | .shadow => w.priv
  | .control => w.control
  | .engine => w.priv || (match w.self.bind s.gangOf with
    | some g => g.hasEngine
    | none => false)

/-- Whether an operation on a register is allowed (R371, R372). -/
def State.allowed (s : State) (w : Who) (r : Reg) (op : CsrOp) : Bool :=
  match op with
  | .read => s.hasRight w r.desc.rd
  | _ =>
    s.hasRight w r.desc.wr && (r.desc.wr == .ro || s.hasRight w r.desc.rd || r.desc.wo) &&
      !(r.desc.wo && op != .write) &&
      !(r.other && r.desc.holder == .team &&
        (match r.team.bind s.ctx with
        | some c => !c.frozen
        | none => true))

/-! ## Reading -/

/-- A team register (R350 to R353, R381, R386). A shadow context holds no identity of a team and no ASID. -/
def State.readTeam (s : State) (fold n i : Nat) (c : Ctx) : W64 :=
  let nat (x : Nat) : W64 := BitVec.ofNat 64 x
  match n with
  | 0x000 => nat c.teamId
  | 0x001 => nat c.gangIdx
  | 0x002 => zx c.flock
  | 0x003 => nat fold
  | 0x004 => nat (dieOf fold)
  | 0x005 => nat s.pkg.devId.toNat
  | 0x006 => nat c.nlanes
  | 0x007 => nat c.sched
  | 0x008 => if c.asid < 256 then nat c.asid else 0
  | 0x010 => c.cause
  | 0x011 => c.trapPc
  | 0x012 => c.faultBundle
  | 0x013 => c.faultCycle
  | 0x014 => c.faultAddr
  | 0x015 => zx (Lanes.word c.faultLanes i)
  | 0x016 => c.emu0
  | 0x017 => c.emu1
  | 0x018 => c.emu2
  | 0x019 => c.emu3
  | 0x01A => c.tvec
  | 0x01B => c.tstatus
  | 0x01C => c.fpCtl
  | _ => nat (Tbl.get c.stall i 0)

/-- SPM_WIN of a half of a gang (R211). -/
def Gang.spmWin (g : Gang) (half : Nat) : W64 :=
  BitVec.ofNat 64 (b2n g.block.pair * 2 ^ 29 + Tbl.get g.base (1 - half) 0 / 4096 % 256 * 2 ^ 21 +
    Tbl.get g.base half 0 / 4096 % 256 * 2 ^ 13 + g.block.scrLog2 * 2 ^ 8)

/-- A gang register of one of its halves (R36, R211, R214). -/
def Gang.readReg (g : Gang) (half n i : Nat) : W64 :=
  match n with
  | 0x020 => g.liveBase
  | 0x021 => Tbl.get g.mirrorSel half 0
  | 0x022 => g.spmWin half
  | 0x030 => Tbl.get g.smapV (8 * half + i) 0
  | _ => Tbl.get g.smapS (8 * half + i) 0

def Watch.none : Watch := { lo := 0, hi := 0, ctl := 0 }

/-- A fold or engine register (R364, R378, R385 to R388, R393, R395). -/
def Fold.readReg (f : Fold) (n i : Nat) : W64 :=
  let nat (x : Nat) : W64 := BitVec.ofNat 64 x
  let w := Tbl.get f.watch i Watch.none
  let b := Tbl.get f.brk i (0, 0)
  let m := f.mxc[i]?
  let count (k : Nat) : W64 := nat ((m.map (fun e => e.counts.getD k 0)).getD 0)
  match n with
  | 0x040 => w.lo
  | 0x041 => w.hi
  | 0x042 => w.ctl
  | 0x050 => f.preemptReserve
  | 0x101 => nat (Tbl.get f.stallFold i 0)
  | 0x102 => nat (f.cycle % 2 ^ 48)
  | 0x110 => (match m with
    | some e => e.addr ||| 1
    | none => 0)
  | 0x111 => count 0
  | 0x112 => count 1
  | 0x113 => count 2
  | 0x114 => count 3
  | 0x115 => nat (Tbl.get f.mxcOvf i 0)
  | 0x120 => b.1
  | 0x121 => b.2
  | 0x122 => f.stopCtl
  | 0x123 => f.sampCtl
  | 0x130 => nat f.snapSeq
  | 0x131 => f.snapTag
  | 0x132 => nat f.snapTb
  | 0x133 => nat (Tbl.get f.snapStall i 0)
  | 0x134 => nat (Tbl.get f.snapMxc i 0)
  | 0x20B => Tbl.get f.sliceLat i 0
  | _ => 0

/-- A die register (R166, R222, R232, R236, R245, R248, R396, R397, R399, R443). -/
def Die.readReg (d : Die) (n i : Nat) : W64 :=
  let nat (x : Nat) : W64 := BitVec.ofNat 64 x
  let q := Tbl.get d.queues i Queue.fresh
  match n with
  | 0x140 => d.traceCtl
  | 0x141 => Tbl.get d.qkey i 0
  | 0x150 => nat (Tbl.get d.rdirDegraded i 0)
  | 0x151 => nat (Tbl.get d.rdirLine i 0)
  | 0x152 => nat (Tbl.get d.nmXref i 0)
  | 0x160 => d.eccCtl
  | 0x161 => nat (Tbl.get d.eccCe i 0)
  | 0x162 => nat (Tbl.get d.eccRet i 0)
  | 0x200 => d.migThresh
  | 0x201 => d.migqBase
  | 0x202 => d.migqCtl
  | 0x203 => d.migqRidx
  | 0x204 => d.dlogBase
  | 0x205 => d.dlogCtl
  | 0x206 => d.dlogRidx
  | 0x208 => d.stripeBase
  | 0x209 => Tbl.get d.qroot i 0
  | 0x20A => Tbl.get d.l2Stage i 0
  | 0x20C => d.sroot
  | 0x210 => q.ent0
  | 0x211 => q.ent1
  | 0x212 => q.ent2
  | 0x213 => q.ent3
  | 0x220 => nat (Tbl.get d.islFloor i 0)
  | 0x223 => d.thermStat
  | _ => 0

/-- A package register (R385, R416, R421, R443). -/
def State.readPkg (s : State) (n i : Nat) : W64 :=
  match n with
  | 0x103 => BitVec.ofNat 64 s.timebase
  | 0x221 => s.pkg.pwrCap
  | 0x222 => s.pkg.pwrStat
  | 0x224 => BitVec.ofNat 64 (Tbl.get s.pkg.islIo i 0)
  | 0x310 => s.pkg.connBase
  | 0x311 => s.pkg.rmapBase
  | _ => s.linkReg i (n - 0x300)

/-- The value a register reads (R371). -/
def State.readReg (s : State) (r : Reg) : W64 :=
  if r.desc.wo then 0
  else match r.desc.holder with
    | .team => (match r.team with
      | some id => (match s.ctx id with
        | some c => s.readTeam id.fold r.num r.idx c
        | none => 0)
      | none => 0)
    | .gang => (match r.team with
      | some id => (match s.gangOf id with
        | some g => g.readReg (g.half id.fold) r.num r.idx
        | none => 0)
      | none => 0)
    | .fold => (s.fold r.fold).readReg r.num r.idx
    | .engine => (s.fold r.fold).readReg r.num r.idx
    | .die => (s.die r.die).readReg r.num r.idx
    | .pkg => s.readPkg r.num r.idx

/-! ## Writing: registers without an action of their own -/

/-- A word of FAULT_LANES replaced. -/
def Lanes.setWord (m : Lanes) (w : Nat) (v : W64) : Lanes :=
  (m &&& ~~~BitVec.ofNat 1024 ((2 ^ 32 - 1) * 2 ^ (32 * w))) ||| BitVec.ofNat 1024 (v.toNat % 2 ^ 32 * 2 ^ (32 * w))

/-- A team register takes a value. Clearing TSTATUS.INH returns from the handler (R356). -/
def Ctx.writeReg (c : Ctx) (n i : Nat) (v : W64) : Ctx :=
  match n with
  | 0x010 => { c with cause := v }
  | 0x011 => { c with trapPc := v }
  | 0x012 => { c with faultBundle := v }
  | 0x013 => { c with faultCycle := v }
  | 0x014 => { c with faultAddr := v }
  | 0x015 => { c with faultLanes := Lanes.setWord c.faultLanes i v }
  | 0x01A => { c with tvec := v }
  | 0x01B => if c.inh && !v.getLsbD 8 then { c with tstatus := v }.handlerReturn else { c with tstatus := v }
  | 0x01C => { c with fpCtl := v }
  | 0x100 => { c with stall := Tbl.put c.stall i (v.toNat % 2 ^ 48) }
  | _ => c

/-- A gang register other than SMAP_Sn takes a value; SMAP_Vn ignores it while its map is valid (R214). -/
def Gang.writeReg (g : Gang) (half n i : Nat) (v : W64) : Gang :=
  match n with
  | 0x020 => { g with liveBase := v }
  | 0x021 => { g with mirrorSel := Tbl.put g.mirrorSel half v }
  | 0x030 => if (Tbl.get g.smapS (8 * half + i) 0).getLsbD 63 then g else { g with smapV := Tbl.put g.smapV (8 * half + i) v }
  | _ => g

/-- A fold register takes a value. -/
def Fold.writeReg (f : Fold) (n i : Nat) (v : W64) : Fold :=
  match n with
  | 0x040 => { f with watch := Tbl.upd f.watch i Watch.none (fun w => { w with lo := v }) }
  | 0x041 => { f with watch := Tbl.upd f.watch i Watch.none (fun w => { w with hi := v }) }
  | 0x042 => { f with watch := Tbl.upd f.watch i Watch.none (fun w => { w with ctl := v }) }
  | 0x050 => { f with preemptReserve := v }
  | 0x101 => { f with stallFold := Tbl.put f.stallFold i (v.toNat % 2 ^ 48) }
  | 0x120 => { f with brk := Tbl.upd f.brk i (0, 0) (fun b => (v, b.2)) }
  | 0x121 => { f with brk := Tbl.upd f.brk i (0, 0) (fun b => (b.1, v)) }
  | 0x122 => { f with stopCtl := v }
  | 0x123 => { f with sampCtl := v }
  | _ => f

/-- A die register without an action takes a value. -/
def Die.writeReg (d : Die) (n i : Nat) (v : W64) : Die :=
  match n with
  | 0x140 => { d with traceCtl := v }
  | 0x141 => { d with qkey := Tbl.put d.qkey i v }
  | 0x150 => { d with rdirDegraded := Tbl.put d.rdirDegraded i v.toNat }
  | 0x151 => { d with rdirLine := Tbl.put d.rdirLine i v.toNat }
  | 0x152 => { d with nmXref := Tbl.put d.nmXref i v.toNat }
  | 0x160 => { d with eccCtl := v }
  | 0x161 => { d with eccCe := Tbl.put d.eccCe i v.toNat }
  | 0x162 => { d with eccRet := Tbl.put d.eccRet i v.toNat }
  | 0x200 => { d with migThresh := v }
  | 0x201 => { d with migqBase := v }
  | 0x203 => { d with migqRidx := v }
  | 0x204 => { d with dlogBase := v }
  | 0x206 => { d with dlogRidx := v }
  | 0x208 => { d with stripeBase := v }
  | 0x209 => { d with qroot := Tbl.put d.qroot i v }
  | 0x20C => { d with sroot := v }
  | _ => d

/-! ## Writing: registers with an action -/

/-- QENT0 to QENT3 (R166). -/
def State.writeQent (s : State) (die n q : Nat) (v : W64) : State :=
  let x := s.queue die q
  if !s.shepherdOn die then s
  else if n = 0x211 then
    if x.enabled then (if v.getLsbD 16 then s else s.disableQueue die q)
    else if v.getLsbD 16 then s.enableQueue die q v
    else s.setQueue die q { x with ent1 := ent1Fields v }
  else if x.enabled then s
  else if n = 0x210 then s.setQueue die q { x with ent0 := v }
  else if n = 0x212 then s.setQueue die q { x with ent2 := v }
  else s.setQueue die q { x with ent3 := v }

/-- A ring register after a write (R232, R248): enabling from disabled sets WIDX to 0. -/
def ringWritten (old new : W64) (lo hi : Nat) : W64 :=
  if (ringSize old lo hi).isNone ∧ (ringSize new lo hi).isSome then new &&& 0xFFFFFFFF else new

/-- MIGQ_CTL takes a value (R248). -/
def State.writeMigq (s : State) (die : Nat) (v : W64) : State :=
  s.modDie die (fun d => { d with migqCtl := ringWritten d.migqCtl v 4 16 })

/-- The folds of a die that the state lists. -/
def State.foldsOf (s : State) (die : Nat) : List Nat := (s.folds.map Prod.fst).filter (fun f => dieOf f == die)

/-- DLOG_CTL takes a value (R232, R234): a disable first writes the records that the folds hold. -/
def State.writeDlog (s : State) (die : Nat) (v : W64) : State :=
  let off := (ringSize (s.die die).dlogCtl 8 20).isSome && (ringSize v 8 20).isNone
  if off then
    let s1 := (s.foldsOf die).foldl (fun s f => s.flushDlog f) s
    let ctl := (s1.die die).dlogCtl
    let keep : W64 := (ctl &&& 0xFFFFFFFF00000000) ||| (v &&& 0xFFFFFFFF)
    s1.modDie die (fun d => { d with dlogCtl := if ctl.getLsbD 8 && !(s.die die).dlogCtl.getLsbD 8 then keep ||| 0x100 else keep })
  else s.modDie die (fun d => { d with dlogCtl := ringWritten d.dlogCtl v 8 20 })

/-- The staging store of a slice at an L2_STAGE value, in bytes (R222). -/
def stageBytes (v : W64) : Nat := min 8 (bits v.toNat 3 0) * 2 ^ 19

/-- L2_STAGE takes a value: BUSY is set, the home lines of the eighths that leave the cache are written back, and the
staging contents that the new limit leaves out are lost (R222). -/
def State.writeStage (s : State) (die slice : Nat) (v : W64) : State :=
  let old := Tbl.get (s.die die).l2Stage slice 0
  let new := (v &&& 0xF) ||| 0x10
  let s1 := s.modDie die (fun d => { d with l2Stage := Tbl.put d.l2Stage slice new }.l2Trim slice)
  let lo := stageBytes new
  if lo < stageBytes old then { s1 with mem := Memory.clear s1.mem (Memory.stageKey die slice lo) (stageBytes old - lo) }
  else s1

/-- Whether a cached translation is named by an XLATE_INV word of a die (R252). -/
def invHits (die : Nat) (v : W64) (t : Tlb) : Bool :=
  let n := v.toNat
  let asid := if bit n 8 then 256 + die else bits n 7 0
  let va := bits n 56 12 * 4096
  match bits n 63 62 with
  | 0 => t.asid == asid && decide (t.page ≤ va ∧ va < t.page + t.size)
  | 1 => t.asid == asid
  | _ => true

/-- Whether a context's fetched lines are discarded (R252): those of the pages named, or of the whole space. -/
def invLines (die : Nat) (v : W64) (fold : Nat) (c : Ctx) : Tbl (List Byte) :=
  let n := v.toNat
  let asid := if bit n 8 then 256 + die else bits n 7 0
  match bits n 63 62 with
  | 0 => if c.asid = asid then [] else c.lines
  | 1 => if c.asid = asid then [] else c.lines
  | _ => if dieOf fold = die then [] else c.lines

/-- The frames that a cached translation names, as memory keys with their sizes: a striped one names a frame for each
granule (R241, R252). -/
def State.tlbFrames (s : State) (die : Nat) (t : Tlb) : List (Nat × Nat) :=
  let at_ (off n : Nat) : Option (Nat × Nat) :=
    (s.leafPlace die t.pte t.desc t.size (t.page + off)).map (fun p => (p.tag, n))
  if pteMt t.pte = 3 then
    let g := stripeG t.desc
    (List.range (t.size / g)).filterMap (fun i => at_ (i * g) g)
  else (at_ 0 t.size).toList

/-- The copies of a frame's words leave every L1, and its ownership returns to the homes (R252). -/
def State.dropFrame (s : State) (fr : Nat × Nat) : State :=
  let hi := fr.1 + fr.2 - 1
  { s with
    folds := s.folds.map (fun kv => (kv.1, if kv.2.l1.isEmpty then kv.2 else kv.2.dropWords fr.1 hi true))
    dies := s.dies.map (fun kv => (kv.1, { kv.2 with rdir := kv.2.rdir.flatMap (fun e => e.without fr.1 hi) })) }

/-- A write to XLATE_INV (R252): the cached translations named leave every cache of the package (for KIND 2 and 3, the
die's), and so do the leaves under which L1 copies were made; fetched lines are discarded, words of the frames leave every L1 for their homes, and the invalidation is in progress
for the operation given. -/
def State.writeInv (s : State) (die : Nat) (v : W64) (key uid : Nat) : State :=
  let wide (d : Nat) : Bool := bits v.toNat 63 62 < 2 || d == die
  let frames := s.dies.flatMap (fun kv =>
    if wide kv.1 then ((kv.2.tlb ++ kv.2.used).filter (invHits die v)).flatMap (s.tlbFrames kv.1) else [])
  let one (k : Nat) (d : Die) : Die :=
    if wide k then
      { d with tlb := d.tlb.filter (fun t => !invHits die v t), used := d.used.filter (fun t => !invHits die v t) }
    else d
  let s0 := frames.foldl State.dropFrame s
  let s1 : State := { s0 with
    dies := s0.dies.map (fun kv => (kv.1, one kv.1 kv.2))
    ctxs := s0.ctxs.map (fun kv => (kv.1, { kv.2 with lines := invLines die v (kv.1 / 64) kv.2 })) }
  s1.modDie die (fun d => { d with invs := d.invs ++ [(v, key, uid)] })

/-! ### Islands (R443, R444) -/

/-- Whether ISL_CTL names an island at an index (R444). -/
def islandNamed (i : Nat) : Bool := i < 251 || i == 252

/-- Whether a fold holds a resident team. -/
def State.hasTeam (s : State) (f : Nat) : Bool := (s.onFold f).any (fun x => !x.2.shadow)

/-- The state of an island of a compute die; an engine that no gang holds has no supply (R442). -/
def State.islandOf (s : State) (die i : Nat) : Nat :=
  if 96 ≤ i ∧ i < 192 ∧ s.engineHeld (96 * die + (i - 96)) = false then 7 else Tbl.get (s.die die).islands i 0

/-- Whether ISL_CTL may set an island's FLOOR to Off (R443, R444). -/
def State.mayOff (s : State) (die i : Nat) : Bool :=
  if i < 96 then !s.hasTeam (96 * die + i)
  else if i < 192 then !s.gangs.any (fun kv => kv.2.hasEngine &&
    (if kv.2.block.pair then kv.2.fold / 2 == (96 * die + (i - 96)) / 2 else kv.2.fold == 96 * die + (i - 96)))
  else if i = 252 then !(List.range 96).any (fun k => s.hasTeam (96 * die + k))
  else true

/-- The ISL_IOCTL islands that are never Off (R444). -/
def ioNeverOff (i : Nat) : Bool := i == 4 || i == 5 || i == 13

/-- A write of FLOOR (R443): 7 is treated as the previous value where the island may not be Off; an index that names no
island ignores the write. -/
def State.writeFloor (s : State) (die : Option Nat) (i : Nat) (v : W64) : State :=
  let f := bits v.toNat 2 0
  match die with
  | some d =>
    if !islandNamed i || (f == 7 && !s.mayOff d i) then s
    else s.modDie d (fun x => { x with islFloor := Tbl.put x.islFloor i f })
  | none =>
    if 16 ≤ i || (f == 7 && ioNeverOff i) then s
    else { s with pkg := { s.pkg with islIo := Tbl.put s.pkg.islIo i f } }

/-! ### Stops and the engine's table (R387, R389) -/

/-- The teams that a STOP_CTL value names on its fold (R389). -/
def State.stopTeams (s : State) (f : Nat) (v : W64) : List (Nat × Ctx) :=
  let n := v.toNat
  ((s.onFold f).filter (fun x => !x.2.shadow)).filter (fun x =>
    match bits n 5 4 with
    | 0 => x.1 == bits n 12 8
    | 2 => x.2.flock.toNat == bits n 63 32
    | _ => true)

/-- A stop request (R389): each team named takes C_STOPREQ at its next pre-emption point, a Frozen one once it resumes. -/
def State.requestStop (s : State) (f : Nat) (v : W64) : State :=
  (s.stopTeams f v).foldl (fun s x => s.modCtx { fold := f, slot := x.1 } (fun c =>
    if c.due.any (fun d => d.code == 0x0C) then c else c.addDue (DueTrap.async 0x0C))) s

/-- The cycle-class table of a fold's engine is cleared (R387). -/
def State.clearMxc (s : State) (f : Nat) : State := s.modFold f (fun x => { x with mxc := [], mxcOvf := [] })

/-! ### The register written -/

/-- A register other than SMAP_Sn takes a value (R371, R372). `key` and `uid` name the operation that an XLATE_INV
completes. -/
def State.writeReg (s : State) (r : Reg) (v : W64) (key uid : Nat) : State :=
  match r.desc.holder with
  | .team => (match r.team with
    | some id => s.modCtx id (fun c => c.writeReg r.num r.idx v)
    | none => s)
  | .gang => (match r.team with
    | some id => (match s.ctx id with
      | some c => s.modGang c.gang (fun g => g.writeReg (g.half id.fold) r.num r.idx v)
      | none => s)
    | none => s)
  | .fold =>
    let s1 := s.modFold r.fold (fun f => f.writeReg r.num r.idx v)
    if r.num = 0x050 then s1.growTest r.fold 33 else s1
  | .engine => s
  | .die => (match r.num with
    | 0x202 => s.writeMigq r.die v
    | 0x205 => s.writeDlog r.die v
    | 0x207 => s.writeInv r.die v key uid
    | 0x20A => s.writeStage r.die r.idx v
    | 0x210 => s.writeQent r.die 0x210 r.idx v
    | 0x211 => s.writeQent r.die 0x211 r.idx v
    | 0x212 => s.writeQent r.die 0x212 r.idx v
    | 0x213 => s.writeQent r.die 0x213 r.idx v
    | 0x214 => s.notifyQueue r.die r.idx
    | 0x220 => s.writeFloor (some r.die) r.idx v
    | _ => s.modDie r.die (fun d => d.writeReg r.num r.idx v))
  | .pkg => (match r.num with
    | 0x221 => { s with pkg := { s.pkg with pwrCap := v } }
    | 0x224 => s.writeFloor none r.idx v
    | 0x310 => { s with pkg := { s.pkg with connBase := v } }
    | 0x311 => { s with pkg := { s.pkg with rmapBase := v } }
    | n => s.linkRegWrite r.idx (n - 0x300) v)

/-- An operation on a register other than SMAP_Sn (R372): the state after it, and the old value. The WO bits REQ and CLR
act when csrw writes a 1 (R387, R389). -/
def State.csrDo (s : State) (r : Reg) (op : CsrOp) (a : W64) (key uid : Nat) : State × W64 :=
  if r.desc.wo then (if op = .write then s.writeReg r a key uid else s, 0)
  else
    let old := s.readReg r
    if op = .read ∨ r.desc.wr = .ro then (s, old)
    else
      let s1 := s.writeReg r (op.apply old a (rwMask r.num r.idx) (w1cMask r.num)) key uid
      let act := op = .write ∧ a.getLsbD 0 = true
      if act ∧ r.num = 0x122 then (s1.requestStop r.fold a, old)
      else if act ∧ r.num = 0x116 then (s1.clearMxc r.fold, old)
      else (s1, old)

/-! ## SMAP_Sn (R214, R215, R306) -/

/-- The range of the own block that an SMAP_S value names. -/
def smapRange (v : W64) : Nat × Nat := (bits v.toNat 19 8 * 256, bits v.toNat 44 32 * 256)

/-- Whether a value binds map `n` (R214). -/
def Gang.bindOk (g : Gang) (half n : Nat) (v : W64) : Bool :=
  let (off, len) := smapRange v
  len != 0 && g.block.scrLog2 != 0 && decide (off + len ≤ 2 ^ g.block.scrLog2) && v &&& 0x3FFFE000FFF000FF == 0 &&
    (g.maps half).all (fun m => m.n == n || decide (off + len ≤ m.off) || decide (m.off + m.len ≤ off))

/-- Whether a range of a half's block is locked by an entry registered before `seq` (R306). -/
def State.rangeLocked (s : State) (g : Gang) (half seq : Nat) (r : Nat × Nat) : Bool :=
  let f := s.fold (g.foldOf half)
  let lo := Tbl.get g.base half 0 + r.1
  let hit := f.lockHit 1 (g.foldOf half) lo (lo + r.2 - 1) seq
  r.2 != 0 && (hit.1 || hit.2)

/-- The ranges that a write to SMAP_Sn binds or unbinds (R306): that of a valid map first. -/
def smapRanges (old raw : W64) : List (Nat × Nat) :=
  (if old.getLsbD 63 then [smapRange old] else []) ++ (if raw.getLsbD 63 then [smapRange raw] else [])

/-- A write to SMAP_Sn of a gang's half, issued when the fold's lock table stood at `seq`: the state after it, and the cause
with the address of the range when it fails (R214, R215, R306). A bind that fails leaves the map unbound. -/
def State.smapWrite (s : State) (gid : Nat) (g : Gang) (half n seq : Nat) (raw : W64) : State × Option (BitVec 7 × W64) :=
  let old := Tbl.get g.smapS (8 * half + n) 0
  let new := raw &&& rwMask 0x031 n
  let put (v : W64) (g : Gang) : Gang := { g with smapS := Tbl.put g.smapS (8 * half + n) v }
  let at_ (r : Nat × Nat) : W64 := BitVec.ofNat 64 (2 ^ 60 + r.1)
  let mapOf (v : W64) : SMap :=
    { n := n, vbase := bits (Tbl.get g.smapV (8 * half + n) 0).toNat 56 8 * 256, off := (smapRange v).1,
      len := (smapRange v).2, write := v.getLsbD 62 }
  match (smapRanges old raw).find? (s.rangeLocked g half seq) with
  | some r => (s, some (0x28, at_ r))
  | none =>
    if raw.getLsbD 63 then
      let g1 := if old.getLsbD 63 then g.clearMap half (mapOf old) else g
      if !g.bindOk half n raw then
        (if old.getLsbD 63 then s.setGang gid (put (old &&& 0x7FFFFFFFFFFFFFFF) g1) else s, some (0x2A, at_ (smapRange raw)))
      else (s.setGang gid ((put new g1).clearMap half (mapOf new)), none)
    else if old.getLsbD 63 then
      let s1 := s.writeBackMap gid half (mapOf old) (fun s va => s.dieNotice 0x37 0 (BitVec.ofNat 64 va))
      (s1.modGang gid (fun g => put new (g.clearMap half (mapOf old))), none)
    else (s.setGang gid (put new g), none)

/-- Whether a write to SMAP_Sn must wait: the write-back that unmaps meets a page whose writes are held (R250), or an engine
operation before it has still to read what it locks (R323, R337). -/
def State.smapWaits (s : State) (gid : Nat) (g : Gang) (half n seq : Nat) (raw : W64) : Bool :=
  (s.fold (g.foldOf half)).unread seq ||
    !raw.getLsbD 63 && ((g.maps half).find? (fun m => m.n == n)).any (fun m => s.mapHeld gid half m)

end Sys2Proof.Machine
end

