-- ==== Sys2Proof/Machine/Alu.lean ====
section
/-! DEFINITION. IA, IB, SH, IM, CM and UA (R84 to R93, R101): the result of each operation, which lands after the unit's
latency (R16), and the meaning of each row as a bundle of its own. -/

namespace Sys2Proof.Machine

/-- A result joins the pending results of a context (R16). -/
def State.addPend (s : State) (id : CtxId) (p : Pend) : State :=
  s.modCtx id (fun c => { c with us := { c.us with pend := c.us.pend ++ [p] } })

/-- A fixed-latency operation's pending result: a value for each triggered lane (R16). -/
def Trig.pend (t : Trig) (n : Nat) (f : Nat → W64) : Pend :=
  { unit := t.unit, left := fixedLat t.unit, mask := t.mask,
    vals := (List.range n).map (fun l => if t.mask.getLsbD l then f l else 0), carry := none, kdst := 0, excs := [],
    bundle := t.pc, cycle := t.cycle }

/-- An operation of the 32-bit A, B and T of its unit, lane by lane. -/
def lane3 (f : W32 → W32 → W32 → W32) : Start := fun s id t =>
  match s.ctx id with
  | none => s
  | some c =>
    let p := c.us.unit t.unit
    s.addPend id (t.pend c.nlanes (fun l => zx (f (lo32 (p.a.at l)) (lo32 (p.b.at l)) (lo32 (p.held.at l)))))

/-- An operation of A and T. -/
def lane2 (f : W32 → W32 → W32) : Start := lane3 (fun a _ t => f a t)

/-- An operation of T alone. -/
def lane1 (f : W32 → W32) : Start := lane3 (fun _ _ t => f t)

/-- An operation of A, T and the carry latch that changes the latch with its result (R86). -/
def laneCarry (f : W32 → W32 → Bool → W32 × Bool) : Start := fun s id t =>
  match s.ctx id with
  | none => s
  | some c =>
    let p := c.us.unit t.unit
    let r (l : Nat) : W32 × Bool := f (lo32 (p.a.at l)) (lo32 (p.held.at l)) (p.carry.getLsbD l)
    let q := t.pend c.nlanes (fun l => zx (r l).1)
    s.addPend id { q with carry := some (Lanes.of c.nlanes (fun l => t.mask.getLsbD l && (r l).2)) }

/-! ## IA and IB (R85) -/

/-- A signed sum or difference saturated to 32 bits. -/
def satS (x : Int) : W32 := BitVec.ofInt 32 (max (-2147483648) (min 2147483647 x))
/-- The same unsigned. -/
def satN (x : Int) : W32 := BitVec.ofInt 32 (max 0 (min 4294967295 x))

def alAdd (a t : W32) (_ : Bool) : W32 × Bool := (a + t, decide (2 ^ 32 ≤ a.toNat + t.toNat))
def alSub (a t : W32) (_ : Bool) : W32 × Bool := (a - t, decide (a.toNat < t.toNat))
def alAddc (a t : W32) (c : Bool) : W32 × Bool :=
  (BitVec.ofNat 32 (a.toNat + t.toNat + b2n c), decide (2 ^ 32 ≤ a.toNat + t.toNat + b2n c))
def alSubb (a t : W32) (c : Bool) : W32 × Bool :=
  (a - t - BitVec.ofNat 32 (b2n c), decide (a.toNat < t.toNat + b2n c))
def alMinS (a t : W32) : W32 := if a.toInt ≤ t.toInt then a else t
def alMinN (a t : W32) : W32 := if a.toNat ≤ t.toNat then a else t
def alMaxS (a t : W32) : W32 := if t.toInt ≤ a.toInt then a else t
def alMaxN (a t : W32) : W32 := if t.toNat ≤ a.toNat then a else t
def alAbs (t : W32) : W32 := if t.toInt < 0 then -t else t
def alAvgN (a t : W32) : W32 := BitVec.ofNat 32 ((a.toNat + t.toNat + 1) / 2)
def alAbsdN (a t : W32) : W32 := if t.toNat ≤ a.toNat then a - t else t - a

def startAdd : Start := laneCarry alAdd
def startSub : Start := laneCarry alSub
def startRsub : Start := lane2 (fun a t => t - a)
def startNeg : Start := lane1 (fun t => -t)
def startAnd : Start := lane2 (fun a t => a &&& t)
def startOr : Start := lane2 (fun a t => a ||| t)
def startXor : Start := lane2 (fun a t => a ^^^ t)
def startAndn : Start := lane2 (fun a t => a &&& ~~~t)
def startOrn : Start := lane2 (fun a t => a ||| ~~~t)
def startMinS : Start := lane2 alMinS
def startMinN : Start := lane2 alMinN
def startMaxS : Start := lane2 alMaxS
def startMaxN : Start := lane2 alMaxN
def startAbs : Start := lane1 alAbs
def startAddSatS : Start := lane2 (fun a t => satS (a.toInt + t.toInt))
def startAddSatN : Start := lane2 (fun a t => satN ((a.toNat : Int) + t.toNat))
def startSubSatS : Start := lane2 (fun a t => satS (a.toInt - t.toInt))
def startSubSatN : Start := lane2 (fun a t => satN ((a.toNat : Int) - t.toNat))
def startAvgN : Start := lane2 alAvgN
def startAbsdN : Start := lane2 alAbsdN
def startMov : Start := lane1 (fun t => t)
def startAddsh1 : Start := lane2 (fun a t => a + t * 2)
def startAddsh2 : Start := lane2 (fun a t => a + t * 4)
def startAddsh3 : Start := lane2 (fun a t => a + t * 8)
def startAddc : Start := laneCarry alAddc
def startSubb : Start := laneCarry alSubb

/-! ## SH (R87 to R89) -/

/-- The shift amount of shl, shr.n and shr.s (R87). -/
def amt8 (t : W32) : Nat := t.toNat % 256
/-- The amount of a rotation or funnel shift (R87). -/
def amt5 (t : W32) : Nat := t.toNat % 32

/-- The effective length of a bit field (R88). -/
def fieldLen (t : W32) : Nat := min (bits t.toNat 13 8) (min 32 (32 - bits t.toNat 4 0))
def fieldMask (t : W32) : W32 := BitVec.ofNat 32 (2 ^ fieldLen t - 1)
def bfxN (a t : W32) : W32 := (a >>> bits t.toNat 4 0) &&& fieldMask t
def bfxS (a t : W32) : W32 :=
  let v := bfxN a t
  let len := fieldLen t
  if len = 0 then 0 else if v.getLsbD (len - 1) then v - BitVec.ofNat 32 (2 ^ len) else v
def bfi (a b t : W32) : W32 :=
  let pos := bits t.toNat 4 0
  (a &&& ~~~(fieldMask t <<< pos)) ||| ((b &&& fieldMask t) <<< pos)

/-- Leading zero bits; 32 for 0 (R89). -/
def clz (t : W32) : Nat := ((List.range 32).find? (fun i => t.getLsbD (31 - i))).getD 32
/-- Trailing zero bits; 32 for 0 (R89). -/
def ctz (t : W32) : Nat := ((List.range 32).find? (fun i => t.getLsbD i)).getD 32
def popc (t : W32) : Nat := ((List.range 32).filter (fun i => t.getLsbD i)).length
def brev (t : W32) : W32 :=
  (List.range 32).foldl (fun acc i => if t.getLsbD i then acc ||| BitVec.ofNat 32 (2 ^ (31 - i)) else acc) 0
def bswap (t : W32) : W32 :=
  BitVec.ofNat 32 (bits t.toNat 7 0 * 2 ^ 24 + bits t.toNat 15 8 * 2 ^ 16 + bits t.toNat 23 16 * 2 ^ 8 +
    bits t.toNat 31 24)
def fshl (a b t : W32) : W32 := BitVec.ofNat 32 ((a.toNat * 2 ^ 32 + b.toNat) * 2 ^ amt5 t / 2 ^ 32)
def fshr (a b t : W32) : W32 := BitVec.ofNat 32 ((a.toNat * 2 ^ 32 + b.toNat) / 2 ^ amt5 t)

def startShl : Start := lane2 (fun a t => a <<< amt8 t)
def startShrN : Start := lane2 (fun a t => a >>> amt8 t)
def startShrS : Start := lane2 (fun a t => a.sshiftRight (amt8 t))
def startRotl : Start := lane2 (fun a t => a.rotateLeft (amt5 t))
def startRotr : Start := lane2 (fun a t => a.rotateRight (amt5 t))
def startBfxN : Start := lane2 bfxN
def startBfxS : Start := lane2 bfxS
def startBfi : Start := lane3 bfi
def startClz : Start := lane1 (fun t => BitVec.ofNat 32 (clz t))
def startCtz : Start := lane1 (fun t => BitVec.ofNat 32 (ctz t))
def startPopc : Start := lane1 (fun t => BitVec.ofNat 32 (popc t))
def startBrev : Start := lane1 brev
def startBswap : Start := lane1 bswap
def startFshl : Start := lane3 fshl
def startFshr : Start := lane3 fshr
def startPklo : Start := lane2 (fun a t => (t <<< 16) ||| (a &&& 0xFFFF))
def startPkhi : Start := lane2 (fun a t => (t &&& 0xFFFF0000) ||| (a >>> 16))
def startSext8 : Start := lane1 (fun t => (t.truncate 8).signExtend 32)
def startSext16 : Start := lane1 (fun t => (t.truncate 16).signExtend 32)
def startZext8 : Start := lane1 (fun t => t &&& 0xFF)
def startZext16 : Start := lane1 (fun t => t &&& 0xFFFF)

/-! ## IM (R90) -/

def byteS (x : W32) (j : Nat) : Int := (x.extractLsb' (8 * j) 8).toInt
def byteN (x : W32) (j : Nat) : Int := (x.extractLsb' (8 * j) 8).toNat
def halfS (x : W32) (j : Nat) : Int := (x.extractLsb' (16 * j) 16).toInt

def startMulLo : Start := lane2 (fun a t => a * t)
def startMulHiS : Start := lane2 (fun a t => (BitVec.ofInt 64 (a.toInt * t.toInt)).extractLsb' 32 32)
def startMulHiN : Start := lane2 (fun a t => BitVec.ofNat 32 (a.toNat * t.toNat / 2 ^ 32))
def startMadLo : Start := lane3 (fun a b t => a * b + t)
def startDot4S8 : Start := lane3 (fun a b t => BitVec.ofInt 32 (t.toInt + byteS a 0 * byteS b 0 + byteS a 1 * byteS b 1 +
  byteS a 2 * byteS b 2 + byteS a 3 * byteS b 3))
def startDot4N8 : Start := lane3 (fun a b t => BitVec.ofInt 32 ((t.toNat : Int) + byteN a 0 * byteN b 0 +
  byteN a 1 * byteN b 1 + byteN a 2 * byteN b 2 + byteN a 3 * byteN b 3))
def startDot2S16 : Start := lane3 (fun a b t => BitVec.ofInt 32 (t.toInt + halfS a 0 * halfS b 0 + halfS a 1 * halfS b 1))

/-! ## CM (R91 to R93) -/

/-- A compare: its bit goes to predicate KDST at the issue of the next bundle (R92). -/
def laneCm (kdst : BitVec 3) (f : W32 → W32 → Bool) : Start := fun s id t =>
  match s.ctx id with
  | none => s
  | some c =>
    let p := c.us.unit t.unit
    s.addPend id { t.pend c.nlanes (fun l => b2w (f (lo32 (p.a.at l)) (lo32 (p.held.at l)))) with kdst := kdst }

/-- Whether a pair of FP32 values is unordered (R91). -/
def unord (a t : W32) : Bool := (Fmt.f32.decode a.toNat).isNan || (Fmt.f32.decode t.toNat).isNan
/-- FP32 order of a pair that is ordered: -0 equals +0 and subnormals keep their values (R91). -/
def fEq (a t : W32) : Bool := (Fmt.f32.decode a.toNat).eqv (Fmt.f32.decode t.toNat)
/-- Less, with -0 equal to +0. -/
def fLt (a t : W32) : Bool := (Fmt.f32.decode a.toNat).lt (Fmt.f32.decode t.toNat) && !fEq a t

/-- A relation under KIND: 0 signed, 1 unsigned, 2 ordered, 3 unordered or the relation (R91). -/
def relKind (kind : BitVec 2) (sg un : W32 → W32 → Bool) (fl : W32 → W32 → Bool) (a t : W32) : Bool :=
  match kind.toNat with
  | 0 => sg a t
  | 1 => un a t
  | 2 => !unord a t && fl a t
  | _ => unord a t || fl a t

def ltS (a t : W32) : Bool := decide (a.toInt < t.toInt)
def ltN (a t : W32) : Bool := decide (a.toNat < t.toNat)
def cmpLt (kind : BitVec 2) (a t : W32) : Bool := relKind kind ltS ltN fLt a t
def cmpLe (kind : BitVec 2) (a t : W32) : Bool :=
  relKind kind (fun a t => !ltS t a) (fun a t => !ltN t a) (fun a t => fLt a t || fEq a t) a t
def cmpGt (kind : BitVec 2) (a t : W32) : Bool :=
  relKind kind (fun a t => ltS t a) (fun a t => ltN t a) (fun a t => fLt t a) a t
def cmpGe (kind : BitVec 2) (a t : W32) : Bool :=
  relKind kind (fun a t => !ltS a t) (fun a t => !ltN a t) (fun a t => fLt t a || fEq a t) a t

def startCmpEq (k : BitVec 3) : Start := laneCm k (fun a t => a == t)
def startKset (k : BitVec 3) : Start := laneCm k (fun _ t => t != 0)
def startCmpEqFo (k : BitVec 3) : Start := laneCm k (fun a t => !unord a t && fEq a t)
def startCmpEqFu (k : BitVec 3) : Start := laneCm k (fun a t => unord a t || fEq a t)
def startCmpNe (k : BitVec 3) : Start := laneCm k (fun a t => a != t)
def startCmpNeFo (k : BitVec 3) : Start := laneCm k (fun a t => !unord a t && !fEq a t)
def startCmpNeFu (k : BitVec 3) : Start := laneCm k (fun a t => unord a t || !fEq a t)
def startCmpLt (kind : BitVec 2) (k : BitVec 3) : Start := laneCm k (cmpLt kind)
def startCmpLe (kind : BitVec 2) (k : BitVec 3) : Start := laneCm k (cmpLe kind)
def startCmpGt (kind : BitVec 2) (k : BitVec 3) : Start := laneCm k (cmpGt kind)
def startCmpGe (kind : BitVec 2) (k : BitVec 3) : Start := laneCm k (cmpGe kind)

/-- Predicate logic on bit 0 (R93). -/
def lanePlog (k : BitVec 3) (f : Bool → Bool → Bool) : Start := laneCm k (fun a t => f (a.getLsbD 0) (t.getLsbD 0))
def startPlogAnd (k : BitVec 3) : Start := lanePlog k (fun a t => a && t)
def startPlogOr (k : BitVec 3) : Start := lanePlog k (fun a t => a || t)
def startPlogXor (k : BitVec 3) : Start := lanePlog k (fun a t => a != t)
def startPlogAndn (k : BitVec 3) : Start := lanePlog k (fun a t => a && !t)
def startPlogOrn (k : BitVec 3) : Start := lanePlog k (fun a t => a || !t)
def startPlogNand (k : BitVec 3) : Start := lanePlog k (fun a t => !(a && t))
def startPlogNor (k : BitVec 3) : Start := lanePlog k (fun a t => !(a || t))
def startPlogXnor (k : BitVec 3) : Start := lanePlog k (fun a t => a == t)

/-! ## UA (R101) -/

/-- A uniform operation of A, B and T, once for the bundle (R101). -/
def uaStart (f : W64 → W64 → W64 → W64) : Start := fun s id t =>
  match s.ctx id with
  | none => s
  | some c =>
    let p := c.us.unit t.unit
    s.addPend id { t.pend 0 (fun _ => 0) with vals := [f (p.a.at 0) (p.b.at 0) (p.held.at 0)] }

def uaAmt (t : W64) : Nat := t.toNat % 256
def startUaAdd : Start := uaStart (fun a _ t => a + t)
def startUaSub : Start := uaStart (fun a _ t => a - t)
def startUaAnd : Start := uaStart (fun a _ t => a &&& t)
def startUaOr : Start := uaStart (fun a _ t => a ||| t)
def startUaXor : Start := uaStart (fun a _ t => a ^^^ t)
def startUaShl : Start := uaStart (fun a _ t => a <<< uaAmt t)
def startUaShrN : Start := uaStart (fun a _ t => a >>> uaAmt t)
def startUaShrS : Start := uaStart (fun a _ t => a.sshiftRight (uaAmt t))
def startUaMul : Start := uaStart (fun a _ t => a * t)
def startUaMinS : Start := uaStart (fun a _ t => if a.toInt ≤ t.toInt then a else t)
def startUaMinN : Start := uaStart (fun a _ t => if a.toNat ≤ t.toNat then a else t)
def startUaMaxS : Start := uaStart (fun a _ t => if t.toInt ≤ a.toInt then a else t)
def startUaMaxN : Start := uaStart (fun a _ t => if t.toNat ≤ a.toNat then a else t)
def startUaSel : Start := uaStart (fun a b t => if t ≠ 0 then a else b)
def startUaCmpEq : Start := uaStart (fun a _ t => b2w (a == t))
def startUaCmpNe : Start := uaStart (fun a _ t => b2w (a != t))
def startUaCmpLtS : Start := uaStart (fun a _ t => b2w (decide (a.toInt < t.toInt)))
def startUaCmpLtN : Start := uaStart (fun a _ t => b2w (decide (a.toNat < t.toNat)))
def startUaCmpLeS : Start := uaStart (fun a _ t => b2w (decide (a.toInt ≤ t.toInt)))
def startUaCmpLeN : Start := uaStart (fun a _ t => b2w (decide (a.toNat ≤ t.toNat)))
def startUaCmpGtS : Start := uaStart (fun a _ t => b2w (decide (t.toInt < a.toInt)))
def startUaCmpGtN : Start := uaStart (fun a _ t => b2w (decide (t.toNat < a.toNat)))

/-! ## The rows -/

/-- R85. IA adds A and T with carry out into the latch. -/
def execIaAdd (m : MoveF) (s : State) : Out3 :=
  issueOne (syllable true 1 3 0 m) startAdd s
/-- R85. IA subtracts T from A with borrow into the latch. -/
def execIaSub (m : MoveF) (s : State) : Out3 :=
  issueOne (syllable true 1 3 1 m) startSub s
/-- R85. IA computes T minus A. -/
def execIaRsub (m : MoveF) (s : State) : Out3 :=
  issueOne (syllable true 1 3 2 m) startRsub s
/-- R85. IA negates T. -/
def execIaNeg (m : MoveF) (s : State) : Out3 :=
  issueOne (syllable true 1 3 3 m) startNeg s
/-- R85. IA computes A AND T. -/
def execIaAnd (m : MoveF) (s : State) : Out3 :=
  issueOne (syllable true 1 3 4 m) startAnd s
/-- R85. IA computes A OR T. -/
def execIaOr (m : MoveF) (s : State) : Out3 :=
  issueOne (syllable true 1 3 5 m) startOr s
/-- R85. IA computes A XOR T. -/
def execIaXor (m : MoveF) (s : State) : Out3 :=
  issueOne (syllable true 1 3 6 m) startXor s
/-- R85. IA computes A AND NOT T. -/
def execIaAndn (m : MoveF) (s : State) : Out3 :=
  issueOne (syllable true 1 3 7 m) startAndn s
/-- R85. IA computes A OR NOT T. -/
def execIaOrn (m : MoveF) (s : State) : Out3 :=
  issueOne (syllable true 1 3 8 m) startOrn s
/-- R85. IA selects the signed minimum of A and T. -/
def execIaMinS (m : MoveF) (s : State) : Out3 :=
  issueOne (syllable true 1 3 9 m) startMinS s
/-- R85. IA selects the unsigned minimum of A and T. -/
def execIaMinN (m : MoveF) (s : State) : Out3 :=
  issueOne (syllable true 1 3 10 m) startMinN s
/-- R85. IA selects the signed maximum of A and T. -/
def execIaMaxS (m : MoveF) (s : State) : Out3 :=
  issueOne (syllable true 1 3 11 m) startMaxS s
/-- R85. IA selects the unsigned maximum of A and T. -/
def execIaMaxN (m : MoveF) (s : State) : Out3 :=
  issueOne (syllable true 1 3 12 m) startMaxN s
/-- R85. IA computes the absolute value of T. -/
def execIaAbs (m : MoveF) (s : State) : Out3 :=
  issueOne (syllable true 1 3 13 m) startAbs s
/-- R85. IA adds A and T with signed saturation. -/
def execIaAddSatS (m : MoveF) (s : State) : Out3 :=
  issueOne (syllable true 1 3 14 m) startAddSatS s
/-- R85. IA adds A and T with unsigned saturation. -/
def execIaAddSatN (m : MoveF) (s : State) : Out3 :=
  issueOne (syllable true 1 3 15 m) startAddSatN s
/-- R85. IA subtracts with signed saturation. -/
def execIaSubSatS (m : MoveF) (s : State) : Out3 :=
  issueOne (syllable true 1 3 16 m) startSubSatS s
/-- R85. IA subtracts with unsigned saturation. -/
def execIaSubSatN (m : MoveF) (s : State) : Out3 :=
  issueOne (syllable true 1 3 17 m) startSubSatN s
/-- R85. IA computes the unsigned average of A and T rounded half up. -/
def execIaAvgN (m : MoveF) (s : State) : Out3 :=
  issueOne (syllable true 1 3 18 m) startAvgN s
/-- R85. IA computes the unsigned absolute difference. -/
def execIaAbsdN (m : MoveF) (s : State) : Out3 :=
  issueOne (syllable true 1 3 19 m) startAbsdN s
/-- R85. IA passes T to R. -/
def execIaMov (m : MoveF) (s : State) : Out3 :=
  issueOne (syllable true 1 3 20 m) startMov s
/-- R85. IA adds A and twice T. -/
def execIaAddsh1 (m : MoveF) (s : State) : Out3 :=
  issueOne (syllable true 1 3 21 m) startAddsh1 s
/-- R85. IA adds A and four times T. -/
def execIaAddsh2 (m : MoveF) (s : State) : Out3 :=
  issueOne (syllable true 1 3 22 m) startAddsh2 s
/-- R85. IA adds A and eight times T. -/
def execIaAddsh3 (m : MoveF) (s : State) : Out3 :=
  issueOne (syllable true 1 3 23 m) startAddsh3 s
/-- R85. IA adds A, T and the carry latch, updating the latch. -/
def execIaAddc (m : MoveF) (s : State) : Out3 :=
  issueOne (syllable true 1 3 24 m) startAddc s
/-- R85. IA subtracts T and the latch from A, updating the latch. -/
def execIaSubb (m : MoveF) (s : State) : Out3 :=
  issueOne (syllable true 1 3 25 m) startSubb s
/-- R85. IB adds A and T with carry out into the latch. -/
def execIbAdd (m : MoveF) (s : State) : Out3 :=
  issueOne (syllable true 2 3 0 m) startAdd s
/-- R85. IB subtracts T from A with borrow into the latch. -/
def execIbSub (m : MoveF) (s : State) : Out3 :=
  issueOne (syllable true 2 3 1 m) startSub s
/-- R85. IB computes T minus A. -/
def execIbRsub (m : MoveF) (s : State) : Out3 :=
  issueOne (syllable true 2 3 2 m) startRsub s
/-- R85. IB negates T. -/
def execIbNeg (m : MoveF) (s : State) : Out3 :=
  issueOne (syllable true 2 3 3 m) startNeg s
/-- R85. IB computes A AND T. -/
def execIbAnd (m : MoveF) (s : State) : Out3 :=
  issueOne (syllable true 2 3 4 m) startAnd s
/-- R85. IB computes A OR T. -/
def execIbOr (m : MoveF) (s : State) : Out3 :=
  issueOne (syllable true 2 3 5 m) startOr s
/-- R85. IB computes A XOR T. -/
def execIbXor (m : MoveF) (s : State) : Out3 :=
  issueOne (syllable true 2 3 6 m) startXor s
/-- R85. IB computes A AND NOT T. -/
def execIbAndn (m : MoveF) (s : State) : Out3 :=
  issueOne (syllable true 2 3 7 m) startAndn s
/-- R85. IB computes A OR NOT T. -/
def execIbOrn (m : MoveF) (s : State) : Out3 :=
  issueOne (syllable true 2 3 8 m) startOrn s
/-- R85. IB selects the signed minimum. -/
def execIbMinS (m : MoveF) (s : State) : Out3 :=
  issueOne (syllable true 2 3 9 m) startMinS s
/-- R85. IB selects the unsigned minimum. -/
def execIbMinN (m : MoveF) (s : State) : Out3 :=
  issueOne (syllable true 2 3 10 m) startMinN s
/-- R85. IB selects the signed maximum. -/
def execIbMaxS (m : MoveF) (s : State) : Out3 :=
  issueOne (syllable true 2 3 11 m) startMaxS s
/-- R85. IB selects the unsigned maximum. -/
def execIbMaxN (m : MoveF) (s : State) : Out3 :=
  issueOne (syllable true 2 3 12 m) startMaxN s
/-- R85. IB computes the absolute value of T. -/
def execIbAbs (m : MoveF) (s : State) : Out3 :=
  issueOne (syllable true 2 3 13 m) startAbs s
/-- R85. IB adds with signed saturation. -/
def execIbAddSatS (m : MoveF) (s : State) : Out3 :=
  issueOne (syllable true 2 3 14 m) startAddSatS s
/-- R85. IB adds with unsigned saturation. -/
def execIbAddSatN (m : MoveF) (s : State) : Out3 :=
  issueOne (syllable true 2 3 15 m) startAddSatN s
/-- R85. IB subtracts with signed saturation. -/
def execIbSubSatS (m : MoveF) (s : State) : Out3 :=
  issueOne (syllable true 2 3 16 m) startSubSatS s
/-- R85. IB subtracts with unsigned saturation. -/
def execIbSubSatN (m : MoveF) (s : State) : Out3 :=
  issueOne (syllable true 2 3 17 m) startSubSatN s
/-- R85. IB computes the unsigned average rounded half up. -/
def execIbAvgN (m : MoveF) (s : State) : Out3 :=
  issueOne (syllable true 2 3 18 m) startAvgN s
/-- R85. IB computes the unsigned absolute difference. -/
def execIbAbsdN (m : MoveF) (s : State) : Out3 :=
  issueOne (syllable true 2 3 19 m) startAbsdN s
/-- R85. IB passes T to R. -/
def execIbMov (m : MoveF) (s : State) : Out3 :=
  issueOne (syllable true 2 3 20 m) startMov s
/-- R85. IB adds A and twice T. -/
def execIbAddsh1 (m : MoveF) (s : State) : Out3 :=
  issueOne (syllable true 2 3 21 m) startAddsh1 s
/-- R85. IB adds A and four times T. -/
def execIbAddsh2 (m : MoveF) (s : State) : Out3 :=
  issueOne (syllable true 2 3 22 m) startAddsh2 s
/-- R85. IB adds A and eight times T. -/
def execIbAddsh3 (m : MoveF) (s : State) : Out3 :=
  issueOne (syllable true 2 3 23 m) startAddsh3 s
/-- R85. IB adds with carry in and out. -/
def execIbAddc (m : MoveF) (s : State) : Out3 :=
  issueOne (syllable true 2 3 24 m) startAddc s
/-- R85. IB subtracts with borrow in and out. -/
def execIbSubb (m : MoveF) (s : State) : Out3 :=
  issueOne (syllable true 2 3 25 m) startSubb s
/-- R89. SH shifts A left by the amount in T. -/
def execShShl (m : MoveF) (s : State) : Out3 :=
  issueOne (syllable true 3 3 0 m) startShl s
/-- R89. SH shifts A right logically. -/
def execShShrN (m : MoveF) (s : State) : Out3 :=
  issueOne (syllable true 3 3 1 m) startShrN s
/-- R89. SH shifts A right arithmetically. -/
def execShShrS (m : MoveF) (s : State) : Out3 :=
  issueOne (syllable true 3 3 2 m) startShrS s
/-- R89. SH rotates A left. -/
def execShRotl (m : MoveF) (s : State) : Out3 :=
  issueOne (syllable true 3 3 3 m) startRotl s
/-- R89. SH rotates A right. -/
def execShRotr (m : MoveF) (s : State) : Out3 :=
  issueOne (syllable true 3 3 4 m) startRotr s
/-- R88. SH extracts an unsigned bit field. -/
def execShBfxN (m : MoveF) (s : State) : Out3 :=
  issueOne (syllable true 3 3 5 m) startBfxN s
/-- R88. SH extracts a signed bit field. -/
def execShBfxS (m : MoveF) (s : State) : Out3 :=
  issueOne (syllable true 3 3 6 m) startBfxS s
/-- R88. SH inserts a bit field of B into A. -/
def execShBfi (m : MoveF) (s : State) : Out3 :=
  issueOne (syllable true 3 3 7 m) startBfi s
/-- R89. SH counts leading zeros of T. -/
def execShClz (m : MoveF) (s : State) : Out3 :=
  issueOne (syllable true 3 3 8 m) startClz s
/-- R89. SH counts trailing zeros of T. -/
def execShCtz (m : MoveF) (s : State) : Out3 :=
  issueOne (syllable true 3 3 9 m) startCtz s
/-- R89. SH counts one bits of T. -/
def execShPopc (m : MoveF) (s : State) : Out3 :=
  issueOne (syllable true 3 3 10 m) startPopc s
/-- R89. SH reverses the bits of T. -/
def execShBrev (m : MoveF) (s : State) : Out3 :=
  issueOne (syllable true 3 3 11 m) startBrev s
/-- R89. SH reverses the bytes of T. -/
def execShBswap (m : MoveF) (s : State) : Out3 :=
  issueOne (syllable true 3 3 12 m) startBswap s
/-- R89. SH funnel-shifts A:B left. -/
def execShFshl (m : MoveF) (s : State) : Out3 :=
  issueOne (syllable true 3 3 13 m) startFshl s
/-- R89. SH funnel-shifts A:B right. -/
def execShFshr (m : MoveF) (s : State) : Out3 :=
  issueOne (syllable true 3 3 14 m) startFshr s
/-- R89. SH packs the low halves of A and T. -/
def execShPklo (m : MoveF) (s : State) : Out3 :=
  issueOne (syllable true 3 3 15 m) startPklo s
/-- R89. SH packs the high halves of A and T. -/
def execShPkhi (m : MoveF) (s : State) : Out3 :=
  issueOne (syllable true 3 3 16 m) startPkhi s
/-- R89. SH sign-extends the low byte of T. -/
def execShSext8 (m : MoveF) (s : State) : Out3 :=
  issueOne (syllable true 3 3 17 m) startSext8 s
/-- R89. SH sign-extends the low half of T. -/
def execShSext16 (m : MoveF) (s : State) : Out3 :=
  issueOne (syllable true 3 3 18 m) startSext16 s
/-- R89. SH zero-extends the low byte of T. -/
def execShZext8 (m : MoveF) (s : State) : Out3 :=
  issueOne (syllable true 3 3 19 m) startZext8 s
/-- R89. SH zero-extends the low half of T. -/
def execShZext16 (m : MoveF) (s : State) : Out3 :=
  issueOne (syllable true 3 3 20 m) startZext16 s
/-- R90. IM delivers the low 32 bits of A times T after 5 bundles. -/
def execImMulLo (m : MoveF) (s : State) : Out3 :=
  issueOne (syllable true 4 3 0 m) startMulLo s
/-- R90. IM delivers the high word of the signed product. -/
def execImMulHiS (m : MoveF) (s : State) : Out3 :=
  issueOne (syllable true 4 3 1 m) startMulHiS s
/-- R90. IM delivers the high word of the unsigned product. -/
def execImMulHiN (m : MoveF) (s : State) : Out3 :=
  issueOne (syllable true 4 3 2 m) startMulHiN s
/-- R90. IM computes A times B plus T. -/
def execImMadLo (m : MoveF) (s : State) : Out3 :=
  issueOne (syllable true 4 3 3 m) startMadLo s
/-- R90. IM adds T and the signed byte dot product of A and B. -/
def execImDot4S8 (m : MoveF) (s : State) : Out3 :=
  issueOne (syllable true 4 3 4 m) startDot4S8 s
/-- R90. IM adds T and the unsigned byte dot product of A and B. -/
def execImDot4N8 (m : MoveF) (s : State) : Out3 :=
  issueOne (syllable true 4 3 5 m) startDot4N8 s
/-- R90. IM adds T and the signed halfword dot product of A and B. -/
def execImDot2S16 (m : MoveF) (s : State) : Out3 :=
  issueOne (syllable true 4 3 6 m) startDot2S16 s
/-- R101. UA adds two uniform 64-bit values. -/
def execUaAdd (m : MoveF) (s : State) : Out3 :=
  issueOne (syllable true 21 3 0 m) startUaAdd s
/-- R101. UA subtracts uniform values. -/
def execUaSub (m : MoveF) (s : State) : Out3 :=
  issueOne (syllable true 21 3 1 m) startUaSub s
/-- R101. UA computes A AND T. -/
def execUaAnd (m : MoveF) (s : State) : Out3 :=
  issueOne (syllable true 21 3 2 m) startUaAnd s
/-- R101. UA computes A OR T. -/
def execUaOr (m : MoveF) (s : State) : Out3 :=
  issueOne (syllable true 21 3 3 m) startUaOr s
/-- R101. UA computes A XOR T. -/
def execUaXor (m : MoveF) (s : State) : Out3 :=
  issueOne (syllable true 21 3 4 m) startUaXor s
/-- R101. UA shifts left. -/
def execUaShl (m : MoveF) (s : State) : Out3 :=
  issueOne (syllable true 21 3 5 m) startUaShl s
/-- R101. UA shifts right logically. -/
def execUaShrN (m : MoveF) (s : State) : Out3 :=
  issueOne (syllable true 21 3 6 m) startUaShrN s
/-- R101. UA shifts right arithmetically. -/
def execUaShrS (m : MoveF) (s : State) : Out3 :=
  issueOne (syllable true 21 3 7 m) startUaShrS s
/-- R101. UA multiplies modulo 2^64. -/
def execUaMul (m : MoveF) (s : State) : Out3 :=
  issueOne (syllable true 21 3 8 m) startUaMul s
/-- R101. UA selects the signed minimum. -/
def execUaMinS (m : MoveF) (s : State) : Out3 :=
  issueOne (syllable true 21 3 9 m) startUaMinS s
/-- R101. UA selects the unsigned minimum. -/
def execUaMinN (m : MoveF) (s : State) : Out3 :=
  issueOne (syllable true 21 3 10 m) startUaMinN s
/-- R101. UA selects the signed maximum. -/
def execUaMaxS (m : MoveF) (s : State) : Out3 :=
  issueOne (syllable true 21 3 11 m) startUaMaxS s
/-- R101. UA selects the unsigned maximum. -/
def execUaMaxN (m : MoveF) (s : State) : Out3 :=
  issueOne (syllable true 21 3 12 m) startUaMaxN s
/-- R101. UA selects A if T is non-zero, else B. -/
def execUaSel (m : MoveF) (s : State) : Out3 :=
  issueOne (syllable true 21 3 13 m) startUaSel s
/-- R101. UA writes 1 if A equals T. -/
def execUaCmpEq (m : MoveF) (s : State) : Out3 :=
  issueOne (syllable true 21 3 16 m) startUaCmpEq s
/-- R101. UA writes 1 if A differs from T. -/
def execUaCmpNe (m : MoveF) (s : State) : Out3 :=
  issueOne (syllable true 21 3 17 m) startUaCmpNe s
/-- R101. UA writes 1 if A is signed-less than T. -/
def execUaCmpLtS (m : MoveF) (s : State) : Out3 :=
  issueOne (syllable true 21 3 18 m) startUaCmpLtS s
/-- R101. UA writes 1 if A is unsigned-less than T. -/
def execUaCmpLtN (m : MoveF) (s : State) : Out3 :=
  issueOne (syllable true 21 3 19 m) startUaCmpLtN s
/-- R101. UA signed less-or-equal compare. -/
def execUaCmpLeS (m : MoveF) (s : State) : Out3 :=
  issueOne (syllable true 21 3 20 m) startUaCmpLeS s
/-- R101. UA unsigned less-or-equal compare. -/
def execUaCmpLeN (m : MoveF) (s : State) : Out3 :=
  issueOne (syllable true 21 3 21 m) startUaCmpLeN s
/-- R101. UA signed greater-than compare. -/
def execUaCmpGtS (m : MoveF) (s : State) : Out3 :=
  issueOne (syllable true 21 3 22 m) startUaCmpGtS s
/-- R101. UA unsigned greater-than compare. -/
def execUaCmpGtN (m : MoveF) (s : State) : Out3 :=
  issueOne (syllable true 21 3 23 m) startUaCmpGtN s
/-- R91. CM sets a predicate where A and T are bit-equal. -/
def execCmCmpEq (kdst : BitVec 3) (m : MoveF) (s : State) : Out3 :=
  issueOne (syllable true 9 3 (0 + kdst.toNat) m) (startCmpEq kdst) s
/-- R93. CM sets a predicate where T is non-zero. -/
def execCmKset (kdst : BitVec 3) (m : MoveF) (s : State) : Out3 :=
  issueOne (syllable true 9 3 (8 + kdst.toNat) m) (startKset kdst) s
/-- R91. CM sets a predicate where A and T are ordered and equal as FP32. -/
def execCmCmpEqFo (kdst : BitVec 3) (m : MoveF) (s : State) : Out3 :=
  issueOne (syllable true 9 3 (16 + kdst.toNat) m) (startCmpEqFo kdst) s
/-- R91. CM sets a predicate where A and T are unordered or equal. -/
def execCmCmpEqFu (kdst : BitVec 3) (m : MoveF) (s : State) : Out3 :=
  issueOne (syllable true 9 3 (24 + kdst.toNat) m) (startCmpEqFu kdst) s
/-- R91. CM sets a predicate where A and T differ in bits. -/
def execCmCmpNe (kdst : BitVec 3) (m : MoveF) (s : State) : Out3 :=
  issueOne (syllable true 9 3 (32 + kdst.toNat) m) (startCmpNe kdst) s
/-- R91. CM ordered not-equal FP compare. -/
def execCmCmpNeFo (kdst : BitVec 3) (m : MoveF) (s : State) : Out3 :=
  issueOne (syllable true 9 3 (48 + kdst.toNat) m) (startCmpNeFo kdst) s
/-- R91. CM unordered or not-equal FP compare. -/
def execCmCmpNeFu (kdst : BitVec 3) (m : MoveF) (s : State) : Out3 :=
  issueOne (syllable true 9 3 (56 + kdst.toNat) m) (startCmpNeFu kdst) s
/-- R91. CM less-than compare, signed, unsigned or FP by KIND. -/
def execCmCmpLt (kind : BitVec 2) (kdst : BitVec 3) (m : MoveF) (s : State) : Out3 :=
  issueOne (syllable true 9 3 (64 + kind.toNat * 8 + kdst.toNat) m) (startCmpLt kind kdst) s
/-- R91. CM less-or-equal compare by KIND. -/
def execCmCmpLe (kind : BitVec 2) (kdst : BitVec 3) (m : MoveF) (s : State) : Out3 :=
  issueOne (syllable true 9 3 (96 + kind.toNat * 8 + kdst.toNat) m) (startCmpLe kind kdst) s
/-- R91. CM greater-than compare by KIND. -/
def execCmCmpGt (kind : BitVec 2) (kdst : BitVec 3) (m : MoveF) (s : State) : Out3 :=
  issueOne (syllable true 9 3 (128 + kind.toNat * 8 + kdst.toNat) m) (startCmpGt kind kdst) s
/-- R91. CM greater-or-equal compare by KIND. -/
def execCmCmpGe (kind : BitVec 2) (kdst : BitVec 3) (m : MoveF) (s : State) : Out3 :=
  issueOne (syllable true 9 3 (160 + kind.toNat * 8 + kdst.toNat) m) (startCmpGe kind kdst) s
/-- R93. CM writes bit 0 of A AND T into a predicate. -/
def execCmPlogAnd (kdst : BitVec 3) (m : MoveF) (s : State) : Out3 :=
  issueOne (syllable true 9 3 (192 + kdst.toNat) m) (startPlogAnd kdst) s
/-- R93. CM writes a0 OR t0. -/
def execCmPlogOr (kdst : BitVec 3) (m : MoveF) (s : State) : Out3 :=
  issueOne (syllable true 9 3 (200 + kdst.toNat) m) (startPlogOr kdst) s
/-- R93. CM writes a0 XOR t0. -/
def execCmPlogXor (kdst : BitVec 3) (m : MoveF) (s : State) : Out3 :=
  issueOne (syllable true 9 3 (208 + kdst.toNat) m) (startPlogXor kdst) s
/-- R93. CM writes a0 AND NOT t0. -/
def execCmPlogAndn (kdst : BitVec 3) (m : MoveF) (s : State) : Out3 :=
  issueOne (syllable true 9 3 (216 + kdst.toNat) m) (startPlogAndn kdst) s
/-- R93. CM writes a0 OR NOT t0. -/
def execCmPlogOrn (kdst : BitVec 3) (m : MoveF) (s : State) : Out3 :=
  issueOne (syllable true 9 3 (224 + kdst.toNat) m) (startPlogOrn kdst) s
/-- R93. CM writes NOT(a0 AND t0). -/
def execCmPlogNand (kdst : BitVec 3) (m : MoveF) (s : State) : Out3 :=
  issueOne (syllable true 9 3 (232 + kdst.toNat) m) (startPlogNand kdst) s
/-- R93. CM writes NOT(a0 OR t0). -/
def execCmPlogNor (kdst : BitVec 3) (m : MoveF) (s : State) : Out3 :=
  issueOne (syllable true 9 3 (240 + kdst.toNat) m) (startPlogNor kdst) s
/-- R93. CM writes NOT(a0 XOR t0). -/
def execCmPlogXnor (kdst : BitVec 3) (m : MoveF) (s : State) : Out3 :=
  issueOne (syllable true 9 3 (248 + kdst.toNat) m) (startPlogXnor kdst) s

end Sys2Proof.Machine
end

