-- ==== Sys2Proof/Machine/Branch.lean ====
section
/-! DEFINITION. BR (R94 to R100), the moves that trigger nothing (R10 to R15), idle bundles (R34), and the landing of
fixed-latency results as events of their own (R16, R92). -/

namespace Sys2Proof.Machine

/-- A taken branch (R28, R47). -/
def Ctx.goTo (c : Ctx) (target : W64) : Ctx := { c with pc := target, lines := [] }

/-- The target of a relative branch (R94): the header's address plus the signed 64-bit T. -/
def Ctx.relTarget (c : Ctx) (t : Trig) : W64 := t.pc + (c.us.unit t.unit).held.at 0

/-- A conditional relative branch. Inside a loop record it raises C_LOOPREC whether or not its condition holds (R100). -/
def startCond (cond : Ctx → Trig → Bool) : Start := fun s id t =>
  match s.ctx id with
  | none => s
  | some c =>
    if cond c t then s.jump id t (c.relTarget t) (fun c => c.goTo (c.relTarget t))
    else s.jump id t 0 (fun c => c)

def startBr : Start := startCond (fun _ _ => true)
def startBrAny (k : BitVec 3) : Start := startCond (fun c t => t.pred k.toNat &&& c.live != 0)
def startBrAll (k : BitVec 3) : Start := startCond (fun c t => t.pred k.toNat &&& c.live == c.live)
def startBrNone (k : BitVec 3) : Start := startCond (fun c t => t.pred k.toNat &&& c.live == 0)
/-- BR.A as it stands after step 2 (R95). -/
def Ctx.brA (c : Ctx) (t : Trig) : W64 := (c.us.unit t.unit).a.at 0
def startBrSZ : Start := startCond (fun c t => c.brA t == 0)
def startBrSNz : Start := startCond (fun c t => c.brA t != 0)
def startBrSLt : Start := startCond (fun c t => (c.brA t).msb)
def startBrSGe : Start := startCond (fun c t => !(c.brA t).msb)

/-- call (R96): the link is written after every move of the bundle. -/
def startCall : Start := fun s id t =>
  match s.ctx id with
  | none => s
  | some c => s.jump id t (c.relTarget t) (fun c => { c.goTo (c.relTarget t) with s := Tbl.put c.s 31 t.next })

/-- jr and ret (R94, R96): the target is T itself. -/
def startJr : Start := fun s id t =>
  match s.ctx id with
  | none => s
  | some c => s.jump id t ((c.us.unit t.unit).held.at 0) (fun c => c.goTo ((c.us.unit t.unit).held.at 0))
def startRet : Start := startJr

/-- exit (R98). -/
def startExit : Start := fun s id _ => s.leave id

/-- lexit (R99): the lanes leave the live mask; when none is left, the team exits. -/
def startLexit : Start := fun s id t =>
  match s.ctx id with
  | none => s
  | some c =>
    if c.live &&& ~~~t.mask = 0 then s.leave id
    else s.modCtx id (fun c => { c with live := c.live &&& ~~~t.mask })

/-! ## Moves without a trigger -/

/-- R10, R11, R21. A move into a g register as a bundle of its own. -/
def execMoveToG (reg : BitVec 8) (m : MoveF) (s : State) : Out3 :=
  issueOne (syllable true 0 0 reg.toNat m) noStart s

/-- R14, R21. A move into an s register as a bundle of its own. -/
def execMoveToS (reg : BitVec 8) (m : MoveF) (s : State) : Out3 :=
  issueOne (syllable true 0 1 reg.toNat m) noStart s

/-- R11, R21. A move into a predicate as a bundle of its own. -/
def execMoveToK (reg : BitVec 8) (m : MoveF) (s : State) : Out3 :=
  issueOne (syllable true 0 2 reg.toNat m) noStart s

/-- R15, R41. A move into an operand port as a bundle of its own. -/
def execMoveToPort (dunit : BitVec 5) (dport : BitVec 2) (modf : BitVec 8) (m : MoveF) (s : State) : Out3 :=
  issueOne (syllable true dunit.toNat dport.toNat modf.toNat m) noStart s

/-- R34. An idle bundle whose count is ICNT + 1. -/
def execIdle (icnt : BitVec 14) (s : State) : Out3 :=
  if s.canIssue then .next (s.issueIdle s.cur (icnt.toNat + 1)) else .fault .noIssuingContext

/-! ## The bundle-counted events -/

/-- R16. What is due of a unit lands, and with it all that is due at that boundary (R114). Nothing is due while an idle
count runs (R34). -/
def execFixedResultLand (c : CtxId) (u : UnitId) (s : State) : Out3 :=
  match s.ctx c with
  | none => .next s
  | some x =>
    if x.us.pend.any (fun p => p.unit == unitCode u && p.left == 0) then .next (s.setCtx c x.land) else .next s

/-- R92. A compare lands in its predicate, with all that is due at that boundary. -/
def execCmPredicateLand (c : CtxId) (s : State) : Out3 :=
  match s.ctx c with
  | none => .next s
  | some x => if x.us.pend.any (fun p => p.unit == U.cm && p.left == 0) then .next (s.setCtx c x.land) else .next s

/-- R34. The idle count has run out. -/
def execIdleCountEnd (c : CtxId) (s : State) : Out3 :=
  .next (s.modCtx c (fun x => if x.wait = .idle 0 then { x with wait := .ready } else x))

/-- R161. XL's beats have run out: the team's XL is free, and a team held for the path tries again once it is free. -/
def execXlBusyEnd (c : CtxId) (s : State) : Out3 :=
  let f := s.fold c.fold
  .next (s.modCtx c (fun x =>
    let x1 := if x.us.xlBusy ≤ f.cycle then { x with us := { x.us with xlBusy := 0 } } else x
    if x1.wait = .xlPath ∧ f.widePath ≤ f.cycle then { x1 with wait := .ready } else x1))

/-- R190. The yield ends once another team has issued or 16 cycles have been counted. -/
def execYieldEnd (c : CtxId) (s : State) : Out3 :=
  .next (s.modCtx c (fun x =>
    match x.wait with
    | .yield k => if 16 ≤ k then { x with wait := .ready } else x
    | _ => x))

/-- R308. The flag reads 1 and the team goes on at the continuation. -/
def execYieldcResume (c : CtxId) (s : State) : Out3 :=
  .next (s.modCtx c (fun x =>
    match x.wait with
    | .yieldc j => if x.us.flag j then { x with wait := .ready } else x
    | _ => x))

/-! ## The rows of BR -/

/-- R95. BR branches always to the header address plus T. -/
def execBrBr (m : MoveF) (s : State) : Out3 :=
  issueOne (syllable true 15 3 0 m) startBr s
/-- R95. BR branches if the predicate is 1 on any live lane. -/
def execBrAny (kdst : BitVec 3) (m : MoveF) (s : State) : Out3 :=
  issueOne (syllable true 15 3 (8 + kdst.toNat) m) (startBrAny kdst) s
/-- R95. BR branches if the predicate is 1 on every live lane. -/
def execBrAll (kdst : BitVec 3) (m : MoveF) (s : State) : Out3 :=
  issueOne (syllable true 15 3 (16 + kdst.toNat) m) (startBrAll kdst) s
/-- R95. BR branches if the predicate is 0 on every live lane. -/
def execBrNone (kdst : BitVec 3) (m : MoveF) (s : State) : Out3 :=
  issueOne (syllable true 15 3 (24 + kdst.toNat) m) (startBrNone kdst) s
/-- R95. BR branches if uniform A is zero. -/
def execBrSZ (m : MoveF) (s : State) : Out3 :=
  issueOne (syllable true 15 3 32 m) startBrSZ s
/-- R95. BR branches if uniform A is non-zero. -/
def execBrSNz (m : MoveF) (s : State) : Out3 :=
  issueOne (syllable true 15 3 33 m) startBrSNz s
/-- R95. BR branches if uniform A is negative. -/
def execBrSLt (m : MoveF) (s : State) : Out3 :=
  issueOne (syllable true 15 3 34 m) startBrSLt s
/-- R95. BR branches if uniform A is not negative. -/
def execBrSGe (m : MoveF) (s : State) : Out3 :=
  issueOne (syllable true 15 3 35 m) startBrSGe s
/-- R96. BR writes the link s31 and branches relative. -/
def execBrCall (m : MoveF) (s : State) : Out3 :=
  issueOne (syllable true 15 3 48 m) startCall s
/-- R96. BR jumps to the absolute address at T as a return. -/
def execBrRet (m : MoveF) (s : State) : Out3 :=
  issueOne (syllable true 15 3 49 m) startRet s
/-- R94. BR jumps to the absolute address at T. -/
def execBrJr (m : MoveF) (s : State) : Out3 :=
  issueOne (syllable true 15 3 50 m) startJr s
/-- R98. After its stores complete, the team ends, or takes a pending store fault instead. -/
def execBrExit (m : MoveF) (s : State) : Out3 :=
  issueOne (syllable true 15 3 56 m) startExit s
/-- R99. Guarded live lanes retire from the live mask at the end of the bundle. -/
def execBrLexit (m : MoveF) (s : State) : Out3 :=
  issueOne (syllable true 15 3 57 m) startLexit s

end Sys2Proof.Machine
end

