-- ==== Sys2Proof/Machine/Trans.lean ====
section
/-! DEFINITION. The special functions of SF, correctly rounded (R123, R124). Quotients and roots are formed exactly with
a sticky bit. The transcendental functions are enclosed between two fixed-point numbers; the precision is raised until
both ends round alike. -/

namespace Sys2Proof.Machine

/-- The integer square root, bit by bit from bit `k`. -/
def isqrtFrom : Nat → Nat → Nat → Nat
  | 0, n, r => if (r + 1) * (r + 1) ≤ n then r + 1 else r
  | k + 1, n, r => isqrtFrom k n (if (r + 2 ^ (k + 1)) * (r + 2 ^ (k + 1)) ≤ n then r + 2 ^ (k + 1) else r)

/-- The integer square root. -/
def isqrt (n : Nat) : Nat := isqrtFrom (n.log2 / 2 + 1) n 0

/-- The quotient of two positive magnitudes with a sticky low bit: a · 2^ea / (b · 2^eb). -/
def quotSticky (a : Nat) (ea : Int) (b : Nat) (eb : Int) : Nat × Int :=
  let k := b.log2 + 40
  let q := a * 2 ^ k / b
  (2 * q + b2n (a * 2 ^ k % b != 0), ea - eb - k - 1)

/-- The square root of m · 2^e with a sticky low bit. -/
def sqrtSticky (m : Nat) (e : Int) : Nat × Int :=
  let k : Nat := if e % 2 = 0 then 80 else 81
  let x := m * 2 ^ k
  let r := isqrt x
  (2 * r + b2n (r * r != x), (e - k) / 2 - 1)

/-- The reciprocal square root of m · 2^e with a sticky low bit. -/
def rsqrtSticky (m : Nat) (e : Int) : Nat × Int :=
  let m' := if e % 2 = 0 then m else 2 * m
  let e' := if e % 2 = 0 then e else e - 1
  let k := m'.log2 + 80
  let r := isqrt (2 ^ (2 * k) / m')
  (2 * r + b2n (r * r * m' != 2 ^ (2 * k)), -(e' / 2) - k - 1)

/-- Σ x^i / i! in units of 2^−p, by Horner's rule from term `n` down; x in the same units, 0 ≤ x < 1. -/
def expHorner (p x : Nat) : Nat → Nat → Nat
  | 0, acc => acc
  | n + 1, acc => expHorner p x n (2 ^ p + x * acc / 2 ^ p / (n + 1))

/-- e^x − with 0 ≤ x < 1, in units of 2^−p. -/
def expFix (p x : Nat) : Nat := expHorner p x (p / 3 + 20) (2 ^ p)

/-- Σ z^(2i) / (2i + 1) from term `n` down, z² in units of 2^−p. -/
def atanhHorner (p z2 : Nat) : Nat → Nat → Nat
  | 0, acc => acc
  | n + 1, acc => atanhHorner p z2 n (2 ^ p / (2 * n + 1) + z2 * acc / 2 ^ p)

/-- ln of y = 1 + f, 0 ≤ f < 1, in units of 2^−p: 2 · atanh (f / (2 + f)). -/
def lnFix (p f : Nat) : Nat :=
  let z := f * 2 ^ p / (2 ^ (p + 1) + f)
  2 * z * atanhHorner p (z * z / 2 ^ p) (p / 3 + 8) 0 / 2 ^ p

/-- ln 2 in units of 2^−p: 2 · atanh (1/3). -/
def ln2Fix (p : Nat) : Nat := lnFix p (2 ^ p)

/-- Σ (−1)^i z^(2i) / (2i + 1), z² in units of 2^−p, as positive and negative parts folded from the last term. -/
def atanHorner (p z2 : Nat) : Nat → Int → Int
  | 0, acc => acc
  | n + 1, acc => atanHorner p z2 n ((2 ^ p / (2 * n + 1) : Int) - (z2 : Int) * acc / 2 ^ p)

/-- arctan (1 / k) in units of 2^−p. -/
def atanInv (p k : Nat) : Int :=
  let z := 2 ^ p / k
  (z : Int) * atanHorner p (2 ^ p / (k * k)) (p / 4 + 8) 0 / 2 ^ p

/-- π / 2 in units of 2^−p, by Machin's formula. -/
def halfPiFix (p : Nat) : Nat := ((16 * atanInv p 5 - 4 * atanInv p 239) / 2).toNat

/-- Σ (−1)^i x^(2i) / (2i + d)! scaled by d!, x² in units of 2^−p (d = 1 sine over x, d = 0 cosine). -/
def trigHorner (p x2 d : Nat) : Nat → Int → Int
  | 0, acc => acc
  | n + 1, acc => trigHorner p x2 d n ((2 ^ p : Int) - (x2 : Int) * acc / 2 ^ p / ((2 * n + 1 + d) * (2 * n + 2 + d) : Nat))

/-- sin r in units of 2^−p, 0 ≤ r < π/2 + a little. -/
def sinFix (p r : Nat) : Int := (r : Int) * trigHorner p (r * r / 2 ^ p) 1 (p / 4 + 20) (2 ^ p) / 2 ^ p

/-- cos r in units of 2^−p. -/
def cosFix (p r : Nat) : Int := trigHorner p (r * r / 2 ^ p) 0 (p / 4 + 20) (2 ^ p)

/-- An approximation of a real number: the number lies strictly between mid − err and mid + err, in units of 2^ex. -/
structure Approx where
  mid : Int
  err : Nat
  ex : Int

/-- The error, in last places, that a chain of floored fixed-point steps stays within. -/
def slack : Nat := 2 ^ 16

/-- Round the value that an approximation encloses, if both ends round alike. -/
def Approx.tryRound (f : Fmt) (ftz : Bool) (a : Approx) : Option (Nat × BitVec 5) :=
  let lo := a.mid - a.err
  let hi := a.mid + a.err
  if (lo < 0 ∧ 0 < hi) ∨ lo = 0 ∨ hi = 0 then none
  else
    let r1 := f.round 0 ftz (decide (lo < 0)) (2 * lo.natAbs + 1) (a.ex - 1)
    let r2 := f.round 0 ftz (decide (hi < 0)) (2 * hi.natAbs + 1) (a.ex - 1)
    if r1.1 = r2.1 ∧ r1.2 = r2.2 then some r1 else none

/-- Raise the precision until the rounding is decided. -/
def zivRound (f : Fmt) (ftz : Bool) (g : Nat → Approx) : List Nat → Nat × BitVec 5
  | [] => let a := g 1024
    f.round 0 ftz (decide (a.mid < 0)) (2 * a.mid.natAbs + 1) (a.ex - 1)
  | p :: r => match (g p).tryRound f ftz with
    | some x => x
    | none => zivRound f ftz g r

/-- The precisions tried. -/
def zivSteps : List Nat := [128, 256, 512]

/-- m · 2^e in units of 2^−p, floored. -/
def fixOf (p : Nat) (m : Nat) (e : Int) : Nat :=
  if 0 ≤ (p : Int) + e then m * 2 ^ ((p : Int) + e).toNat else m / 2 ^ (-((p : Int) + e)).toNat

/-- 2^x for x = i + f / 2^p, 0 ≤ f < 2^p. -/
def exp2At (i : Int) (p f : Nat) : Approx :=
  { mid := expFix p (f * ln2Fix p / 2 ^ p), err := slack, ex := i - p }

/-- exp2 of a number that is neither zero nor far outside the range. -/
def exp2Approx (neg : Bool) (m : Nat) (e : Int) (p : Nat) : Approx :=
  let x : Int := if neg then -(fixOf p m e : Int) else fixOf p m e
  exp2At (x / 2 ^ p) p (x % 2 ^ p).toNat

/-- log2 of a positive number. -/
def log2Approx (m : Nat) (e : Int) (p : Nat) : Approx :=
  let f := fixOf p m (-(m.log2 : Int)) - 2 ^ p
  let l := lnFix p f * 2 ^ p / ln2Fix p
  { mid := ((m.log2 : Int) + e) * 2 ^ p + l, err := slack, ex := -(p : Int) }

/-- sin (or cos) of a positive number: reduced exactly by multiples of π/2. -/
def trigApprox (cosine : Bool) (m : Nat) (e : Int) (p : Nat) : Approx :=
  let w := p + (max 0 (e + m.log2 + 1)).toNat
  let x := fixOf w m e
  let h := halfPiFix w
  let k := x / h
  let r := (x - k * h) / 2 ^ (w - p)
  let q := (k + b2n cosine) % 4
  let v := match q with
    | 0 => sinFix p r
    | 1 => cosFix p r
    | 2 => -(sinFix p r)
    | _ => -(cosFix p r)
  { mid := v, err := slack, ex := -(p : Int) }

/-- tanh of a positive number below 32: (e^2x − 1) / (e^2x + 1). -/
def tanhApprox (m : Nat) (e : Int) (p : Nat) : Approx :=
  let w := p + 128
  let y := fixOf w (2 * m) e * 2 ^ w / ln2Fix w
  let ex := expFix w ((y % 2 ^ w) * ln2Fix w / 2 ^ w) * 2 ^ (y / 2 ^ w)
  { mid := ((ex - 2 ^ w) * 2 ^ p / (ex + 2 ^ w) : Nat), err := slack, ex := -(p : Int) }

/-- A precision list shifted so that a small result keeps its leading bits. -/
def zivFor (e : Int) : List Nat := zivSteps.map (fun p => p + 2 * (-e).toNat)

/-- Whether a magnitude is a power of two. -/
def isPow2 (m : Nat) : Bool := m == 2 ^ m.log2

/-- The SF operation on one element (R123, R124): OP 0 to 8; `a` is read by div alone. -/
def sfElem (op : Nat) (f : Fmt) (ftz : Bool) (a t : Fv) : Nat × BitVec 5 :=
  let qn (s : Bool) : Nat × BitVec 5 := (f.qnan, if s then xNV else 0)
  let inv : Nat × BitVec 5 := (f.qnan, xNV)
  match op with
  | 0 => match t with
    | .nan s => qn s
    | .inf n => (f.sign n 0, 0)
    | .num n m e =>
      if m = 0 then (f.sign n f.infCode, xDZ)
      else let (q, x) := quotSticky 1 0 m e; f.round 0 ftz n q x
  | 1 => match t with
    | .nan s => qn s
    | .inf n => if n then inv else (0, 0)
    | .num n m e =>
      if m = 0 then (f.sign n f.infCode, xDZ)
      else if n then inv else let (q, x) := rsqrtSticky m e; f.round 0 ftz false q x
  | 2 => match t with
    | .nan s => qn s
    | .inf n => if n then inv else (f.infCode, 0)
    | .num n m e =>
      if m = 0 then (f.sign n 0, 0)
      else if n then inv else let (q, x) := sqrtSticky m e; f.round 0 ftz false q x
  | 3 => match t with
    | .nan s => qn s
    | .inf n => (if n then 0 else f.infCode, 0)
    | .num n m e =>
      if m = 0 then f.round 0 ftz false 1 0
      else if (m.log2 : Int) + e ≥ 9 then f.round 0 ftz false 1 (if n then -600 else 600)
      else if e ≥ 0 then f.round 0 ftz false 1 (if n then -(m * 2 ^ e.toNat : Int) else m * 2 ^ e.toNat)
      else if m % 2 ^ (-e).toNat = 0 then
        f.round 0 ftz false 1 (if n then -(m / 2 ^ (-e).toNat : Int) else m / 2 ^ (-e).toNat)
      else zivRound f ftz (exp2Approx n m e) (zivFor (min 0 e))
  | 4 => match t with
    | .nan s => qn s
    | .inf n => if n then inv else (f.infCode, 0)
    | .num n m e =>
      if m = 0 then (f.sign true f.infCode, xDZ)
      else if n then inv
      else if isPow2 m then
        let k : Int := m.log2 + e
        if k = 0 then (0, 0) else f.round 0 ftz (decide (k < 0)) k.natAbs 0
      else zivRound f ftz (log2Approx m e) zivSteps
  | 5 => match t with
    | .nan s => qn s
    | .inf _ => inv
    | .num n m e =>
      if m = 0 then (f.sign n 0, 0)
      else
        let r := zivRound f ftz (trigApprox false m e) (zivFor (min 0 (e + m.log2)))
        (if n then (if r.1 ≥ f.signBit then r.1 - f.signBit else r.1 + f.signBit) else r.1, r.2)
  | 6 => match t with
    | .nan s => qn s
    | .inf _ => inv
    | .num _ m e =>
      if m = 0 then f.round 0 ftz false 1 0
      else if (m.log2 : Int) + e < -40 then f.round 0 ftz false (2 ^ 80 - 1) (-80)
      else zivRound f ftz (trigApprox true m e) (zivFor (min 0 (e + m.log2)))
  | 7 => match t with
    | .nan s => qn s
    | .inf n => f.round 0 ftz n 1 0
    | .num n m e =>
      if m = 0 then (f.sign n 0, 0)
      else
        let r := if (m.log2 : Int) + e ≥ 5 then f.round 0 ftz false (2 ^ 80 - 1) (-80)
          else zivRound f ftz (tanhApprox m e) (zivFor (min 0 (e + m.log2)))
        (f.sign n r.1, r.2)
  | _ =>
    let nv := sigExc [a, t]
    match a, t with
    | .nan _, _ => (f.qnan, nv)
    | _, .nan _ => (f.qnan, nv)
    | .inf _, .inf _ => inv
    | .inf n, .num n' _ _ => (f.sign (n != n') f.infCode, 0)
    | .num n _ _, .inf n' => (f.sign (n != n') 0, 0)
    | .num n m e, .num n' m' e' =>
      if m' = 0 then (if m = 0 then inv else (f.sign (n != n') f.infCode, xDZ))
      else if m = 0 then (f.sign (n != n') 0, 0)
      else let (q, x) := quotSticky m e m' e'; f.round 0 ftz (n != n') q x

end Sys2Proof.Machine
end

