-- ==== Sys2Proof/Machine/FloatUnits.lean ====
section
/-! DEFINITION. FA and FB (R115 to R117), CV (R118 to R122) and SF (R123 to R125): values with their exceptions, which
reach FP_CTL when the result lands (R113). -/

namespace Sys2Proof.Machine

/-- A fixed-latency operation that gives each triggered lane a value and its exceptions (R113). -/
def laneFp (f : Nat → Nat → Nat → Nat × BitVec 5) : Start := fun s id t =>
  match s.ctx id with
  | none => s
  | some c =>
    let p := c.us.unit t.unit
    let r (l : Nat) : Nat × BitVec 5 :=
      if t.mask.getLsbD l then
        f (lo32 (p.a.at l)).toNat (lo32 (p.b.at l)).toNat (lo32 (p.held.at l)).toNat
      else (0, 0)
    let rs := (List.range c.nlanes).map r
    s.addPend id { t.pend c.nlanes (fun _ => 0) with
      vals := rs.map (fun x => BitVec.ofNat 64 (x.1 % 2 ^ 32)), excs := rs.map Prod.snd }

/-! ## FA and FB -/

/-- An element operation of FA and FB in the format of TYPE, inputs flushed as R110 gives. -/
def fpElem (ty : Nat) (ftz : Bool) (f : Fmt → Bool → Fv → Fv → Fv → Nat × BitVec 5) (a b t : Nat) : Nat × BitVec 5 :=
  let z := ftz || ty == 2
  perElem3 ty (fun a b t => f (typeFmt ty) z (inElem ty ftz a) (inElem ty ftz b) (inElem ty ftz t)) a b t

def elFadd (rnd : Nat) (f : Fmt) (z : Bool) (a _ t : Fv) : Nat × BitVec 5 :=
  let r := f.sum rnd z [a, t]
  nvAlone (r.1, r.2 ||| sigExc [a, t])
def elFsub (rnd : Nat) (f : Fmt) (z : Bool) (a _ t : Fv) : Nat × BitVec 5 :=
  let r := f.sum rnd z [a, t.neg]
  nvAlone (r.1, r.2 ||| sigExc [a, t])
def elFmul (rnd : Nat) (f : Fmt) (z : Bool) (a _ t : Fv) : Nat × BitVec 5 :=
  match Fv.mul a t with
  | none => (f.qnan, xNV)
  | some p =>
    let r := f.sum rnd z [p]
    nvAlone (r.1, r.2 ||| sigExc [a, t])
def elFma (rnd : Nat) (f : Fmt) (z : Bool) (a b t : Fv) : Nat × BitVec 5 := f.fma rnd z a b t
def elFnma (rnd : Nat) (f : Fmt) (z : Bool) (a b t : Fv) : Nat × BitVec 5 := f.fma rnd z a.neg b t
def elFmin (f : Fmt) (_ : Bool) (a _ t : Fv) : Nat × BitVec 5 := f.minmax false a t
def elFmax (f : Fmt) (_ : Bool) (a _ t : Fv) : Nat × BitVec 5 := f.minmax true a t

/-- fdot2 (R117): two exact products and an FP32 accumulator, one rounding. -/
def fdot2 (ty rnd : Nat) (ftz : Bool) (a b t : Nat) : Nat × BitVec 5 :=
  let e (x j : Nat) : Fv := inElem ty ftz (x / 2 ^ (16 * j) % 2 ^ 16)
  let tv := inElem 0 ftz t
  match Fv.mul (e a 0) (e b 0), Fv.mul (e a 1) (e b 1) with
  | some p0, some p1 =>
    let r := Fmt.f32.sum rnd ftz [tv, p0, p1]
    nvAlone (r.1, r.2 ||| sigExc [e a 0, e a 1, e b 0, e b 1, tv])
  | _, _ => (Fmt.f32.qnan, xNV)

def fpStart (ty rnd : BitVec 2) (ftz : BitVec 1) (f : Nat → Fmt → Bool → Fv → Fv → Fv → Nat × BitVec 5) : Start :=
  laneFp (fpElem ty.toNat (ftz == 1) (f rnd.toNat))
def startFadd (ty rnd : BitVec 2) (ftz : BitVec 1) : Start := fpStart ty rnd ftz elFadd
def startFsub (ty rnd : BitVec 2) (ftz : BitVec 1) : Start := fpStart ty rnd ftz elFsub
def startFmul (ty rnd : BitVec 2) (ftz : BitVec 1) : Start := fpStart ty rnd ftz elFmul
def startFma (ty rnd : BitVec 2) (ftz : BitVec 1) : Start := fpStart ty rnd ftz elFma
def startFnma (ty rnd : BitVec 2) (ftz : BitVec 1) : Start := fpStart ty rnd ftz elFnma
def startFmin (ty rnd : BitVec 2) (ftz : BitVec 1) : Start := fpStart ty rnd ftz (fun _ => elFmin)
def startFmax (ty rnd : BitVec 2) (ftz : BitVec 1) : Start := fpStart ty rnd ftz (fun _ => elFmax)
def startFdot2 (ty rnd : BitVec 2) (ftz : BitVec 1) : Start := laneFp (fdot2 ty.toNat rnd.toNat (ftz == 1))

/-! ## CV -/

/-- An integer rounded to FP32 (R119). -/
def intToF32 (rnd : Nat) (x : Int) : Nat × BitVec 5 :=
  if x = 0 then (0, 0) else Fmt.f32.round rnd false (decide (x < 0)) x.natAbs 0

/-- Integer narrowing (R119, pairs 12 to 15). -/
def narrowInt (signed : Bool) (w : Nat) (sat : Bool) (x : Int) : Nat × BitVec 5 :=
  (wrapInt signed w (if sat then satInt signed w x else x), 0)

/-- cvt (R55, R118, R119). -/
def cvCvt (pair rnd : Nat) (sat : Bool) (t : Nat) : Nat × BitVec 5 :=
  let v := Fmt.f32.decode t
  let st := (BitVec.ofNat 32 t).toInt
  match pair with
  | 0 => Fmt.f16.convert rnd sat v
  | 1 => Fmt.bf16.convert rnd sat v
  | 2 => Fmt.f32.convert 0 false (Fmt.f16.decode (t % 2 ^ 16))
  | 3 => Fmt.f32.convert 0 false (Fmt.bf16.decode (t % 2 ^ 16))
  | 4 => toIntCode true 32 rnd sat v
  | 5 => toIntCode false 32 rnd sat v
  | 6 => toIntCode true 16 rnd sat v
  | 7 => toIntCode false 16 rnd sat v
  | 8 => toIntCode true 8 rnd sat v
  | 9 => toIntCode false 8 rnd sat v
  | 10 => intToF32 rnd st
  | 11 => intToF32 rnd t
  | 12 => narrowInt true 16 sat st
  | 13 => narrowInt false 16 sat t
  | 14 => narrowInt true 8 sat st
  | _ => narrowInt false 8 sat t

def startCvt (pair : BitVec 4) (rnd : BitVec 2) (sat : BitVec 1) : Start :=
  laneFp (fun _ _ t => cvCvt pair.toNat rnd.toNat (sat == 1) t)

/-- The sign bits of a value of TYPE. -/
def signBits (ty : Nat) : Nat := if ty = 0 then 0x80000000 else 0x80008000
def startFabs (ty : BitVec 2) : Start := laneFp (fun _ _ t => (t &&& (0xFFFFFFFF - signBits ty.toNat), 0))
def startFneg (ty : BitVec 2) : Start := laneFp (fun _ _ t => (t ^^^ signBits ty.toNat, 0))
def startFclass (ty : BitVec 2) : Start :=
  laneFp (fun _ _ t => perElem1 ty.toNat (fun x => ((typeFmt ty.toNat).fclass ((typeFmt ty.toNat).decode x), 0)) t)
def startFrexp (ty : BitVec 2) : Start :=
  let w := if ty = 0 then 32 else 16
  laneFp (fun _ _ t => perElem1 ty.toNat (fun x =>
    let r := frexpExp w ((typeFmt ty.toNat).decode x)
    ((BitVec.ofInt w r.1).toNat, r.2)) t)
def startFrint (rnd ty : BitVec 2) : Start :=
  laneFp (fun _ _ t => perElem1 ty.toNat (fun x => (typeFmt ty.toNat).frint rnd.toNat ((typeFmt ty.toNat).decode x)) t)
/-- ldexp (R122). An exponent beyond 4,000 acts as 4,000: both carry every value past the format's range. -/
def startLdexp (ty : BitVec 2) : Start :=
  let w := if ty = 0 then 32 else 16
  laneFp (fun a _ t => perElem2 ty.toNat (fun x k =>
    (typeFmt ty.toNat).ldexp ((typeFmt ty.toNat).decode x) (max (-4000) (min 4000 (BitVec.ofNat w k).toInt))) a t)

/-- The format register that an operation names: that of the team's gang (R317); a context without a gang has none and
reads 0. -/
def State.fmReg (s : State) (c : Ctx) (n : Nat) : W32 :=
  match s.gang c.gang with
  | some g => if c.shadow then 0 else Tbl.get g.fm n 0
  | none => 0

/-- cvt.fm with a malformed description: C_MXFORMAT and no pending result (R120). -/
def fmStart (n : Nat) (f : Narrow → Nat → Nat × BitVec 5) : Start := fun s id t =>
  match s.ctx id with
  | none => s
  | some c =>
    let d := Narrow.of (s.fmReg c n)
    if d.malformed then
      s.modCtx id (fun c => c.addDue { DueTrap.of 0x48 t.pc t.cycle with lanes := some t.mask })
    else laneFp (fun _ _ x => f d x) s id t

/-- A code of a narrow format as FP32 (R121). -/
def fmFrom (d : Narrow) (x : Nat) : Nat × BitVec 5 :=
  match d.decode x with
  | .nan _ => (Fmt.f32.qnan, 0)
  | v => Fmt.f32.convert 0 false v

def startCvtFmTo (fm : BitVec 4) (rz : BitVec 1) : Start :=
  fmStart fm.toNat (fun d x => d.encode rz.toNat (Fmt.f32.decode x))
def startCvtFmFrom (fm : BitVec 4) : Start := fmStart fm.toNat fmFrom

/-! ## SF -/

/-- A special function's trigger: the operands are taken, and the operation is in flight (R123). -/
def startSf : Start := fun s id t =>
  match s.ctx id with
  | none => s
  | some c =>
    let p := c.us.unit t.unit
    s.addOp id (t.op p.a p.held none 0)

def startSfRcp (_ : BitVec 2) : Start := startSf
def startSfRsqrt (_ : BitVec 2) : Start := startSf
def startSfSqrt (_ : BitVec 2) : Start := startSf
def startSfExp2 (_ : BitVec 2) : Start := startSf
def startSfLog2 (_ : BitVec 2) : Start := startSf
def startSfSin (_ : BitVec 2) : Start := startSf
def startSfCos (_ : BitVec 2) : Start := startSf
def startSfTanh (_ : BitVec 2) : Start := startSf
def startSfDiv (_ : BitVec 2) : Start := startSf

/-- A lane's value and exceptions of a special function (R123, R124): TYPE in opcode bits 5:4, OP in bits 3:0. -/
def sfLane (opcode a t : Nat) : Nat × BitVec 5 :=
  let ty := opcode / 16 % 4
  perElem2 ty (fun a t => sfElem (opcode % 16) (typeFmt ty) (ty == 2) (inElem ty false a) (inElem ty false t)) a t

/-- The unit state that waits for an SF operation takes its trap (R114). -/
def UnitState.sfDone (us : UnitState) (uid : Nat) (trap : Option SfTrap) : UnitState :=
  if (us.unit U.sf).last = uid then { us with sfTrap := trap } else us

/-- R123. The oldest special-function operation in flight completes: R fills on the triggered lanes when it is the unit's
latest, its exceptions become sticky, an enabled one becomes the trap of R114, and an owned flag reads 1. -/
def execSfComplete (c : CtxId) (s : State) : Out3 :=
  match s.ctx c with
  | none => .next s
  | some x =>
    match x.findOp (fun o => o.unit == U.sf) with
    | none => .next s
    | some o =>
      let m := o.mask &&& x.live
      let rs := (List.range x.nlanes).map (fun l =>
        if m.getLsbD l then sfLane o.opcode.toNat (lo32 (o.a.at l)).toNat (lo32 (o.t.at l)).toNat else (0, 0))
      let excs := rs.map Prod.snd
      let latest := x.latest U.sf o.uid
      let owners := x.us.owners ++ (x.frame.map UnitState.owners).getD []
      let flag := (owners.find? (fun kv => kv.2 == o.uid)).map Prod.fst
      let trap := (fpTrap x.fpCtl m x.nlanes excs o.bundle o.cycle).map (fun d =>
        { code := d.code, lanes := d.lanes.getD 0, bundle := o.bundle, cycle := o.cycle, flag := flag : SfTrap })
      let x1 := (x.dropOp o.uid).finish U.sf o.uid o.mask (fun l => BitVec.ofNat 64 ((rs.getD l (0, 0)).1 % 2 ^ 32)) none
      let x2 := if latest then
          { x1 with fpCtl := stick x1.fpCtl (excUnion m x.nlanes excs), us := x1.us.sfDone o.uid trap,
                    frame := x1.frame.map (fun u => u.sfDone o.uid trap) }
        else x1
      .next (s.setCtx c x2)

/-! ## The rows of FA, FB, CV and SF -/

/-- R115. FA adds A and T, rounded by RND. -/
def execFaFadd (ty : BitVec 2) (rnd : BitVec 2) (ftz : BitVec 1) (m : MoveF) (s : State) : Out3 :=
  issueOne (syllable true 5 3 (0 + ty.toNat * 8 + rnd.toNat * 2 + ftz.toNat) m) (startFadd ty rnd ftz) s
/-- R115. FA subtracts T from A. -/
def execFaFsub (ty : BitVec 2) (rnd : BitVec 2) (ftz : BitVec 1) (m : MoveF) (s : State) : Out3 :=
  issueOne (syllable true 5 3 (32 + ty.toNat * 8 + rnd.toNat * 2 + ftz.toNat) m) (startFsub ty rnd ftz) s
/-- R115. FA multiplies A by T. -/
def execFaFmul (ty : BitVec 2) (rnd : BitVec 2) (ftz : BitVec 1) (m : MoveF) (s : State) : Out3 :=
  issueOne (syllable true 5 3 (64 + ty.toNat * 8 + rnd.toNat * 2 + ftz.toNat) m) (startFmul ty rnd ftz) s
/-- R115. FA computes A times B plus T, rounded once. -/
def execFaFma (ty : BitVec 2) (rnd : BitVec 2) (ftz : BitVec 1) (m : MoveF) (s : State) : Out3 :=
  issueOne (syllable true 5 3 (96 + ty.toNat * 8 + rnd.toNat * 2 + ftz.toNat) m) (startFma ty rnd ftz) s
/-- R115. FA computes minus A times B plus T. -/
def execFaFnma (ty : BitVec 2) (rnd : BitVec 2) (ftz : BitVec 1) (m : MoveF) (s : State) : Out3 :=
  issueOne (syllable true 5 3 (128 + ty.toNat * 8 + rnd.toNat * 2 + ftz.toNat) m) (startFnma ty rnd ftz) s
/-- R116. FA selects the lesser value. -/
def execFaFmin (ty : BitVec 2) (rnd : BitVec 2) (ftz : BitVec 1) (m : MoveF) (s : State) : Out3 :=
  issueOne (syllable true 5 3 (160 + ty.toNat * 8 + rnd.toNat * 2 + ftz.toNat) m) (startFmin ty rnd ftz) s
/-- R116. FA selects the greater value. -/
def execFaFmax (ty : BitVec 2) (rnd : BitVec 2) (ftz : BitVec 1) (m : MoveF) (s : State) : Out3 :=
  issueOne (syllable true 5 3 (192 + ty.toNat * 8 + rnd.toNat * 2 + ftz.toNat) m) (startFmax ty rnd ftz) s
/-- R117. FA adds a packed two-element dot product to an FP32 accumulator. -/
def execFaFdot2 (ty : BitVec 2) (rnd : BitVec 2) (ftz : BitVec 1) (m : MoveF) (s : State) : Out3 :=
  issueOne (syllable true 5 3 (224 + ty.toNat * 8 + rnd.toNat * 2 + ftz.toNat) m) (startFdot2 ty rnd ftz) s
/-- R115. FB adds A and T. -/
def execFbFadd (ty : BitVec 2) (rnd : BitVec 2) (ftz : BitVec 1) (m : MoveF) (s : State) : Out3 :=
  issueOne (syllable true 6 3 (0 + ty.toNat * 8 + rnd.toNat * 2 + ftz.toNat) m) (startFadd ty rnd ftz) s
/-- R115. FB subtracts T from A. -/
def execFbFsub (ty : BitVec 2) (rnd : BitVec 2) (ftz : BitVec 1) (m : MoveF) (s : State) : Out3 :=
  issueOne (syllable true 6 3 (32 + ty.toNat * 8 + rnd.toNat * 2 + ftz.toNat) m) (startFsub ty rnd ftz) s
/-- R115. FB multiplies A by T. -/
def execFbFmul (ty : BitVec 2) (rnd : BitVec 2) (ftz : BitVec 1) (m : MoveF) (s : State) : Out3 :=
  issueOne (syllable true 6 3 (64 + ty.toNat * 8 + rnd.toNat * 2 + ftz.toNat) m) (startFmul ty rnd ftz) s
/-- R115. FB computes A times B plus T. -/
def execFbFma (ty : BitVec 2) (rnd : BitVec 2) (ftz : BitVec 1) (m : MoveF) (s : State) : Out3 :=
  issueOne (syllable true 6 3 (96 + ty.toNat * 8 + rnd.toNat * 2 + ftz.toNat) m) (startFma ty rnd ftz) s
/-- R115. FB computes minus A times B plus T. -/
def execFbFnma (ty : BitVec 2) (rnd : BitVec 2) (ftz : BitVec 1) (m : MoveF) (s : State) : Out3 :=
  issueOne (syllable true 6 3 (128 + ty.toNat * 8 + rnd.toNat * 2 + ftz.toNat) m) (startFnma ty rnd ftz) s
/-- R116. FB selects the lesser value. -/
def execFbFmin (ty : BitVec 2) (rnd : BitVec 2) (ftz : BitVec 1) (m : MoveF) (s : State) : Out3 :=
  issueOne (syllable true 6 3 (160 + ty.toNat * 8 + rnd.toNat * 2 + ftz.toNat) m) (startFmin ty rnd ftz) s
/-- R116. FB selects the greater value. -/
def execFbFmax (ty : BitVec 2) (rnd : BitVec 2) (ftz : BitVec 1) (m : MoveF) (s : State) : Out3 :=
  issueOne (syllable true 6 3 (192 + ty.toNat * 8 + rnd.toNat * 2 + ftz.toNat) m) (startFmax ty rnd ftz) s
/-- R117. FB adds a packed dot product to an FP32 accumulator. -/
def execFbFdot2 (ty : BitVec 2) (rnd : BitVec 2) (ftz : BitVec 1) (m : MoveF) (s : State) : Out3 :=
  issueOne (syllable true 6 3 (224 + ty.toNat * 8 + rnd.toNat * 2 + ftz.toNat) m) (startFdot2 ty rnd ftz) s
/-- R118. CV converts T between the formats that PAIR names, with RND and SAT. -/
def execCvCvt (pair : BitVec 4) (rnd : BitVec 2) (sat : BitVec 1) (m : MoveF) (s : State) : Out3 :=
  issueOne (syllable true 7 3 (pair.toNat * 8 + rnd.toNat * 2 + sat.toNat) m) (startCvt pair rnd sat) s
/-- R122. CV clears the sign bit of T. -/
def execCvFabs (ty : BitVec 2) (m : MoveF) (s : State) : Out3 :=
  issueOne (syllable true 7 3 (128 + ty.toNat) m) (startFabs ty) s
/-- R122. CV inverts the sign bit of T. -/
def execCvFneg (ty : BitVec 2) (m : MoveF) (s : State) : Out3 :=
  issueOne (syllable true 7 3 (132 + ty.toNat) m) (startFneg ty) s
/-- R122. CV delivers the class mask of T. -/
def execCvFclass (ty : BitVec 2) (m : MoveF) (s : State) : Out3 :=
  issueOne (syllable true 7 3 (136 + ty.toNat) m) (startFclass ty) s
/-- R122. CV delivers the binary exponent of T. -/
def execCvFrexp (ty : BitVec 2) (m : MoveF) (s : State) : Out3 :=
  issueOne (syllable true 7 3 (140 + ty.toNat) m) (startFrexp ty) s
/-- R122. CV rounds T to an integral value by RND. -/
def execCvFrint (rnd : BitVec 2) (ty : BitVec 2) (m : MoveF) (s : State) : Out3 :=
  issueOne (syllable true 7 3 (0x90 + rnd.toNat * 4 + ty.toNat) m) (startFrint rnd ty) s
/-- R122. CV scales A by two to the power T. -/
def execCvLdexp (ty : BitVec 2) (m : MoveF) (s : State) : Out3 :=
  issueOne (syllable true 7 3 (160 + ty.toNat) m) (startLdexp ty) s
/-- R120. CV converts FP32 at T to the narrow format of a format register. -/
def execCvCvtFmTo (fm : BitVec 4) (rz : BitVec 1) (m : MoveF) (s : State) : Out3 :=
  issueOne (syllable true 7 3 (0xC0 + fm.toNat * 2 + rz.toNat) m) (startCvtFmTo fm rz) s
/-- R121. CV converts a narrow code at T to FP32. -/
def execCvCvtFmFrom (fm : BitVec 4) (m : MoveF) (s : State) : Out3 :=
  issueOne (syllable true 7 3 (0xE0 + fm.toNat * 2) m) (startCvtFmFrom fm) s
/-- R123. SF computes the correctly rounded reciprocal of T. -/
def execSfRcp (ty : BitVec 2) (m : MoveF) (s : State) : Out3 :=
  issueOne (syllable true 8 3 (ty.toNat * 16 + 0) m) (startSfRcp ty) s
/-- R123. SF computes the reciprocal square root. -/
def execSfRsqrt (ty : BitVec 2) (m : MoveF) (s : State) : Out3 :=
  issueOne (syllable true 8 3 (ty.toNat * 16 + 1) m) (startSfRsqrt ty) s
/-- R123. SF computes the square root. -/
def execSfSqrt (ty : BitVec 2) (m : MoveF) (s : State) : Out3 :=
  issueOne (syllable true 8 3 (ty.toNat * 16 + 2) m) (startSfSqrt ty) s
/-- R123. SF computes two to the power T. -/
def execSfExp2 (ty : BitVec 2) (m : MoveF) (s : State) : Out3 :=
  issueOne (syllable true 8 3 (ty.toNat * 16 + 3) m) (startSfExp2 ty) s
/-- R123. SF computes the base-2 logarithm. -/
def execSfLog2 (ty : BitVec 2) (m : MoveF) (s : State) : Out3 :=
  issueOne (syllable true 8 3 (ty.toNat * 16 + 4) m) (startSfLog2 ty) s
/-- R123. SF computes the sine. -/
def execSfSin (ty : BitVec 2) (m : MoveF) (s : State) : Out3 :=
  issueOne (syllable true 8 3 (ty.toNat * 16 + 5) m) (startSfSin ty) s
/-- R123. SF computes the cosine. -/
def execSfCos (ty : BitVec 2) (m : MoveF) (s : State) : Out3 :=
  issueOne (syllable true 8 3 (ty.toNat * 16 + 6) m) (startSfCos ty) s
/-- R123. SF computes the hyperbolic tangent. -/
def execSfTanh (ty : BitVec 2) (m : MoveF) (s : State) : Out3 :=
  issueOne (syllable true 8 3 (ty.toNat * 16 + 7) m) (startSfTanh ty) s
/-- R123. SF computes A divided by T. -/
def execSfDiv (ty : BitVec 2) (m : MoveF) (s : State) : Out3 :=
  issueOne (syllable true 8 3 (ty.toNat * 16 + 8) m) (startSfDiv ty) s

end Sys2Proof.Machine
end

