-- ==== Sys2Proof/Machine/Opcodes.lean ====
section
/-! DEFINITION. The opcode map (R50 to R61) as a bundle of several triggers uses it: for each unit but SV, the rows of its
opcode table with the operation that each starts. -/

namespace Sys2Proof.Machine

/-- A row of a unit's opcode table: the opcode bits that name it, their value, and what an opcode of it starts. -/
abbrev OpRow := Nat × Nat × (Nat → Start)

/-- The opcodes of IA. -/
def iaRows : List OpRow :=
  [
    (255, 0, fun _ => startAdd),
    (255, 1, fun _ => startSub),
    (255, 2, fun _ => startRsub),
    (255, 3, fun _ => startNeg),
    (255, 4, fun _ => startAnd),
    (255, 5, fun _ => startOr),
    (255, 6, fun _ => startXor),
    (255, 7, fun _ => startAndn),
    (255, 8, fun _ => startOrn),
    (255, 9, fun _ => startMinS),
    (255, 10, fun _ => startMinN),
    (255, 11, fun _ => startMaxS),
    (255, 12, fun _ => startMaxN),
    (255, 13, fun _ => startAbs),
    (255, 14, fun _ => startAddSatS),
    (255, 15, fun _ => startAddSatN),
    (255, 16, fun _ => startSubSatS),
    (255, 17, fun _ => startSubSatN),
    (255, 18, fun _ => startAvgN),
    (255, 19, fun _ => startAbsdN),
    (255, 20, fun _ => startMov),
    (255, 21, fun _ => startAddsh1),
    (255, 22, fun _ => startAddsh2),
    (255, 23, fun _ => startAddsh3),
    (255, 24, fun _ => startAddc),
    (255, 25, fun _ => startSubb)]

/-- The opcodes of IB. -/
def ibRows : List OpRow :=
  [
    (255, 0, fun _ => startAdd),
    (255, 1, fun _ => startSub),
    (255, 2, fun _ => startRsub),
    (255, 3, fun _ => startNeg),
    (255, 4, fun _ => startAnd),
    (255, 5, fun _ => startOr),
    (255, 6, fun _ => startXor),
    (255, 7, fun _ => startAndn),
    (255, 8, fun _ => startOrn),
    (255, 9, fun _ => startMinS),
    (255, 10, fun _ => startMinN),
    (255, 11, fun _ => startMaxS),
    (255, 12, fun _ => startMaxN),
    (255, 13, fun _ => startAbs),
    (255, 14, fun _ => startAddSatS),
    (255, 15, fun _ => startAddSatN),
    (255, 16, fun _ => startSubSatS),
    (255, 17, fun _ => startSubSatN),
    (255, 18, fun _ => startAvgN),
    (255, 19, fun _ => startAbsdN),
    (255, 20, fun _ => startMov),
    (255, 21, fun _ => startAddsh1),
    (255, 22, fun _ => startAddsh2),
    (255, 23, fun _ => startAddsh3),
    (255, 24, fun _ => startAddc),
    (255, 25, fun _ => startSubb)]

/-- The opcodes of SH. -/
def shRows : List OpRow :=
  [
    (255, 0, fun _ => startShl),
    (255, 1, fun _ => startShrN),
    (255, 2, fun _ => startShrS),
    (255, 3, fun _ => startRotl),
    (255, 4, fun _ => startRotr),
    (255, 5, fun _ => startBfxN),
    (255, 6, fun _ => startBfxS),
    (255, 7, fun _ => startBfi),
    (255, 8, fun _ => startClz),
    (255, 9, fun _ => startCtz),
    (255, 10, fun _ => startPopc),
    (255, 11, fun _ => startBrev),
    (255, 12, fun _ => startBswap),
    (255, 13, fun _ => startFshl),
    (255, 14, fun _ => startFshr),
    (255, 15, fun _ => startPklo),
    (255, 16, fun _ => startPkhi),
    (255, 17, fun _ => startSext8),
    (255, 18, fun _ => startSext16),
    (255, 19, fun _ => startZext8),
    (255, 20, fun _ => startZext16)]

/-- The opcodes of IM. -/
def imRows : List OpRow :=
  [
    (255, 0, fun _ => startMulLo),
    (255, 1, fun _ => startMulHiS),
    (255, 2, fun _ => startMulHiN),
    (255, 3, fun _ => startMadLo),
    (255, 4, fun _ => startDot4S8),
    (255, 5, fun _ => startDot4N8),
    (255, 6, fun _ => startDot2S16)]

/-- The opcodes of FA. -/
def faRows : List OpRow :=
  [
    (224, 0, fun o => startFadd (BitVec.ofNat 2 (bits o 4 3)) (BitVec.ofNat 2 (bits o 2 1)) (BitVec.ofNat 1 (bits o 0 0))),
    (224, 32, fun o => startFsub (BitVec.ofNat 2 (bits o 4 3)) (BitVec.ofNat 2 (bits o 2 1)) (BitVec.ofNat 1 (bits o 0 0))),
    (224, 64, fun o => startFmul (BitVec.ofNat 2 (bits o 4 3)) (BitVec.ofNat 2 (bits o 2 1)) (BitVec.ofNat 1 (bits o 0 0))),
    (224, 96, fun o => startFma (BitVec.ofNat 2 (bits o 4 3)) (BitVec.ofNat 2 (bits o 2 1)) (BitVec.ofNat 1 (bits o 0 0))),
    (224, 128, fun o => startFnma (BitVec.ofNat 2 (bits o 4 3)) (BitVec.ofNat 2 (bits o 2 1)) (BitVec.ofNat 1 (bits o 0 0))),
    (224, 160, fun o => startFmin (BitVec.ofNat 2 (bits o 4 3)) (BitVec.ofNat 2 (bits o 2 1)) (BitVec.ofNat 1 (bits o 0 0))),
    (224, 192, fun o => startFmax (BitVec.ofNat 2 (bits o 4 3)) (BitVec.ofNat 2 (bits o 2 1)) (BitVec.ofNat 1 (bits o 0 0))),
    (224, 224, fun o => startFdot2 (BitVec.ofNat 2 (bits o 4 3)) (BitVec.ofNat 2 (bits o 2 1)) (BitVec.ofNat 1 (bits o 0 0)))]

/-- The opcodes of FB. -/
def fbRows : List OpRow :=
  [
    (224, 0, fun o => startFadd (BitVec.ofNat 2 (bits o 4 3)) (BitVec.ofNat 2 (bits o 2 1)) (BitVec.ofNat 1 (bits o 0 0))),
    (224, 32, fun o => startFsub (BitVec.ofNat 2 (bits o 4 3)) (BitVec.ofNat 2 (bits o 2 1)) (BitVec.ofNat 1 (bits o 0 0))),
    (224, 64, fun o => startFmul (BitVec.ofNat 2 (bits o 4 3)) (BitVec.ofNat 2 (bits o 2 1)) (BitVec.ofNat 1 (bits o 0 0))),
    (224, 96, fun o => startFma (BitVec.ofNat 2 (bits o 4 3)) (BitVec.ofNat 2 (bits o 2 1)) (BitVec.ofNat 1 (bits o 0 0))),
    (224, 128, fun o => startFnma (BitVec.ofNat 2 (bits o 4 3)) (BitVec.ofNat 2 (bits o 2 1)) (BitVec.ofNat 1 (bits o 0 0))),
    (224, 160, fun o => startFmin (BitVec.ofNat 2 (bits o 4 3)) (BitVec.ofNat 2 (bits o 2 1)) (BitVec.ofNat 1 (bits o 0 0))),
    (224, 192, fun o => startFmax (BitVec.ofNat 2 (bits o 4 3)) (BitVec.ofNat 2 (bits o 2 1)) (BitVec.ofNat 1 (bits o 0 0))),
    (224, 224, fun o => startFdot2 (BitVec.ofNat 2 (bits o 4 3)) (BitVec.ofNat 2 (bits o 2 1)) (BitVec.ofNat 1 (bits o 0 0)))]

/-- The opcodes of CV. -/
def cvRows : List OpRow :=
  [
    (128, 0, fun o => startCvt (BitVec.ofNat 4 (bits o 6 3)) (BitVec.ofNat 2 (bits o 2 1)) (BitVec.ofNat 1 (bits o 0 0))),
    (252, 128, fun o => startFabs (BitVec.ofNat 2 (bits o 1 0))),
    (252, 132, fun o => startFneg (BitVec.ofNat 2 (bits o 1 0))),
    (252, 136, fun o => startFclass (BitVec.ofNat 2 (bits o 1 0))),
    (252, 140, fun o => startFrexp (BitVec.ofNat 2 (bits o 1 0))),
    (240, 144, fun o => startFrint (BitVec.ofNat 2 (bits o 3 2)) (BitVec.ofNat 2 (bits o 1 0))),
    (252, 160, fun o => startLdexp (BitVec.ofNat 2 (bits o 1 0))),
    (224, 192, fun o => startCvtFmTo (BitVec.ofNat 4 (bits o 4 1)) (BitVec.ofNat 1 (bits o 0 0))),
    (225, 224, fun o => startCvtFmFrom (BitVec.ofNat 4 (bits o 4 1)))]

/-- The opcodes of SF. -/
def sfRows : List OpRow :=
  [
    (207, 0, fun o => startSfRcp (BitVec.ofNat 2 (bits o 5 4))),
    (207, 1, fun o => startSfRsqrt (BitVec.ofNat 2 (bits o 5 4))),
    (207, 2, fun o => startSfSqrt (BitVec.ofNat 2 (bits o 5 4))),
    (207, 3, fun o => startSfExp2 (BitVec.ofNat 2 (bits o 5 4))),
    (207, 4, fun o => startSfLog2 (BitVec.ofNat 2 (bits o 5 4))),
    (207, 5, fun o => startSfSin (BitVec.ofNat 2 (bits o 5 4))),
    (207, 6, fun o => startSfCos (BitVec.ofNat 2 (bits o 5 4))),
    (207, 7, fun o => startSfTanh (BitVec.ofNat 2 (bits o 5 4))),
    (207, 8, fun o => startSfDiv (BitVec.ofNat 2 (bits o 5 4)))]

/-- The opcodes of CM. -/
def cmRows : List OpRow :=
  [
    (248, 0, fun o => startCmpEq (BitVec.ofNat 3 (bits o 2 0))),
    (248, 8, fun o => startKset (BitVec.ofNat 3 (bits o 2 0))),
    (248, 16, fun o => startCmpEqFo (BitVec.ofNat 3 (bits o 2 0))),
    (248, 24, fun o => startCmpEqFu (BitVec.ofNat 3 (bits o 2 0))),
    (248, 32, fun o => startCmpNe (BitVec.ofNat 3 (bits o 2 0))),
    (248, 48, fun o => startCmpNeFo (BitVec.ofNat 3 (bits o 2 0))),
    (248, 56, fun o => startCmpNeFu (BitVec.ofNat 3 (bits o 2 0))),
    (224, 64, fun o => startCmpLt (BitVec.ofNat 2 (bits o 4 3)) (BitVec.ofNat 3 (bits o 2 0))),
    (224, 96, fun o => startCmpLe (BitVec.ofNat 2 (bits o 4 3)) (BitVec.ofNat 3 (bits o 2 0))),
    (224, 128, fun o => startCmpGt (BitVec.ofNat 2 (bits o 4 3)) (BitVec.ofNat 3 (bits o 2 0))),
    (224, 160, fun o => startCmpGe (BitVec.ofNat 2 (bits o 4 3)) (BitVec.ofNat 3 (bits o 2 0))),
    (248, 192, fun o => startPlogAnd (BitVec.ofNat 3 (bits o 2 0))),
    (248, 200, fun o => startPlogOr (BitVec.ofNat 3 (bits o 2 0))),
    (248, 208, fun o => startPlogXor (BitVec.ofNat 3 (bits o 2 0))),
    (248, 216, fun o => startPlogAndn (BitVec.ofNat 3 (bits o 2 0))),
    (248, 224, fun o => startPlogOrn (BitVec.ofNat 3 (bits o 2 0))),
    (248, 232, fun o => startPlogNand (BitVec.ofNat 3 (bits o 2 0))),
    (248, 240, fun o => startPlogNor (BitVec.ofNat 3 (bits o 2 0))),
    (248, 248, fun o => startPlogXnor (BitVec.ofNat 3 (bits o 2 0)))]

/-- The opcodes of XL. -/
def xlRows : List OpRow :=
  [
    (255, 0, fun _ => startShflIdx),
    (255, 1, fun _ => startShflUp),
    (255, 2, fun _ => startShflDn),
    (255, 3, fun _ => startShflXor),
    (255, 4, fun _ => startBcast),
    (255, 5, fun _ => startVoteAny),
    (255, 6, fun _ => startVoteAll),
    (255, 7, fun _ => startBallot),
    (255, 8, fun _ => startScanAddI32),
    (255, 9, fun _ => startScanAddF32),
    (255, 10, fun _ => startRedAddI32),
    (255, 11, fun _ => startRedAddF32),
    (255, 12, fun _ => startRedMinS),
    (255, 13, fun _ => startRedMinN),
    (255, 14, fun _ => startRedMinF32),
    (255, 15, fun _ => startRedMaxS),
    (255, 16, fun _ => startRedMaxN),
    (255, 17, fun _ => startRedMaxF32),
    (255, 64, fun _ => startWrLd),
    (255, 65, fun _ => startWrSt),
    (255, 66, fun _ => startWrRotr),
    (255, 67, fun _ => startWrRotc),
    (255, 68, fun _ => startWrBcr),
    (255, 69, fun _ => startWrBcc),
    (255, 70, fun _ => startWrRedr),
    (255, 71, fun _ => startWrRedc),
    (255, 72, fun _ => startWrZero),
    (255, 73, fun _ => startWrPack)]

/-- The opcodes of LA. -/
def laRows : List OpRow :=
  [
    (193, 0, fun _ => startMem),
    (193, 64, fun _ => startMem),
    (193, 128, fun _ => startMem),
    (249, 192, fun _ => startMem)]

/-- The opcodes of LB. -/
def lbRows : List OpRow :=
  [
    (193, 0, fun _ => startMem),
    (193, 64, fun _ => startMem),
    (193, 128, fun _ => startMem),
    (249, 192, fun _ => startMem)]

/-- The opcodes of ST. -/
def stRows : List OpRow :=
  [
    (201, 0, fun _ => startMem),
    (201, 64, fun _ => startMem),
    (255, 128, fun _ => startMem),
    (255, 129, fun _ => startMem),
    (255, 130, fun _ => startMem)]

/-- The opcodes of AT. -/
def atRows : List OpRow :=
  [
    (15, 0, fun _ => startMem),
    (15, 1, fun _ => startMem),
    (15, 2, fun _ => startMem),
    (15, 3, fun _ => startMem),
    (15, 4, fun _ => startMem),
    (15, 5, fun _ => startMem),
    (15, 6, fun _ => startMem),
    (15, 7, fun _ => startMem),
    (15, 8, fun _ => startMem),
    (15, 9, fun _ => startMem),
    (15, 10, fun _ => startMem),
    (15, 11, fun _ => startMem),
    (15, 12, fun _ => startMem)]

/-- The opcodes of BR. -/
def brRows : List OpRow :=
  [
    (255, 0, fun _ => startBr),
    (248, 8, fun o => startBrAny (BitVec.ofNat 3 (bits o 2 0))),
    (248, 16, fun o => startBrAll (BitVec.ofNat 3 (bits o 2 0))),
    (248, 24, fun o => startBrNone (BitVec.ofNat 3 (bits o 2 0))),
    (255, 32, fun _ => startBrSZ),
    (255, 33, fun _ => startBrSNz),
    (255, 34, fun _ => startBrSLt),
    (255, 35, fun _ => startBrSGe),
    (255, 48, fun _ => startCall),
    (255, 49, fun _ => startRet),
    (255, 50, fun _ => startJr),
    (255, 56, fun _ => startExit),
    (255, 57, fun _ => startLexit)]

/-- The opcodes of SY. -/
def syRows : List OpRow :=
  [
    (240, 0, fun o => startBarArr (BitVec.ofNat 4 (bits o 3 0))),
    (240, 16, fun o => startBarWait (BitVec.ofNat 4 (bits o 3 0))),
    (240, 32, fun o => startBarSync (BitVec.ofNat 4 (bits o 3 0))),
    (255, 48, fun _ => startFence),
    (240, 64, fun o => startFset (BitVec.ofNat 4 (bits o 3 0))),
    (240, 80, fun o => startFclr (BitVec.ofNat 4 (bits o 3 0))),
    (255, 96, fun _ => startYield),
    (240, 112, fun o => startYieldcOn (BitVec.ofNat 4 (bits o 3 0))),
    (248, 128, fun o => startRacq (BitVec.ofNat 3 (bits o 2 0))),
    (248, 136, fun o => startRcom (BitVec.ofNat 3 (bits o 2 0))),
    (248, 144, fun o => startRwait (BitVec.ofNat 3 (bits o 2 0))),
    (248, 152, fun o => startRrel (BitVec.ofNat 3 (bits o 2 0))),
    (255, 160, fun _ => startRgrow),
    (255, 161, fun _ => startRshrink),
    (255, 176, fun _ => startClaim),
    (255, 177, fun _ => startUnclaim),
    (255, 192, fun _ => startRgn)]

/-- The opcodes of MX. -/
def mxRows : List OpRow :=
  [
    (254, 0, fun _ => startBload),
    (254, 16, fun _ => startMma),
    (254, 18, fun _ => startMma),
    (255, 32, fun _ => startZero),
    (255, 48, fun _ => startTile),
    (255, 64, fun _ => startTile),
    (255, 80, fun _ => startFmt),
    (255, 96, fun _ => startStat)]

/-- The opcodes of CP. -/
def cpRows : List OpRow :=
  [
    (255, 0, fun _ => startCopy),
    (255, 1, fun _ => startCopy),
    (255, 2, fun _ => startCopy),
    (255, 3, fun _ => startCopy),
    (255, 4, fun _ => startCopy),
    (255, 5, fun _ => startCopy),
    (255, 6, fun _ => startCopy),
    (255, 7, fun _ => startCopy),
    (255, 8, fun _ => startCopy)]

/-- The opcodes of NX. -/
def nxRows : List OpRow :=
  [
    (255, 0, fun _ => startNx),
    (255, 1, fun _ => startNx),
    (255, 2, fun _ => startNx),
    (255, 3, fun _ => startNx),
    (255, 16, fun _ => startBind),
    (255, 32, fun _ => startCstate),
    (255, 48, fun _ => startLkrate),
    (255, 49, fun _ => startLkwatch),
    (255, 50, fun _ => startLkstat)]

/-- The opcodes of UA. -/
def uaRows : List OpRow :=
  [
    (255, 0, fun _ => startUaAdd),
    (255, 1, fun _ => startUaSub),
    (255, 2, fun _ => startUaAnd),
    (255, 3, fun _ => startUaOr),
    (255, 4, fun _ => startUaXor),
    (255, 5, fun _ => startUaShl),
    (255, 6, fun _ => startUaShrN),
    (255, 7, fun _ => startUaShrS),
    (255, 8, fun _ => startUaMul),
    (255, 9, fun _ => startUaMinS),
    (255, 10, fun _ => startUaMinN),
    (255, 11, fun _ => startUaMaxS),
    (255, 12, fun _ => startUaMaxN),
    (255, 13, fun _ => startUaSel),
    (255, 16, fun _ => startUaCmpEq),
    (255, 17, fun _ => startUaCmpNe),
    (255, 18, fun _ => startUaCmpLtS),
    (255, 19, fun _ => startUaCmpLtN),
    (255, 20, fun _ => startUaCmpLeS),
    (255, 21, fun _ => startUaCmpLeN),
    (255, 22, fun _ => startUaCmpGtS),
    (255, 23, fun _ => startUaCmpGtN)]

/-- The opcode table of a unit; SV's stands in Machine/Bundle.lean. -/
def unitRows (u : Nat) : List OpRow :=
  match u with
  | 1 => iaRows
  | 2 => ibRows
  | 3 => shRows
  | 4 => imRows
  | 5 => faRows
  | 6 => fbRows
  | 7 => cvRows
  | 8 => sfRows
  | 9 => cmRows
  | 10 => xlRows
  | 11 => laRows
  | 12 => lbRows
  | 13 => stRows
  | 14 => atRows
  | 15 => brRows
  | 16 => syRows
  | 17 => mxRows
  | 18 => cpRows
  | 19 => nxRows
  | 21 => uaRows
  | _ => []

/-- What an opcode of a table starts. -/
def rowStart (rows : List OpRow) (o : Nat) : Option Start :=
  (rows.find? (fun r => o &&& r.1 == r.2.1)).map (fun r => r.2.2 o)

/-- The range-lock entries that an engine trigger needs (R305); none when its queue is full (R315). -/
def needOf (s : State) (id : CtxId) (t : Trig) : Option Nat :=
  if t.unit = U.mx then needMx s id t
  else if t.unit = U.cp then needCopy s id t
  else if t.unit = U.nx ∧ t.opcode.toNat ≤ 3 then needNx s id t
  else some 0

end Sys2Proof.Machine
end

