-- ==== Sys2Proof/Machine/Supervise.lean ====
section
/-! DEFINITION. SV (R370 to R376, R388): register operations, traps, eret, replay, snapshots and ctx; the events that take
traps, and those by which the control node and the shadow contexts write registers. -/

namespace Sys2Proof.Machine

/-! ## Answers -/

/-- SV.R fills with a free value: the spec states none for the operation. -/
def State.answerFree (s : State) (id : CtxId) (t : Trig) : State :=
  let s1 := s.answer id t (Config.freeValue s.free)
  { s1 with free := s.free + 1 }

/-- An operation in flight completes with a free value. -/
def State.completeFree (s : State) (id : CtxId) (o : VarOp) : State :=
  let s1 := s.modCtx id (fun c => c.complete o (Config.freeValue s.free))
  { s1 with free := s.free + 1 }

/-- An execution-time fault with its address (R350, R368). -/
def State.raiseAt (s : State) (id : CtxId) (t : Trig) (code : BitVec 7) (addr : W64) : State :=
  s.modCtx id (fun c => c.addDue { DueTrap.of code t.pc t.cycle with addr := some addr })

/-- The VarOp of an SV trigger. -/
def Trig.svOp (t : Trig) (c : Ctx) (addr : W64) : VarOp :=
  { t.op (c.us.unit t.unit).a (c.us.unit t.unit).held none 0 with addr := addr }

/-- The T and A values of an SV operation in flight. -/
def VarOp.tv (o : VarOp) (n : Nat) : W64 := o.t.at (Lanes.low o.mask n)
def VarOp.av (o : VarOp) : W64 := o.a.at 0

/-- An SV trigger ends in a token recording C_CSRACCESS (R375, R376, R388). -/
def State.svToken (s : State) (id : CtxId) (t : Trig) : State :=
  s.modCtx id (fun c => c.completeToken (t.svOp c 0) 0x0D (c.tVal t))

/-! ## Register operations (R371, R372) -/

/-- The operation that an SV opcode names. -/
def CsrOp.ofOpcode (o : BitVec 8) : CsrOp :=
  match o.toNat with
  | 0 => .read
  | 1 => .write
  | 2 => .set
  | _ => .clear

/-- Whether a register holds the state floor of an island. -/
def Reg.isFloor (r : Reg) : Bool := r.num == 0x220 || r.num == 0x224

/-- Whether an operation completes later than its trigger: an unmap or bind, an invalidation, a resize, a floor, or a
register of another die (R372, R443). -/
def Reg.slow (r : Reg) (die : Nat) (op : CsrOp) : Bool :=
  (r.desc.holder == .die && r.die != die) ||
    (op != .read && (r.num == 0x031 || r.num == 0x207 || r.num == 0x20A || r.isFloor))

/-- Whether the island that a floor register names is on its way to Off: its floor is 7 and it has power (R443). -/
def State.goesOff (s : State) (r : Reg) : Bool :=
  if r.num = 0x220 then Tbl.get (s.die r.die).islFloor r.idx 0 == 7 && s.islandOf r.die r.idx != 7
  else r.num == 0x224 && Tbl.get s.pkg.islIo r.idx 0 == 7 && Tbl.get s.pkg.islIoState r.idx 0 != 7

/-- The register that a pending operation names, the two of a map as one. -/
def csrFamily (sel : W64) : Nat := if bits sel.toNat 11 0 = 0x030 then 0x031 else bits sel.toNat 11 0

/-- The register operations in flight of a context. -/
def Ctx.csrOps (c : Ctx) : List VarOp := c.ops.filter (fun o => o.unit == U.sv && decide (o.opcode.toNat ≤ 3))

/-- Whether an operation on a register stands behind one in flight (R372: a later trigger sees the new value). -/
def Ctx.csrBehind (c : Ctx) (sel : W64) : Bool := c.csrOps.any (fun o => csrFamily (o.tv c.nlanes) == csrFamily sel)

/-- Whether a context has accesses queued by a bundle up to that of operation `older`. -/
def State.olderAccess (s : State) (id : CtxId) (older : Nat) : Bool :=
  match s.ctx id with
  | some c => c.memq.any (fun m => m.replay.isNone && decide (m.uid / 8 ≤ older / 8))
  | none => false

/-- A write to SMAP_Sn by an operation that issued when the lock table stood at `seq`: none while it waits for the team's older
accesses, for held pages, or for the intervals of engine operations before it, else the state after it and the fault (R214,
R215, R250, R306, R337). -/
def State.smapStep (s : State) (id : CtxId) (older seq : Nat) (r : Reg) (op : CsrOp) (a : W64) :
    Option (State × Option (BitVec 7 × W64)) :=
  match r.team.bind (fun tid => (s.ctx tid).bind (fun x => (s.gang x.gang).map (fun g => (tid, x.gang, g)))) with
  | none => some (s, none)
  | some (tid, gid, g) =>
    let half := g.half tid.fold
    let raw := op.raw (s.readReg r) a
    let x := s.smapWrite gid g half r.idx seq raw
    match x.2 with
    | some e => if e.1 != 0x28 && (s.fold tid.fold).unread seq then none else some x
    | none => if s.olderAccess id older || s.smapWaits gid g half r.idx seq raw then none else some x

/-- csrr, csrw, csrs and csrc (R371, R372). -/
def startCsr (op : CsrOp) : Start := fun s id t =>
  match s.ctx id with
  | none => s
  | some c =>
    let sel := c.tVal t
    let a := c.aVal t
    let w := Who.of id c
    match (s.reach w sel).filter (fun r => s.allowed w r op) with
    | none => (s.raiseAt id t 0x0D sel).answerFree id t
    | some r =>
      let later := s.addOp id (t.svOp c 0)
      if c.csrBehind sel then later
      else if op ≠ .read ∧ r.num = 0x031 then
        match s.smapStep id t.uid (s.fold id.fold).lockSeq r op a with
        | some (s1, some e) =>
          (s1.modCtx id (fun c => c.addDue { DueTrap.of e.1 t.pc t.cycle with
            addr := some e.2, lanes := if e.1 = 0x28 ∨ e.1 = 0x2A then some t.mask else none })).answerFree id t
        | _ => later
      else if r.slow (dieOf id.fold) op then later
      else if op ≠ .read ∧ r.num = 0x01B ∧ r.team = some id ∧ c.inh = true ∧
          (op.apply c.tstatus a (rwMask 0x01B 0) 0).getLsbD 8 = false then
        { later with agenda := Instr.handlerReturn id :: later.agenda }
      else
        let x := s.csrDo r op a 0 0
        x.1.answer id t x.2

def startCsrr : Start := startCsr .read
def startCsrw : Start := startCsr .write
def startCsrs : Start := startCsr .set
def startCsrc : Start := startCsr .clear

/-- A register operation in flight acts: none while it must wait (R372): an invalidation waits for the context's older
accesses, so that the entries they write are seen by every later walk (R249, R252). An invalidation and a resize go on until their
own events complete them, a floor of 7 until its island is Off (R443). -/
def State.csrTry (s : State) (id : CtxId) (c : Ctx) (o : VarOp) : Option State :=
  let sel := o.tv c.nlanes
  let op := CsrOp.ofOpcode o.opcode
  let first := match c.csrOps.find? (fun x => csrFamily (x.tv c.nlanes) == csrFamily sel) with
    | some x => x.uid == o.uid
    | none => false
  if !first then none
  else match (s.reach (Who.of id c) sel).filter (fun r => s.allowed (Who.of id c) r op) with
    | none => if o.vals.isSome then none else some (s.completeFree id o)
    | some r =>
      if o.vals.isSome then
        if r.isFloor && !s.goesOff r then some (s.modCtx id (fun c => c.complete o ((o.vals.getD []).at 0))) else none
      else
      let going (v : W64) (s : State) : State := s.modCtx id (fun c =>
        { c with ops := c.ops.map (fun x => if x.uid = o.uid then { x with vals := some [v] } else x) })
      if op ≠ .read ∧ r.num = 0x031 then
        match s.smapStep id o.uid o.locks r op o.av with
        | none => none
        | some (s1, none) => some (s1.modCtx id (fun c => c.complete o (s.readReg r)))
        | some (s1, some e) =>
          some ((s1.modCtx id (fun c => c.addDue { DueTrap.of e.1 o.bundle o.cycle with
            addr := some e.2, lanes := if e.1 = 0x28 ∨ e.1 = 0x2A then some o.mask else none })).completeFree id o)
      else if op ≠ .read ∧ r.num = 0x207 ∧ s.olderAccess id o.uid = true then none
      else if op ≠ .read ∧ r.num = 0x01B ∧ r.team = some id ∧ c.inh = true then none
      else
        let x := s.csrDo r op o.av (CtxId.key id) o.uid
        if op ≠ .read ∧ (r.num = 0x207 ∨ r.num = 0x20A ∨ (r.isFloor = true ∧ op.raw (s.readReg r) o.av &&& 7 = 7 ∧
            x.1.goesOff r = true)) then some (going x.2 x.1)
        else some (x.1.modCtx id (fun c => c.complete o x.2))

/-! ## Traps (R373) -/

/-- trap: C_SOFTA to C_SOFTD, or C_SWTRAP with its code. -/
def startTrap : Start := fun s id t =>
  match s.ctx id with
  | none => s
  | some c =>
    let v := (c.tVal t).truncate 7
    let soft := decide (0x1C ≤ v.toNat ∧ v.toNat ≤ 0x1F)
    let d : DueTrap := { DueTrap.of (if soft then v else 0) t.pc t.cycle with
      sub := if soft then 0 else v, addr := some (c.aVal t) }
    (s.modCtx id (fun c => c.addDue d)).answerFree id t

/-- brk: C_BREAK, or C_CONFIDENTIAL for a team of a confidential flock (R398). -/
def startBrk : Start := fun s id t =>
  match s.ctx id with
  | none => s
  | some c => (s.raise id t (if c.conf then 0x58 else 0x0A)).answerFree id t

/-! ## Replay (R363, R374) -/

/-- What asking for a replay gives: nothing to replay, a wait for room or for a copy in flight, or a replay begun as an
operation. -/
inductive ReplayStart where
  | nothing
  | wait
  | begun (s : State) (uid : Nat)

/-- The unit state that a replay acts on. -/
def Ctx.replayUs (c : Ctx) (inFrame : Bool) : UnitState := if inFrame then c.frame.getD UnitState.fresh else c.us

/-- Trigger the recorded operation of SY or an engine again, whole, as a new operation (R363). The ports of the program
keep what they hold. -/
def State.replayEngine (s : State) (id : CtxId) (c : Ctx) (u : Nat) (r : FaultRec) (inFrame : Bool) : ReplayStart :=
  match rowStart (unitRows u) r.opcode.toNat with
  | none => .nothing
  | some start =>
    let home := c.replayUs inFrame
    let p := home.unit u
    let uid := c.nextUid
    let t : Trig := { unit := u, opcode := r.opcode, slot := 0, mask := r.mask, uid := uid, cleared := [], scope := r.scope,
                      pc := r.bundle, next := c.pc, cycle := r.cycle, preds := c.k }
    let q : UPorts := { p with a := r.a, b := r.b, c := r.c, held := r.t, full := false, last := uid, frec := none }
    let c1 : Ctx := { c with nextUid := uid + 8, us := home.setUnit u q, frame := if inFrame then none else c.frame }
    let s1 := s.setCtx id c1
    match needOf s1 id t with
    | none => .wait
    | some n =>
      if 64 < (s.fold id.fold).locks.length + n then .wait
      else .begun ((start s1 id t).modCtx id (fun x =>
        let y := x.us.unit u
        let us1 := x.us.setUnit u { y with a := p.a, b := p.b, c := p.c, held := p.held }
        if inFrame then { x with us := c.us, frame := some us1 } else { x with us := us1 })) uid

/-- Whether a copy of a context is in flight. -/
def State.copyOut (s : State) (id : CtxId) (c : Ctx) : Bool :=
  (s.fold id.fold).eng.any (fun e => e.unit == U.cp && e.slot == id.slot && e.tid == c.tid)

/-- Begin the replay of the record that a code names (R374). A replay of CP waits for a copy in flight (R384). -/
def State.replayBegin (s : State) (id : CtxId) (code : Nat) (inFrame : Bool) : ReplayStart :=
  match s.ctx id with
  | none => .nothing
  | some c =>
    let p := (c.replayUs inFrame).unit code
    if code = 0x1F then (if c.sfb.isEmpty then .nothing else .begun (s.replaySfb id) 0)
    else if code = U.cp ∧ s.copyOut id c = true then .wait
    else match p.frec.filter (fun r => r.lanes != 0 && p.full) with
      | none => .nothing
      | some r =>
        if code = U.la ∨ code = U.lb ∨ code = U.at_ then .begun (s.replayPort id code p.last r inFrame) p.last
        else if U.sy ≤ code ∧ code ≤ U.nx then s.replayEngine id c code r inFrame
        else .nothing

/-- The lanes or entries that still fault once a replay is done; none before (R374). -/
def State.replayDone (s : State) (id : CtxId) (c : Ctx) (code uid : Nat) (inFrame : Bool) : Option W64 :=
  let us := c.replayUs (inFrame && c.frame.isSome)
  let left := BitVec.ofNat 64 (((us.unit code).frec.map (fun r => Lanes.count r.lanes c.nlanes)).getD 0)
  if code = 0x1F then
    if c.memq.any (fun m => m.replay.isSome && (m.unit == U.st || m.isRed)) then none
    else some (BitVec.ofNat 64 c.sfb.length)
  else if code = U.la ∨ code = U.lb ∨ code = U.at_ then
    if c.memq.any (fun m => m.replay.isSome && m.unit == code && !m.isRed) then none else some left
  else if c.ops.any (fun o => o.uid == uid) ||
      (s.fold id.fold).eng.any (fun e => e.slot == id.slot && e.tid == c.tid && e.opUid == uid) then none
  else some (if (us.unit code).last = uid then left else 0)

/-- replay: the operation waits for its replay. -/
def startReplay : Start := fun s id t =>
  match s.ctx id with
  | none => s
  | some c => s.addOp id (t.svOp c 0)

/-- A replay in flight goes on: what `code` names in context `target`, for operation `o` of context `id`. The answer is
none while nothing changes, the state with the replay begun, or the count to answer with. -/
def State.replayStep (s : State) (id target : CtxId) (x : Ctx) (o : VarOp) (code : Nat) (inFrame : Bool) :
    Option (Except W64 State) :=
  match o.vals with
  | none => match s.replayBegin target code inFrame with
    | .nothing => some (.error (BitVec.allOnes 64))
    | .wait => none
    | .begun s1 uid =>
      some (.ok (s1.modCtx id (fun c => { c with ops := c.ops.map (fun y =>
        if y.uid = o.uid then { y with vals := some [BitVec.ofNat 64 uid, b2w inFrame] } else y) })))
  | some v => (s.replayDone target x code (v.at 0).toNat ((v.at 1).getLsbD 0)).map .error

/-- A replay of the team's own records. -/
def State.replayTry (s : State) (id : CtxId) (c : Ctx) (o : VarOp) : Option State :=
  match s.replayStep id id c o (bits (o.tv c.nlanes).toNat 4 0) c.inh with
  | none => none
  | some (.ok s1) => some s1
  | some (.error v) => some (s.modCtx id (fun c => c.complete o v))

/-! ## eret (R375) -/

/-- A Frozen team takes its current cause through route U, with ORIGIN 3 (R375). A handler that is running, or the lack of
one, redirects it (R357). -/
def State.reflect (s : State) (id : CtxId) (c : Ctx) : State :=
  let ts := c.tstatus.toNat
  let code : BitVec 7 := c.cause.truncate 7
  let d : DueTrap :=
    { code := code, sub := BitVec.ofNat 7 (bits ts 29 23), srcUnit := BitVec.ofNat 5 (bits ts 22 18), pc := some c.trapPc,
      bundle := none, lanes := none, addr := none, emu := none, own := true, held := false, toShadow := false }
  if c.inh then s.deliver id c d .shadow 0x0F (d.original code)
  else if c.tvec &&& ~~~1 = 0 then s.deliver id c d .shadow 0x1A (d.original code)
  else s.setCtx id { c.enterUser d 3 with wait := c.wait.woken, brkSkip := true }

/-- A Frozen team leaves Frozen (R375), or takes C_CTXFMT when its image does not fit (R381): an image that stands in
no memory gives FAULT_ADDR a free value. -/
def State.unfreeze (s : State) (id : CtxId) (reflect : Bool) : State :=
  match s.ctx id with
  | none => s
  | some c =>
    let bad := match s.gang c.gang with
      | some g => c.misfit g
      | none => false
    if bad then { s with free := s.free + 1 }.takeTrap id
      { DueTrap.async 0x0E with pc := some c.trapPc, addr := some (Config.freeValue s.free) }
    else if reflect then s.reflect id c
    else (s.setCtx id c.resume).rejoin id

/-- A team that C_CONFIDENTIAL has frozen stays Frozen until the control node resumes it or ends it (R398). -/
def Ctx.shielded (c : Ctx) : Bool := c.frozen && c.sealed

/-- eret (R375). Fetched lines of the team that executes it are dropped (R47). On a team that C_CONFIDENTIAL has frozen it
ends as ctx READ does (R398; DESIGN CHOICE, log entry 61). -/
def startEret : Start := fun s id t =>
  match s.ctx id with
  | none => s
  | some c =>
    let v := (c.tVal t).toNat
    let target : CtxId := { fold := id.fold, slot := bits v 4 0 }
    let s0 := s.setCtx id { c with lines := [] }
    if bits v 63 10 ≠ 0 ∨ bits v 7 5 ≠ 0 then s0.svToken id t
    else match (s.ctx target).filter (fun x => x.frozen) with
      | none => (s0.raise id t 0x1B).answerFree id t
      | some x =>
        if x.shielded then s0.svToken id t
        else if bit v 9 then s0.addOp id (t.svOp c (BitVec.ofNat 64 x.tid))
        else (s0.unfreeze target (bit v 8)).answer id t 0

/-- An eret that replays first. -/
def State.eretTry (s : State) (id : CtxId) (c : Ctx) (o : VarOp) : Option State :=
  let v := (o.tv c.nlanes).toNat
  let target : CtxId := { fold := id.fold, slot := bits v 4 0 }
  match (s.ctx target).filter (fun x => x.tid == o.addr.toNat) with
  | none => some (s.completeFree id o)
  | some x => match s.replayStep id target x o (bits x.tstatus.toNat 22 18) false with
    | none => none
    | some (.ok s1) => some s1
    | some (.error n) =>
      let s1 := if x.frozen then s.unfreeze target (bit v 8) else s
      some (s1.modCtx id (fun c => c.complete o n))

/-! ## Snapshots (R388) -/

/-- The folds of a scope instance that have cycles (R254, R442). -/
def State.snapFolds (s : State) (scope fold : Nat) : List Nat :=
  (s.foldList.filter (fun f =>
    match scope with
    | 0 => f == fold
    | 1 => f / 2 == fold / 2
    | 2 => dieOf f == dieOf fold
    | _ => true)).filter (fun f => Tbl.get (s.die (dieOf f)).islands (f % 96) 0 != 7)

/-- snap (R388). -/
def startSnap : Start := fun s id t =>
  match s.ctx id with
  | none => s
  | some c =>
    let v := (c.tVal t).toNat
    if 3 < v then s.svToken id t
    else
      let ask (s : State) (f : Nat) : State :=
        s.modFold f (fun x => { x with snapReq := x.snapReq ++ [(c.aVal t, s.ticks, id.fold, id.slot)] })
      ((s.snapFolds v id.fold).foldl ask s).addOp id (t.svOp c (BitVec.ofNat 64 s.ticks))

/-- A snapshot that every fold of its instance has latched. -/
def State.snapTry (s : State) (id : CtxId) (o : VarOp) : Option State :=
  if s.folds.any (fun kv => kv.2.snapReq.any (fun r =>
      r.2.1 == o.addr.toNat && r.2.2.1 == id.fold && r.2.2.2 == id.slot)) then none
  else some (s.modCtx id (fun c => c.complete o (match o.vals with
    | some v => v.at 0
    | none => BitVec.ofNat 64 (s.fold id.fold).snapSeq)))

/-- The five totals of a fold's engine (R388). -/
def Fold.mxcTotals (f : Fold) : Tbl Nat :=
  (List.range 5).map (fun k =>
    (k, (f.mxc.foldl (fun a e => a + e.counts.getD k 0) (Tbl.get f.mxcOvf k 0)) % 2 ^ 48))

/-- R388. A fold latches its counters for the oldest request whose tick has come; triggers that meet at one tick count
once, with the tag of the lowest issuer. -/
def execSnapshotLatch (fold : Nat) (s : State) : Out3 :=
  let f := s.fold fold
  match f.snapReq with
  | [] => .next s
  | r :: rest =>
    let b := rest.foldl (fun (a : Nat) x => min a x.2.1) r.2.1
    let same := f.snapReq.filter (fun x => x.2.1 == b)
    if s.ticks < b + 16 then .next s
    else match same with
      | [] => .next s
      | q :: qs =>
        let best := qs.foldl (fun (a : W64 × Nat × Nat × Nat) x =>
          if 64 * x.2.2.1 + x.2.2.2 < 64 * a.2.2.1 + a.2.2.2 then x else a) q
        let f1 : Fold := { f with
          snapSeq := (f.snapSeq + 1) % 2 ^ 48, snapTag := best.1, snapTb := (b + 16) % 2 ^ 48, snapStall := f.stallFold,
          snapMxc := f.mxcTotals, snapReq := f.snapReq.filter (fun x => x.2.1 != b) }
        let seen (s : State) (x : W64 × Nat × Nat × Nat) : State :=
          if x.2.2.1 ≠ fold then s
          else s.modCtx { fold := fold, slot := x.2.2.2 } (fun c => { c with ops := c.ops.map (fun o =>
            if o.unit = U.sv ∧ o.opcode = 0x20 ∧ o.addr.toNat = b then
              { o with vals := some [BitVec.ofNat 64 f1.snapSeq] } else o) })
        let s1 := (same.foldl seen (s.setFold fold f1)).emitRecord fold 2 0x1F 0 true best.1 f1.snapSeq 0 false 0
        .next (if f1.stopCtl.getLsbD 3 then s1.requestStop fold f1.stopCtl else s1)

/-! ## ctx (R376) -/

/-- A resident team of a slot. -/
def State.teamIn (s : State) (fold slot : Nat) : Option (CtxId × Ctx) :=
  (s.ctx { fold := fold, slot := slot }).map (fun c => ({ fold := fold, slot := slot }, c))

/-- The image that a Frozen team would save now (R376), with the state after the walks of its liveness table. -/
def State.imageNow (s : State) (c : Ctx) : List Part × State :=
  match s.gang c.gang with
  | none => ([], s)
  | some g =>
    let (live, s1) := s.liveAt g.die g.asid g.liveBase c.resumePc
    (c.image live, s1)

/-- READ and WRITE: the word, and for WRITE the team with the word replaced. An item past the image gives a free value. -/
def ctxWord (write : Bool) (target : CtxId) (x : Ctx) (item : Nat) : Start := fun s id t =>
  match s.ctx id with
  | none => s
  | some c =>
    let (ps, s0) := s.imageNow x
    let bs := imageBytes ps
    if bs.length < 8 * item + 8 then s0.answerFree id t
    else
      let s1 := if write then s0.setCtx target (patchImage x (word8 (c.aVal t)) (8 * item) ps) else s0
      s1.answer id t (getWord bs (8 * item))

/-- ctx: its OP stands in bits 31:28 of t (R376). -/
def startCtx : Start := fun s id t =>
  match s.ctx id with
  | none => s
  | some c =>
    let v := (c.tVal t).toNat
    let op := bits v 31 28
    let team := s.teamIn id.fold (bits v 27 23)
    match op with
    | 0 => s.addOp id (t.svOp c 0)
    | 5 => (s.modDie (dieOf id.fold) (fun d => { d with restores := d.restores ++ [c.aVal t] })).answer id t 0
    | _ => match team with
      | none => s.svToken id t
      | some (target, x) => match op with
        | 1 => if x.frozen && !x.conf then ctxWord false target x (bits v 22 0) s id t else s.svToken id t
        | 2 => if x.frozen && !x.conf then ctxWord true target x (bits v 22 0) s id t else s.svToken id t
        | 3 => (s.setCtx target x.askFreeze).addOp id (t.svOp c (BitVec.ofNat 64 x.tid))
        | 4 => (s.addOp id (t.svOp c (BitVec.ofNat 64 x.tid))).startSave x.gang
        | 6 =>
          if s.ctxs.any (fun kv => kv.2.flock == x.flock && !kv.2.shadow && kv.2.shielded) then s.svToken id t
          else (s.endFlock x.flock).answer id t 0
        | _ => s.svToken id t

/-- A ctx operation in flight: NEXTEV takes an event, FREEZE looks at its team. A SAVE is completed by its own event. -/
def State.ctxTry (s : State) (id : CtxId) (c : Ctx) (o : VarOp) : Option State :=
  let v := (o.tv c.nlanes).toNat
  match bits v 31 28 with
  | 0 => match (s.fold id.fold).events with
    | [] => none
    | e :: r => some ((s.modFold id.fold (fun f => { f with events := r })).modCtx id (fun c => c.complete o e))
  | 3 => match (s.teamIn id.fold (bits v 27 23)).filter (fun x => x.2.tid == o.addr.toNat) with
    | none => some (s.modCtx id (fun c => c.completeToken o 0x0D (o.tv c.nlanes)))
    | some x => if x.2.frozen then some (s.modCtx id (fun c => c.complete o 0)) else none
  | 4 => match (s.teamIn id.fold (bits v 27 23)).filter (fun x => x.2.tid == o.addr.toNat) with
    | none => some (s.modCtx id (fun c => c.completeToken o 0x0D (o.tv c.nlanes)))
    | some _ => none
  | _ => none

/-! ## SV operations in flight -/

/-- An SV operation in flight goes on, or none. -/
def State.svTry (s : State) (id : CtxId) (c : Ctx) (o : VarOp) : Option State :=
  if o.unit ≠ U.sv then none
  else match o.opcode.toNat with
    | 0x11 => s.eretTry id c o
    | 0x12 => s.replayTry id c o
    | 0x20 => s.snapTry id o
    | 0x30 => s.ctxTry id c o
    | n => if n ≤ 3 then s.csrTry id c o else none

/-- The first SV operation of a context that can go on. -/
def State.svNext (s : State) (id : CtxId) : Option State :=
  match s.ctx id with
  | none => none
  | some c => c.ops.findSome? (fun o => s.svTry id c o)

/-- R372, R374 to R376, R388. An SV operation whose action takes time goes on and, when it is done, fills SV.R. -/
def execSvOpComplete (c : CtxId) (s : State) : Out3 := .next ((s.svNext c).getD s)

/-- R356. A write that clears TSTATUS.INH completes: the handler's unit state is discarded, the frame restored, and the
team continues at TRAP_PC. -/
def execHandlerReturn (c : CtxId) (s : State) : Out3 :=
  match s.ctx c with
  | none => .next s
  | some x =>
    match x.csrOps.find? (fun o => bits (o.tv x.nlanes).toNat 11 0 == 0x01B && o.opcode != 0) with
    | none => .next s
    | some o =>
      let new := (CsrOp.ofOpcode o.opcode).apply x.tstatus o.av (rwMask 0x01B 0) 0
      .next (s.setCtx c ((x.complete o x.tstatus).writeReg 0x01B 0 new))

/-! ## Events that take traps (R355, R358, R359, R377) -/

/-- The due trap of a context is taken when its route is the one given. -/
def State.settleRoute (s : State) (id : CtxId) (r : Route) : State :=
  match s.ctx id with
  | none => s
  | some c =>
    if c.frozen || c.stopped || (s.dueNow id c).isNone then s
    else match (s.atBoundary id (s.withBreak id c)).nextDue with
      | none => s
      | some d => if d.code ≠ 0x3B ∧ (c.redirect d).1 = r then s.settle id else s

/-- R355. A due trap on route U is taken. -/
def execTrapRouteU (c : CtxId) (s : State) : Out3 := .next (s.settleRoute c .user)
/-- R358. A due trap on route S is taken. -/
def execTrapRouteS (c : CtxId) (s : State) : Out3 := .next (s.settleRoute c .shadow)
/-- R359. A due trap on route H is taken. -/
def execTrapRouteH (c : CtxId) (s : State) : Out3 := .next (s.settleRoute c .host)

/-- R377. A team whose pre-emption was requested enters Frozen at its pre-emption point. -/
def execTeamFreeze (c : CtxId) (s : State) : Out3 :=
  match s.ctx c with
  | none => .next s
  | some x =>
    if x.frozen || x.stopped || (s.dueNow c x).isNone then .next s
    else match (s.atBoundary c (s.withBreak c x)).nextDue with
      | none => .next s
      | some d => .next (if d.code = 0x3B then s.settle c else s)

/-- R377. A pre-emption of a team is requested; the shadow context is never pre-empted (R369). -/
def execPreemptRequest (c : CtxId) (s : State) : Out3 :=
  .next (s.modCtx c (fun x => if x.shadow then x else x.askFreeze))

/-- R368. The watchdog of a context runs out. -/
def execWatchdogExpiry (c : CtxId) (s : State) : Out3 :=
  .next (s.modCtx c (fun x => if x.frozen || x.stopped then x else x.addDue (DueTrap.async 0x5A)))

/-- R46. The fold fetches a code line at most four lines ahead of a context's PC; a line that cannot be read stays
unfilled. -/
def execFetchLineFill (c : CtxId) (line : Nat) (s : State) : Out3 :=
  match s.ctx c with
  | none => .next s
  | some x =>
    let l := x.pc.toNat / 64
    if line < l ∨ l + 4 < line then .next s
    else match s.fetchBytes (dieOf c.fold) x.asid (!x.shadow) (64 * line) 64 with
      | .error _ => .next s
      | .ok bs =>
        .next ((s.walkCode (dieOf c.fold) x.asid (!x.shadow) (64 * line) 64).setCtx c { x with lines := Tbl.put x.lines line bs })

/-! ## Register writes as events -/

/-- The control node as an accessor for a fold (R371). -/
def Who.node (fold : Nat) : Who := { fold := fold, self := none, priv := true, control := true }

/-- The shadow context of a fold as an accessor. -/
def Who.shadowOf (fold : Nat) : Who :=
  { fold := fold, self := some { fold := fold, slot := CtxId.shadowSlot }, priv := true, control := false }

/-- What a register operation from outside a team comes to (R371): it is refused, it waits as a write to SMAP_Sn does, or it
is done with the register's old value. -/
inductive Access where
  | refused (s : State)
  | waits
  | done (s : State) (old : W64)

/-- A register operation by an accessor over the management path (R371). FOLD_ID counts for fold, team and gang registers
only. A write to SMAP_Sn that faults is refused, with what the fault leaves. -/
def State.access (s : State) (w : Who) (sel : W64) (op : CsrOp) (v : W64) : Access :=
  match (s.reach w sel).filter (fun r => s.allowed w r op) with
  | none => .refused s
  | some r =>
    if 384 ≤ w.fold ∧ r.desc.holder ≠ .die ∧ r.desc.holder ≠ .pkg then .refused s
    else if op ≠ .read ∧ r.num = 0x031 then
      match s.smapStep { fold := w.fold, slot := 63 } 0 (s.fold w.fold).lockSeq r op v with
      | none => .waits
      | some (s1, none) => .done s1 (s.readReg r)
      | some (s1, some _) => .refused s1
    else
      let x := s.csrDo r op v 0 0
      .done x.1 x.2

/-- An accessor over the management path. -/
def Who.by (by_ : Agent) (fold : Nat) : Who := match by_ with
  | .control => Who.node fold
  | .shadow => Who.shadowOf fold

/-- A request stays until it can go on (R250, R371, R443), with its answer when its action has been taken. -/
def State.await (s : State) (i : Instr) (a : Option W64) : State :=
  { s with pkg := { s.pkg with reqs := s.pkg.reqs ++ [(i, a)] } }

/-- The oldest waiting request of the same words stays no longer. -/
def State.unwait (s : State) (i : Instr) : State :=
  { s with pkg := { s.pkg with reqs := eraseOne (fun x => decide (x.1 = i)) s.pkg.reqs } }

/-- Whether a selector names a floor whose island is on its way to Off (R443). -/
def State.floorWaits (s : State) (w : Who) (sel : W64) : Bool :=
  match s.reach w sel with
  | some r => r.isFloor && s.goesOff r
  | none => false

/-- Whether an access over the management path must wait now. -/
def State.accessWaits (s : State) (w : Who) (sel : W64) (op : CsrOp) (v : W64) : Bool :=
  match s.access w sel op v with
  | .waits => true
  | _ => false

/-- R372. A write to a special register by the control node or a shadow context; one that must wait acts later. -/
def execRegisterWrite (by_ : Agent) (fold : Nat) (sel : W64) (v : W64) (s : State) : Out3 :=
  if s.running = false ∨ (by_ = .shadow ∧ 384 ≤ fold) then .next s
  else
    let me : Instr := .registerWrite by_ fold sel v
    let s0 := s.unwait me
    match s0.access (Who.by by_ fold) sel .write v with
    | .refused s1 => .next s1
    | .waits => .next (s0.await me none)
    | .done s1 _ => .next s1

/-- R371, R443. A request of the control node over the management path is answered with a value, or refused. One that must wait
acts later, and a write of a floor of 7 is answered when the island is Off. -/
def execMgmtCsrRequest (fold : Nat) (sel : W64) (write : Bool) (v : W64) (s : State) : Out3 :=
  if s.running = false ∨ s.pkg.lumenUp = false then .next s
  else
    let me : Instr := .mgmtCsrRequest fold sel write v
    let w := Who.node fold
    match (s.pkg.reqs.find? (fun x => decide (x.1 = me))).bind Prod.snd, s.floorWaits w sel with
    | some old, false => .next ((s.unwait me).respond (some old))
    | some old, true => .next (s.await me (some old))
    | none, _ =>
      let s0 := s.unwait me
      match s0.access w sel (if write then .write else .read) v with
      | .refused s1 => .next (s1.respond none)
      | .waits => .next (s0.await me none)
      | .done s1 old => .next (if write && s1.floorWaits w sel then s1.await me (some old) else s1.respond (some old))

/-- The oldest waiting request that can go on. -/
def State.nextReq (s : State) : Option Instr :=
  (s.pkg.reqs.find? (fun x => match x.1, x.2 with
    | .mgmtCsrRequest fold sel _ _, some _ => s.pkg.lumenUp && !s.floorWaits (Who.node fold) sel
    | .mgmtCsrRequest fold sel write v, none =>
      s.pkg.lumenUp && !s.accessWaits (Who.node fold) sel (if write then .write else .read) v
    | .registerWrite by_ fold sel v, _ => !s.accessWaits (Who.by by_ fold) sel .write v
    | _, _ => false)).map Prod.fst

/-- READ or WRITE of a word of a Frozen team's image by the control node (R359, R376): the old word, or a refusal. -/
def State.ctrlWord (s : State) (target : CtxId) (x : Ctx) (item : Nat) (new : Option W64) : State :=
  let (ps, s0) := s.imageNow x
  let bs := imageBytes ps
  if !x.frozen || x.conf || decide (bs.length < 8 * item + 8) then s.respond none
  else
    (match new with
    | some v => s0.setCtx target (patchImage x (word8 v) (8 * item) ps)
    | none => s0).respond (some (getWord bs (8 * item)))

/-- R359. The control node acts on a team over the management path with the operations of R375 and R376: it resumes it, ends
its flock, reads or writes its image, freezes it, saves its gang, or asks for a restore. -/
def execCtrlResumeTeam (c : CtxId) (op : CtrlOp) (s : State) : Out3 :=
  if s.pkg.lumenUp = false then .next s
  else match op, (s.ctx c).filter (fun x => !x.shadow) with
    | .restore addr, _ => .next ((s.modDie (dieOf c.fold) (fun d => { d with restores := d.restores ++ [addr] })).respond (some 0))
    | _, none => .next s
    | .resume, some x => .next (if x.frozen then s.unfreeze c false else s)
    | .endFlock, some x => .next (s.endFlock x.flock)
    | .read item, some x => .next (s.ctrlWord c x item none)
    | .write item v, some x => .next (s.ctrlWord c x item (some v))
    | .freeze, some x => .next (s.setCtx c x.askFreeze)
    | .save, some x => .next ((s.modGang x.gang (fun g => { g with asked := g.asked ++ [c] })).startSave x.gang)

/-- A write of SMAP_Sn by a context, as R214 and R215 give it; a fault is due at the context's next boundary. -/
def State.mapWrite (s : State) (id : CtxId) (n : Nat) (v : W64) : State :=
  match s.ctx id with
  | none => s
  | some c =>
    match (s.gang c.gang).filter (fun _ => !c.shadow && decide (n < 8)) with
    | none => s
    | some g =>
      let seq := (s.fold id.fold).lockSeq
      if s.smapWaits c.gang g (g.half id.fold) n seq v then s
      else match s.smapWrite c.gang g (g.half id.fold) n seq v with
        | (s1, none) => s1
        | (s1, some e) => s1.modCtx id (fun c => c.addDue
            { DueTrap.of e.1 c.pc (BitVec.ofNat 64 c.sched) with addr := some e.2 })

/-- R214. A write to SMAP_Sn that sets VALID binds the map. -/
def execSmapBind (c : CtxId) (n : Nat) (v : W64) (s : State) : Out3 :=
  .next (if v.getLsbD 63 then s.mapWrite c n v else s)

/-- R215. A write to SMAP_Sn that clears VALID writes back the map's dirty bytes and unbinds it. -/
def execSmapUnbind (c : CtxId) (n : Nat) (v : W64) (s : State) : Out3 :=
  .next (if v.getLsbD 63 then s else s.mapWrite c n v)

/-- R36. MIRROR_SEL of a team's gang is written by the shadow context of its fold. -/
def execMirrorSelWrite (c : CtxId) (v : W64) (s : State) : Out3 :=
  match (s.ctx c).filter (fun x => !x.shadow) with
  | none => .next s
  | some x => .next (s.modGang x.gang (fun g => g.writeReg (g.half c.fold) 0x021 0
      (wmask (Tbl.get g.mirrorSel (g.half c.fold) 0) v (rwMask 0x021 0))))

/-- R252. A write to XLATE_INV of a die. -/
def execXlateInv (die : Nat) (v : W64) (s : State) : Out3 := .next (if die < 4 then s.writeInv die v 0 0 else s)

/-- R252. The oldest invalidation in progress of a die completes: every access under the removed translations has been
performed, and the writes that the folds hold translate again. -/
def execXlateInvComplete (die : Nat) (s : State) : Out3 :=
  match (s.die die).invs with
  | [] => .next s
  | (_, key, uid) :: r =>
    let s1 := s.modDie die (fun d => { d with invs := r })
    let s2 := s1.modCtx (ctxOfKey key) (fun c => match c.findOp (fun o => o.uid == uid && o.unit == U.sv) with
      | some o => c.complete o 0
      | none => c)
    .next (s2.foldList.foldl State.drainHeld s2)

/-- R222. A write to L2_STAGE of a slice. -/
def execL2StageWrite (die slice : Nat) (v : W64) (s : State) : Out3 :=
  .next (if die < 4 ∧ slice < 32 then s.writeStage die slice v else s)

/-- Whether an SV operation in flight is a write of a slice's L2_STAGE that goes on. -/
def VarOp.resizes (o : VarOp) (n die slice : Nat) : Bool :=
  let v := (o.tv n).toNat
  o.unit == U.sv && decide (1 ≤ o.opcode.toNat) && decide (o.opcode.toNat ≤ 3) && o.vals.isSome &&
    bits v 11 0 == 0x20A && bits v 25 24 == die && bits v 23 16 == slice

/-- R222. The slice has written back and handed over its eighths: BUSY clears, and the writes that wait for it
complete. -/
def execL2StageChangeDone (die slice : Nat) (s : State) : Out3 :=
  let v := Tbl.get (s.die die).l2Stage slice 0
  if v.getLsbD 4 = false then .next s
  else
    let s1 := s.modDie die (fun d => { d with l2Stage := Tbl.put d.l2Stage slice (v &&& 0xF) })
    let done (c : Ctx) : Ctx := (c.ops.filter (fun o => o.resizes c.nlanes die slice)).foldl (fun c o =>
      c.complete o ((o.vals.getD []).at 0)) c
    .next { s1 with ctxs := s1.ctxs.map (fun kv => (kv.1, done kv.2)) }

/-- R232. A write to DLOG_CTL of a die. -/
def execDlogCtlWrite (die : Nat) (v : W64) (s : State) : Out3 :=
  .next (if die < 4 then s.writeDlog die (CsrOp.write.apply (s.die die).dlogCtl v (rwMask 0x205 0) (w1cMask 0x205)) else s)

/-- R248. A write to MIGQ_CTL of a die. -/
def execMigqCtlWrite (die : Nat) (v : W64) (s : State) : Out3 :=
  .next (if die < 4 then s.writeMigq die (CsrOp.write.apply (s.die die).migqCtl v (rwMask 0x202 0) (w1cMask 0x202)) else s)

/-- R230. The control node writes an entry of a die's region table. -/
def execRegionTableWrite (die idx : Nat) (e : Region) (s : State) : Out3 :=
  .next (if die < 4 ∧ idx < 256 then s.setRegion die idx e else s)

/-- R397. The control node loads a tenant key. -/
def execKeyLoad (die slot : Nat) (key : BitVec 256) (s : State) : Out3 :=
  .next (if die < 4 ∧ slot < 256 then s.modDie die (fun d => { d with keys := Tbl.put d.keys slot key }) else s)

/-- R181. The control node writes DEV_ID, once after boot. -/
def execDevIdWrite (v : BitVec 14) (s : State) : Out3 :=
  .next (if s.running && !s.pkg.devIdSet then { s with pkg := { s.pkg with devId := v, devIdSet := true } } else s)

/-- R389. A write of STOP_CTL with REQ set. -/
def execStopRequest (fold : Nat) (v : W64) (s : State) : Out3 :=
  let s1 := s.modFold fold (fun f => { f with stopCtl := wmask f.stopCtl v (rwMask 0x122 0) })
  .next (if v.getLsbD 0 then s1.requestStop fold v else s1)

/-- R387. A write of 1 to MXC_CTL.CLR. -/
def execMxcCtlClr (fold : Nat) (s : State) : Out3 := .next (s.clearMxc fold)

/-! ## Samples (R395) -/

/-- R395. The samples that a fold has made leave as records, oldest first. -/
def execSampleRecord (fold : Nat) (s : State) : Out3 := .next (s.sendSamples fold)

/-! ## The rows of SV -/

/-- R372. Reads a special register named by a selector. -/
def execSvCsrr (m : MoveF) (s : State) : Out3 :=
  issueOne (syllable true 20 3 0 m) startCsrr s
/-- R372. Writes a special register and returns its old value. -/
def execSvCsrw (m : MoveF) (s : State) : Out3 :=
  issueOne (syllable true 20 3 1 m) startCsrw s
/-- R372. Sets RW bits of a special register. -/
def execSvCsrs (m : MoveF) (s : State) : Out3 :=
  issueOne (syllable true 20 3 2 m) startCsrs s
/-- R372. Clears RW bits or W1C bits of a special register. -/
def execSvCsrc (m : MoveF) (s : State) : Out3 :=
  issueOne (syllable true 20 3 3 m) startCsrc s
/-- R373. Raises a software trap before the next bundle. -/
def execSvTrap (m : MoveF) (s : State) : Out3 :=
  issueOne (syllable true 20 3 16 m) startTrap s
/-- R375. Resumes a Frozen team, optionally replaying or reflecting its cause. -/
def execSvEret (m : MoveF) (s : State) : Out3 :=
  issueOne (syllable true 20 3 17 m) startEret s
/-- R374. Replays a unit's fault record or the store fault buffer. -/
def execSvReplay (m : MoveF) (s : State) : Out3 :=
  issueOne (syllable true 20 3 18 m) startReplay s
/-- R373. Raises C_BREAK before the next bundle. -/
def execSvBrk (m : MoveF) (s : State) : Out3 :=
  issueOne (syllable true 20 3 19 m) startBrk s
/-- R388. Requests a counter snapshot of every fold in a scope instance. -/
def execSvSnap (m : MoveF) (s : State) : Out3 :=
  issueOne (syllable true 20 3 32 m) startSnap s
/-- R376. The shadow context waits for the next event word. -/
def execSvCtxNextev (m : MoveF) (s : State) : Out3 :=
  issueOne (syllable true 20 3 48 m) startCtx s
/-- R376. Reads a word of a Frozen team's would-be image. -/
def execSvCtxRead (m : MoveF) (s : State) : Out3 :=
  issueOne (syllable true 20 3 48 m) startCtx s
/-- R376. Writes a word of a Frozen team's image. -/
def execSvCtxWrite (m : MoveF) (s : State) : Out3 :=
  issueOne (syllable true 20 3 48 m) startCtx s
/-- R376. Freezes a team at its next pre-emption point. -/
def execSvCtxFreeze (m : MoveF) (s : State) : Out3 :=
  issueOne (syllable true 20 3 48 m) startCtx s
/-- R376. Starts a full save of a team's gang. -/
def execSvCtxSave (m : MoveF) (s : State) : Out3 :=
  issueOne (syllable true 20 3 48 m) startCtx s
/-- R376. Asks the Shepherd to place a saved gang image. -/
def execSvCtxRestore (m : MoveF) (s : State) : Out3 :=
  issueOne (syllable true 20 3 48 m) startCtx s
/-- R376. Ends a team's flock, which completes with LAUNCH_ABORTED. -/
def execSvCtxKill (m : MoveF) (s : State) : Out3 :=
  issueOne (syllable true 20 3 48 m) startCtx s

end Sys2Proof.Machine
end

