-- ==== Sys2Proof/Machine/Package.lean ====
section
/-! DEFINITION. The package: power, boot and attestation (R447, R448), islands (R442 to R444), the power cap (R445),
thermal limits (R446) and error counting (R399). -/

namespace Sys2Proof.Machine

/-! ## Power and boot (R447) -/

/-- The cells of the control node's memory. -/
def Memory.hostCells (m : List Host.Cell) : List Host.Cell :=
  m.filter (fun c => decide (2 ^ 52 ≤ c.1) && decide (c.1 < 2 ^ 53))

/-- R447. The control node powers the package and releases its reset: IO0's boot block and the Lumen port run. -/
def execPowerOnReset (s : State) : Out3 :=
  .next (if s.pkg.boot = .off then { s with pkg := { s.pkg with boot := .rom, lumenUp := true, clk := 0 } } else s)

/-- A measurement register (R447): 64 bytes, 0 until it is extended. -/
def Pkg.measOf (p : Pkg) (i : Nat) : List Byte := Tbl.get p.meas i (List.replicate 64 0)

/-- A measurement extended by a digest (R447). -/
def Pkg.extend (p : Pkg) (i : Nat) (d : List Byte) : Pkg :=
  { p with meas := Tbl.put p.meas i (Config.shake256 (p.measOf i ++ d)) }

/-- The shadow context of a fold as boot or power-up starts it (R369, R447). -/
def shadowAtEntry (fold tid : Nat) (entry : W64) (now : Nat) : Ctx :=
  { Ctx.blank 32 32 with tid := tid, shadow := true, asid := 256 + dieOf fold, pc := entry &&& ~~~1, lastIssue := now }

/-- A fold as boot leaves it (R223, R447). -/
def Fold.atBoot (f : Nat) : Fold :=
  { Fold.fresh with sliceLat := (List.range 16).map (fun i => (i, Config.sliceLat f i)) }

/-! ### The firmware image (R78, R79, R447) -/

/-- A section of a code object: KIND, ALIGN, OFFSET and SIZE (R78). -/
structure PvoSect where
  kind : Nat
  align : Nat
  off : Nat
  size : Nat
deriving DecidableEq, Repr

/-- The section table of a code object (R78). -/
def pvoSects (b : List Byte) : List PvoSect :=
  (List.range (field b 6 2)).map (fun i =>
    let at_ := field b 8 8 + 32 * i
    { kind := field b at_ 2, align := field b (at_ + 4) 4, off := field b (at_ + 8) 8, size := field b (at_ + 16) 8 })

/-- The alignment that a section of a kind has (R78). -/
def kindAlign (k : Nat) : Nat :=
  match k with
  | 1 => 64 | 3 => 256 | 4 => 16 | 5 => 64 | 6 => 32 | 8 => 4 | 12 => 1 | _ => 8

/-- Where the boot ROM places a section: at an address that is free but for its alignment, the greater of its kind's and its own
(R78; DESIGN CHOICE: log entry 62). -/
def pvoBase (b : List Byte) (i : Nat) : Nat :=
  let x := (pvoSects b).getD i { kind := 1, align := 0, off := 0, size := 0 }
  let a := max (kindAlign x.kind) (2 ^ min x.align 47)
  Config.sectionBase b i % 2 ^ 48 / a * a

/-- Whether bytes are a shadow-context object (R78): MAGIC, VERSION, at most 32 sections of the kinds there are, no two of one
kind but `.rel`, FLAGS.SHADOW alone, and zeros. One whose section table or sections reach past its end is none (DESIGN CHOICE:
log entry 62). -/
def pvoOk (b : List Byte) : Bool :=
  let ks := (pvoSects b).map PvoSect.kind
  let once := ks.filter (fun k => k != 0x0A)
  field b 0 4 == 0x014F5650 && field b 4 2 == 1 && decide (field b 6 2 ≤ 32) && field b 20 4 == 1 && field b 24 40 == 0 &&
    ks.all (fun k => decide (1 ≤ k ∧ k ≤ 0x0C)) && once.eraseDups.length == once.length &&
    decide (field b 8 8 + 32 * field b 6 2 ≤ b.length) &&
    (pvoSects b).all (fun x => decide (x.off + x.size ≤ b.length))

/-- The section and the offset in it that a symbol names (R79); none for a symbol that there is not or that is undefined. -/
def pvoSymbol (b : List Byte) (k : Nat) : Option (Nat × Nat) :=
  match (pvoSects b).find? (fun x => x.kind == 0x09) with
  | none => none
  | some t =>
    let sect := field b (t.off + 16 * k + 4) 2
    if 16 * k + 16 ≤ t.size ∧ sect < field b 6 2 then some (sect, field b (t.off + 16 * k + 8) 8) else none

/-- The entry point of a shadow-context object (R447 step 6): the `.shadow` label that ENTRYSYM names, at the address of
`.text`, where R71 has it. None when the object is none, or names no such label (DESIGN CHOICE: log entry 62). -/
def imageEntry (b : List Byte) : Option W64 :=
  if !pvoOk b then none
  else ((pvoSymbol b (field b 16 4)).filter (fun x => ((pvoSects b)[x.1]?).any (fun y => y.kind == 1))).map (fun x =>
    BitVec.ofNat 64 (pvoBase b x.1 + x.2))

/-- The contents of an object's sections at their physical addresses: `.text` to `.fmt` and `.link`, what its code or another's
may read. -/
def placeImage (b : List Byte) (m : List Host.Cell) : List Host.Cell :=
  (pvoSects b).zipIdx.foldl (fun m x =>
    if x.1.kind ≤ 8 ∨ x.1.kind = 0x0B then Memory.writeN m (pvoBase b x.2) ((b.drop x.1.off).take x.1.size) else m) m

/-- Boot steps 4 to 6 (R447) for a verified image with its entry point. -/
def State.bootWith (s : State) (image d : List Byte) (entry : W64) : State :=
  let cells := placeImage image (Memory.hostCells s.mem)
  { s with
    mem := cells
    ctxs := (List.range 384).map (fun f => (CtxId.key { fold := f, slot := CtxId.shadowSlot }, shadowAtEntry f (s.nextId + f) entry 0))
    folds := (List.range 384).map (fun f => (f, Fold.atBoot f))
    gangs := []
    dies := (List.range 4).map (fun k => (k, Die.fresh))
    pkg := { s.pkg.extend 0 d with
      boot := .running, entry := entry
      ethSplit := [(0, min 2 (Config.ethSplit 0)), (1, min 2 (Config.ethSplit 1))] }
    nextId := s.nextId + 384 }

/-- R447. The boot ROM receives a firmware image with its signature of 3,309 bytes and boots it, or posts C_FWAUTH and
waits for another. A verified image that is no shadow-context object fails too (DESIGN CHOICE: log entry 62). -/
def execFirmwareImageReceive (image sig : List Byte) (s : State) : Out3 :=
  if s.pkg.boot ≠ .rom ∨ s.pkg.lumenUp = false then .next s
  else
    let d := Config.shake256 image
    match if decide (sig.length = 3309) && Config.mldsaVerify d sig then imageEntry image else none with
    | some entry => .next (s.bootWith image d entry)
    | none => .next (s.dieNotice 0x5D 0 0)

/-- R447. The control node removes the package's power: what remains is its own memory, what has left the device, and the
model's own counters. -/
def execPackagePowerOff (s : State) : Out3 :=
  .next { State.reset with
    mem := Memory.hostCells s.mem, pkg := { Pkg.off with out := s.pkg.out }, agenda := s.agenda, nextId := s.nextId,
    free := s.free }

/-- R447. A component that firmware loads is measured into one of MEAS1 to MEAS7. -/
def execMeasurementExtend (i : Nat) (component : List Byte) (s : State) : Out3 :=
  .next (if s.running ∧ 1 ≤ i ∧ i ≤ 7 then { s with pkg := s.pkg.extend i (Config.shake256 component) } else s)

/-- R448. The report on a nonce: DEV_ID, the stepping, MEAS0 to MEAS7 and the nonce, in that order. -/
def State.attestReport (s : State) (nonce : BitVec 256) : List Byte :=
  bytesOf 2 s.pkg.devId.toNat ++ [0x57, 0x4B, 0x2D, 0x4B, 0x42, 0x39, 0x2D, 0x41, 0x30] ++
    (List.range 8).flatMap s.pkg.measOf ++ bytesOf 32 nonce.toNat

/-- R448. The control node asks for attestation and receives the signed report. -/
def execAttestationRequest (nonce : BitVec 256) (s : State) : Out3 :=
  let r := s.attestReport nonce
  .next (if s.pkg.boot = .off ∨ s.pkg.lumenUp = false then s
    else { s with pkg := { s.pkg with out := s.pkg.out ++ [.report r (Config.mldsaSign (Config.shake256 r))] } })

/-! ## Windowed error counting (R399) -/

/-- Whether an entry tracks a location. -/
def EccLoc.is (e : EccLoc) (cls inst loc : Nat) : Bool := e.cls == cls && e.inst == inst && e.loc == loc

/-- The ticks that a window of ECC_CTL.WINUS lasts (R399); 0 acts as 1 µs. -/
def Die.eccWindow (d : Die) : Nat := max 1 (bits d.eccCtl.toNat 23 8) * 100

/-- A location with one more error at a tick: its window opens at its first counted error (R399). -/
def EccLoc.bump (e : EccLoc) (window now order : Nat) : EccLoc :=
  if e.count = 0 ∨ e.opened + window ≤ now then { e with count := 1, opened := now, order := order }
  else { e with count := e.count + 1, order := order }

/-- A location's count grows by one: its entry, a new one, or that of the location its instance updated least recently. -/
def Die.eccCount (d : Die) (cls inst loc tick : Nat) : Die :=
  let now := d.eccLocs.foldl (fun (a : Nat) e => max a (e.order + 1)) 0
  let own := d.eccLocs.filter (fun e => e.cls == cls && e.inst == inst)
  if d.eccLocs.any (fun e => e.is cls inst loc) then
    { d with eccLocs := d.eccLocs.map (fun e => if e.is cls inst loc then e.bump d.eccWindow tick now else e) }
  else
    let oldest := own.foldl (fun (a : Nat) e => min a e.order) now
    let kept := if own.length < 32 then d.eccLocs
      else d.eccLocs.filter (fun e => !(e.cls == cls && e.inst == inst && e.order == oldest))
    { d with eccLocs := kept ++ [{ cls := cls, inst := inst, loc := loc, count := 1, order := now, opened := tick }] }

/-- The fold whose shadow context is told of an error in an array: its own fold, or the die's first (R354). -/
def State.eccFold (s : State) (die cls inst : Nat) : Nat :=
  if cls = 3 ∨ 5 ≤ cls then s.firstFold die else 96 * die + inst % 96

/-- C_ECCRETIRE, with FAULT_ADDR at the location's physical address. -/
def State.eccNotice (s : State) (die cls inst loc data : Nat) : State :=
  let f := s.eccFold die cls inst
  (s.modCtx { fold := f, slot := CtxId.shadowSlot } (fun c => { c with faultAddr := BitVec.ofNat 64 loc })).pushEvent f
    (eventWord 0x56 0 0 true false data)

/-- A lasting location (R399): a line of L1 or L2 is written back and disabled, another location takes a spare while one is left. -/
def State.eccRetire (s : State) (die cls inst loc : Nat) : State :=
  let key := 65536 * cls + inst
  let s1 := s.modDie die (fun d => { d with eccLocs := d.eccLocs.filter (fun e => !e.is cls inst loc) })
  let retired (s : State) : State := (s.modDie die (fun d => { d with
    eccRet := Tbl.upd d.eccRet cls 0 (fun x => (x + 1) % 2 ^ 48) })).eccNotice die cls inst loc 0
  let b := lineOf loc
  if cls = 2 then
    let f := 96 * die + inst % 96
    let s2 := if tracked b then s1.disown f b (b + 127) else s1
    retired (s2.modFold f (fun x => { x.dropWords b (b + 127) true with l1Off := x.l1Off + 1 }))
  else if cls = 3 then
    retired (s1.modDie die (fun d => { d with l2 := d.l2.filter (fun x => x.base != b),
                                              l2Off := Tbl.upd d.l2Off (inst % 32) 0 (· + 1) }.l2Trim (inst % 32)))
  else if Tbl.get (s.die die).eccUsed key 0 < Config.eccSpares cls inst then
    retired (s1.modDie die (fun d => { d with eccUsed := Tbl.upd d.eccUsed key 0 (· + 1) }))
  else s1.eccNotice die cls inst loc 1

/-- R399. A corrected error counts for its class and location; THRESH errors within one window make it lasting. R224. An
uncorrectable one spoils its line of memory: every access that meets it takes C_ECCUNCORR (R141). -/
def execEccCorrectedError (die cls inst : Nat) (locus : EccLocus) (s : State) : Out3 :=
  match locus with
  | .corrected loc =>
    if s.running = false ∨ 4 ≤ die ∨ 7 ≤ cls then .next s
    else
      let s1 := s.modDie die (fun d =>
        { d.eccCount cls inst loc s.ticks with eccCe := Tbl.upd d.eccCe cls 0 (fun x => (x + 1) % 2 ^ 48) })
      let thresh := bits (s1.die die).eccCtl.toNat 7 0
      let n := (((s1.die die).eccLocs.find? (fun e => e.is cls inst loc)).map EccLoc.count).getD 0
      .next (if thresh ≠ 0 ∧ thresh ≤ n then s1.eccRetire die cls inst loc else s1)
  | .uncorrectable phys =>
    if s.running = false ∨ 4 ≤ die ∨ tracked phys = false ∨ homeDie phys ≠ die then .next s
    else .next (s.modDie die (fun d =>
      { d with eccBad := if d.eccBad.contains (lineOf phys) then d.eccBad else d.eccBad ++ [lineOf phys] }))

/-- R399. A location's window closes, WINUS µs after its first counted error, and its count returns to 0. -/
def execEccWindowClose (die cls inst loc : Nat) (s : State) : Out3 :=
  .next (s.modDie die (fun d => { d with eccLocs := d.eccLocs.map (fun e =>
    if e.is cls inst loc ∧ e.opened + d.eccWindow ≤ s.ticks then { e with count := 0 } else e) }))

/-! ## Islands (R442 to R444) -/

/-- A floor code: 0 to 4 a state, 7 Off; 5 and 6 name no state and act as 4. -/
def floorState (f : Nat) : Nat := if f = 7 then 7 else min 4 f

/-- CAPSTATE (R445). -/
def State.capState (s : State) : Nat := bits s.pkg.pwrStat.toNat 18 16

/-- The state at which a die's thermal actions hold its fold and engine islands (R446). -/
def Die.holdState (d : Die) : Nat := if bit d.thermHold 2 then 4 else if bit d.thermHold 1 then 2 else 0

/-- The state that an island of a compute die goes to (R442, R443, R446). A fold on which a gang stands does not go Off. -/
def State.islandTarget (s : State) (die i : Nat) : Nat :=
  let d := s.die die
  let f := floorState (Tbl.get d.islFloor i 0)
  let limit := max s.capState d.holdState
  if d.dead then 7
  else if i < 96 then
    if f = 7 then (if s.hasTeam (96 * die + i) || !(s.gangsOn (96 * die + i)).isEmpty then limit else 7) else max f limit
  else if i < 192 then
    if s.islandOf die (i - 96) = 7 ∨ s.engineHeld (96 * die + (i - 96)) = false ∨ f = 7 then 7
    else s.islandOf die (i - 96)
  else if f = 7 ∧ s.mayOff die i = false then s.islandOf die i
  else f

/-- The state that an island of the I/O dies goes to (R443, R444). -/
def State.ioTarget (s : State) (i : Nat) : Nat :=
  let f := floorState (Tbl.get s.pkg.islIo i 0)
  if f = 7 ∧ ioNeverOff i = true then Tbl.get s.pkg.islIoState i 0 else f

/-- The link whose end an island of a compute die is (R444). -/
def dieLink (die i : Nat) : Nat := if i = 248 then die / 2 else if i = 249 then 2 + die % 2 else 4 + die

/-- The link whose end an island of an I/O die is (R444). -/
def ioLink (i : Nat) : Option Nat :=
  match i with
  | 6 => some 4
  | 7 => some 5
  | 14 => some 6
  | 15 => some 7
  | _ => none

/-- Whether both ends of a link have power. -/
def State.linkPowered (s : State) (n : Nat) : Bool :=
  (linkDies n).all (fun d => s.islandOf d (if 4 ≤ n then 250 else if 2 ≤ n then 249 else 248) != 7) &&
    (n < 4 || Tbl.get s.pkg.islIoState (if n < 6 then n + 2 else n + 8) 0 != 7)

/-- A link whose end has lost power goes down; one whose ends both have power again, and whose modules the ladder has not
retired, trains at rate code 2 (R417, R447). -/
def State.linkPower (s : State) (n : Nat) : State :=
  let l := s.link n
  if s.linkPowered n then (if l.up ∨ l.mw = 0 then s else s.setLink n { l with up := true, rate := 2, target := 2, retraining := false, more := 0 })
  else if l.up then (s.setLink n { l with up := false, retraining := false, more := 0 }).linkGone s n else s

/-- The memory of a die's near-memory channel group, LPDDR-6 channel or whole die is lost. -/
def Memory.lose (m : List Host.Cell) (p : Nat → Bool) : List Host.Cell := m.filter (fun c => !(decide (c.1 < 2 ^ 48) && p c.1))

/-- What the units of a fold held is lost (R442), the words its L1 owned having gone to their homes; FOLD_CYCLE stands still
with STALL_FOLD, whose sum it is (R386), and firmware's SLICE_LAT stays. -/
def State.foldOff (s : State) (f : Nat) : State :=
  let old := s.fold f
  let s1 := (s.dropCtx { fold := f, slot := CtxId.shadowSlot }).setFold f
    { Fold.fresh with cycle := old.cycle, stallFold := old.stallFold, sliceLat := old.sliceLat, lockSeq := old.lockSeq, nextEng := old.nextEng }
  let clean (d : Die) : Die := { d with rdir := d.rdir.filter (fun e => e.owner != f) }
  { s1 with mem := Memory.clear s1.mem (Memory.spmKey f 0) (2 ^ 20), dies := s1.dies.map (fun kv => (kv.1, clean kv.2)) }

/-- What a Shepherd held is lost. -/
def Die.shepherdOff (d : Die) : Die :=
  { d with queues := [], packets := [], rot := 0, qroot := [], restores := [] }

/-- What an island that goes Off held is lost. -/
def State.islandOff (s : State) (die i : Nat) : State :=
  if i < 96 then s.foldOff (96 * die + i)
  else if i < 192 then s.engineOff (96 * die + (i - 96))
  else if i < 224 then
    let s1 := s.modDie die (fun d => { d with l2Stage := Tbl.drop d.l2Stage (i - 192),
                                              l2 := d.l2.filter (fun x => (homeOf x.base).2 != i - 192) })
    { s1 with mem := Memory.clear s1.mem (Memory.stageKey die (i - 192) 0) (2 ^ 23) }
  else if i < 240 then
    { s with mem := Memory.lose s.mem (fun a =>
        decide (nearBase die ≤ a ∧ a < nearBase die + 2 ^ 36) && (Config.nearGroup die (a % 2 ^ 36 / 1024)).toNat == i - 224) }
  else if i < 248 then
    { s with mem := Memory.lose s.mem (fun a => decide (farBase die ≤ a ∧ a < farBase die + 2 ^ 38) && a / 4096 % 8 == i - 240) }
  else if i < 251 then s.linkPower (dieLink die i)
  else s.modDie die Die.shepherdOff

/-- An island that has power again starts: a fold's shadow context at the firmware's entry point, a link's training. -/
def State.islandOn (s : State) (die i : Nat) : State :=
  if i < 96 then
    let f := 96 * die + i
    let s1 := s.setCtx { fold := f, slot := CtxId.shadowSlot } (shadowAtEntry f s.nextId s.pkg.entry (s.fold f).cycle)
    { s1 with nextId := s.nextId + 1 }
  else if 248 ≤ i ∧ i < 251 then s.linkPower (dieLink die i)
  else s

/-- An island of a compute die takes a state. -/
def State.setIsland (s : State) (die i st : Nat) : State :=
  let old := s.islandOf die i
  let s1 := s.modDie die (fun d => { d with islands := Tbl.put d.islands i st })
  if st = 7 ∧ old ≠ 7 then s1.islandOff die i
  else if st ≠ 7 ∧ old = 7 then s1.islandOn die i
  else s1

/-- An island of the I/O dies takes a state: the transport engine forgets its connections' run-time values, a link's end
its link. -/
def State.setIoIsland (s : State) (i st : Nat) : State :=
  let s1 : State := { s with pkg := { s.pkg with islIoState := Tbl.put s.pkg.islIoState i st } }
  let s2 : State := if st = 7 ∧ i = 0 then { s1 with pkg := { s1.pkg with conns := [] } } else s1
  match ioLink i with
  | some n => s2.linkPower n
  | none => s2

/-- R442. An island reaches the state that its floor, the cap and any thermal hold give; die 4 names the I/O dies. -/
def execIslandStateChange (die idx : Nat) (s : State) : Out3 :=
  if s.running = false then .next s
  else if die = 4 then
    .next (if idx < 16 ∧ Tbl.get s.pkg.islIoState idx 0 ≠ s.ioTarget idx then s.setIoIsland idx (s.ioTarget idx) else s)
  else if 4 ≤ die ∨ islandNamed idx = false ∨ s.islandOf die idx = s.islandTarget die idx then .next s
  else .next (s.setIsland die idx (s.islandTarget die idx))

/-- The first island whose state differs from the one it goes to. -/
def State.islandDue (s : State) : Option (Nat × Nat) :=
  let onDie (d : Nat) : Option (Nat × Nat) := ((List.range 253).find? (fun i =>
    islandNamed i && s.islandOf d i != s.islandTarget d i)).map (fun i => (d, i))
  match (s.dies.map Prod.fst).findSome? onDie with
  | some x => some x
  | none => ((List.range 16).find? (fun i => Tbl.get s.pkg.islIoState i 0 != s.ioTarget i)).map (fun i => (4, i))

/-- R443. A write of FLOOR of an island of a compute die, or of the I/O dies. -/
def execIslandFloorWrite (die : Option Nat) (idx : Nat) (v : W64) (s : State) : Out3 :=
  .next (if s.running = false ∨ die.any (fun d => decide (4 ≤ d)) = true then s else s.writeFloor die idx v)

/-! ## The power cap (R445) -/

/-- R445. An averaging window ends: CAPSTATE rises or falls by a step. -/
def execPowerWindowEnd (watts : BitVec 16) (s : State) : Out3 :=
  if s.running = false then .next s
  else
    let limit := bits s.pkg.pwrCap.toNat 15 0
    let cap := s.capState
    let w := watts.toNat
    let next := if limit ≠ 0 ∧ limit < w then min 4 (cap + 1) else if limit = 0 ∨ 10 * w < 9 * limit then cap - 1 else cap
    let s1 : State := { s with pkg := { s.pkg with
      pwrStat := BitVec.ofNat 64 (next * 65536 + w), capNoticed := s.pkg.capNoticed && next != 0 } }
    .next (if cap = 0 ∧ next = 1 ∧ s.pkg.capNoticed = false then
        ({ s1 with pkg := { s1.pkg with capNoticed := true } }).dieNotice 0x5C 0 0
      else s1)

/-! ## Thermal limits (R446) -/

/-- A thermal action: in force above its threshold, until the junction falls 5 °C below it. Temperatures are in 1/16 °C. -/
def thermAct (on : Bool) (t deg : Nat) : Bool := if on then decide (16 * (deg - 5) < t) else decide (16 * deg < t)

/-- A die above 115 °C (R446): its islands go Off and its teams are lost. They take their states again when the action ends. -/
def State.loseDie (s : State) (die : Nat) : State :=
  let named := (List.range 253).filter islandNamed
  let old := s.die die
  let d : Die := { Die.fresh with
    dead := true, islFloor := old.islFloor, islands := named.map (fun i => (i, 7)), thermStat := old.thermStat,
    thermHold := old.thermHold }
  let mine (f : Nat) : Bool := dieOf f == die
  let s1 : State := { s with
    ctxs := s.ctxs.filter (fun kv => !mine (kv.1 / 64))
    gangs := s.gangs.filter (fun kv => kv.2.die != die)
    mem := Memory.lose s.mem (fun a => homeDie a == die) }
  let s2 := ((List.range 96).foldl (fun s k => (s.foldOff (96 * die + k)).engineOff (96 * die + k)) s1).setDie die d
  let s3 := [248, 249, 250].foldl (fun s i => s.linkPower (dieLink die i)) s2
  { s3.dieNotice 0x59 0 (Config.freeValue s3.free) with free := s3.free + 1 }

/-- The extra refresh commands of a sample, while refresh is doubled (R224, R385): their number is not stated. -/
def State.countRefresh (s : State) (die : Nat) : State :=
  let add (d : Die) : Die := { d with nmXref := (List.range 16).map (fun g =>
    (g, (Tbl.get d.nmXref g 0 + (Config.freeValue (s.free + g)).toNat) % 2 ^ 48)) }
  { s.modDie die add with free := s.free + 16 }

/-- R446. A die measures its junctions and begins or ends the actions of its limits. -/
def execThermalSample (die : Nat) (dram logic : BitVec 16) (s : State) : Out3 :=
  if s.running = false ∨ 4 ≤ die then .next s
  else
    let d := s.die die
    let refresh := thermAct (bit d.thermHold 0) dram.toNat 85
    let hot := thermAct (bit d.thermHold 1) dram.toNat 95
    let logicHot := thermAct (bit d.thermHold 2) logic.toNat 105
    let nm := if hot then 2 else b2n refresh
    let s1 := s.modDie die (fun d => { d with
      thermHold := b2n refresh + 2 * b2n hot + 4 * b2n logicHot
      thermStat := BitVec.ofNat 64 (nm * 2 ^ 32 + dram.toNat * 65536 + logic.toNat) })
    let s2 := if refresh then s1.countRefresh die else s1
    let s3 := if hot && !bit d.thermHold 1 then s2.dieNotice 0x5B die 0 else s2
    let s4 := if logicHot && !bit d.thermHold 2 then s3.dieNotice 0x5B die 0 else s3
    let lost := thermAct d.dead logic.toNat 115
    .next (if lost && !d.dead then s4.loseDie die
      else if d.dead && !lost then s4.modDie die (fun d => { d with dead := false }) else s4)

end Sys2Proof.Machine
end

