-- ==== Sys2Proof/Machine/Background.lean ====
section
/-! DEFINITION. The events that the machine makes by itself while teams issue: accesses performed, operations completing,
the Shepherd's work, and what follows from power, links and counters. -/

namespace Sys2Proof.Machine

/-- The event that performs a queued access. -/
def MemOp.event (o : MemOp) (id : CtxId) : Instr :=
  if o.isLoadUnit then Instr.loadComplete id else if o.isAtom then Instr.atomicComplete id else Instr.storePerformed id

/-- The first of two events. -/
def orEvent (a b : Option Instr) : Option Instr :=
  match a with
  | some e => some e
  | none => b

/-- An event when a condition holds. -/
def eventIf (p : Bool) (e : Instr) : Option Instr := if p then some e else none

/-- The event of a context's operations in flight that can go on. -/
def State.ctxBg (s : State) (id : CtxId) (c : Ctx) : Option Instr :=
  let mem := match s.memHead id with
    | some o => eventIf (s.performNext id none).isSome (o.event id)
    | none => none
  let sf := eventIf (c.ops.any (fun o => o.unit == U.sf)) (Instr.sfComplete id)
  let xl := eventIf (c.ops.any (fun o => o.unit == U.xl && decide (o.opcode.toNat < 0x40))) (Instr.xlLaneOpComplete id)
  let wide := eventIf (c.ops.any (fun o => o.unit == U.xl && decide (0x40 ≤ o.opcode.toNat) &&
    decide (o.notBefore ≤ (s.fold id.fold).cycle))) (Instr.wideRegOpComplete id)
  let fence := eventIf (c.fenced && s.fenceMet id c) (Instr.fenceComplete id)
  let claim := eventIf c.claimOp.isSome (Instr.claimComplete id)
  let sv := eventIf (s.svNext id).isSome (Instr.svOpComplete id)
  orEvent mem (orEvent sf (orEvent xl (orEvent wide (orEvent fence (orEvent claim sv)))))

/-- The event of an engine operation in flight that can go on. -/
def State.engBg (s : State) (fold : Nat) (e : EngOp) : Option Instr :=
  let start := eventIf (s.engCanStart fold e) (Instr.engineOpStart fold e.uid)
  let copy := eventIf (e.unit == U.cp && e.started && (s.finishCopy fold e).isSome) (Instr.copyComplete fold e.uid)
  let block := eventIf (e.isMma && e.block.isEmpty && e.token.isNone && s.olderDone fold e && !s.scalesHeld fold e)
    (Instr.mxFormatBlockRead fold e.uid)
  let mx := eventIf (e.unit == U.mx && (s.completeMx fold e).isSome) (Instr.mxOpComplete fold e.uid)
  let bload := eventIf (s.bloadReady fold e) (Instr.mxBloadComplete fold e.uid)
  let send := eventIf (e.unit == U.nx && e.started && !e.sentAll &&
      (match s.connEnt e.nxConn with
      | none => true
      | some c => (s.nxIo (dieOf fold)).isNone || s.nxMaySend fold e c)) (Instr.nxPacketSend fold e.uid)
  let done := eventIf (e.unit == U.nx && e.nxDone) (Instr.nxOpComplete fold e.uid)
  orEvent start (orEvent copy (orEvent block (orEvent mx (orEvent bload (orEvent send done)))))

/-- Whether a starved fold can evict its youngest team or end its grows now (R195). -/
def State.evictDue (s : State) (fold : Nat) : Bool :=
  s.starved fold &&
    (match youngest (s.awake fold) with
    | none => false
    | some (slot, c) => match s.gang c.gang with
      | none => false
      | some g => g.save == 0 || s.quiet { fold := fold, slot := slot } c)

/-- The event of a fold. -/
def State.foldBg (s : State) (fold : Nat) (f : Fold) : Option Instr :=
  let samp := eventIf (!f.samples.isEmpty) (Instr.sampleRecord fold)
  let eng := f.eng.findSome? (s.engBg fold)
  let disp := eventIf (s.dispatchHead fold).isSome (Instr.mxDispatch fold)
  let evict := eventIf (s.evictDue fold) (Instr.teamEvict fold)
  orEvent samp (orEvent eng (orEvent disp evict))

/-- The event that starts the packet of the queue the Shepherd has chosen (R171). -/
def State.packetStart (s : State) (die : Nat) : Option Instr :=
  match s.chosen die with
  | none => none
  | some q => match s.headPacket die q with
    | .error _ => some (Instr.pktNop die q)
    | .ok (b, _) => match pktType b with
      | 1 => some (Instr.pktLaunch die q)
      | 2 => some (Instr.pktLoop die q)
      | 3 => some (Instr.pktSignal die q)
      | 4 => some (Instr.pktWaitval die q)
      | _ => some (Instr.pktNop die q)

/-- Whether a packet's next gang can be placed, or a team frozen for it (R176, R378). -/
def State.placeDue (s : State) (die : Nat) (p : Packet) : Bool :=
  p.st == .placing &&
    (match p.block with
    | none => false
    | some b =>
      let asid := queueAsid die p.q
      (s.placeFor die b asid p.flock).isSome || (s.toFreeze die b asid).isSome)

/-- The event of a die. -/
def State.dieBg (s : State) (die : Nat) (d : Die) : Option Instr :=
  let done := (d.packets.find? s.packetDone).map (fun p => Instr.packetComplete die p.q p.idx)
  let place := (d.packets.find? (s.placeDue die)).map (fun p => Instr.gangPlace die p.q)
  let start := s.packetStart die
  let back := eventIf (d.evicted.any (fun t => (s.seatFor t).isSome)) (Instr.teamRestore die)
  let gang := (d.restores.find? (fun a =>
    (s.savedAt die a).isNone || (s.restorable die a).isSome)).map (Instr.gangRestore die)
  let inv := eventIf (!d.invs.isEmpty) (Instr.xlateInvComplete die)
  let stage := (d.l2Stage.find? (fun kv => kv.2.getLsbD 4)).map (fun kv => Instr.l2StageChangeDone die kv.1)
  let ecc := (d.eccLocs.find? (fun e => e.count != 0 && decide (e.opened + d.eccWindow ≤ s.ticks))).map (fun e =>
    Instr.eccWindowClose die e.cls e.inst e.loc)
  orEvent done (orEvent place (orEvent start (orEvent back (orEvent gang (orEvent inv (orEvent stage ecc))))))

/-- The event of a link end: a flit that its sender holds reaches the other end (R413), or a count's window is over
(R414). -/
def State.linkBg (s : State) (e : Nat) (x : LinkEnd) : Option Instr :=
  let l := s.link (e / 2)
  let flit := if l.up && !l.retraining then
      x.nextFlit.map (fun q => Instr.flitReceive (otherEnd e) { null := false, seq := BitVec.ofNat 10 q, crcOk := true, lane := none })
    else none
  let done := ([none] ++ x.laneCounts.map (fun (kv : Nat × Nat) => some kv.1)).find? (s.windowOver x)
  orEvent flit (done.map (Instr.errorWindowClose e))

/-- The event of a gang. -/
def State.gangBg (s : State) (gid : Nat) (g : Gang) : Option Instr :=
  orEvent (eventIf (s.gangDone gid g) (Instr.gangEnd gid)) (eventIf (s.saveReady gid g) (Instr.gangSaveComplete gid))

/-- A watching WAITVAL looks at its word again (R168); the queues take turns. -/
def State.watchBg (s : State) : Option Instr :=
  let ws := s.dies.flatMap (fun kv => (kv.2.packets.filter (fun p => p.st == .watching)).map (fun p => (kv.1, p.q)))
  match ws[s.pkg.clk % max 1 ws.length]? with
  | some (die, q) => some (Instr.waitvalRecheck die q)
  | none => none

/-- A list begun at another of its places: with the package's clock, every source of events comes first in its turn. -/
def turned {α : Type} (k : Nat) (l : List α) : List α := l.drop (k % max 1 l.length) ++ l.take (k % max 1 l.length)

/-- The machine's own event that comes next, if any. -/
def State.bgEvent (s : State) : Option Instr :=
  let k := s.pkg.clk
  let sources : List (Unit → Option Instr) := [
    fun _ => (turned k s.ctxs).findSome? (fun kv => s.ctxBg (ctxOfKey kv.1) kv.2),
    fun _ => (turned k s.folds).findSome? (fun kv => s.foldBg kv.1 kv.2),
    fun _ => s.gangs.findSome? (fun kv => s.gangBg kv.1 kv.2),
    fun _ => s.dies.findSome? (fun kv => s.dieBg kv.1 kv.2),
    fun _ => s.pkg.ends.findSome? (fun kv => s.linkBg kv.1 kv.2),
    fun _ => (s.pkg.links.find? (fun kv => kv.2.retraining)).map (fun kv => Instr.linkRetrainEnd kv.1),
    fun _ => if s.running then s.islandDue.map (fun x => Instr.islandStateChange x.1 x.2) else none,
    fun _ => s.watchBg,
    fun _ => if s.running then s.nextReq else none]
  (turned k sources).findSome? (fun f => f ())

/-! ## One step of the machine -/

/-- `cur` meets its next bundle: what is due at its boundary, the fetch, the decoded instruction, then the choice of the
team that issues next (R46, R183, R184, R450). When no team of `cur`'s can issue, only the choice is made. -/
noncomputable def State.turn (ex : Instr → State → Out3) (s : State) : Out3 :=
  if !s.mayIssue then .next s.resched
  else
    let x := s.approach
    if x.2 then .next x.1.resched
    else match x.1.ctx x.1.cur with
      | none => .next x.1.resched
      | some c =>
        let s1 := x.1.fetched x.1.cur c
        match x.1.fetch x.1.cur c with
        | .error e => .next (s1.fetchFault e).resched
        | .ok bytes => match decode bytes with
          | .error _ => .next s1.badHeader.resched
          | .ok i => match ex i s1 with
            | .next s2 => .next s2.resched
            | .fault e => .fault e
            | .refused e => .refused e

/-- A step: an input of the agenda, an event that is due, one of the machine's own events in turn with the bundles, or the
next bundle. A connection whose table entry is no longer valid has been disabled by then (R423). -/
noncomputable def State.stepWith (ex : Instr → State → Out3) (s : State) : Out3 :=
  let s := s.dropConns
  match s.agenda with
  | e :: r => ex e { s with agenda := r }
  | [] => match s.dueEvent with
    | some e => ex e s
    | none =>
      let own := if s.bgTurn then s.bgEvent else none
      match own with
      | some e => ex e { s with bgTurn := false }
      | none => { s with bgTurn := true }.turn ex

/-- The address at which a table row's bundle is placed: in die 0's near memory. -/
def slotAddr : Nat := 0x1000

/-- Fold 0's shadow context as it runs with nothing in flight, its PC at `slotAddr` (R369). -/
def slotCtx : Ctx := { Ctx.blank 32 32 with tid := 1, shadow := true, asid := 256, pc := 0x1000 }

/-- The state with bytes at `slotAddr` and fold 0's shadow context about to issue them: nothing else is due, translation in
its space is the identity (R451), no breakpoint of the fold is set, and the fold has power and a cycle to spend. -/
def State.placed (s : State) (bytes : List Byte) : State :=
  let bare (d : Die) : Die := { d with sroot := 0, islands := d.islands.filter (fun kv => kv.1 != 0) }
  let dies := if (Tbl.find s.dies 0).isSome then Tbl.upd s.dies 0 Die.fresh bare else s.dies
  { s with
    mem := Memory.writeN s.mem slotAddr bytes
    ctxs := [(CtxId.key { fold := 0, slot := CtxId.shadowSlot }, slotCtx)]
    folds := Tbl.upd s.folds 0 Fold.fresh (fun f => { f with brk := [], phase := 9, pass := none })
    dies := dies
    cur := { fold := 0, slot := CtxId.shadowSlot }
    agenda := []
    bgTurn := false }

end Sys2Proof.Machine
end

