-- ==== Sys2Proof/Machine/Bundle.lean ====
section
/-! DEFINITION. A bundle of several moves and a recall (R23, R31, R35): every trigger starts the operation of its unit's
opcode table. -/

namespace Sys2Proof.Machine

/-- The opcodes of SV (R61). -/
def svRows : List OpRow :=
  [ (255, 0x00, fun _ => startCsrr), (255, 0x01, fun _ => startCsrw), (255, 0x02, fun _ => startCsrs),
    (255, 0x03, fun _ => startCsrc), (255, 0x10, fun _ => startTrap), (255, 0x11, fun _ => startEret),
    (255, 0x12, fun _ => startReplay), (255, 0x13, fun _ => startBrk), (255, 0x20, fun _ => startSnap),
    (255, 0x30, fun _ => startCtx) ]

/-- The opcode table of a unit, SV among them. -/
def allRows (u : Nat) : List OpRow := if u = U.sv then svRows else unitRows u

/-- What a bundle's triggers start. An opcode that no table defines does not pass the issue checks. -/
def allUnits : Units :=
  { start := fun m => (rowStart (allRows m.dunit) m.dsel).getD noStart, need := needOf }

/-- R23. A plain or extended bundle at the PC reaches issue. -/
def execBundleIssue (b : RawBundle) (s : State) : Out3 :=
  issueBundle allUnits (fun s => rawAt b s.curPc (s.curPc + BitVec.ofNat 64 (2 * headerLength b.header))) s

/-- R35. A recall executes its mirror-table entry at the recall's address. -/
def execRecall (idx : BitVec 9) (s : State) : Out3 :=
  if s.canIssue then .next (s.issueRecall allUnits s.cur idx.toNat) else .fault .noIssuingContext

end Sys2Proof.Machine
end

