-- ==== Sys2Proof/Machine/Dispatch.lean ====
section
/-! DEFINITION. The meaning of every instruction: one arm for each constructor. -/

namespace Sys2Proof.Machine

def exec (i : Instr) (s : State) : Host.Outcome State Fault Refusal :=
  match i with
  | .bundleIssue b => Sys2Proof.Machine.execBundleIssue b s
  | .fetchLineFill c line => Sys2Proof.Machine.execFetchLineFill c line s
  | .fixedResultLand c u => Sys2Proof.Machine.execFixedResultLand c u s
  | .cmPredicateLand c => Sys2Proof.Machine.execCmPredicateLand c s
  | .idleCountEnd c => Sys2Proof.Machine.execIdleCountEnd c s
  | .xlBusyEnd c => Sys2Proof.Machine.execXlBusyEnd c s
  | .yieldEnd c => Sys2Proof.Machine.execYieldEnd c s
  | .yieldcResume c => Sys2Proof.Machine.execYieldcResume c s
  | .sfComplete c => Sys2Proof.Machine.execSfComplete c s
  | .xlLaneOpComplete c => Sys2Proof.Machine.execXlLaneOpComplete c s
  | .wideRegOpComplete c => Sys2Proof.Machine.execWideRegOpComplete c s
  | .loadComplete c => Sys2Proof.Machine.execLoadComplete c s
  | .atomicComplete c => Sys2Proof.Machine.execAtomicComplete c s
  | .storePerformed c => Sys2Proof.Machine.execStorePerformed c s
  | .fenceComplete c => Sys2Proof.Machine.execFenceComplete c s
  | .trapRouteU c => Sys2Proof.Machine.execTrapRouteU c s
  | .trapRouteS c => Sys2Proof.Machine.execTrapRouteS c s
  | .trapRouteH c => Sys2Proof.Machine.execTrapRouteH c s
  | .handlerReturn c => Sys2Proof.Machine.execHandlerReturn c s
  | .qnotify die q => Sys2Proof.Machine.execQnotify die q s
  | .queueEnable die q ent1 => Sys2Proof.Machine.execQueueEnable die q ent1 s
  | .queueDisable die q => Sys2Proof.Machine.execQueueDisable die q s
  | .pktNop die q => Sys2Proof.Machine.execPktNop die q s
  | .pktSignal die q => Sys2Proof.Machine.execPktSignal die q s
  | .pktWaitval die q => Sys2Proof.Machine.execPktWaitval die q s
  | .waitvalRecheck die q => Sys2Proof.Machine.execWaitvalRecheck die q s
  | .pktLaunch die q => Sys2Proof.Machine.execPktLaunch die q s
  | .pktLoop die q => Sys2Proof.Machine.execPktLoop die q s
  | .gangPlace die q => Sys2Proof.Machine.execGangPlace die q s
  | .packetComplete die q idx => Sys2Proof.Machine.execPacketComplete die q idx s
  | .gangEnd gang => Sys2Proof.Machine.execGangEnd gang s
  | .flockAbort flock => Sys2Proof.Machine.execFlockAbort flock s
  | .teamEvict fold => Sys2Proof.Machine.execTeamEvict fold s
  | .teamRestore die => Sys2Proof.Machine.execTeamRestore die s
  | .preemptRequest c => Sys2Proof.Machine.execPreemptRequest c s
  | .teamFreeze c => Sys2Proof.Machine.execTeamFreeze c s
  | .gangSaveComplete gang => Sys2Proof.Machine.execGangSaveComplete gang s
  | .gangRestore die addr => Sys2Proof.Machine.execGangRestore die addr s
  | .sectorFill gang fold sector => Sys2Proof.Machine.execSectorFill gang fold sector s
  | .smapBind c n v => Sys2Proof.Machine.execSmapBind c n v s
  | .smapUnbind c n v => Sys2Proof.Machine.execSmapUnbind c n v s
  | .mirrorSelWrite c v => Sys2Proof.Machine.execMirrorSelWrite c v s
  | .homeRequest fold rt write phys size => Sys2Proof.Machine.execHomeRequest fold rt write phys size s
  | .pageWalk die asid va write => Sys2Proof.Machine.execPageWalk die asid va write s
  | .accessCount fold asid va n => Sys2Proof.Machine.execAccessCount fold asid va n s
  | .xlateInv die v => Sys2Proof.Machine.execXlateInv die v s
  | .xlateInvComplete die => Sys2Proof.Machine.execXlateInvComplete die s
  | .l2StageWrite die slice v => Sys2Proof.Machine.execL2StageWrite die slice v s
  | .l2StageChangeDone die slice => Sys2Proof.Machine.execL2StageChangeDone die slice s
  | .dlogCtlWrite die v => Sys2Proof.Machine.execDlogCtlWrite die v s
  | .migqCtlWrite die v => Sys2Proof.Machine.execMigqCtlWrite die v s
  | .regionTableWrite die idx e => Sys2Proof.Machine.execRegionTableWrite die idx e s
  | .engineOpStart fold uid => Sys2Proof.Machine.execEngineOpStart fold uid s
  | .copyComplete fold uid => Sys2Proof.Machine.execCopyComplete fold uid s
  | .mxFormatBlockRead fold uid => Sys2Proof.Machine.execMxFormatBlockRead fold uid s
  | .mxDispatch fold => Sys2Proof.Machine.execMxDispatch fold s
  | .mxOpComplete fold uid => Sys2Proof.Machine.execMxOpComplete fold uid s
  | .mxBloadComplete fold uid => Sys2Proof.Machine.execMxBloadComplete fold uid s
  | .nxPacketSend fold uid => Sys2Proof.Machine.execNxPacketSend fold uid s
  | .nxPacketArrive p => Sys2Proof.Machine.execNxPacketArrive p s
  | .nxAckReceive conn acked sampleNs marked rttEnd => Sys2Proof.Machine.execNxAckReceive conn acked sampleNs marked rttEnd s
  | .nxRetransmitTimeout fold uid exhausted => Sys2Proof.Machine.execNxRetransmitTimeout fold uid exhausted s
  | .nxOpComplete fold uid => Sys2Proof.Machine.execNxOpComplete fold uid s
  | .landingCount die key n => Sys2Proof.Machine.execLandingCount die key n s
  | .remoteAccess c ans => Sys2Proof.Machine.execRemoteAccess c ans s
  | .ethLinkDown port => Sys2Proof.Machine.execEthLinkDown port s
  | .flitReceive linkEnd f => Sys2Proof.Machine.execFlitReceive linkEnd f s
  | .nakReceive linkEnd seq => Sys2Proof.Machine.execNakReceive linkEnd seq s
  | .errorWindowClose linkEnd lane => Sys2Proof.Machine.execErrorWindowClose linkEnd lane s
  | .linkRetrainEnd link => Sys2Proof.Machine.execLinkRetrainEnd link s
  | .lumenPortDown e => Sys2Proof.Machine.execLumenPortDown e s
  | .mgmtCsrRequest fold sel write v => Sys2Proof.Machine.execMgmtCsrRequest fold sel write v s
  | .ctrlResumeTeam c op => Sys2Proof.Machine.execCtrlResumeTeam c op s
  | .keyLoad die slot key => Sys2Proof.Machine.execKeyLoad die slot key s
  | .devIdWrite v => Sys2Proof.Machine.execDevIdWrite v s
  | .attestationRequest nonce => Sys2Proof.Machine.execAttestationRequest nonce s
  | .powerOnReset => Sys2Proof.Machine.execPowerOnReset s
  | .firmwareImageReceive image sig => Sys2Proof.Machine.execFirmwareImageReceive image sig s
  | .stopRequest fold v => Sys2Proof.Machine.execStopRequest fold v s
  | .snapshotLatch fold => Sys2Proof.Machine.execSnapshotLatch fold s
  | .sampleRecord fold => Sys2Proof.Machine.execSampleRecord fold s
  | .mxcCtlClr fold => Sys2Proof.Machine.execMxcCtlClr fold s
  | .eccCorrectedError die cls inst loc => Sys2Proof.Machine.execEccCorrectedError die cls inst loc s
  | .eccWindowClose die cls inst loc => Sys2Proof.Machine.execEccWindowClose die cls inst loc s
  | .islandFloorWrite die idx v => Sys2Proof.Machine.execIslandFloorWrite die idx v s
  | .islandStateChange die idx => Sys2Proof.Machine.execIslandStateChange die idx s
  | .powerWindowEnd watts => Sys2Proof.Machine.execPowerWindowEnd watts s
  | .thermalSample die dram logic => Sys2Proof.Machine.execThermalSample die dram logic s
  | .registerWrite by_ fold sel v => Sys2Proof.Machine.execRegisterWrite by_ fold sel v s
  | .moveToG reg m => Sys2Proof.Machine.execMoveToG reg m s
  | .moveToS reg m => Sys2Proof.Machine.execMoveToS reg m s
  | .moveToK reg m => Sys2Proof.Machine.execMoveToK reg m s
  | .moveToPort dunit dport modf m => Sys2Proof.Machine.execMoveToPort dunit dport modf m s
  | .recall idx => Sys2Proof.Machine.execRecall idx s
  | .idle icnt => Sys2Proof.Machine.execIdle icnt s
  | .iaAdd m => Sys2Proof.Machine.execIaAdd m s
  | .iaSub m => Sys2Proof.Machine.execIaSub m s
  | .iaRsub m => Sys2Proof.Machine.execIaRsub m s
  | .iaNeg m => Sys2Proof.Machine.execIaNeg m s
  | .iaAnd m => Sys2Proof.Machine.execIaAnd m s
  | .iaOr m => Sys2Proof.Machine.execIaOr m s
  | .iaXor m => Sys2Proof.Machine.execIaXor m s
  | .iaAndn m => Sys2Proof.Machine.execIaAndn m s
  | .iaOrn m => Sys2Proof.Machine.execIaOrn m s
  | .iaMinS m => Sys2Proof.Machine.execIaMinS m s
  | .iaMinN m => Sys2Proof.Machine.execIaMinN m s
  | .iaMaxS m => Sys2Proof.Machine.execIaMaxS m s
  | .iaMaxN m => Sys2Proof.Machine.execIaMaxN m s
  | .iaAbs m => Sys2Proof.Machine.execIaAbs m s
  | .iaAddSatS m => Sys2Proof.Machine.execIaAddSatS m s
  | .iaAddSatN m => Sys2Proof.Machine.execIaAddSatN m s
  | .iaSubSatS m => Sys2Proof.Machine.execIaSubSatS m s
  | .iaSubSatN m => Sys2Proof.Machine.execIaSubSatN m s
  | .iaAvgN m => Sys2Proof.Machine.execIaAvgN m s
  | .iaAbsdN m => Sys2Proof.Machine.execIaAbsdN m s
  | .iaMov m => Sys2Proof.Machine.execIaMov m s
  | .iaAddsh1 m => Sys2Proof.Machine.execIaAddsh1 m s
  | .iaAddsh2 m => Sys2Proof.Machine.execIaAddsh2 m s
  | .iaAddsh3 m => Sys2Proof.Machine.execIaAddsh3 m s
  | .iaAddc m => Sys2Proof.Machine.execIaAddc m s
  | .iaSubb m => Sys2Proof.Machine.execIaSubb m s
  | .ibAdd m => Sys2Proof.Machine.execIbAdd m s
  | .ibSub m => Sys2Proof.Machine.execIbSub m s
  | .ibRsub m => Sys2Proof.Machine.execIbRsub m s
  | .ibNeg m => Sys2Proof.Machine.execIbNeg m s
  | .ibAnd m => Sys2Proof.Machine.execIbAnd m s
  | .ibOr m => Sys2Proof.Machine.execIbOr m s
  | .ibXor m => Sys2Proof.Machine.execIbXor m s
  | .ibAndn m => Sys2Proof.Machine.execIbAndn m s
  | .ibOrn m => Sys2Proof.Machine.execIbOrn m s
  | .ibMinS m => Sys2Proof.Machine.execIbMinS m s
  | .ibMinN m => Sys2Proof.Machine.execIbMinN m s
  | .ibMaxS m => Sys2Proof.Machine.execIbMaxS m s
  | .ibMaxN m => Sys2Proof.Machine.execIbMaxN m s
  | .ibAbs m => Sys2Proof.Machine.execIbAbs m s
  | .ibAddSatS m => Sys2Proof.Machine.execIbAddSatS m s
  | .ibAddSatN m => Sys2Proof.Machine.execIbAddSatN m s
  | .ibSubSatS m => Sys2Proof.Machine.execIbSubSatS m s
  | .ibSubSatN m => Sys2Proof.Machine.execIbSubSatN m s
  | .ibAvgN m => Sys2Proof.Machine.execIbAvgN m s
  | .ibAbsdN m => Sys2Proof.Machine.execIbAbsdN m s
  | .ibMov m => Sys2Proof.Machine.execIbMov m s
  | .ibAddsh1 m => Sys2Proof.Machine.execIbAddsh1 m s
  | .ibAddsh2 m => Sys2Proof.Machine.execIbAddsh2 m s
  | .ibAddsh3 m => Sys2Proof.Machine.execIbAddsh3 m s
  | .ibAddc m => Sys2Proof.Machine.execIbAddc m s
  | .ibSubb m => Sys2Proof.Machine.execIbSubb m s
  | .shShl m => Sys2Proof.Machine.execShShl m s
  | .shShrN m => Sys2Proof.Machine.execShShrN m s
  | .shShrS m => Sys2Proof.Machine.execShShrS m s
  | .shRotl m => Sys2Proof.Machine.execShRotl m s
  | .shRotr m => Sys2Proof.Machine.execShRotr m s
  | .shBfxN m => Sys2Proof.Machine.execShBfxN m s
  | .shBfxS m => Sys2Proof.Machine.execShBfxS m s
  | .shBfi m => Sys2Proof.Machine.execShBfi m s
  | .shClz m => Sys2Proof.Machine.execShClz m s
  | .shCtz m => Sys2Proof.Machine.execShCtz m s
  | .shPopc m => Sys2Proof.Machine.execShPopc m s
  | .shBrev m => Sys2Proof.Machine.execShBrev m s
  | .shBswap m => Sys2Proof.Machine.execShBswap m s
  | .shFshl m => Sys2Proof.Machine.execShFshl m s
  | .shFshr m => Sys2Proof.Machine.execShFshr m s
  | .shPklo m => Sys2Proof.Machine.execShPklo m s
  | .shPkhi m => Sys2Proof.Machine.execShPkhi m s
  | .shSext8 m => Sys2Proof.Machine.execShSext8 m s
  | .shSext16 m => Sys2Proof.Machine.execShSext16 m s
  | .shZext8 m => Sys2Proof.Machine.execShZext8 m s
  | .shZext16 m => Sys2Proof.Machine.execShZext16 m s
  | .imMulLo m => Sys2Proof.Machine.execImMulLo m s
  | .imMulHiS m => Sys2Proof.Machine.execImMulHiS m s
  | .imMulHiN m => Sys2Proof.Machine.execImMulHiN m s
  | .imMadLo m => Sys2Proof.Machine.execImMadLo m s
  | .imDot4S8 m => Sys2Proof.Machine.execImDot4S8 m s
  | .imDot4N8 m => Sys2Proof.Machine.execImDot4N8 m s
  | .imDot2S16 m => Sys2Proof.Machine.execImDot2S16 m s
  | .uaAdd m => Sys2Proof.Machine.execUaAdd m s
  | .uaSub m => Sys2Proof.Machine.execUaSub m s
  | .uaAnd m => Sys2Proof.Machine.execUaAnd m s
  | .uaOr m => Sys2Proof.Machine.execUaOr m s
  | .uaXor m => Sys2Proof.Machine.execUaXor m s
  | .uaShl m => Sys2Proof.Machine.execUaShl m s
  | .uaShrN m => Sys2Proof.Machine.execUaShrN m s
  | .uaShrS m => Sys2Proof.Machine.execUaShrS m s
  | .uaMul m => Sys2Proof.Machine.execUaMul m s
  | .uaMinS m => Sys2Proof.Machine.execUaMinS m s
  | .uaMinN m => Sys2Proof.Machine.execUaMinN m s
  | .uaMaxS m => Sys2Proof.Machine.execUaMaxS m s
  | .uaMaxN m => Sys2Proof.Machine.execUaMaxN m s
  | .uaSel m => Sys2Proof.Machine.execUaSel m s
  | .uaCmpEq m => Sys2Proof.Machine.execUaCmpEq m s
  | .uaCmpNe m => Sys2Proof.Machine.execUaCmpNe m s
  | .uaCmpLtS m => Sys2Proof.Machine.execUaCmpLtS m s
  | .uaCmpLtN m => Sys2Proof.Machine.execUaCmpLtN m s
  | .uaCmpLeS m => Sys2Proof.Machine.execUaCmpLeS m s
  | .uaCmpLeN m => Sys2Proof.Machine.execUaCmpLeN m s
  | .uaCmpGtS m => Sys2Proof.Machine.execUaCmpGtS m s
  | .uaCmpGtN m => Sys2Proof.Machine.execUaCmpGtN m s
  | .cmCmpEq kdst m => Sys2Proof.Machine.execCmCmpEq kdst m s
  | .cmKset kdst m => Sys2Proof.Machine.execCmKset kdst m s
  | .cmCmpEqFo kdst m => Sys2Proof.Machine.execCmCmpEqFo kdst m s
  | .cmCmpEqFu kdst m => Sys2Proof.Machine.execCmCmpEqFu kdst m s
  | .cmCmpNe kdst m => Sys2Proof.Machine.execCmCmpNe kdst m s
  | .cmCmpNeFo kdst m => Sys2Proof.Machine.execCmCmpNeFo kdst m s
  | .cmCmpNeFu kdst m => Sys2Proof.Machine.execCmCmpNeFu kdst m s
  | .cmCmpLt kind kdst m => Sys2Proof.Machine.execCmCmpLt kind kdst m s
  | .cmCmpLe kind kdst m => Sys2Proof.Machine.execCmCmpLe kind kdst m s
  | .cmCmpGt kind kdst m => Sys2Proof.Machine.execCmCmpGt kind kdst m s
  | .cmCmpGe kind kdst m => Sys2Proof.Machine.execCmCmpGe kind kdst m s
  | .cmPlogAnd kdst m => Sys2Proof.Machine.execCmPlogAnd kdst m s
  | .cmPlogOr kdst m => Sys2Proof.Machine.execCmPlogOr kdst m s
  | .cmPlogXor kdst m => Sys2Proof.Machine.execCmPlogXor kdst m s
  | .cmPlogAndn kdst m => Sys2Proof.Machine.execCmPlogAndn kdst m s
  | .cmPlogOrn kdst m => Sys2Proof.Machine.execCmPlogOrn kdst m s
  | .cmPlogNand kdst m => Sys2Proof.Machine.execCmPlogNand kdst m s
  | .cmPlogNor kdst m => Sys2Proof.Machine.execCmPlogNor kdst m s
  | .cmPlogXnor kdst m => Sys2Proof.Machine.execCmPlogXnor kdst m s
  | .brBr m => Sys2Proof.Machine.execBrBr m s
  | .brAny kdst m => Sys2Proof.Machine.execBrAny kdst m s
  | .brAll kdst m => Sys2Proof.Machine.execBrAll kdst m s
  | .brNone kdst m => Sys2Proof.Machine.execBrNone kdst m s
  | .brSZ m => Sys2Proof.Machine.execBrSZ m s
  | .brSNz m => Sys2Proof.Machine.execBrSNz m s
  | .brSLt m => Sys2Proof.Machine.execBrSLt m s
  | .brSGe m => Sys2Proof.Machine.execBrSGe m s
  | .brCall m => Sys2Proof.Machine.execBrCall m s
  | .brRet m => Sys2Proof.Machine.execBrRet m s
  | .brJr m => Sys2Proof.Machine.execBrJr m s
  | .brExit m => Sys2Proof.Machine.execBrExit m s
  | .brLexit m => Sys2Proof.Machine.execBrLexit m s
  | .faFadd ty rnd ftz m => Sys2Proof.Machine.execFaFadd ty rnd ftz m s
  | .faFsub ty rnd ftz m => Sys2Proof.Machine.execFaFsub ty rnd ftz m s
  | .faFmul ty rnd ftz m => Sys2Proof.Machine.execFaFmul ty rnd ftz m s
  | .faFma ty rnd ftz m => Sys2Proof.Machine.execFaFma ty rnd ftz m s
  | .faFnma ty rnd ftz m => Sys2Proof.Machine.execFaFnma ty rnd ftz m s
  | .faFmin ty rnd ftz m => Sys2Proof.Machine.execFaFmin ty rnd ftz m s
  | .faFmax ty rnd ftz m => Sys2Proof.Machine.execFaFmax ty rnd ftz m s
  | .faFdot2 ty rnd ftz m => Sys2Proof.Machine.execFaFdot2 ty rnd ftz m s
  | .fbFadd ty rnd ftz m => Sys2Proof.Machine.execFbFadd ty rnd ftz m s
  | .fbFsub ty rnd ftz m => Sys2Proof.Machine.execFbFsub ty rnd ftz m s
  | .fbFmul ty rnd ftz m => Sys2Proof.Machine.execFbFmul ty rnd ftz m s
  | .fbFma ty rnd ftz m => Sys2Proof.Machine.execFbFma ty rnd ftz m s
  | .fbFnma ty rnd ftz m => Sys2Proof.Machine.execFbFnma ty rnd ftz m s
  | .fbFmin ty rnd ftz m => Sys2Proof.Machine.execFbFmin ty rnd ftz m s
  | .fbFmax ty rnd ftz m => Sys2Proof.Machine.execFbFmax ty rnd ftz m s
  | .fbFdot2 ty rnd ftz m => Sys2Proof.Machine.execFbFdot2 ty rnd ftz m s
  | .cvCvt pair rnd sat m => Sys2Proof.Machine.execCvCvt pair rnd sat m s
  | .cvFabs ty m => Sys2Proof.Machine.execCvFabs ty m s
  | .cvFneg ty m => Sys2Proof.Machine.execCvFneg ty m s
  | .cvFclass ty m => Sys2Proof.Machine.execCvFclass ty m s
  | .cvFrexp ty m => Sys2Proof.Machine.execCvFrexp ty m s
  | .cvFrint rnd ty m => Sys2Proof.Machine.execCvFrint rnd ty m s
  | .cvLdexp ty m => Sys2Proof.Machine.execCvLdexp ty m s
  | .cvCvtFmTo fm rz m => Sys2Proof.Machine.execCvCvtFmTo fm rz m s
  | .cvCvtFmFrom fm m => Sys2Proof.Machine.execCvCvtFmFrom fm m s
  | .sfRcp ty m => Sys2Proof.Machine.execSfRcp ty m s
  | .sfRsqrt ty m => Sys2Proof.Machine.execSfRsqrt ty m s
  | .sfSqrt ty m => Sys2Proof.Machine.execSfSqrt ty m s
  | .sfExp2 ty m => Sys2Proof.Machine.execSfExp2 ty m s
  | .sfLog2 ty m => Sys2Proof.Machine.execSfLog2 ty m s
  | .sfSin ty m => Sys2Proof.Machine.execSfSin ty m s
  | .sfCos ty m => Sys2Proof.Machine.execSfCos ty m s
  | .sfTanh ty m => Sys2Proof.Machine.execSfTanh ty m s
  | .sfDiv ty m => Sys2Proof.Machine.execSfDiv ty m s
  | .xlShflIdx m => Sys2Proof.Machine.execXlShflIdx m s
  | .xlShflUp m => Sys2Proof.Machine.execXlShflUp m s
  | .xlShflDn m => Sys2Proof.Machine.execXlShflDn m s
  | .xlShflXor m => Sys2Proof.Machine.execXlShflXor m s
  | .xlBcast m => Sys2Proof.Machine.execXlBcast m s
  | .xlVoteAny m => Sys2Proof.Machine.execXlVoteAny m s
  | .xlVoteAll m => Sys2Proof.Machine.execXlVoteAll m s
  | .xlBallot m => Sys2Proof.Machine.execXlBallot m s
  | .xlScanAddI32 m => Sys2Proof.Machine.execXlScanAddI32 m s
  | .xlScanAddF32 m => Sys2Proof.Machine.execXlScanAddF32 m s
  | .xlRedAddI32 m => Sys2Proof.Machine.execXlRedAddI32 m s
  | .xlRedAddF32 m => Sys2Proof.Machine.execXlRedAddF32 m s
  | .xlRedMinS m => Sys2Proof.Machine.execXlRedMinS m s
  | .xlRedMinN m => Sys2Proof.Machine.execXlRedMinN m s
  | .xlRedMinF32 m => Sys2Proof.Machine.execXlRedMinF32 m s
  | .xlRedMaxS m => Sys2Proof.Machine.execXlRedMaxS m s
  | .xlRedMaxN m => Sys2Proof.Machine.execXlRedMaxN m s
  | .xlRedMaxF32 m => Sys2Proof.Machine.execXlRedMaxF32 m s
  | .xlWrLd m => Sys2Proof.Machine.execXlWrLd m s
  | .xlWrSt m => Sys2Proof.Machine.execXlWrSt m s
  | .xlWrRotr m => Sys2Proof.Machine.execXlWrRotr m s
  | .xlWrRotc m => Sys2Proof.Machine.execXlWrRotc m s
  | .xlWrBcr m => Sys2Proof.Machine.execXlWrBcr m s
  | .xlWrBcc m => Sys2Proof.Machine.execXlWrBcc m s
  | .xlWrRedr m => Sys2Proof.Machine.execXlWrRedr m s
  | .xlWrRedc m => Sys2Proof.Machine.execXlWrRedc m s
  | .xlWrZero m => Sys2Proof.Machine.execXlWrZero m s
  | .xlWrPack m => Sys2Proof.Machine.execXlWrPack m s
  | .laLd size sgn rt m => Sys2Proof.Machine.execLaLd size sgn rt m s
  | .laLdAcq size sgn rt m => Sys2Proof.Machine.execLaLdAcq size sgn rt m s
  | .laLdAcqRem size sgn rt m => Sys2Proof.Machine.execLaLdAcqRem size sgn rt m s
  | .laPf rt m => Sys2Proof.Machine.execLaPf rt m s
  | .lbLd size sgn rt m => Sys2Proof.Machine.execLbLd size sgn rt m s
  | .lbLdAcq size sgn rt m => Sys2Proof.Machine.execLbLdAcq size sgn rt m s
  | .lbLdAcqRem size sgn rt m => Sys2Proof.Machine.execLbLdAcqRem size sgn rt m s
  | .lbPf rt m => Sys2Proof.Machine.execLbPf rt m s
  | .stSt size rt m => Sys2Proof.Machine.execStSt size rt m s
  | .stStRel size rt m => Sys2Proof.Machine.execStStRel size rt m s
  | .stWb m => Sys2Proof.Machine.execStWb m s
  | .stInv m => Sys2Proof.Machine.execStInv m s
  | .stFlush m => Sys2Proof.Machine.execStFlush m s
  | .atAdd rem ord size m => Sys2Proof.Machine.execAtAdd rem ord size m s
  | .atSub rem ord size m => Sys2Proof.Machine.execAtSub rem ord size m s
  | .atAnd rem ord size m => Sys2Proof.Machine.execAtAnd rem ord size m s
  | .atOr rem ord size m => Sys2Proof.Machine.execAtOr rem ord size m s
  | .atXor rem ord size m => Sys2Proof.Machine.execAtXor rem ord size m s
  | .atMinS rem ord size m => Sys2Proof.Machine.execAtMinS rem ord size m s
  | .atMinN rem ord size m => Sys2Proof.Machine.execAtMinN rem ord size m s
  | .atMaxS rem ord size m => Sys2Proof.Machine.execAtMaxS rem ord size m s
  | .atMaxN rem ord size m => Sys2Proof.Machine.execAtMaxN rem ord size m s
  | .atXchg rem ord size m => Sys2Proof.Machine.execAtXchg rem ord size m s
  | .atCas rem ord size m => Sys2Proof.Machine.execAtCas rem ord size m s
  | .atFaddF32 rem ord size m => Sys2Proof.Machine.execAtFaddF32 rem ord size m s
  | .atFaddBf16x2 rem ord size m => Sys2Proof.Machine.execAtFaddBf16x2 rem ord size m s
  | .syBarArr bar m => Sys2Proof.Machine.execSyBarArr bar m s
  | .syBarWait bar m => Sys2Proof.Machine.execSyBarWait bar m s
  | .syBarSync bar m => Sys2Proof.Machine.execSyBarSync bar m s
  | .syFence m => Sys2Proof.Machine.execSyFence m s
  | .syFset flag m => Sys2Proof.Machine.execSyFset flag m s
  | .syFclr flag m => Sys2Proof.Machine.execSyFclr flag m s
  | .syYield m => Sys2Proof.Machine.execSyYield m s
  | .syYieldc flag m => Sys2Proof.Machine.execSyYieldc flag m s
  | .syRacq ring m => Sys2Proof.Machine.execSyRacq ring m s
  | .syRcom ring m => Sys2Proof.Machine.execSyRcom ring m s
  | .syRwait ring m => Sys2Proof.Machine.execSyRwait ring m s
  | .syRrel ring m => Sys2Proof.Machine.execSyRrel ring m s
  | .syRgrow m => Sys2Proof.Machine.execSyRgrow m s
  | .syRshrink m => Sys2Proof.Machine.execSyRshrink m s
  | .syClaim m => Sys2Proof.Machine.execSyClaim m s
  | .syUnclaim m => Sys2Proof.Machine.execSyUnclaim m s
  | .syRgn m => Sys2Proof.Machine.execSyRgn m s
  | .mxBload bank m => Sys2Proof.Machine.execMxBload bank m s
  | .mxMma bank m => Sys2Proof.Machine.execMxMma bank m s
  | .mxMmap bank m => Sys2Proof.Machine.execMxMmap bank m s
  | .mxZero m => Sys2Proof.Machine.execMxZero m s
  | .mxDrain m => Sys2Proof.Machine.execMxDrain m s
  | .mxAload m => Sys2Proof.Machine.execMxAload m s
  | .mxFmt m => Sys2Proof.Machine.execMxFmt m s
  | .mxStat m => Sys2Proof.Machine.execMxStat m s
  | .cpCopy m => Sys2Proof.Machine.execCpCopy m s
  | .cpCopy2d m => Sys2Proof.Machine.execCpCopy2d m s
  | .cpCopy3d m => Sys2Proof.Machine.execCpCopy3d m s
  | .cpStage m => Sys2Proof.Machine.execCpStage m s
  | .cpGather m => Sys2Proof.Machine.execCpGather m s
  | .cpScatter m => Sys2Proof.Machine.execCpScatter m s
  | .cpFill m => Sys2Proof.Machine.execCpFill m s
  | .cpAccin m => Sys2Proof.Machine.execCpAccin m s
  | .cpAccout m => Sys2Proof.Machine.execCpAccout m s
  | .nxPut m => Sys2Proof.Machine.execNxPut m s
  | .nxGet m => Sys2Proof.Machine.execNxGet m s
  | .nxAtom m => Sys2Proof.Machine.execNxAtom m s
  | .nxSend m => Sys2Proof.Machine.execNxSend m s
  | .nxBind m => Sys2Proof.Machine.execNxBind m s
  | .nxCstate m => Sys2Proof.Machine.execNxCstate m s
  | .nxLkrate m => Sys2Proof.Machine.execNxLkrate m s
  | .nxLkwatch m => Sys2Proof.Machine.execNxLkwatch m s
  | .nxLkstat m => Sys2Proof.Machine.execNxLkstat m s
  | .svCsrr m => Sys2Proof.Machine.execSvCsrr m s
  | .svCsrw m => Sys2Proof.Machine.execSvCsrw m s
  | .svCsrs m => Sys2Proof.Machine.execSvCsrs m s
  | .svCsrc m => Sys2Proof.Machine.execSvCsrc m s
  | .svTrap m => Sys2Proof.Machine.execSvTrap m s
  | .svEret m => Sys2Proof.Machine.execSvEret m s
  | .svReplay m => Sys2Proof.Machine.execSvReplay m s
  | .svBrk m => Sys2Proof.Machine.execSvBrk m s
  | .svSnap m => Sys2Proof.Machine.execSvSnap m s
  | .svCtxNextev m => Sys2Proof.Machine.execSvCtxNextev m s
  | .svCtxRead m => Sys2Proof.Machine.execSvCtxRead m s
  | .svCtxWrite m => Sys2Proof.Machine.execSvCtxWrite m s
  | .svCtxFreeze m => Sys2Proof.Machine.execSvCtxFreeze m s
  | .svCtxSave m => Sys2Proof.Machine.execSvCtxSave m s
  | .svCtxRestore m => Sys2Proof.Machine.execSvCtxRestore m s
  | .svCtxKill m => Sys2Proof.Machine.execSvCtxKill m s
  | .svOpComplete c => Sys2Proof.Machine.execSvOpComplete c s
  | .claimComplete c => Sys2Proof.Machine.execClaimComplete c s
  | .watchdogExpiry c => Sys2Proof.Machine.execWatchdogExpiry c s
  | .packagePowerOff => Sys2Proof.Machine.execPackagePowerOff s
  | .measurementExtend n component => Sys2Proof.Machine.execMeasurementExtend n component s

end Sys2Proof.Machine
end

