-- ==== Sys2Proof/Safety.lean ====
section
/-! DEFINITION. The terms in which claims are stated: a memory in its canonical form, the conditions under which a bundle
executes rather than traps or waits, what every executed bundle changes, and what it leaves as it was. -/

namespace Sys2Proof.Machine

/-- The memory is in its canonical form. -/
def State.memOk (s : State) : Prop := Memory.wf s.mem = true

/-! ## When a bundle executes -/

/-- The conditions under which the context `c0` that `cur` names executes the bundle `b` in place of a trap or a wait,
rule by rule. They speak of the context with the results that are due landed (R16). -/
structure State.Clear (s : State) (c0 : Ctx) (b : Bundle) : Prop where
  here : s.ctx s.cur = some c0
  /-- R176, R369: `cur` names one of the 32 slots or the shadow context. -/
  place : s.cur.slot ≤ CtxId.shadowSlot
  /-- R183, R377: the context is Ready, not Frozen, not stopped. -/
  ready : c0.ready = true
  /-- R141, R361: no acquire of the team is outstanding. -/
  acq : s.acqOut s.cur c0.land = none
  /-- R450: no trap is due at this boundary. -/
  due : c0.land.nextDue = none
  /-- R114: the bundle does not meet a pending trap of SF. -/
  sf : ∀ t, c0.land.us.sfTrap = some t → c0.land.meetsSf b t = false
  /-- R393: no breakpoint stands before the bundle. -/
  brk : s.breaks s.cur c0.land = false
  /-- R279: no fence is pending. -/
  fence : c0.land.us.fence = none
  /-- R26: the bundle passes the checks at issue. -/
  checks : c0.land.failing b (decide ((s.fold s.cur.fold).cycle < c0.land.us.xlBusy)) = []
  /-- R38: every flag the bundle waits on reads 1. -/
  flags : b.isExt = true → c0.land.us.zeros b.wait = []
  /-- R361: no R that the bundle reads holds a token. -/
  token : c0.land.tokenRead b = none
  /-- R18: every R that the bundle reads is full. -/
  full : c0.land.emptyRead b = none
  /-- R362: before a fence, a release, a barrier arrival, a flag wait or an exit the store fault buffer is empty. -/
  sfb : c0.land.meetsSfb b = true → c0.land.sfb = []
  /-- R98, R258, R270: before an exit, a release, a barrier arrival or a ring commit the team's stores are performed. -/
  stores : c0.land.afterStores b = true → s.storesOut s.cur c0.land = false
  /-- R258, R261: before a barrier arrival, a ring commit or a ring release the team's loads have returned. -/
  loads : c0.land.afterLoads b = true → c0.land.memq = []
  /-- R250: the fold holds fewer than 64 writes whose page's translation changes. -/
  held : c0.land.trigs b (fun u _ => u == U.st || u == U.at_) = true → (s.fold s.cur.fold).held.length < 64
  /-- R161, R306: the wide-register path is free, and no engine operation has still to read the wide registers. -/
  wide : c0.land.trigs b (fun u o => u == 10 && 0x40 ≤ o) = true →
    (s.fold s.cur.fold).widePath ≤ (s.fold s.cur.fold).cycle ∧
      (s.fold s.cur.fold).unread (s.fold s.cur.fold).lockSeq = false
  /-- R197: no step of a loop-record task is running. -/
  loop : ∀ q, c0.loop = some q → q.started = false

/-! ## What an executed bundle changes and leaves -/

/-- A context but for its wait and its stall counters, which the cycles of other contexts' bundles change (R185, R190,
R386), and but for what the landing of a result changes while an idle bundle holds the team (R16, R34). -/
def Ctx.still (c : Ctx) : Ctx :=
  match c.wait with
  | .idle _ => { c with wait := .ready, stall := [], us := { c.us with units := [], pend := [] }, k := [], fpCtl := 0,
                        due := [] }
  | _ => { c with wait := .ready, stall := [] }

/-- A fold but for what passes with its cycles: the clock, the accounts of cycles, the samples that are due and the passes
of a bundle that are still to come (R145, R336, R385, R386, R395), and but for its self-invalidating copies, which an
observed completion drops (R220, R267). -/
def Fold.still (f : Fold) : Fold :=
  { f.dropSi with cycle := 0, phase := 0, stallFold := [], mxc := [], mxcOvf := [], samples := [], pass := none }

/-- Everything but `cur`'s context is as before, but for what passes with a cycle: every byte of memory, every other
context, every fold, gang and die, the package and what it has sent. -/
structure State.Frame (s t : State) : Prop where
  mem : ∀ a, Memory.read t.mem a = Memory.read s.mem a
  ctxs : ∀ id, CtxId.key id ≠ CtxId.key s.cur → (t.ctx id).map Ctx.still = (s.ctx id).map Ctx.still
  folds : ∀ f, (t.fold f).still = (s.fold f).still
  gangs : t.gangs = s.gangs
  dies : t.dies = s.dies
  pkg : t.pkg = s.pkg
  cur : t.cur = s.cur
  agenda : t.agenda = s.agenda
  bgTurn : t.bgTurn = s.bgTurn
  nextId : t.nextId = s.nextId
  free : t.free = s.free

/-- The context after a bundle that leaves its unit state at `us` (R28, R353): PC at the bundle that follows, one more
bundle counted, the numbers of its operations used up; registers, special registers and predicates as they were. -/
def Ctx.after (c : Ctx) (b : Bundle) (now : Nat) (us : UnitState) : Ctx :=
  { c with us := us, pc := b.next, sched := (c.sched + 1) % 2 ^ 48, nextUid := c.nextUid + 8, lastIssue := now,
           brkSkip := false }

/-- The context is `x` but for its stall counters (R386) and the trap of a single step (R394), which is due only when
TSTATUS.SS is set. -/
def Ctx.Is (c x : Ctx) : Prop :=
  c = { x with stall := c.stall, due := c.due } ∧ (x.tstatus.getLsbD 9 = false → c.due = x.due)

/-- The results in flight after a bundle (R16): each count is one less. -/
def UnitState.ticked (us : UnitState) : UnitState :=
  { us with pend := us.pend.map (fun p => { p with left := p.left - 1 }) }

/-- What the trigger move writes into T of its unit (R23): the value of its source on each lane that its guard admits. -/
def Ctx.withT (c : Ctx) (b : Bundle) (m : Move) : UnitState :=
  let p := c.us.unit m.dunit
  let v := writeVals (uniformPort m.dunit 3) c.nlanes (c.guardMask m) p.held (fun l _ => c.src b m l)
  c.us.setUnit m.dunit { p with held := v }

/-- The trigger that the one move of a bundle makes (R18, R23). -/
def Ctx.trigOf (c : Ctx) (b : Bundle) (m : Move) : Trig :=
  { unit := m.dunit, opcode := BitVec.ofNat 8 m.dsel, slot := m.slot, mask := c.guardMask m, uid := c.nextUid + m.slot,
    cleared := [], scope := 0, pc := b.pc, next := b.next, cycle := BitVec.ofNat 64 c.sched, preds := c.k }

/-- The unit state with which the operation of the one move of a bundle starts: its T is written, and R of a
variable-latency unit is empty (R18, R23). -/
def Ctx.begun (c : Ctx) (b : Bundle) (m : Move) : UnitState :=
  if isVar m.dunit then (c.withT b m).emptyR m.dunit (c.nextUid + m.slot) else c.withT b m

/-! ## The rows of the fixed-latency units -/

/-- A fixed-latency operation lane by lane: its instruction, its opcode, what a lane's A, B, T and carry latch give, the
latch's new value where the operation has one, the predicate of a compare, and the lane's exceptions. -/
structure FixedRow where
  instr : MoveF → Instr
  unit : Nat
  opcode : Nat
  value : W32 → W32 → W32 → Bool → W64
  carry : Option (W32 → W32 → Bool → Bool)
  kdst : BitVec 3
  exc : W32 → W32 → W32 → BitVec 5

/-- An integer row. -/
def FixedRow.int (i : MoveF → Instr) (u o : Nat) (f : W32 → W32 → W32 → Bool → W32)
    (k : Option (W32 → W32 → Bool → Bool)) : FixedRow :=
  { instr := i, unit := u, opcode := o, value := fun a b t c => zx (f a b t c), carry := k, kdst := 0,
    exc := fun _ _ _ => 0 }

/-- A row of CM: the bit goes to predicate `k`. -/
def FixedRow.compare (i : MoveF → Instr) (o : Nat) (k : BitVec 3) (f : W32 → W32 → Bool) : FixedRow :=
  { instr := i, unit := U.cm, opcode := o, value := fun a _ t _ => b2w (f a t), carry := none, kdst := k,
    exc := fun _ _ _ => 0 }

/-- A floating-point row: a code and its exceptions. -/
def FixedRow.fp (i : MoveF → Instr) (u o : Nat) (f : Nat → Nat → Nat → Nat × BitVec 5) : FixedRow :=
  { instr := i, unit := u, opcode := o, value := fun a b t _ => zx (BitVec.ofNat 32 (f a.toNat b.toNat t.toNat).1),
    carry := none, kdst := 0, exc := fun a b t => (f a.toNat b.toNat t.toNat).2 }

/-- The bundle of the row's one move where `cur` stands, and its move. -/
def FixedRow.word (r : FixedRow) (m : MoveF) : W32 := syllable true r.unit 3 r.opcode m

/-- The row's result on lane `l`, from the ports as they stand after the move has written T (R23). -/
def FixedRow.onLane (r : FixedRow) (c : Ctx) (b : Bundle) (m : Move) (l : Nat) : W64 :=
  r.value (lo32 ((c.us.unit r.unit).a.at l)) (lo32 ((c.us.unit r.unit).b.at l)) (lo32 (c.src b m l))
    ((c.us.unit r.unit).carry.getLsbD l)

/-- What executing the row in state `s` does (R16, R23, R84 to R93, R113): it answers a next state in which one more result
is in flight, to land after the unit's latency on the triggered lanes with the row's values, carry bits and exceptions;
PC and SCHED_CYCLE advance, T of the unit is written, and nothing else changes. -/
def FixedRow.Runs (r : FixedRow) (m : MoveF) (s : State) (c0 : Ctx) : Prop :=
  let b := Bundle.one (r.word m) s.curPc
  let mv := Move.of 0 (r.word m)
  let c := c0.land
  ∃ t c' p, Sys2Proof.Machine.exec (r.instr m) s = .next t ∧ t.ctx s.cur = some c' ∧ s.Frame t ∧
    c'.Is (c.after b (s.fold s.cur.fold).cycle
      { (c.withT b mv) with pend := c.us.ticked.pend ++ [p] }) ∧
    p.unit = r.unit ∧ p.left = fixedLat r.unit - 1 ∧ p.mask = c.guardMask mv ∧ p.kdst = r.kdst ∧ p.bundle = c0.pc ∧
    p.cycle = BitVec.ofNat 64 c.sched ∧
    (∀ l, l < c.nlanes → (c.guardMask mv).getLsbD l = true →
      p.vals.at l = r.onLane c b mv l ∧
      p.excs.getD l 0 = r.exc (lo32 ((c.us.unit r.unit).a.at l)) (lo32 ((c.us.unit r.unit).b.at l)) (lo32 (c.src b mv l))) ∧
    (match r.carry with
      | none => p.carry = none
      | some f => ∃ k, p.carry = some k ∧ ∀ l, l < c.nlanes → (c.guardMask mv).getLsbD l = true →
          k.getLsbD l = f (lo32 ((c.us.unit r.unit).a.at l)) (lo32 (c.src b mv l)) ((c.us.unit r.unit).carry.getLsbD l))

/-- A uniform operation of UA (R101): its instruction, its opcode and what A, B and T give. -/
structure UniformRow where
  instr : MoveF → Instr
  opcode : Nat
  value : W64 → W64 → W64 → W64

def UniformRow.word (r : UniformRow) (m : MoveF) : W32 := syllable true U.ua 3 r.opcode m

/-- What executing a UA row does: one value in flight for the team, from T's source on the lowest guarded lane (R14). -/
def UniformRow.Runs (r : UniformRow) (m : MoveF) (s : State) (c0 : Ctx) : Prop :=
  let b := Bundle.one (r.word m) s.curPc
  let mv := Move.of 0 (r.word m)
  let c := c0.land
  let l := Lanes.low (c.guardMask mv) c.nlanes
  ∃ t c' p, Sys2Proof.Machine.exec (r.instr m) s = .next t ∧ t.ctx s.cur = some c' ∧ s.Frame t ∧
    c'.Is (c.after b (s.fold s.cur.fold).cycle
      { (c.withT b mv) with pend := c.us.ticked.pend ++ [p] }) ∧
    p.unit = U.ua ∧ p.left = 0 ∧ p.carry = none ∧ p.excs = [] ∧
    p.vals = [r.value ((c.us.unit U.ua).a.at 0) ((c.us.unit U.ua).b.at 0) (c.src b mv l)]

/-- A relation of CM by KIND (R91): signed, unsigned, ordered and the relation, unordered or the relation. -/
def byKind (kind : BitVec 2) (sg un unordered fl : Bool) : Bool :=
  match kind.toNat with
  | 0 => sg
  | 1 => un
  | 2 => !unordered && fl
  | _ => unordered || fl

/-- IA (R50, R85, R86): opcode, result of A, B, T and the carry latch, the latch's new value where it has one. -/
noncomputable def iaResults : List FixedRow :=
  [ FixedRow.int .iaAdd U.ia 0 (fun a _ t _ => a + t) (some (fun a t _ => decide (2 ^ 32 ≤ a.toNat + t.toNat))),
    FixedRow.int .iaSub U.ia 1 (fun a _ t _ => a - t) (some (fun a t _ => decide (a.toNat < t.toNat))),
    FixedRow.int .iaRsub U.ia 2 (fun a _ t _ => t - a) (none),
    FixedRow.int .iaNeg U.ia 3 (fun _ _ t _ => 0 - t) (none),
    FixedRow.int .iaAnd U.ia 4 (fun a _ t _ => a &&& t) (none),
    FixedRow.int .iaOr U.ia 5 (fun a _ t _ => a ||| t) (none),
    FixedRow.int .iaXor U.ia 6 (fun a _ t _ => a ^^^ t) (none),
    FixedRow.int .iaAndn U.ia 7 (fun a _ t _ => a &&& ~~~t) (none),
    FixedRow.int .iaOrn U.ia 8 (fun a _ t _ => a ||| ~~~t) (none),
    FixedRow.int .iaMinS U.ia 9 (fun a _ t _ => if a.slt t then a else t) (none),
    FixedRow.int .iaMinN U.ia 10 (fun a _ t _ => if a.ult t then a else t) (none),
    FixedRow.int .iaMaxS U.ia 11 (fun a _ t _ => if a.slt t then t else a) (none),
    FixedRow.int .iaMaxN U.ia 12 (fun a _ t _ => if a.ult t then t else a) (none),
    FixedRow.int .iaAbs U.ia 13 (fun _ _ t _ => if t.slt 0 then 0 - t else t) (none) ] ++
  [ FixedRow.int .iaAddSatS U.ia 14 (fun a _ t _ => BitVec.ofInt 32 (max (-(2 ^ 31)) (min (2 ^ 31 - 1) (a.toInt + t.toInt)))) (none),
    FixedRow.int .iaAddSatN U.ia 15 (fun a _ t _ => BitVec.ofNat 32 (min (2 ^ 32 - 1) (a.toNat + t.toNat))) (none),
    FixedRow.int .iaSubSatS U.ia 16 (fun a _ t _ => BitVec.ofInt 32 (max (-(2 ^ 31)) (min (2 ^ 31 - 1) (a.toInt - t.toInt)))) (none),
    FixedRow.int .iaSubSatN U.ia 17 (fun a _ t _ => BitVec.ofNat 32 (a.toNat - t.toNat)) (none),
    FixedRow.int .iaAvgN U.ia 18 (fun a _ t _ => BitVec.ofNat 32 ((a.toNat + t.toNat + 1) / 2)) (none),
    FixedRow.int .iaAbsdN U.ia 19 (fun a _ t _ => BitVec.ofNat 32 (max a.toNat t.toNat - min a.toNat t.toNat)) (none),
    FixedRow.int .iaMov U.ia 20 (fun _ _ t _ => t) (none),
    FixedRow.int .iaAddsh1 U.ia 21 (fun a _ t _ => a + (t <<< 1)) (none),
    FixedRow.int .iaAddsh2 U.ia 22 (fun a _ t _ => a + (t <<< 2)) (none),
    FixedRow.int .iaAddsh3 U.ia 23 (fun a _ t _ => a + (t <<< 3)) (none),
    FixedRow.int .iaAddc U.ia 24 (fun a _ t k => BitVec.ofNat 32 (a.toNat + t.toNat + k.toNat)) (some (fun a t k => decide (2 ^ 32 ≤ a.toNat + t.toNat + k.toNat))),
    FixedRow.int .iaSubb U.ia 25 (fun a _ t k => a - t - BitVec.ofNat 32 k.toNat) (some (fun a t k => decide (a.toNat < t.toNat + k.toNat))) ]

/-- IB: the operations of IA (R50, R85). -/
noncomputable def ibResults : List FixedRow :=
  [ FixedRow.int .ibAdd U.ib 0 (fun a _ t _ => a + t) (some (fun a t _ => decide (2 ^ 32 ≤ a.toNat + t.toNat))),
    FixedRow.int .ibSub U.ib 1 (fun a _ t _ => a - t) (some (fun a t _ => decide (a.toNat < t.toNat))),
    FixedRow.int .ibRsub U.ib 2 (fun a _ t _ => t - a) (none),
    FixedRow.int .ibNeg U.ib 3 (fun _ _ t _ => 0 - t) (none),
    FixedRow.int .ibAnd U.ib 4 (fun a _ t _ => a &&& t) (none),
    FixedRow.int .ibOr U.ib 5 (fun a _ t _ => a ||| t) (none),
    FixedRow.int .ibXor U.ib 6 (fun a _ t _ => a ^^^ t) (none),
    FixedRow.int .ibAndn U.ib 7 (fun a _ t _ => a &&& ~~~t) (none),
    FixedRow.int .ibOrn U.ib 8 (fun a _ t _ => a ||| ~~~t) (none),
    FixedRow.int .ibMinS U.ib 9 (fun a _ t _ => if a.slt t then a else t) (none),
    FixedRow.int .ibMinN U.ib 10 (fun a _ t _ => if a.ult t then a else t) (none),
    FixedRow.int .ibMaxS U.ib 11 (fun a _ t _ => if a.slt t then t else a) (none),
    FixedRow.int .ibMaxN U.ib 12 (fun a _ t _ => if a.ult t then t else a) (none),
    FixedRow.int .ibAbs U.ib 13 (fun _ _ t _ => if t.slt 0 then 0 - t else t) (none) ] ++
  [ FixedRow.int .ibAddSatS U.ib 14 (fun a _ t _ => BitVec.ofInt 32 (max (-(2 ^ 31)) (min (2 ^ 31 - 1) (a.toInt + t.toInt)))) (none),
    FixedRow.int .ibAddSatN U.ib 15 (fun a _ t _ => BitVec.ofNat 32 (min (2 ^ 32 - 1) (a.toNat + t.toNat))) (none),
    FixedRow.int .ibSubSatS U.ib 16 (fun a _ t _ => BitVec.ofInt 32 (max (-(2 ^ 31)) (min (2 ^ 31 - 1) (a.toInt - t.toInt)))) (none),
    FixedRow.int .ibSubSatN U.ib 17 (fun a _ t _ => BitVec.ofNat 32 (a.toNat - t.toNat)) (none),
    FixedRow.int .ibAvgN U.ib 18 (fun a _ t _ => BitVec.ofNat 32 ((a.toNat + t.toNat + 1) / 2)) (none),
    FixedRow.int .ibAbsdN U.ib 19 (fun a _ t _ => BitVec.ofNat 32 (max a.toNat t.toNat - min a.toNat t.toNat)) (none),
    FixedRow.int .ibMov U.ib 20 (fun _ _ t _ => t) (none),
    FixedRow.int .ibAddsh1 U.ib 21 (fun a _ t _ => a + (t <<< 1)) (none),
    FixedRow.int .ibAddsh2 U.ib 22 (fun a _ t _ => a + (t <<< 2)) (none),
    FixedRow.int .ibAddsh3 U.ib 23 (fun a _ t _ => a + (t <<< 3)) (none),
    FixedRow.int .ibAddc U.ib 24 (fun a _ t k => BitVec.ofNat 32 (a.toNat + t.toNat + k.toNat)) (some (fun a t k => decide (2 ^ 32 ≤ a.toNat + t.toNat + k.toNat))),
    FixedRow.int .ibSubb U.ib 25 (fun a _ t k => a - t - BitVec.ofNat 32 k.toNat) (some (fun a t k => decide (a.toNat < t.toNat + k.toNat))) ]

/-- SH (R51, R87 to R89). -/
noncomputable def shResults : List FixedRow :=
  [ FixedRow.int .shShl U.sh 0 (fun a _ t _ => a <<< (t.toNat % 256)) (none),
    FixedRow.int .shShrN U.sh 1 (fun a _ t _ => a >>> (t.toNat % 256)) (none),
    FixedRow.int .shShrS U.sh 2 (fun a _ t _ => a.sshiftRight (t.toNat % 256)) (none),
    FixedRow.int .shRotl U.sh 3 (fun a _ t _ => (a <<< (t.toNat % 32)) ||| (a >>> (32 - t.toNat % 32))) (none),
    FixedRow.int .shRotr U.sh 4 (fun a _ t _ => (a >>> (t.toNat % 32)) ||| (a <<< (32 - t.toNat % 32))) (none),
    FixedRow.int .shBfxN U.sh 5 (fun a _ t _ => (a.extractLsb' (t.toNat % 32) (fieldLen t)).zeroExtend 32) (none),
    FixedRow.int .shBfxS U.sh 6 (fun a _ t _ => (a.extractLsb' (t.toNat % 32) (fieldLen t)).signExtend 32) (none),
    FixedRow.int .shBfi U.sh 7 (fun a b t _ => bfi a b t) (none),
    FixedRow.int .shClz U.sh 8 (fun _ _ t _ => BitVec.ofNat 32 (clz t)) (none),
    FixedRow.int .shCtz U.sh 9 (fun _ _ t _ => BitVec.ofNat 32 (ctz t)) (none),
    FixedRow.int .shPopc U.sh 10 (fun _ _ t _ => BitVec.ofNat 32 (popc t)) (none),
    FixedRow.int .shBrev U.sh 11 (fun _ _ t _ => brev t) (none),
    FixedRow.int .shBswap U.sh 12 (fun _ _ t _ => bswap t) (none),
    FixedRow.int .shFshl U.sh 13 (fun a b t _ => ((a ++ b) <<< (t.toNat % 32)).extractLsb' 32 32) (none) ] ++
  [ FixedRow.int .shFshr U.sh 14 (fun a b t _ => ((a ++ b) >>> (t.toNat % 32)).extractLsb' 0 32) (none),
    FixedRow.int .shPklo U.sh 15 (fun a _ t _ => t.extractLsb' 0 16 ++ a.extractLsb' 0 16) (none),
    FixedRow.int .shPkhi U.sh 16 (fun a _ t _ => t.extractLsb' 16 16 ++ a.extractLsb' 16 16) (none),
    FixedRow.int .shSext8 U.sh 17 (fun _ _ t _ => (t.extractLsb' 0 8).signExtend 32) (none),
    FixedRow.int .shSext16 U.sh 18 (fun _ _ t _ => (t.extractLsb' 0 16).signExtend 32) (none),
    FixedRow.int .shZext8 U.sh 19 (fun _ _ t _ => (t.extractLsb' 0 8).zeroExtend 32) (none),
    FixedRow.int .shZext16 U.sh 20 (fun _ _ t _ => (t.extractLsb' 0 16).zeroExtend 32) (none) ]

/-- IM (R51, R90). -/
noncomputable def imResults : List FixedRow :=
  [ FixedRow.int .imMulLo U.im 0 (fun a _ t _ => BitVec.ofNat 32 (a.toNat * t.toNat)) (none),
    FixedRow.int .imMulHiS U.im 1 (fun a _ t _ => BitVec.ofInt 32 (a.toInt * t.toInt / 2 ^ 32)) (none),
    FixedRow.int .imMulHiN U.im 2 (fun a _ t _ => BitVec.ofNat 32 (a.toNat * t.toNat / 2 ^ 32)) (none),
    FixedRow.int .imMadLo U.im 3 (fun a b t _ => BitVec.ofNat 32 (a.toNat * b.toNat + t.toNat)) (none),
    FixedRow.int .imDot4S8 U.im 4 (fun a b t _ => BitVec.ofInt 32 (t.toInt + byteS a 0 * byteS b 0 + byteS a 1 * byteS b 1 + byteS a 2 * byteS b 2 +
      byteS a 3 * byteS b 3)) (none),
    FixedRow.int .imDot4N8 U.im 5 (fun a b t _ => BitVec.ofInt 32 (t.toNat + byteN a 0 * byteN b 0 + byteN a 1 * byteN b 1 + byteN a 2 * byteN b 2 +
      byteN a 3 * byteN b 3)) (none),
    FixedRow.int .imDot2S16 U.im 6 (fun a b t _ => BitVec.ofInt 32 (t.toInt + halfS a 0 * halfS b 0 + halfS a 1 * halfS b 1)) (none) ]

/-- CM without a KIND (R52, R91, R93), into predicate `k`. -/
noncomputable def cmResults (k : BitVec 3) : List FixedRow :=
  [ FixedRow.compare (.cmCmpEq k) (0 * 8 + k.toNat) k (fun a t => a == t),
    FixedRow.compare (.cmKset k) (1 * 8 + k.toNat) k (fun _ t => t != 0),
    FixedRow.compare (.cmCmpEqFo k) (2 * 8 + k.toNat) k (fun a t => !unord a t && fEq a t),
    FixedRow.compare (.cmCmpEqFu k) (3 * 8 + k.toNat) k (fun a t => unord a t || fEq a t),
    FixedRow.compare (.cmCmpNe k) (4 * 8 + k.toNat) k (fun a t => a != t),
    FixedRow.compare (.cmCmpNeFo k) (6 * 8 + k.toNat) k (fun a t => !unord a t && !fEq a t),
    FixedRow.compare (.cmCmpNeFu k) (7 * 8 + k.toNat) k (fun a t => unord a t || !fEq a t),
    FixedRow.compare (.cmPlogAnd k) (24 * 8 + k.toNat) k (fun a t => a.getLsbD 0 && t.getLsbD 0),
    FixedRow.compare (.cmPlogOr k) (25 * 8 + k.toNat) k (fun a t => a.getLsbD 0 || t.getLsbD 0),
    FixedRow.compare (.cmPlogXor k) (26 * 8 + k.toNat) k (fun a t => a.getLsbD 0 ^^ t.getLsbD 0),
    FixedRow.compare (.cmPlogAndn k) (27 * 8 + k.toNat) k (fun a t => a.getLsbD 0 && !t.getLsbD 0),
    FixedRow.compare (.cmPlogOrn k) (28 * 8 + k.toNat) k (fun a t => a.getLsbD 0 || !t.getLsbD 0),
    FixedRow.compare (.cmPlogNand k) (29 * 8 + k.toNat) k (fun a t => !(a.getLsbD 0 && t.getLsbD 0)),
    FixedRow.compare (.cmPlogNor k) (30 * 8 + k.toNat) k (fun a t => !(a.getLsbD 0 || t.getLsbD 0)),
    FixedRow.compare (.cmPlogXnor k) (31 * 8 + k.toNat) k (fun a t => !(a.getLsbD 0 ^^ t.getLsbD 0)) ]

/-- The relations of CM (R52, R91): KIND 0 signed, 1 unsigned, 2 ordered FP32, 3 unordered or the relation. -/
noncomputable def cmRelResults (kind : BitVec 2) (k : BitVec 3) : List FixedRow :=
  [ FixedRow.compare (.cmCmpLt kind k) (2 * 32 + kind.toNat * 8 + k.toNat) k
      (fun a t => byKind kind (a.slt t) (a.ult t) (unord a t) (fLt a t)),
    FixedRow.compare (.cmCmpLe kind k) (3 * 32 + kind.toNat * 8 + k.toNat) k
      (fun a t => byKind kind (a.sle t) (a.ule t) (unord a t) (fLt a t || fEq a t)),
    FixedRow.compare (.cmCmpGt kind k) (4 * 32 + kind.toNat * 8 + k.toNat) k
      (fun a t => byKind kind (t.slt a) (t.ult a) (unord a t) (fLt t a)),
    FixedRow.compare (.cmCmpGe kind k) (5 * 32 + kind.toNat * 8 + k.toNat) k
      (fun a t => byKind kind (t.sle a) (t.ule a) (unord a t) (fLt t a || fEq a t)) ]

/-- FA (R54, R115 to R117) with TYPE, RND and FTZ. -/
noncomputable def faResults (ty rnd : BitVec 2) (ftz : BitVec 1) : List FixedRow :=
  [ FixedRow.fp (.faFadd ty rnd ftz) U.fa (0 * 32 + ty.toNat * 8 + rnd.toNat * 2 + ftz.toNat)
      (fpElem ty.toNat (ftz == 1) (elFadd rnd.toNat)),
    FixedRow.fp (.faFsub ty rnd ftz) U.fa (1 * 32 + ty.toNat * 8 + rnd.toNat * 2 + ftz.toNat)
      (fpElem ty.toNat (ftz == 1) (elFsub rnd.toNat)),
    FixedRow.fp (.faFmul ty rnd ftz) U.fa (2 * 32 + ty.toNat * 8 + rnd.toNat * 2 + ftz.toNat)
      (fpElem ty.toNat (ftz == 1) (elFmul rnd.toNat)),
    FixedRow.fp (.faFma ty rnd ftz) U.fa (3 * 32 + ty.toNat * 8 + rnd.toNat * 2 + ftz.toNat)
      (fpElem ty.toNat (ftz == 1) (elFma rnd.toNat)),
    FixedRow.fp (.faFnma ty rnd ftz) U.fa (4 * 32 + ty.toNat * 8 + rnd.toNat * 2 + ftz.toNat)
      (fpElem ty.toNat (ftz == 1) (elFnma rnd.toNat)),
    FixedRow.fp (.faFmin ty rnd ftz) U.fa (5 * 32 + ty.toNat * 8 + rnd.toNat * 2 + ftz.toNat)
      (fpElem ty.toNat (ftz == 1) elFmin),
    FixedRow.fp (.faFmax ty rnd ftz) U.fa (6 * 32 + ty.toNat * 8 + rnd.toNat * 2 + ftz.toNat)
      (fpElem ty.toNat (ftz == 1) elFmax),
    FixedRow.fp (.faFdot2 ty rnd ftz) U.fa (7 * 32 + ty.toNat * 8 + rnd.toNat * 2 + ftz.toNat)
      (fdot2 ty.toNat rnd.toNat (ftz == 1)) ]

/-- FB (R54, R115 to R117) with TYPE, RND and FTZ. -/
noncomputable def fbResults (ty rnd : BitVec 2) (ftz : BitVec 1) : List FixedRow :=
  [ FixedRow.fp (.fbFadd ty rnd ftz) U.fb (0 * 32 + ty.toNat * 8 + rnd.toNat * 2 + ftz.toNat)
      (fpElem ty.toNat (ftz == 1) (elFadd rnd.toNat)),
    FixedRow.fp (.fbFsub ty rnd ftz) U.fb (1 * 32 + ty.toNat * 8 + rnd.toNat * 2 + ftz.toNat)
      (fpElem ty.toNat (ftz == 1) (elFsub rnd.toNat)),
    FixedRow.fp (.fbFmul ty rnd ftz) U.fb (2 * 32 + ty.toNat * 8 + rnd.toNat * 2 + ftz.toNat)
      (fpElem ty.toNat (ftz == 1) (elFmul rnd.toNat)),
    FixedRow.fp (.fbFma ty rnd ftz) U.fb (3 * 32 + ty.toNat * 8 + rnd.toNat * 2 + ftz.toNat)
      (fpElem ty.toNat (ftz == 1) (elFma rnd.toNat)),
    FixedRow.fp (.fbFnma ty rnd ftz) U.fb (4 * 32 + ty.toNat * 8 + rnd.toNat * 2 + ftz.toNat)
      (fpElem ty.toNat (ftz == 1) (elFnma rnd.toNat)),
    FixedRow.fp (.fbFmin ty rnd ftz) U.fb (5 * 32 + ty.toNat * 8 + rnd.toNat * 2 + ftz.toNat)
      (fpElem ty.toNat (ftz == 1) elFmin),
    FixedRow.fp (.fbFmax ty rnd ftz) U.fb (6 * 32 + ty.toNat * 8 + rnd.toNat * 2 + ftz.toNat)
      (fpElem ty.toNat (ftz == 1) elFmax),
    FixedRow.fp (.fbFdot2 ty rnd ftz) U.fb (7 * 32 + ty.toNat * 8 + rnd.toNat * 2 + ftz.toNat)
      (fdot2 ty.toNat rnd.toNat (ftz == 1)) ]

/-- CV of a TYPE (R55, R118, R119, R122). -/
noncomputable def cvResults (pair : BitVec 4) (rnd ty : BitVec 2) (sat : BitVec 1) : List FixedRow :=
  [ FixedRow.fp (.cvCvt pair rnd sat) U.cv (pair.toNat * 8 + rnd.toNat * 2 + sat.toNat)
      (fun _ _ t => cvCvt pair.toNat rnd.toNat (sat == 1) t),
    FixedRow.fp (.cvFabs ty) U.cv (0x80 + ty.toNat) (fun _ _ t => (t &&& (0xFFFFFFFF - signBits ty.toNat), 0)),
    FixedRow.fp (.cvFneg ty) U.cv (0x84 + ty.toNat) (fun _ _ t => (t ^^^ signBits ty.toNat, 0)),
    FixedRow.fp (.cvFclass ty) U.cv (0x88 + ty.toNat)
      (fun _ _ t => perElem1 ty.toNat (fun x => ((typeFmt ty.toNat).fclass ((typeFmt ty.toNat).decode x), 0)) t),
    FixedRow.fp (.cvFrexp ty) U.cv (0x8C + ty.toNat)
      (fun _ _ t => perElem1 ty.toNat (fun x =>
        ((BitVec.ofInt (typeFmt ty.toNat).width (frexpExp (typeFmt ty.toNat).width ((typeFmt ty.toNat).decode x)).1).toNat,
          (frexpExp (typeFmt ty.toNat).width ((typeFmt ty.toNat).decode x)).2)) t),
    FixedRow.fp (.cvFrint rnd ty) U.cv (0x90 + rnd.toNat * 4 + ty.toNat)
      (fun _ _ t => perElem1 ty.toNat (fun x => (typeFmt ty.toNat).frint rnd.toNat ((typeFmt ty.toNat).decode x)) t),
    FixedRow.fp (.cvLdexp ty) U.cv (0xA0 + ty.toNat)
      (fun a _ t => perElem2 ty.toNat (fun x k => (typeFmt ty.toNat).ldexp ((typeFmt ty.toNat).decode x)
        (max (-4000) (min 4000 (BitVec.ofNat (typeFmt ty.toNat).width k).toInt))) a t) ]

/-- The conversions through a format register that describes `d` (R120, R121). -/
noncomputable def cvFmResults (fm : BitVec 4) (rz : BitVec 1) (d : Narrow) : List FixedRow :=
  [ FixedRow.fp (.cvCvtFmTo fm rz) U.cv (0xC0 + fm.toNat * 2 + rz.toNat)
      (fun _ _ x => d.encode rz.toNat (Fmt.f32.decode x)),
    FixedRow.fp (.cvCvtFmFrom fm) U.cv (0xE0 + fm.toNat * 2) (fun _ _ x => fmFrom d x) ]

/-- UA (R51, R101): opcode and the result of A, B and T. -/
noncomputable def uaResults : List UniformRow :=
  [ ⟨.uaAdd, 0, fun a _ t => a + t⟩,
    ⟨.uaSub, 1, fun a _ t => a - t⟩,
    ⟨.uaAnd, 2, fun a _ t => a &&& t⟩,
    ⟨.uaOr, 3, fun a _ t => a ||| t⟩,
    ⟨.uaXor, 4, fun a _ t => a ^^^ t⟩,
    ⟨.uaShl, 5, fun a _ t => a <<< (t.toNat % 256)⟩,
    ⟨.uaShrN, 6, fun a _ t => a >>> (t.toNat % 256)⟩,
    ⟨.uaShrS, 7, fun a _ t => a.sshiftRight (t.toNat % 256)⟩,
    ⟨.uaMul, 8, fun a _ t => BitVec.ofNat 64 (a.toNat * t.toNat)⟩,
    ⟨.uaMinS, 9, fun a _ t => if a.slt t then a else t⟩,
    ⟨.uaMinN, 10, fun a _ t => if a.ult t then a else t⟩,
    ⟨.uaMaxS, 11, fun a _ t => if a.slt t then t else a⟩,
    ⟨.uaMaxN, 12, fun a _ t => if a.ult t then t else a⟩,
    ⟨.uaSel, 13, fun a b t => if t = 0 then b else a⟩,
    ⟨.uaCmpEq, 16, fun a _ t => b2w (a == t)⟩,
    ⟨.uaCmpNe, 17, fun a _ t => b2w (a != t)⟩,
    ⟨.uaCmpLtS, 18, fun a _ t => b2w (a.slt t)⟩,
    ⟨.uaCmpLtN, 19, fun a _ t => b2w (a.ult t)⟩,
    ⟨.uaCmpLeS, 20, fun a _ t => b2w (a.sle t)⟩,
    ⟨.uaCmpLeN, 21, fun a _ t => b2w (a.ule t)⟩,
    ⟨.uaCmpGtS, 22, fun a _ t => b2w (t.slt a)⟩,
    ⟨.uaCmpGtN, 23, fun a _ t => b2w (t.ult a)⟩ ]


/-! ## The rows of the other units -/

/-- What a trigger row leaves after its operation has started: PC and SCHED_CYCLE as for every bundle, T of the unit
written, and R of a variable-latency unit empty (R18, R23, R28, R353). -/
def Ctx.started (c : Ctx) (s : State) (b : Bundle) (m : Move) : Ctx :=
  c.after b (s.fold s.cur.fold).cycle (c.begun b m).ticked

/-- A row whose operation takes its operands and completes later (R20): it answers a next state in which one more
operation of the unit is in flight on the triggered lanes, and `P` holds of it; nothing else changes. -/
def OpStarts (i : Instr) (w : W32) (s : State) (c0 : Ctx) (P : VarOp → Prop) : Prop :=
  let b := Bundle.one w s.curPc
  let mv := Move.of 0 w
  let c := c0.land
  ∃ t c' o, Sys2Proof.Machine.exec i s = .next t ∧ t.ctx s.cur = some c' ∧ s.Frame t ∧
    c'.Is { c.started s b mv with ops := c.ops ++ [o] } ∧ ((c.begun b mv).unit mv.dunit).full = false ∧
    o.uid = c.nextUid ∧ o.unit = mv.dunit ∧ o.opcode = BitVec.ofNat 8 mv.dsel ∧ o.mask = c.guardMask mv ∧
    o.token = none ∧ o.scope = 0 ∧ o.bundle = c0.pc ∧ o.cycle = BitVec.ofNat 64 c.sched ∧ P o

/-- The conditions of a trigger row (`State.Clear`) with a guard that holds on a lane of the team. -/
def State.Fires (s : State) (c0 : Ctx) (w : W32) : Prop :=
  s.Clear c0 (Bundle.one w s.curPc) ∧
    ∃ l, l < c0.land.nlanes ∧ (c0.land.guardMask (Move.of 0 w)).getLsbD l = true

/-- The operand ports of a lane operation of XL as its bundle leaves them (R23, R152): A, B, and T as the move writes it. -/
structure LaneArgs where
  n : Nat
  live : Lanes
  mask : Lanes
  a : Nat → W32
  b : Nat → W32
  t : Nat → W32

def Ctx.xlArgs (c : Ctx) (b : Bundle) (m : Move) : LaneArgs :=
  { n := c.nlanes, live := c.live, mask := c.guardMask m, a := fun l => lo32 ((c.us.unit U.xl).a.at l),
    b := fun l => lo32 ((c.us.unit U.xl).b.at l), t := fun l => lo32 (c.src b m l) }

/-- A of lane `j` where that is a live lane, else the lane's own B (R153). -/
def LaneArgs.pick (x : LaneArgs) (l : Nat) (j : Int) : W32 :=
  if 0 ≤ j ∧ j < x.n ∧ x.live.getLsbD j.toNat = true then x.a j.toNat else x.b l

/-- The T values of the triggered lanes, lowest lane first, up to lane `l` (R155). -/
def LaneArgs.upTo (x : LaneArgs) (l : Nat) : List W32 :=
  ((List.range x.n).filter (fun j => x.mask.getLsbD j && decide (j ≤ l))).map x.t

/-- The T values of all triggered lanes (R155). -/
def LaneArgs.all (x : LaneArgs) : List W32 := ((List.range x.n).filter (fun j => x.mask.getLsbD j)).map x.t

/-- A lane operation of XL: its instruction, its opcode and a lane's result. -/
structure XlRow where
  instr : MoveF → Instr
  opcode : Nat
  value : LaneArgs → Nat → W32

def XlRow.word (r : XlRow) (m : MoveF) : W32 := syllable true U.xl 3 r.opcode m

/-- The lane operations of XL (R57, R153 to R155). -/
noncomputable def xlResults : List XlRow :=
  [ ⟨.xlShflIdx, 0, fun x l => x.pick l (x.t l).toNat⟩,
    ⟨.xlShflUp, 1, fun x l => x.pick l ((l : Int) - (x.t l).toNat)⟩,
    ⟨.xlShflDn, 2, fun x l => x.pick l ((l : Int) + (x.t l).toNat)⟩,
    ⟨.xlShflXor, 3, fun x l => x.pick l ((l ^^^ (x.t l).toNat : Nat) : Int)⟩,
    ⟨.xlBcast, 4, fun x l => x.pick l (x.t (Lanes.low x.mask x.n)).toNat⟩,
    ⟨.xlVoteAny, 5, fun x _ => if x.all.any (fun v => v.getLsbD 0) then 1 else 0⟩,
    ⟨.xlVoteAll, 6, fun x _ => if x.all.all (fun v => v.getLsbD 0) then 1 else 0⟩,
    ⟨.xlBallot, 7, fun x l => Lanes.word (Lanes.of x.n (fun j => x.mask.getLsbD j && (x.t j).getLsbD 0))
      ((x.a l).toNat % 32)⟩,
    ⟨.xlScanAddI32, 8, fun x l => (x.upTo l).foldl (· + ·) 0⟩,
    ⟨.xlScanAddF32, 9, fun x l => sumF32 (x.upTo l)⟩,
    ⟨.xlRedAddI32, 10, fun x _ => x.all.foldl (· + ·) 0⟩,
    ⟨.xlRedAddF32, 11, fun x _ => sumF32 x.all⟩,
    ⟨.xlRedMinS, 12, fun x _ => chain (fun v w => if w.slt v then w else v) x.all⟩,
    ⟨.xlRedMinN, 13, fun x _ => chain (fun v w => if w.ult v then w else v) x.all⟩,
    ⟨.xlRedMinF32, 14, fun x _ => chain (mm32 false) (x.all ++ x.all.take 1)⟩,
    ⟨.xlRedMaxS, 15, fun x _ => chain (fun v w => if v.slt w then w else v) x.all⟩,
    ⟨.xlRedMaxN, 16, fun x _ => chain (fun v w => if v.ult w then w else v) x.all⟩,
    ⟨.xlRedMaxF32, 17, fun x _ => chain (mm32 true) (x.all ++ x.all.take 1)⟩ ]

/-- The special functions of SF (R56, R123) with their opcodes. -/
noncomputable def sfOps (ty : BitVec 2) : List ((MoveF → Instr) × Nat) :=
  [ (.sfRcp ty, 0), (.sfRsqrt ty, 1), (.sfSqrt ty, 2), (.sfExp2 ty, 3), (.sfLog2 ty, 4), (.sfSin ty, 5), (.sfCos ty, 6),
    (.sfTanh ty, 7), (.sfDiv ty, 8) ]

/-- A branch of BR (R53, R94 to R96): its instruction, its opcode, whether T is the target itself, whether it is taken in
the context that issues it, and whether it writes the link. -/
structure BranchRow where
  instr : MoveF → Instr
  opcode : Nat
  abs : Bool
  taken : Ctx → Bool
  link : Bool

def BranchRow.word (r : BranchRow) (m : MoveF) : W32 := syllable true U.br 3 r.opcode m

/-- The branches: predicates over the live lanes as the bundle's issue finds them, BR.A, and the unconditional ones. -/
noncomputable def branches (k : BitVec 3) : List BranchRow :=
  [ ⟨.brBr, 0, false, fun _ => true, false⟩,
    ⟨.brAny k, 8 + k.toNat, false, fun c => c.pred k.toNat &&& c.live != 0, false⟩,
    ⟨.brAll k, 16 + k.toNat, false, fun c => c.pred k.toNat &&& c.live == c.live, false⟩,
    ⟨.brNone k, 24 + k.toNat, false, fun c => c.pred k.toNat &&& c.live == 0, false⟩,
    ⟨.brSZ, 32, false, fun c => (c.us.unit U.br).a.at 0 == 0, false⟩,
    ⟨.brSNz, 33, false, fun c => (c.us.unit U.br).a.at 0 != 0, false⟩,
    ⟨.brSLt, 34, false, fun c => decide (((c.us.unit U.br).a.at 0).toInt < 0), false⟩,
    ⟨.brSGe, 35, false, fun c => decide (0 ≤ ((c.us.unit U.br).a.at 0).toInt), false⟩,
    ⟨.brCall, 48, false, fun _ => true, true⟩,
    ⟨.brRet, 49, true, fun _ => true, false⟩,
    ⟨.brJr, 50, true, fun _ => true, false⟩ ]

/-- Where a branch goes: T, or the header's address plus T (R94). T is the lowest guarded lane's value (R14). -/
def BranchRow.target (r : BranchRow) (c : Ctx) (b : Bundle) (m : Move) : W64 :=
  let t := c.src b m (Lanes.low (c.guardMask m) c.nlanes)
  if r.abs then t else b.pc + t

/-- The memory moves: loads and prefetches of LA and LB (R58). -/
noncomputable def loadOps (size : BitVec 2) (sgn : BitVec 1) (rt : BitVec 2) : List ((MoveF → Instr) × Nat × Nat) :=
  let o := size.toNat * 16 + sgn.toNat * 8 + rt.toNat * 2
  [ (.laLd size sgn rt, U.la, o), (.laLdAcq size sgn rt, U.la, 64 + o), (.laLdAcqRem size sgn rt, U.la, 128 + o),
    (.lbLd size sgn rt, U.lb, o), (.lbLdAcq size sgn rt, U.lb, 64 + o), (.lbLdAcqRem size sgn rt, U.lb, 128 + o) ]

/-- Prefetches, which fill R at once with what it held (R133). -/
noncomputable def prefetchOps (rt : BitVec 2) : List ((MoveF → Instr) × Nat × Nat) :=
  [ (.laPf rt, U.la, 192 + rt.toNat * 2), (.lbPf rt, U.lb, 192 + rt.toNat * 2) ]

/-- Stores and maintenance operations of ST (R58). -/
noncomputable def storeOps (size rt : BitVec 2) : List ((MoveF → Instr) × Nat × Nat) :=
  let o := size.toNat * 16 + rt.toNat * 2
  [ (.stSt size rt, U.st, o), (.stStRel size rt, U.st, 64 + o), (.stWb, U.st, 0x80), (.stInv, U.st, 0x81),
    (.stFlush, U.st, 0x82) ]

/-- Atomics of AT (R59). -/
noncomputable def atomOps (rem : BitVec 1) (ord : BitVec 2) (size : BitVec 1) : List ((MoveF → Instr) × Nat × Nat) :=
  let o := rem.toNat * 128 + ord.toNat * 32 + size.toNat * 16
  [ (.atAdd rem ord size, U.at_, o), (.atSub rem ord size, U.at_, o + 1), (.atAnd rem ord size, U.at_, o + 2),
    (.atOr rem ord size, U.at_, o + 3), (.atXor rem ord size, U.at_, o + 4), (.atMinS rem ord size, U.at_, o + 5),
    (.atMinN rem ord size, U.at_, o + 6), (.atMaxS rem ord size, U.at_, o + 7), (.atMaxN rem ord size, U.at_, o + 8),
    (.atXchg rem ord size, U.at_, o + 9), (.atCas rem ord size, U.at_, o + 10), (.atFaddF32 rem ord size, U.at_, o + 11),
    (.atFaddBf16x2 rem ord size, U.at_, o + 12) ]

/-- Whether a queued move of an opcode is a prefetch, a red or a maintenance operation. -/
def memQuick (u o : Nat) : Bool := ((u == U.la || u == U.lb) && 192 ≤ o) || (u == U.at_ && o / 32 % 4 == 3)

/-- What a trigger of LA, LB, ST or AT does (R29, R128 to R137, R145): it answers a next state in which the move stands at
the end of the team's queue, one entry for each 32-lane word that holds a triggered lane, every entry with the move's
number, opcode and scope, and every triggered lane (but one that does nothing at all: R133, R135, R210) in the entry of its
word with the address A + s(T) that the ports give it. R of LA, LB and AT is empty until the move is performed, but a
prefetch and a red leave R full with what it held. -/
def MemQueued (i : Instr) (u o : Nat) (m : MoveF) (s : State) (c0 : Ctx) : Prop :=
  let w := syllable true u 3 o m
  let b := Bundle.one w s.curPc
  let mv := Move.of 0 w
  let c := c0.land
  let p := c.us.unit u
  ∃ t c' q, Sys2Proof.Machine.exec i s = .next t ∧ t.ctx s.cur = some c' ∧ s.Frame t ∧
    c'.memq = c.memq ++ q ∧ q.map MemOp.pass = Lanes.passes (c.guardMask mv) c.nlanes ∧
    (∀ e ∈ q, e.uid = c.nextUid ∧ e.unit = u ∧ e.opcode = BitVec.ofNat 8 o ∧ e.scope = 0 ∧ e.mask = c.guardMask mv ∧
      e.bundle = c0.pc ∧
      (∀ x ∈ e.lanes, x.lane < c.nlanes ∧ (c.guardMask mv).getLsbD x.lane = true ∧ x.lane / 32 = e.pass ∧
        x.addr = (if u = U.st ∧ o / 16 % 4 = 3 ∧ o < 0x80 then p.a.at x.lane
          else p.a.at x.lane + sx (lo32 (c.src b mv x.lane)))) ∧
      (¬((u = U.la ∨ u = U.lb) ∧ 192 ≤ o) → ¬(u = U.st ∧ 0x80 ≤ o) → ∀ l, l < c.nlanes → (c.guardMask mv).getLsbD l = true → l / 32 = e.pass →
        ∃ x ∈ e.lanes, x.lane = l)) ∧
    (c'.us.unit u).a = p.a ∧ (c'.us.unit u).b = p.b ∧ (c'.us.unit u).c = p.c ∧
    (isVar u = true → (c'.us.unit u).full = memQuick u o ∧ (c'.us.unit u).last = c.nextUid) ∧
    (∀ l, l < c.nlanes → (c'.us.unit u).r.at l = p.r.at l) ∧
    c'.g = c.g ∧ c'.s = c.s ∧ c'.k = c.k ∧ c'.pc = b.next ∧ c'.sched = (c.sched + 1) % 2 ^ 48 ∧
    ((∀ kv ∈ c.us.owners, kv.2 ≠ c.nextUid) → c'.us.flags = c.us.flags) ∧
    (∀ v, v ≠ u → c'.us.unit v = c.us.unit v) ∧ c'.us.pend = c.us.ticked.pend ∧ c'.tstatus = c.tstatus ∧
    c'.fpCtl = c.fpCtl ∧ c'.live = c.live

/-- The wide-register operations of XL (R57, R159). -/
noncomputable def wideOps : List (Nat × (MoveF → Instr)) :=
  [ (0x40, .xlWrLd), (0x41, .xlWrSt), (0x42, .xlWrRotr), (0x43, .xlWrRotc), (0x44, .xlWrBcr), (0x45, .xlWrBcc),
    (0x46, .xlWrRedr), (0x47, .xlWrRedc), (0x48, .xlWrZero), (0x49, .xlWrPack) ]

/-- No map covers a byte of any block: the scratchpads hold plain bytes (R211, R214). -/
def State.Unmapped (s : State) : Prop :=
  ∀ f off gid g half b, s.blockAt f off = some (gid, g, half, b) → g.mapAt half b = none

/-! ## Completions of R -/

/-- R of unit `u` is full without a token: each lane of `mask` holds its value of `v`, the others what they held
(R18, R19). -/
def Ctx.RFilled (c c' : Ctx) (u : Nat) (mask : Lanes) (v : Nat → W64) : Prop :=
  (c'.us.unit u).full = true ∧ (c'.us.unit u).frec = none ∧
    ∀ l, l < c.nlanes → (c'.us.unit u).r.at l = if mask.getLsbD l then v l else (c.us.unit u).r.at l

/-- R of unit `u` is full with what it held (R186). -/
def Ctx.RKept (c c' : Ctx) (u : Nat) : Prop := c.RFilled c' u 0 (fun _ => 0)

/-- R of unit `u` is full and holds a token of a cause on the lanes of `mask` (R141, R360). -/
def Ctx.RToken (c' : Ctx) (u : Nat) (mask : Lanes) (cause : BitVec 7) : Prop :=
  (c'.us.unit u).full = true ∧ ∃ r, (c'.us.unit u).frec = some r ∧ r.cause = cause ∧ r.lanes = mask

/-- A load with a request type of its own whose R is open for its values: none of its lanes has been performed, it is no
replay, and no write of SMAP_S and no descriptor's read of its team stands before it (R18, R360, R372). -/
def Ctx.LoadOpen (c : Ctx) (o : MemOp) : Prop :=
  o.isLoad = true ∧ o.replay = none ∧ o.res = [] ∧ o.toks = [] ∧ o.rt ≠ 0 ∧ c.mapPending o.uid = false ∧
    c.descPending o.uid = false ∧ (c.us.unit o.unit).last = o.uid ∧ (c.us.unit o.unit).full = false ∧
    (c.us.unit o.unit).frec.isSome = true

/-- The lanes of a queued move are lanes on which its team triggered it and that are still live, once each. -/
def Ctx.Serves (c : Ctx) (o : MemOp) : Prop :=
  (o.lanes.map MemLane.lane).Nodup ∧ ∀ x ∈ o.lanes, x.lane < c.nlanes ∧ x.lane < 1024 ∧ o.mask.getLsbD x.lane = true ∧
    c.live.getLsbD x.lane = true

/-- A lane's access is performed at once at package byte `p`: its checks name it, no held write, uncorrectable error or trip
to another die's home stands before it (R250, R355, R413, R449). -/
def State.At (s : State) (id : CtxId) (c : Ctx) (o : MemOp) (x : MemLane) (tr : Trans) (p : Nat) : Prop :=
  s.check id c o x = .place tr ∧ tr.place = .pkg p ∧ s.behindHeld id c o x = false ∧ s.eccHit tr.place o.size = false ∧
    s.atHome id.fold c.tid o x p (o.rtAt p (tr.pte.getLsbD 63)) = true

/-- The state in which a lane at a package byte reads or writes it: its leaf's bits are set (R242), its leaf is known to L1
(R288), its watchpoints have reported (R365) and its page is counted (R247). -/
def State.reached (s : State) (id : CtxId) (c : Ctx) (o : MemOp) (x : MemLane) (tr : Trans) (p : Nat) : State :=
  let w := s.walked id c o x (.place tr)
  let v := if o.rtAt p (tr.pte.getLsbD 63) = 3 then w else w.useLeaf id.fold c.asid tr
  (v.report id o x (v.seen id c o x)).countAccess id.fold c.asid tr 1

/-- A trigger row that answers a next state: PC and SCHED_CYCLE advance, special registers, predicates, live lanes and,
when no flag is owned under the operation's own number, flags are as before, and `P` holds of the state and the context. -/
def TrigRuns (i : Instr) (s : State) (c0 : Ctx) (P : State → Ctx → Prop) : Prop :=
  ∃ t c', Sys2Proof.Machine.exec i s = .next t ∧ t.ctx s.cur = some c' ∧ c'.pc = s.curPc + 6 ∧
    c'.sched = (c0.sched + 1) % 2 ^ 48 ∧ c'.s = c0.s ∧ c'.k = c0.land.k ∧ c'.live = c0.live ∧
    ((∀ kv ∈ c0.us.owners, kv.2 ≠ c0.nextUid) → c'.us.flags = c0.us.flags) ∧ P t c'

/-- The lanes on which a row's guard holds, and the T value of its lowest such lane (R14, R186). -/
def Ctx.rowMask (c0 : Ctx) (w : W32) : Lanes := c0.land.guardMask (Move.of 0 w)
def Ctx.rowT (c0 : Ctx) (s : State) (w : W32) : W64 :=
  c0.land.src (Bundle.one w s.curPc) (Move.of 0 w) (Lanes.low (c0.rowMask w) c0.nlanes)

/-- No operation of SY of the context is in flight, its fold has no dirty-range record to flush, and it is a team of the
gang `g`. -/
def State.SyIdle (s : State) (c0 : Ctx) (g : Gang) : Prop :=
  c0.shadow = false ∧ s.gang c0.gang = some g ∧ (s.fold s.cur.fold).dlog = none ∧ ∀ o ∈ c0.ops, o.unit ≠ U.sy

/-- What a team remembers of a barrier (R188). -/
def Ctx.barOf (c : Ctx) (n : Nat) : BarMem := Tbl.get c.barMem n { gen := 0, waiting := false }

/-- The indices of a ring that a team holds (R192). -/
def Ctx.ringOf (c : Ctx) (n : Nat) : RingMem := Tbl.get c.ringMem n { prod := none, cons := none }

/-- An operation of a context in flight completes: it is gone, and `P` holds of the next state and context; registers and
PC stay. -/
def OpDone (i : Instr) (s : State) (id : CtxId) (c : Ctx) (o : VarOp) (P : State → Ctx → Prop) : Prop :=
  ∃ t c', Sys2Proof.Machine.exec i s = .next t ∧ t.ctx id = some c' ∧ c'.ops = c.ops.filter (fun x => x.uid != o.uid) ∧
    c'.g = c.g ∧ c'.s = c.s ∧ c'.k = c.k ∧ c'.pc = c.pc ∧ P t c'

/-! ## The engines -/

/-- The operation that an engine trigger's row hands to its engine (R294, R314, R425): the ports as the move leaves them. -/
def Ctx.engOf (c0 : Ctx) (s : State) (w : W32) : EngOp :=
  let b := Bundle.one w s.curPc
  let mv := Move.of 0 w
  s.newEng s.cur (c0.land.started s b mv) (c0.land.trigOf b mv)

/-- The operation has joined the engines of `cur`'s fold with the entries given, and R of its unit is empty until it
completes (R18, R305). Nothing else of memory or of the team changes. -/
def State.Joined (s t : State) (c0 c' : Ctx) (e : EngOp) (ls : List Lock) : Prop :=
  let f := s.fold s.cur.fold
  let g := t.fold s.cur.fold
  g.eng = f.eng ++ [e] ∧ g.nextEng = e.uid + 1 ∧ g.lockSeq = f.lockSeq + 1 ∧
    g.locks = f.locks ++ ls.map (fun k => { k with uid := e.uid, seq := f.lockSeq }) ∧
    (c'.us.unit e.unit).full = false ∧ (c'.us.unit e.unit).last = c0.nextUid ∧ c'.wait = .ready ∧ c'.g = c0.g ∧
    t.mem = s.mem ∧ t.gangs = s.gangs

/-- No operation joins: the engines of `cur`'s fold, their entries, memory and registers are as before. -/
def State.Refused (s t : State) (c0 c' : Ctx) : Prop :=
  (t.fold s.cur.fold).eng = (s.fold s.cur.fold).eng ∧ (t.fold s.cur.fold).locks = (s.fold s.cur.fold).locks ∧
    c'.wait = .ready ∧ c'.g = c0.g ∧ t.mem = s.mem ∧ t.gangs = s.gangs

/-- A side's bytes resolve to consecutive package bytes from `key` with no translation, fill or fault (R211, R217, R222). -/
def State.PlainSide (s : State) (fold : Nat) (e : EngOp) (k : SideKind) (wr : Bool) (addr : W64) (n key : Nat) : Prop :=
  s.engBytes fold e k wr addr n = (s, .bytes ((List.range n).map (fun i => .pkg (key + i))) [])

/-- An engine operation has ended (R304): it and its entries are gone, the others stay. -/
def State.EngGone (s t : State) (fold : Nat) (e : EngOp) : Prop :=
  t.findEng fold e.uid = none ∧ (t.fold fold).locks = (s.fold fold).locks.filter (fun k => k.uid != e.uid) ∧
    (t.fold fold).eng = (s.fold fold).eng.filter (fun x => x.uid != e.uid)

/-- The team of an engine operation, when it is still resident and waits for the operation's result. -/
def State.EngTeam (s : State) (fold : Nat) (e : EngOp) (c : Ctx) : Prop :=
  s.ctx { fold := fold, slot := e.slot } = some c ∧ c.tid = e.tid ∧ (c.us.unit e.unit).last = e.opUid ∧
    (c.us.unit e.unit).full = false

/-- The operation's team finds R filled with `v` on the lanes that are triggered and still live (R19, R99). -/
def State.EngFills (s t : State) (fold : Nat) (e : EngOp) (v : Nat → W64) : Prop :=
  ∀ c, s.EngTeam fold e c → ∃ c', t.ctx { fold := fold, slot := e.slot } = some c' ∧
    c.RFilled c' e.unit (e.mask &&& c.live) v ∧ c'.g = c.g ∧ c'.s = c.s ∧ c'.k = c.k ∧ c'.pc = c.pc

/-- The operation's team finds a token of a cause in R on the triggered lanes (R360). -/
def State.EngToken (s t : State) (fold : Nat) (e : EngOp) (cause : BitVec 7) : Prop :=
  ∀ c, s.EngTeam fold e c → ∃ c', t.ctx { fold := fold, slot := e.slot } = some c' ∧ c'.RToken e.unit e.mask cause ∧
    c'.g = c.g ∧ c'.s = c.s ∧ c'.k = c.k ∧ c'.pc = c.pc

/-- The rows of CP with their opcodes (R294). -/
noncomputable def copyOps : List (Nat × (MoveF → Instr)) :=
  [ (0, .cpCopy), (1, .cpCopy2d), (2, .cpCopy3d), (3, .cpStage), (4, .cpGather), (5, .cpScatter), (6, .cpFill),
    (7, .cpAccin), (8, .cpAccout) ]

/-- The rows of MX with their opcodes (R314). -/
noncomputable def matrixOps (bank : BitVec 1) : List (Nat × (MoveF → Instr)) :=
  [ (bank.toNat, .mxBload bank), (0x10 + bank.toNat, .mxMma bank), (0x12 + bank.toNat, .mxMmap bank), (0x20, .mxZero),
    (0x30, .mxDrain), (0x40, .mxAload), (0x50, .mxFmt), (0x60, .mxStat) ]

/-- The transport rows of NX with their opcodes (R425). -/
noncomputable def transportOps : List (Nat × (MoveF → Instr)) := [ (0, .nxPut), (1, .nxGet), (2, .nxAtom), (3, .nxSend) ]

/-- A translation that sets no bit in its leaf and gives one byte of the package's memory. -/
def Trans.plain (t : Trans) (p : Nat) : Prop := t.place = .pkg p ∧ t.setAD = none

/-- A trigger row that fills R at once on its lanes and leaves memory, g registers and the wait as they were (R186, R426). -/
def Answers (i : Instr) (s : State) (c0 : Ctx) (u : Nat) (w : W32) (v : W64) (P : State → Prop) : Prop :=
  TrigRuns i s c0 (fun t c' => c'.g = c0.g ∧ t.mem = s.mem ∧ c'.wait = .ready ∧
    c0.RFilled c' u (c0.rowMask w) (fun _ => v) ∧ P t)

/-- A trigger row that fills R at once with a token on its lanes and changes nothing else. -/
def AnswersToken (i : Instr) (s : State) (c0 : Ctx) (u : Nat) (w : W32) (k : BitVec 7) : Prop :=
  TrigRuns i s c0 (fun t c' => c'.g = c0.g ∧ t.mem = s.mem ∧ c'.wait = .ready ∧ c'.RToken u (c0.rowMask w) k ∧
    t.gangs = s.gangs ∧ t.dies = s.dies ∧ t.pkg.links = s.pkg.links)

/-! ## Registers and traps -/

/-- The state in which an operation of `cur`'s bundle reads special registers: results that are due have landed, but for
their sticky bits in FP_CTL, and the bundle is counted (R16, R126, R353). -/
def State.atIssue (s : State) (c0 : Ctx) : State :=
  s.setCtx s.cur { c0.land with fpCtl := c0.fpCtl, sched := (c0.sched + 1) % 2 ^ 48 }

/-- The same with those sticky bits: what the other registers hold after the bundle (R126). -/
def State.afterIssue (s : State) (c0 : Ctx) : State := s.setCtx s.cur { c0.land with sched := (c0.sched + 1) % 2 ^ 48 }

/-- The register that an operation may act on: none where it ends in C_CSRACCESS (R371). -/
def State.csrReg (s : State) (w : Who) (sel : W64) (op : CsrOp) : Option Reg :=
  (s.reach w sel).filter (fun r => s.allowed w r op)

/-- Special registers without an action of their own: they hold what a write leaves (R371). -/
def plainRegs : List Nat :=
  [0x010, 0x011, 0x012, 0x013, 0x014, 0x01A, 0x01C, 0x040, 0x041, 0x042, 0x050, 0x120, 0x121, 0x123, 0x140, 0x150, 0x151,
    0x152, 0x160, 0x161, 0x162, 0x200, 0x201, 0x203, 0x204, 0x206, 0x208, 0x209, 0x20C, 0x310, 0x311]

/-- The register operations of SV (R372). -/
noncomputable def csrRows : List (Nat × CsrOp × (MoveF → Instr)) :=
  [(0, .read, .svCsrr), (1, .write, .svCsrw), (2, .set, .svCsrs), (3, .clear, .svCsrc)]

/-- The register's value after an operation (R6, R372). -/
def Reg.after (r : Reg) (op : CsrOp) (old a : W64) : W64 := op.apply old a (rwMask r.num r.idx) (w1cMask r.num)

/-- Every plain register of another number reads as before. -/
def State.OtherRegs (s t : State) (n : Nat) : Prop :=
  ∀ r : Reg, regDesc r.num = some r.desc → r.num ∈ plainRegs → r.num ≠ n → t.readReg r = s.readReg r

/-- What a trap leaves in its registers on any route, and what it leaves alone (R350 to R354, R368). -/
def Ctx.Trapped (x c' : Ctx) (d : DueTrap) (code sub : BitVec 7) (origin : Nat) : Prop :=
  let d := d.under code
  c'.cause = code.zeroExtend 64 ∧ c'.trapPc = d.pc.getD x.pc &&& ~~~1 ∧ bits c'.tstatus.toNat 31 30 = origin ∧
    bits c'.tstatus.toNat 29 23 = sub.toNat ∧ c'.tstatus.getLsbD 9 = x.tstatus.getLsbD 9 ∧
    c'.faultBundle = (d.bundle.map Prod.fst).getD x.faultBundle ∧
    c'.faultCycle = (d.bundle.map Prod.snd).getD x.faultCycle ∧ c'.faultAddr = d.addr.getD x.faultAddr ∧
    c'.faultLanes = d.lanes.getD x.faultLanes ∧ c'.g = x.g ∧ c'.s = x.s ∧ c'.k = x.k ∧ c'.live = x.live ∧
    c'.tvec = x.tvec ∧ c'.fpCtl = x.fpCtl ∧ c'.sched = x.sched

/-- A trap or a request of a context is taken now (R145, R377, R450): no pass of its bundle is to come, a cause is ripe that
no bundle must meet first, its own bundles' causes waiting for the end of a barrier, ring, grow or hold wait and of an
acquire; `d` is the lowest ripe one, a breakpoint that stands there among them. C_SFBFULL and a deferred trap (R361, R362)
are left to the cycle in which the team reaches issue. -/
def State.TrapNow (s : State) (id : CtxId) (x : Ctx) (d : DueTrap) : Prop :=
  s.ctx id = some x ∧ x.frozen = false ∧ x.stopped = false ∧ s.inPasses id x = false ∧
    (s.atBoundary id (s.withBreak id x)).nextDue = some d ∧ d.code ≠ 0x18 ∧
    ∃ d0, (s.atBoundary id x).nextDue = some d0 ∧ x.forBundle d0 = false ∧ d0.deferred = false

/-- The rows of `sv.t.ctx`: one word, whose meaning stands in T (R376). -/
noncomputable def ctxRows : List (MoveF → Instr) :=
  [.svCtxNextev, .svCtxRead, .svCtxWrite, .svCtxFreeze, .svCtxSave, .svCtxRestore, .svCtxKill]

/-- A trigger row that leaves one operation in flight with R of its unit empty, and `P` of the state and the operation. -/
def RowPending (i : Instr) (s : State) (c0 : Ctx) (u : Nat) (P : State → VarOp → Prop) : Prop :=
  TrigRuns i s c0 (fun t c' => c'.g = c0.g ∧ t.mem = s.mem ∧ c'.wait = .ready ∧ (c'.us.unit u).full = false ∧
    ∃ o, c'.ops = c0.ops ++ [o] ∧ o.unit = u ∧ P t o)

/-- A row of SV that ends in a trap and leaves a free value in SV.R (log entry 33). -/
def RowFree (i : Instr) (s : State) (c0 : Ctx) (w : W32) (P : DueTrap → Prop) : Prop :=
  TrigRuns i s c0 (fun t c' => c'.g = c0.g ∧ t.mem = s.mem ∧ c'.wait = .ready ∧ t.free = s.free + 1 ∧
    c0.RFilled c' U.sv (c0.rowMask w) (fun _ => Config.freeValue s.free) ∧ ∃ d ∈ c'.due, P d)

/-- A team that fits its image and waits for nothing that is looked at again when it resumes. -/
def State.Fit (s : State) (x : Ctx) : Prop :=
  x.shadow = false ∧ x.wait.woken = .ready ∧ ∀ g, s.gang x.gang = some g → x.misfit g = false

/-! ## The Shepherd and the package -/

/-- The packets of the Shepherd by their TYPE (R167, R168). -/
noncomputable def pktRows : List ((Nat → Nat → Instr) × Nat) :=
  [(.pktNop, 0), (.pktLaunch, 1), (.pktLoop, 2), (.pktSignal, 3), (.pktWaitval, 4)]

/-- One notice has left for the control node, with a code and an address, for no team and no fold (R354, R429). -/
def State.Noticed (s t : State) (code : BitVec 7) (data : Nat) (addr : W64) : Prop :=
  ∃ n, t.pkg.out = s.pkg.out ++ [.notice n] ∧ n.event = eventWord code 0 0 true false data ∧ n.faultAddr = addr ∧
    n.fold = 0xFFFF ∧ n.flock = 0

/-- The context keys and the gang numbers are listed once each, rising: the tables are in their canonical form. -/
def State.tablesOk (s : State) : Prop :=
  (s.ctxs.map Prod.fst).Pairwise (· < ·) ∧ (s.gangs.map Prod.fst).Pairwise (· < ·) ∧ ∀ kv ∈ s.ctxs, kv.1 % 64 ≤ 32

/-- Nothing of a byte range meets a watchpoint, a region that refuses it, counting, or a leaf bit to set. -/
def State.PlainWindow (s : State) (g : Gang) (fold va : Nat) (k : AccKind) (t : Trans) : Prop :=
  s.translate (dieOf fold) g.asid (BitVec.ofNat 64 va) k true = .ok t ∧ t.setAD = none ∧ t.pte.getLsbD 62 = false ∧
    t.pte.getLsbD 63 = false ∧ s.regionAt (dieOf fold) va = none ∧ (s.fold fold).watch = [] ∧
    (ringSize (s.die (dieOf fold)).dlogCtl 8 20) = none

/-- The byte that a boot places at an address (R447): that of the last placed section which covers it (log entry 62); else
0, or in the control node's memory what stood there. -/
def Memory.bootByte (s : State) (image : List Byte) (a : Nat) : Byte :=
  let held (x : PvoSect) : List Byte := (image.drop x.off).take x.size
  match ((pvoSects image).zipIdx.filter (fun x => (decide (x.1.kind ≤ 8) || x.1.kind == 0x0B) &&
      decide (pvoBase image x.2 ≤ a) && decide (a < pvoBase image x.2 + (held x.1).length))).getLast? with
  | some x => (held x.1).getD (a - pvoBase image x.2) 0
  | none => if 2 ^ 52 ≤ a ∧ a < 2 ^ 53 then Memory.read s.mem a else 0

/-! ## What stands before a bundle -/

/-- The bundle `b` that an instruction issues where the context `c0` stands: the bundle itself, the entry that a recall
names at the recall's address, or a bundle of one move (R31, R35). -/
def State.Issues (s : State) (c0 : Ctx) (i : Instr) (b : Bundle) : Prop :=
  (∃ r, i = .bundleIssue r ∧ b = rawAt r s.curPc (s.curPc + BitVec.ofNat 64 (2 * headerLength r.header))) ∨
    (∃ n r, i = .recall n ∧ s.mirrorEntry s.cur c0 n.toNat = some r ∧ b = rawAt r s.curPc (s.curPc + 2)) ∨
    (∃ u p o m, destOf i = some (u, p, o, m) ∧ b = Bundle.one (syllable true u p o m) s.curPc)

/-- The context that `cur` names is a team's or the shadow context, can issue, and comes to the checks of its bundle: no acquire,
no due trap, no trap of SF that the bundle meets, no breakpoint and no fence stands before them (R26, R141, R393, R450). -/
def State.Reaches (s : State) (c0 : Ctx) (b : Bundle) : Prop :=
  s.ctx s.cur = some c0 ∧ s.cur.slot ≤ CtxId.shadowSlot ∧ c0.ready = true ∧ s.acqOut s.cur c0.land = none ∧
    c0.land.nextDue = none ∧ (∀ t, c0.land.us.sfTrap = some t → c0.land.meetsSf b t = false) ∧
    s.breaks s.cur c0.land = false ∧ c0.land.us.fence = none

/-- The bundle waits for nothing but flags: no empty R, no store, load or held write (R18, R98, R250, R258, R270, R306). -/
def State.WaitsForNone (s : State) (c : Ctx) (b : Bundle) : Prop :=
  c.emptyRead b = none ∧ (c.afterStores b = true → s.storesOut s.cur c = false) ∧ (c.afterLoads b = true → c.memq = []) ∧
    (c.trigs b (fun u _ => u == U.st || u == U.at_) = true → (s.fold s.cur.fold).held.length < 64) ∧
    (c.trigs b (fun u o => u == 10 && 0x40 ≤ o) = true → (s.fold s.cur.fold).unread (s.fold s.cur.fold).lockSeq = false)

/-- The bundle waits on flag `j`, which reads 0 (R38). -/
def Ctx.Awaits (c : Ctx) (b : Bundle) (j : Nat) : Prop := b.isExt = true ∧ bit b.wait j = true ∧ c.us.flag j = false

/-- The conditions of R26's table, by cause. XL is busy for a bundle that would issue now: one that waits issues later (R161),
but a flag that nothing will set is no wait. -/
def State.Fails (s : State) (c : Ctx) (b : Bundle) (code : BitVec 7) : Prop :=
  (code = 0x01 ∧ (bits b.header.toNat 5 0 ≠ 0 ∨ b.moves = [] ∨
      (∃ x ∈ b.moves.zipIdx, (x.1.stop = true ↔ x.2 + 1 ≠ b.moves.length)) ∨
      (b.isExt = true ∧ (bits b.ext.toNat 8 0 ≠ 0 ∨ 5 < b.scope.toNat ∨ 12 < b.seta ∨ 12 < b.setb ∨ (b.seta = b.setb ∧ b.seta ≠ 0) ∨
        (b.seta ≠ 0 ∧ b.counted = []) ∨ (b.setb ≠ 0 ∧ b.counted.length < 2))) ∨
      (∃ m ∈ b.moves, moveMalformed b m = true) ∨
      ∃ x ∈ b.moves.zipIdx, ∃ y ∈ b.moves.zipIdx, x.2 < y.2 ∧ x.1.isTrig = true ∧ y.1.isTrig = true ∧ x.1.dunit = y.1.dunit)) ∨
    (code = 0x02 ∧ ∃ m ∈ b.moves, m.isTrig = true ∧ m.dunit ≤ 21 ∧ opDefined m.dunit m.dsel = false) ∨
    (code = 0x03 ∧ ∃ m ∈ b.moves, ∃ n ∈ b.moves, ∃ x ∈ m.gSource, ∃ y ∈ n.gSource, x.1 = y.1 ∧ x.2 ≠ y.2) ∨
    (code = 0x04 ∧ 3 < (b.moves.filter (fun m => m.dunit == 0)).length) ∨
    (code = 0x05 ∧ ∃ m ∈ b.moves, (m.dunit = 0 ∧ m.dport = 0 ∧ c.budget ≤ m.dsel ∧ m.dsel ≤ 127) ∨
      ∃ x ∈ m.gSource, c.budget ≤ x.2) ∨
    (code = 0x06 ∧ ∃ m ∈ b.moves, m.isTrig = true ∧ roleForbids c.kind m.dunit m.dsel = true) ∨
    (code = 0x07 ∧ (∃ m ∈ b.moves, m.isTrig = true ∧ m.dunit = 10) ∧ (s.fold s.cur.fold).cycle < c.us.xlBusy ∧
      ((∃ j < 12, c.Awaits b j ∧ c.us.owned j = false) ∨ (s.WaitsForNone c b ∧ ∀ j < 12, ¬c.Awaits b j))) ∨
    (code = 0x09 ∧ c.shadow = false ∧ ∃ m ∈ b.moves, m.isTrig = true ∧ opPriv m.dunit m.dsel = true) ∨
    (code = 0x19 ∧ ∃ j < 12, c.Awaits b j ∧ c.us.owned j = false)

/-- A row of a unit with a fixed latency. -/
def FixedRow.Listed (r : FixedRow) : Prop :=
  r ∈ iaResults ∨ r ∈ ibResults ∨ r ∈ shResults ∨ r ∈ imResults ∨ (∃ k, r ∈ cmResults k) ∨
    (∃ ty rnd ftz, r ∈ faResults ty rnd ftz ∨ r ∈ fbResults ty rnd ftz) ∨ ∃ pair rnd ty sat, r ∈ cvResults pair rnd ty sat

/-- The rational that a fraction stands for: the transport's times, marks and windows are exact (R423). -/
def Frac.val (x : Frac) : ℚ := (x.num : ℚ) / 2 ^ x.exp

end Sys2Proof.Machine
end

