-- ==== Sys2Proof/WellFormed.lean ====
section
/-! DEFINITION. The instructions that an encoding names: opcode sub-fields outside the reserved combinations (R48 to
R61), bundles whose parcels agree with their header (R31). -/

namespace Sys2Proof

/-- A bundle's parcels are those its header announces (R31), and the bundle is not the form that decodes as its one
move. -/
noncomputable def RawBundle.wf (b : RawBundle) : Bool :=
  (fld b.header.toNat 15 14 == 0 || fld b.header.toNat 15 14 == 2) &&
  b.sylls.length == tmplCount b.header.toNat &&
  (fld b.header.toNat 15 14 == 2 || b.ext == 0) &&
  (fld b.header.toNat 7 7 == 1 || b.limm == 0) &&
  b.single == none

/-- Well-formed instructions. The operations of `sv.ctx` other than its first share that one's word and are told apart
by the operand T when it runs (R376), so no word decodes to them; an event has no encoding. -/
noncomputable def WellFormed : Instr → Bool
  | .bundleIssue b => b.wf
  | .moveToPort u p _ _ => u != 0 && u.toNat < 22 && p != 3
  | .faFadd ty _ _ _ => ty != 3
  | .faFsub ty _ _ _ => ty != 3
  | .faFmul ty _ _ _ => ty != 3
  | .faFma ty _ _ _ => ty != 3
  | .faFnma ty _ _ _ => ty != 3
  | .faFmin ty rnd _ _ => ty != 3 && rnd == 0
  | .faFmax ty rnd _ _ => ty != 3 && rnd == 0
  | .faFdot2 ty _ _ _ => ty != 3 && ty != 0
  | .fbFadd ty _ _ _ => ty != 3
  | .fbFsub ty _ _ _ => ty != 3
  | .fbFmul ty _ _ _ => ty != 3
  | .fbFma ty _ _ _ => ty != 3
  | .fbFnma ty _ _ _ => ty != 3
  | .fbFmin ty rnd _ _ => ty != 3 && rnd == 0
  | .fbFmax ty rnd _ _ => ty != 3 && rnd == 0
  | .fbFdot2 ty _ _ _ => ty != 3 && ty != 0
  | .cvFrint _ ty _ => ty != 3
  | .cvFabs ty _ => ty != 3
  | .cvFneg ty _ => ty != 3
  | .cvFclass ty _ => ty != 3
  | .cvFrexp ty _ => ty != 3
  | .cvLdexp ty _ => ty != 3
  | .sfRcp ty _ => ty != 3
  | .sfRsqrt ty _ => ty != 3
  | .sfSqrt ty _ => ty != 3
  | .sfExp2 ty _ => ty != 3
  | .sfLog2 ty _ => ty != 3
  | .sfSin ty _ => ty != 3
  | .sfCos ty _ => ty != 3
  | .sfTanh ty _ => ty != 3
  | .sfDiv ty _ => ty != 3
  | .laLd size sgn _ _ => sgn == 0 || size.toNat < 2
  | .laLdAcq size sgn _ _ => sgn == 0 || size.toNat < 2
  | .laLdAcqRem size sgn _ _ => sgn == 0 || size.toNat < 2
  | .lbLd size sgn _ _ => sgn == 0 || size.toNat < 2
  | .lbLdAcq size sgn _ _ => sgn == 0 || size.toNat < 2
  | .lbLdAcqRem size sgn _ _ => sgn == 0 || size.toNat < 2
  | .atAdd rem ord _ _ => (rem == 0 || (ord != 0 && ord != 3))
  | .atSub rem ord _ _ => (rem == 0 || (ord != 0 && ord != 3))
  | .atAnd rem ord _ _ => (rem == 0 || (ord != 0 && ord != 3))
  | .atOr rem ord _ _ => (rem == 0 || (ord != 0 && ord != 3))
  | .atXor rem ord _ _ => (rem == 0 || (ord != 0 && ord != 3))
  | .atMinS rem ord _ _ => (rem == 0 || (ord != 0 && ord != 3))
  | .atMinN rem ord _ _ => (rem == 0 || (ord != 0 && ord != 3))
  | .atMaxS rem ord _ _ => (rem == 0 || (ord != 0 && ord != 3))
  | .atMaxN rem ord _ _ => (rem == 0 || (ord != 0 && ord != 3))
  | .atXchg rem ord _ _ => (rem == 0 || (ord != 0 && ord != 3)) && ord != 3
  | .atCas rem ord _ _ => (rem == 0 || (ord != 0 && ord != 3)) && ord != 3
  | .atFaddF32 rem ord size _ => (rem == 0 || (ord != 0 && ord != 3)) && size == 0
  | .atFaddBf16x2 rem ord size _ => (rem == 0 || (ord != 0 && ord != 3)) && size == 0
  | .syFset flag _ => flag.toNat < 12
  | .syFclr flag _ => flag.toNat < 12
  | .syYieldc flag _ => flag.toNat < 12
  | .svCtxRead _ => false
  | .svCtxWrite _ => false
  | .svCtxFreeze _ => false
  | .svCtxSave _ => false
  | .svCtxRestore _ => false
  | .svCtxKill _ => false
  | .moveToG _ _ => true
  | .moveToS _ _ => true
  | .moveToK _ _ => true
  | .recall _ => true
  | .idle _ => true
  | .iaAdd _ => true
  | .iaSub _ => true
  | .iaRsub _ => true
  | .iaNeg _ => true
  | .iaAnd _ => true
  | .iaOr _ => true
  | .iaXor _ => true
  | .iaAndn _ => true
  | .iaOrn _ => true
  | .iaMinS _ => true
  | .iaMinN _ => true
  | .iaMaxS _ => true
  | .iaMaxN _ => true
  | .iaAbs _ => true
  | .iaAddSatS _ => true
  | .iaAddSatN _ => true
  | .iaSubSatS _ => true
  | .iaSubSatN _ => true
  | .iaAvgN _ => true
  | .iaAbsdN _ => true
  | .iaMov _ => true
  | .iaAddsh1 _ => true
  | .iaAddsh2 _ => true
  | .iaAddsh3 _ => true
  | .iaAddc _ => true
  | .iaSubb _ => true
  | .ibAdd _ => true
  | .ibSub _ => true
  | .ibRsub _ => true
  | .ibNeg _ => true
  | .ibAnd _ => true
  | .ibOr _ => true
  | .ibXor _ => true
  | .ibAndn _ => true
  | .ibOrn _ => true
  | .ibMinS _ => true
  | .ibMinN _ => true
  | .ibMaxS _ => true
  | .ibMaxN _ => true
  | .ibAbs _ => true
  | .ibAddSatS _ => true
  | .ibAddSatN _ => true
  | .ibSubSatS _ => true
  | .ibSubSatN _ => true
  | .ibAvgN _ => true
  | .ibAbsdN _ => true
  | .ibMov _ => true
  | .ibAddsh1 _ => true
  | .ibAddsh2 _ => true
  | .ibAddsh3 _ => true
  | .ibAddc _ => true
  | .ibSubb _ => true
  | .shShl _ => true
  | .shShrN _ => true
  | .shShrS _ => true
  | .shRotl _ => true
  | .shRotr _ => true
  | .shBfxN _ => true
  | .shBfxS _ => true
  | .shBfi _ => true
  | .shClz _ => true
  | .shCtz _ => true
  | .shPopc _ => true
  | .shBrev _ => true
  | .shBswap _ => true
  | .shFshl _ => true
  | .shFshr _ => true
  | .shPklo _ => true
  | .shPkhi _ => true
  | .shSext8 _ => true
  | .shSext16 _ => true
  | .shZext8 _ => true
  | .shZext16 _ => true
  | .imMulLo _ => true
  | .imMulHiS _ => true
  | .imMulHiN _ => true
  | .imMadLo _ => true
  | .imDot4S8 _ => true
  | .imDot4N8 _ => true
  | .imDot2S16 _ => true
  | .uaAdd _ => true
  | .uaSub _ => true
  | .uaAnd _ => true
  | .uaOr _ => true
  | .uaXor _ => true
  | .uaShl _ => true
  | .uaShrN _ => true
  | .uaShrS _ => true
  | .uaMul _ => true
  | .uaMinS _ => true
  | .uaMinN _ => true
  | .uaMaxS _ => true
  | .uaMaxN _ => true
  | .uaSel _ => true
  | .uaCmpEq _ => true
  | .uaCmpNe _ => true
  | .uaCmpLtS _ => true
  | .uaCmpLtN _ => true
  | .uaCmpLeS _ => true
  | .uaCmpLeN _ => true
  | .uaCmpGtS _ => true
  | .uaCmpGtN _ => true
  | .cmCmpEq _ _ => true
  | .cmKset _ _ => true
  | .cmCmpEqFo _ _ => true
  | .cmCmpEqFu _ _ => true
  | .cmCmpNe _ _ => true
  | .cmCmpNeFo _ _ => true
  | .cmCmpNeFu _ _ => true
  | .cmCmpLt _ _ _ => true
  | .cmCmpLe _ _ _ => true
  | .cmCmpGt _ _ _ => true
  | .cmCmpGe _ _ _ => true
  | .cmPlogAnd _ _ => true
  | .cmPlogOr _ _ => true
  | .cmPlogXor _ _ => true
  | .cmPlogAndn _ _ => true
  | .cmPlogOrn _ _ => true
  | .cmPlogNand _ _ => true
  | .cmPlogNor _ _ => true
  | .cmPlogXnor _ _ => true
  | .brBr _ => true
  | .brAny _ _ => true
  | .brAll _ _ => true
  | .brNone _ _ => true
  | .brSZ _ => true
  | .brSNz _ => true
  | .brSLt _ => true
  | .brSGe _ => true
  | .brCall _ => true
  | .brRet _ => true
  | .brJr _ => true
  | .brExit _ => true
  | .brLexit _ => true
  | .cvCvt _ _ _ _ => true
  | .cvCvtFmTo _ _ _ => true
  | .cvCvtFmFrom _ _ => true
  | .xlShflIdx _ => true
  | .xlShflUp _ => true
  | .xlShflDn _ => true
  | .xlShflXor _ => true
  | .xlBcast _ => true
  | .xlVoteAny _ => true
  | .xlVoteAll _ => true
  | .xlBallot _ => true
  | .xlScanAddI32 _ => true
  | .xlScanAddF32 _ => true
  | .xlRedAddI32 _ => true
  | .xlRedAddF32 _ => true
  | .xlRedMinS _ => true
  | .xlRedMinN _ => true
  | .xlRedMinF32 _ => true
  | .xlRedMaxS _ => true
  | .xlRedMaxN _ => true
  | .xlRedMaxF32 _ => true
  | .xlWrLd _ => true
  | .xlWrSt _ => true
  | .xlWrRotr _ => true
  | .xlWrRotc _ => true
  | .xlWrBcr _ => true
  | .xlWrBcc _ => true
  | .xlWrRedr _ => true
  | .xlWrRedc _ => true
  | .xlWrZero _ => true
  | .xlWrPack _ => true
  | .laPf _ _ => true
  | .lbPf _ _ => true
  | .stSt _ _ _ => true
  | .stStRel _ _ _ => true
  | .stWb _ => true
  | .stInv _ => true
  | .stFlush _ => true
  | .syBarArr _ _ => true
  | .syBarWait _ _ => true
  | .syBarSync _ _ => true
  | .syFence _ => true
  | .syYield _ => true
  | .syRacq _ _ => true
  | .syRcom _ _ => true
  | .syRwait _ _ => true
  | .syRrel _ _ => true
  | .syRgrow _ => true
  | .syRshrink _ => true
  | .syClaim _ => true
  | .syUnclaim _ => true
  | .syRgn _ => true
  | .mxBload _ _ => true
  | .mxMma _ _ => true
  | .mxMmap _ _ => true
  | .mxZero _ => true
  | .mxDrain _ => true
  | .mxAload _ => true
  | .mxFmt _ => true
  | .mxStat _ => true
  | .cpCopy _ => true
  | .cpCopy2d _ => true
  | .cpCopy3d _ => true
  | .cpStage _ => true
  | .cpGather _ => true
  | .cpScatter _ => true
  | .cpFill _ => true
  | .cpAccin _ => true
  | .cpAccout _ => true
  | .nxPut _ => true
  | .nxGet _ => true
  | .nxAtom _ => true
  | .nxSend _ => true
  | .nxBind _ => true
  | .nxCstate _ => true
  | .nxLkrate _ => true
  | .nxLkwatch _ => true
  | .nxLkstat _ => true
  | .svCsrr _ => true
  | .svCsrw _ => true
  | .svCsrs _ => true
  | .svCsrc _ => true
  | .svTrap _ => true
  | .svEret _ => true
  | .svReplay _ => true
  | .svBrk _ => true
  | .svSnap _ => true
  | .svCtxNextev _ => true
  | .fetchLineFill _ _ => false
  | .fixedResultLand _ _ => false
  | .cmPredicateLand _ => false
  | .idleCountEnd _ => false
  | .xlBusyEnd _ => false
  | .yieldEnd _ => false
  | .yieldcResume _ => false
  | .sfComplete _ => false
  | .xlLaneOpComplete _ => false
  | .wideRegOpComplete _ => false
  | .loadComplete _ => false
  | .atomicComplete _ => false
  | .storePerformed _ => false
  | .fenceComplete _ => false
  | .trapRouteU _ => false
  | .trapRouteS _ => false
  | .trapRouteH _ => false
  | .handlerReturn _ => false
  | .qnotify _ _ => false
  | .queueEnable _ _ _ => false
  | .queueDisable _ _ => false
  | .pktNop _ _ => false
  | .pktSignal _ _ => false
  | .pktWaitval _ _ => false
  | .waitvalRecheck _ _ => false
  | .pktLaunch _ _ => false
  | .pktLoop _ _ => false
  | .gangPlace _ _ => false
  | .packetComplete _ _ _ => false
  | .gangEnd _ => false
  | .flockAbort _ => false
  | .teamEvict _ => false
  | .teamRestore _ => false
  | .preemptRequest _ => false
  | .teamFreeze _ => false
  | .gangSaveComplete _ => false
  | .gangRestore _ _ => false
  | .sectorFill _ _ _ => false
  | .smapBind _ _ _ => false
  | .smapUnbind _ _ _ => false
  | .mirrorSelWrite _ _ => false
  | .homeRequest _ _ _ _ _ => false
  | .pageWalk _ _ _ _ => false
  | .accessCount _ _ _ _ => false
  | .xlateInv _ _ => false
  | .xlateInvComplete _ => false
  | .l2StageWrite _ _ _ => false
  | .l2StageChangeDone _ _ => false
  | .dlogCtlWrite _ _ => false
  | .migqCtlWrite _ _ => false
  | .regionTableWrite _ _ _ => false
  | .engineOpStart _ _ => false
  | .copyComplete _ _ => false
  | .mxFormatBlockRead _ _ => false
  | .mxDispatch _ => false
  | .mxOpComplete _ _ => false
  | .mxBloadComplete _ _ => false
  | .nxPacketSend _ _ => false
  | .nxPacketArrive _ => false
  | .nxAckReceive _ _ _ _ _ => false
  | .nxRetransmitTimeout _ _ _ => false
  | .nxOpComplete _ _ => false
  | .landingCount _ _ _ => false
  | .remoteAccess _ _ => false
  | .ethLinkDown _ => false
  | .flitReceive _ _ => false
  | .nakReceive _ _ => false
  | .errorWindowClose _ _ => false
  | .linkRetrainEnd _ => false
  | .lumenPortDown _ => false
  | .mgmtCsrRequest _ _ _ _ => false
  | .ctrlResumeTeam _ _ => false
  | .keyLoad _ _ _ => false
  | .devIdWrite _ => false
  | .attestationRequest _ => false
  | .powerOnReset => false
  | .firmwareImageReceive _ _ => false
  | .stopRequest _ _ => false
  | .snapshotLatch _ => false
  | .sampleRecord _ => false
  | .mxcCtlClr _ => false
  | .eccCorrectedError _ _ _ _ => false
  | .eccWindowClose _ _ _ _ => false
  | .islandFloorWrite _ _ _ => false
  | .islandStateChange _ _ => false
  | .powerWindowEnd _ => false
  | .thermalSample _ _ _ => false
  | .registerWrite _ _ _ _ => false
  | .svOpComplete _ => false
  | .claimComplete _ => false
  | .watchdogExpiry _ => false
  | .packagePowerOff => false
  | .measurementExtend _ _ => false

end Sys2Proof
end

