-- ==== Sys2Proof/Certificates/Slice0/Obligations.lean ====
section
/-! DEFINITION. The statements for the provers. -/

open Sys2Proof Sys2Proof.Machine

/-- R447. State.reset's memory meets Memory.wf: the invariant of EveryStepKeepsMemory holds at reset. -/
def Obligations.ResetMemoryCanonical : Prop :=
  State.reset.memOk

/-- R4, R23, R447. For every state whose memory has its canonical form (addresses strictly rising, no byte equal to what
an unlisted address reads), if step answers next s', the memory of s' has that form too: whatever bundle, trap, event
or input the step takes. -/
def Obligations.EveryStepKeepsMemory : Prop :=
  ∀ s s' : State, s.memOk → step s = .next s' → s'.memOk

/-- R31, R40, R41, R48. For every well-formed instruction (a one-move bundle of any move or trigger row with every
sub-field, guard and source, a plain or extended bundle, a recall, an idle bundle), decoding the bytes of its encoding
gives that instruction. -/
def Obligations.DecodeOfEncode : Prop :=
  ∀ i : Instr, WellFormed i = true → decode (encode i) = .ok i

/-- R23, R46, R183, R184. When no input stands in the agenda and, once the connections whose entries are no longer valid are
disabled (R423), no event is due, the machine's own event is not due in turn, cur can issue and its fold has a cycle to
spend with no bundle's passes to come, nothing else is taken at its boundary (approach leaves the state to the bundle), the
fetch at its PC gives bytes and they decode to i, then step is exec of i in the fetched state, followed by the choice of the
team that issues next (resched); a fault or refusal of exec is that of the step. -/
def Obligations.StepRunsDecodedInstruction : Prop :=
  ∀ (s : State) (c : Ctx) (bytes : List Byte) (i : Instr),
    let d := s.dropConns
    let u : State := { d with bgTurn := true }
    let x := u.approach
    s.agenda = [] → d.dueEvent = none → (s.bgTurn = true → d.bgEvent = none) → u.mayIssue = true → x.2 = false →
    x.1.ctx x.1.cur = some c → x.1.fetch x.1.cur c = .ok bytes → decode bytes = .ok i →
    step s = (match exec i (x.1.fetched x.1.cur c) with
      | .next t => .next t.resched
      | .fault e => .fault e
      | .refused e => .refused e)

/-- R31, R34, R35, R40, R50, R52, R53, R54, R58, R59. The bytes of one-move bundles (header 0x0100, then a syllable with
STOP 1) written out from R31, R40 and the opcode tables decode to ia.t.add, cm.t.cmp.lt with KIND 1 into k3 under guard !k2,
fa.t.fma, la.t.ld, st.t.st, br.t.br, at.t.cas; an idle and a recall parcel decode to their instructions. -/
def Obligations.WordsDecodeAsTheSpecLaysThemOut : Prop :=
  decode [0x00, 0x01, 0x05, 0x00, 0x70, 0x80] = .ok (.iaAdd ⟨false, 0, 0, 5⟩) ∧
    decode [0x00, 0x01, 0x07, 0xB4, 0x74, 0xD2] = .ok (.cmCmpLt 1 3 ⟨true, 2, 1, 7⟩) ∧
    decode [0x00, 0x01, 0x03, 0x10, 0x76, 0x81] = .ok (.faFma 0 0 1 ⟨false, 0, 0, 3⟩) ∧
    decode [0x00, 0x01, 0xFF, 0x0B, 0xF2, 0x82] = .ok (.laLd 2 0 0 ⟨false, 0, 2, 1023⟩) ∧
    decode [0x00, 0x01, 0x00, 0x0C, 0x73, 0x8B] = .ok (.stSt 3 0 ⟨false, 1, 3, 0⟩) ∧
    decode [0x00, 0x01, 0x00, 0x0C, 0xF0, 0x83] = .ok (.brBr ⟨false, 0, 3, 0⟩) ∧
    decode [0x00, 0x01, 0x81, 0xA0, 0xB1, 0x83] = .ok (.atCas 0 0 1 ⟨false, 0, 0, 129⟩) ∧
    decode [0x04, 0xC0] = .ok (.idle 4) ∧ decode [0x2A, 0x41] = .ok (.recall 298)

/-- R183, R377. For every instruction that is one move (every trigger row, every register and port move), and for bundles,
idle and recall bundles: in a state whose cur names no resident Ready context, exec stops with the fault
noIssuingContext. The stop is the model's own (log entry 30): the hardware issues nothing there. -/
def Obligations.NoContextNoIssue : Prop :=
  ∀ (i : Instr) (s : State), ((destOf i).isSome = true ∨ (∃ n, i = .idle n) ∨ (∃ n, i = .recall n) ∨ (∃ b, i = .bundleIssue b)) →
    s.canIssue = false → exec i s = .fault .noIssuingContext

/-- R25. For every instruction that is one move: if nothing stands before its bundle and its guard is true on no live
lane, exec answers a next state in which PC and SCHED_CYCLE have advanced and nothing else has changed: no destination
is written and no operation triggered. -/
def Obligations.GuardFalseTriggersNothing : Prop :=
  ∀ (i : Instr) (u p o : Nat) (m : MoveF) (s : State) (c0 : Ctx), destOf i = some (u, p, o, m) →
    s.Clear c0 (Bundle.one (syllable true u p o m) s.curPc) →
    c0.land.guardMask (Move.of 0 (syllable true u p o m)) = 0 →
    ∃ t c', exec i s = .next t ∧ t.ctx s.cur = some c' ∧ s.Frame t ∧
      c'.Is (c0.land.after (Bundle.one (syllable true u p o m) s.curPc) (s.fold s.cur.fold).cycle c0.land.us.ticked)

/-- R10, R11, R14, R21, R25. With nothing standing before the bundle: a move into a g register gives each guarded lane its
source's low 32 bits and leaves the other lanes and registers; a move into an s register gives it the source of the
lowest guarded live lane; a move into a predicate gives each guarded lane bit 0 of its source, and a move into k0 is
discarded. PC and SCHED_CYCLE advance and nothing else changes. -/
def Obligations.RegisterMoves : Prop :=
  ∀ (reg : BitVec 8) (m : MoveF) (s : State) (c0 : Ctx),
    (s.Fires c0 (syllable true U.rf 0 reg.toNat m) →
      let b := Bundle.one (syllable true U.rf 0 reg.toNat m) s.curPc
      let mv := Move.of 0 (syllable true U.rf 0 reg.toNat m)
      ∃ t c' g, exec (.moveToG reg m) s = .next t ∧ t.ctx s.cur = some c' ∧ s.Frame t ∧
        c'.Is { c0.land.after b (s.fold s.cur.fold).cycle c0.land.us.ticked with g := g } ∧
        (∀ l, l < c0.nlanes → c'.gReg reg.toNat l =
          if (c0.land.guardMask mv).getLsbD l then lo32 (c0.land.src b mv l) else c0.gReg reg.toNat l) ∧
        (∀ r l, r ≠ reg.toNat → c'.gReg r l = c0.gReg r l)) ∧
    (s.Fires c0 (syllable true U.rf 1 reg.toNat m) →
      let b := Bundle.one (syllable true U.rf 1 reg.toNat m) s.curPc
      let mv := Move.of 0 (syllable true U.rf 1 reg.toNat m)
      ∃ t c', exec (.moveToS reg m) s = .next t ∧ t.ctx s.cur = some c' ∧ s.Frame t ∧
        c'.Is { c0.land.after b (s.fold s.cur.fold).cycle c0.land.us.ticked with
          s := Tbl.put c0.s reg.toNat (c0.land.src b mv (Lanes.low (c0.land.guardMask mv) c0.nlanes)) }) ∧
    (s.Fires c0 (syllable true U.rf 2 reg.toNat m) →
      let b := Bundle.one (syllable true U.rf 2 reg.toNat m) s.curPc
      let mv := Move.of 0 (syllable true U.rf 2 reg.toNat m)
      ∃ t c' k, exec (.moveToK reg m) s = .next t ∧ t.ctx s.cur = some c' ∧ s.Frame t ∧
        c'.Is { c0.land.after b (s.fold s.cur.fold).cycle c0.land.us.ticked with k := k } ∧
        (reg = 0 → k = c0.land.k) ∧
        (reg ≠ 0 → ∀ l, l < c0.nlanes → l < 1024 → (c'.pred reg.toNat).getLsbD l =
          if (c0.land.guardMask mv).getLsbD l then (c0.land.src b mv l).getLsbD 0 else (c0.land.pred reg.toNat).getLsbD l) ∧
        (∀ r, r ≠ reg.toNat → c'.pred r = c0.land.pred r))

/-- R12, R14, R15, R41. With nothing standing before the bundle, a move into port A, B or C of a unit gives the port the
source's value on each guarded lane (for a uniform port the lowest guarded lane's value); a DSEL of 1 replaces bits
31:0 and a DSEL of 2 bits 63:32 and keeps the other half. The unit's other ports, R and every other unit stay as they
were, nothing is triggered, PC and SCHED_CYCLE advance and nothing else changes. -/
def Obligations.PortMoves : Prop :=
  ∀ (u : BitVec 5) (p : BitVec 2) (d : BitVec 8) (m : MoveF) (s : State) (c0 : Ctx), p ≠ 3 → u ≠ 0 →
    s.Fires c0 (syllable true u.toNat p.toNat d.toNat m) →
    let b := Bundle.one (syllable true u.toNat p.toNat d.toNat m) s.curPc
    let mv := Move.of 0 (syllable true u.toNat p.toNat d.toNat m)
    let c := c0.land
    let old := fun l => ((if p = 0 then (c.us.unit u.toNat).a else if p = 1 then (c.us.unit u.toNat).b
      else (c.us.unit u.toNat).c).at l)
    let put := fun (x v : W64) => if d = 0 then v else if d = 1 then x.extractLsb' 32 32 ++ lo32 v else lo32 v ++ lo32 x
    ∃ t c', ∃ us : UnitState, exec (.moveToPort u p d m) s = .next t ∧ t.ctx s.cur = some c' ∧ s.Frame t ∧
      c'.Is (c.after b (s.fold s.cur.fold).cycle us.ticked) ∧
      (us.pend = c.us.pend ∧ us.flags = c.us.flags ∧ us.owners = c.us.owners ∧ us.fence = c.us.fence ∧
        us.xlBusy = c.us.xlBusy ∧ us.sfTrap = c.us.sfTrap) ∧
      (∀ v, v ≠ u.toNat → us.unit v = c.us.unit v) ∧
      { us.unit u.toNat with a := [], b := [], c := [] } = { c.us.unit u.toNat with a := [], b := [], c := [] } ∧
      (p ≠ 0 → (us.unit u.toNat).a = (c.us.unit u.toNat).a) ∧ (p ≠ 1 → (us.unit u.toNat).b = (c.us.unit u.toNat).b) ∧
      (p ≠ 2 → (us.unit u.toNat).c = (c.us.unit u.toNat).c) ∧
      (∀ l, l < c.nlanes → uniformPort u.toNat p.toNat = false →
        ((if p = 0 then (us.unit u.toNat).a else if p = 1 then (us.unit u.toNat).b else (us.unit u.toNat).c).at l) =
          if (c.guardMask mv).getLsbD l then put (old l) (c.src b mv l) else old l) ∧
      (uniformPort u.toNat p.toNat = true →
        ((if p = 0 then (us.unit u.toNat).a else if p = 1 then (us.unit u.toNat).b else (us.unit u.toNat).c).at 0) =
          put (old 0) (c.src b mv (Lanes.low (c.guardMask mv) c.nlanes)))

/-- R16, R85, R86, R87, R88, R89, R90. For each of the 80 integer rows, with nothing standing before the bundle and a
guard that holds on a lane: exec answers a next state in which one result of the row is in flight, to land after the
unit's latency, with the row's value of A, B, T and the carry latch on each triggered lane and, for add, sub, addc and
subb, the latch's new bits; T of the unit is written, PC and SCHED_CYCLE advance, nothing else changes. -/
def Obligations.IntegerResults : Prop :=
  ∀ (r : FixedRow) (m : MoveF) (s : State) (c0 : Ctx), r ∈ iaResults ++ ibResults ++ shResults ++ imResults →
    s.Fires c0 (r.word m) → r.Runs m s c0

/-- R91, R92, R93. For each compare and predicate-logic row of CM, with nothing standing before the bundle and a guard
that holds on a lane: one result is in flight that lands in the row's destination predicate at the issue of the
following bundle, with the relation or the logic of bit 0 on each triggered lane; nothing else changes. -/
def Obligations.CompareResults : Prop :=
  ∀ (kind : BitVec 2) (k : BitVec 3) (r : FixedRow) (m : MoveF) (s : State) (c0 : Ctx),
    r ∈ cmResults k ++ cmRelResults kind k → s.Fires c0 (r.word m) → r.Runs m s c0

/-- R14, R16, R101. For each of the 22 rows of UA, with nothing standing before the bundle and a guard that holds on a
lane: one 64-bit result for the team is in flight, of A, B and the T value of the lowest guarded lane, and lands at
the next bundle; nothing else changes. -/
def Obligations.UniformResults : Prop :=
  ∀ (r : UniformRow) (m : MoveF) (s : State) (c0 : Ctx), r ∈ uaResults → s.Fires c0 (r.word m) → r.Runs m s c0

/-- R109, R110, R113, R115, R116, R117. For each row of FA and FB under every TYPE, RND and FTZ, with nothing standing
before the bundle (the reserved combinations do not pass its checks) and a guard that holds on a lane: one result is
in flight for 4 bundles with the value and the exceptions of each triggered lane; nothing else changes. -/
def Obligations.FloatResults : Prop :=
  ∀ (ty rnd : BitVec 2) (ftz : BitVec 1) (r : FixedRow) (m : MoveF) (s : State) (c0 : Ctx),
    r ∈ faResults ty rnd ftz ++ fbResults ty rnd ftz → s.Fires c0 (r.word m) → r.Runs m s c0

/-- R118, R119, R120, R121, R122. For each row of CV under every PAIR, RND, SAT and TYPE, and for the conversions through
a format register whose description is well formed: one result is in flight for 2 bundles with the value and the
exceptions of each triggered lane; nothing else changes. -/
def Obligations.ConvertResults : Prop :=
  ∀ (pair fm : BitVec 4) (rnd ty : BitVec 2) (sat rz : BitVec 1) (r : FixedRow) (m : MoveF) (s : State) (c0 : Ctx),
    s.Fires c0 (r.word m) →
    (r ∈ cvResults pair rnd ty sat → ty ≠ 3 → r.Runs m s c0) ∧
    ((Narrow.of (s.fmReg c0.land fm.toNat)).malformed = false →
      r ∈ cvFmResults fm rz (Narrow.of (s.fmReg c0.land fm.toNat)) → r.Runs m s c0)

/-- R120, R350. cv.t.cvt.fm.to and cv.t.cvt.fm.from through a format register whose description is malformed put no result
in flight: exec answers a next state in which C_MXFORMAT with the triggered lanes is due before the team's next
bundle. -/
def Obligations.MalformedFormatTraps : Prop :=
  ∀ (fm : BitVec 4) (rz : BitVec 1) (m : MoveF) (s : State) (c0 : Ctx) (i : Instr) (o : Nat),
    (i = .cvCvtFmTo fm rz m ∧ o = 0xC0 + fm.toNat * 2 + rz.toNat) ∨ (i = .cvCvtFmFrom fm m ∧ o = 0xE0 + fm.toNat * 2) →
    (Narrow.of (s.fmReg c0.land fm.toNat)).malformed = true → s.Fires c0 (syllable true U.cv 3 o m) →
    ∃ t c' d, exec i s = .next t ∧ t.ctx s.cur = some c' ∧ s.Frame t ∧ c'.us.pend = c0.land.us.ticked.pend ∧
      d ∈ c'.due ∧ d.code = 0x48 ∧ d.lanes = some (c0.land.guardMask (Move.of 0 (syllable true U.cv 3 o m))) ∧
      d.bundle = some (c0.pc, BitVec.ofNat 64 c0.sched)

/-- R16, R86, R92, R99, R113. When the one result in flight of a context that is not in an idle count is due, the event of
its landing (fixedResultLand for a unit, cmPredicateLand for CM) answers a next state in which nothing is in flight; R
of the unit holds the result's values on its lanes that are still live, and what it held on the others (UA: its one
value); the carry latch takes the result's bits on those lanes; a compare's predicate takes the bits instead (k0
stays); the exceptions of those lanes are sticky in FP_CTL. Memory, g and s registers, flags and PC stay. -/
def Obligations.ResultsLand : Prop :=
  ∀ (id : CtxId) (u : UnitId) (s : State) (c : Ctx) (p : Pend), s.ctx id = some c → (∀ n, c.wait ≠ .idle n) →
    c.us.pend = [p] → p.left = 0 → p.unit = unitCode u →
    ∃ t c', exec (if p.unit = U.cm then .cmPredicateLand id else .fixedResultLand id u) s = .next t ∧ t.ctx id = some c' ∧
      c'.us.pend = [] ∧
      (p.unit ≠ U.cm → p.unit ≠ U.ua → ∀ l, l < c.nlanes → (c'.us.unit p.unit).r.at l =
        if (p.mask &&& c.live).getLsbD l then p.vals.at l else (c.us.unit p.unit).r.at l) ∧
      (p.unit = U.ua → (c'.us.unit U.ua).r = p.vals) ∧
      (p.unit ≠ U.cm → ∀ k, p.carry = some k → ∀ l, (c'.us.unit p.unit).carry.getLsbD l =
        if (p.mask &&& c.live).getLsbD l then k.getLsbD l else (c.us.unit p.unit).carry.getLsbD l) ∧
      (p.unit ≠ U.cm → c'.k = c.k) ∧ (p.unit = U.cm → c'.us.units = c.us.units) ∧
      (p.unit = U.cm → p.kdst ≠ 0 → ∀ l, l < c.nlanes → l < 1024 → (c'.pred p.kdst.toNat).getLsbD l =
        if (p.mask &&& c.live).getLsbD l then (p.vals.at l).getLsbD 0 else (c.pred p.kdst.toNat).getLsbD l) ∧
      (p.unit = U.cm → p.kdst = 0 → c'.k = c.k) ∧
      c'.fpCtl = c.fpCtl ||| (excUnion (p.mask &&& c.live) c.nlanes p.excs).zeroExtend 64 ∧
      c'.g = c.g ∧ c'.s = c.s ∧ c'.us.flags = c.us.flags ∧ c'.pc = c.pc ∧ t.mem = s.mem ∧
      (∀ j, CtxId.key j ≠ CtxId.key id → t.ctx j = s.ctx j)

/-- R112, R113, R114. When the one result in flight of FA, FB or CV is due, some live triggered lane has an exception that
FP_CTL enables, and the context is not in an idle count, its landing makes a trap due whose code is 0x12 + the lowest
enabled exception (NV, DZ, OF, UF, NX), with the trigger's bundle and the lanes on which an enabled exception arose.
Without an enabled exception no trap becomes due. An SF operation with an enabled exception makes nothing due when it
completes: its trap, with that code, bundle and lanes and the flag the operation owned, is pending, and a bundle
that reads SF.R, triggers SF, waits on that flag or exits is not executed: with nothing else before it the team enters its
handler at TVEC with that cause. -/
def Obligations.EnabledExceptionBecomesDue : Prop :=
  (∀ (id : CtxId) (u : UnitId) (s : State) (c : Ctx) (p : Pend), s.ctx id = some c → (∀ n, c.wait ≠ .idle n) →
    c.us.pend = [p] → p.left = 0 → p.unit = unitCode u → p.unit ≠ U.cm →
    let e := excUnion (p.mask &&& c.live) c.nlanes p.excs &&& c.fpCtl.extractLsb' 8 5
    ∃ t c', exec (.fixedResultLand id u) s = .next t ∧ t.ctx id = some c' ∧
      (e = 0 → c'.due = c.due) ∧
      (e ≠ 0 → ∃ d, c'.due = c.due ++ [d] ∧ d.bundle = some (p.bundle, p.cycle) ∧ d.own = true ∧
        (∃ j, j < 5 ∧ e.getLsbD j = true ∧ (∀ i, i < j → e.getLsbD i = false) ∧ d.code.toNat = 0x12 + j) ∧
        (∃ m, d.lanes = some m ∧ ∀ l, l < c.nlanes → l < 1024 → m.getLsbD l = ((p.mask &&& c.live).getLsbD l &&
          decide (p.excs.getD l 0 &&& c.fpCtl.extractLsb' 8 5 ≠ 0))))) ∧
  (∀ (id : CtxId) (s : State) (c : Ctx) (o : VarOp), s.ctx id = some c → c.ops.find? (fun o => o.unit == U.sf) = some o →
    (c.us.unit U.sf).last = o.uid → (c.us.unit U.sf).full = false → c.frame = none →
    let exc := fun l => if (o.mask &&& c.live).getLsbD l then
      (sfLane o.opcode.toNat (lo32 (o.a.at l)).toNat (lo32 (o.t.at l)).toNat).2 else 0
    let e := excUnion (o.mask &&& c.live) c.nlanes ((List.range c.nlanes).map exc) &&& c.fpCtl.extractLsb' 8 5
    ∃ t c', exec (.sfComplete id) s = .next t ∧ t.ctx id = some c' ∧ c'.due = c.due ∧
      (e = 0 → c'.us.sfTrap = none) ∧
      (e ≠ 0 → ∃ d, c'.us.sfTrap = some d ∧ d.bundle = o.bundle ∧ d.cycle = o.cycle ∧
        d.flag = (c.us.owners.find? (fun kv => kv.2 == o.uid)).map Prod.fst ∧
        (∃ j, j < 5 ∧ e.getLsbD j = true ∧ (∀ i, i < j → e.getLsbD i = false) ∧ d.code.toNat = 0x12 + j) ∧
        ∀ l, l < c.nlanes → l < 1024 → d.lanes.getLsbD l = decide (exc l &&& c.fpCtl.extractLsb' 8 5 ≠ 0))) ∧
  (∀ (i : Instr) (b : Bundle) (s : State) (c0 : Ctx) (x : SfTrap), s.Issues c0 i b → s.ctx s.cur = some c0 →
    c0.ready = true → c0.shadow = false → c0.us.sfTrap = some x → c0.us.pend = [] → c0.due = [] →
    s.acqOut s.cur c0 = none → s.breaks s.cur c0 = false → c0.inh = false → c0.tvec &&& ~~~1 ≠ 0 →
    0x12 ≤ x.code → x.code ≤ 0x16 → c0.meetsSf b x = true →
    ∃ t c', exec i s = .next t ∧ t.ctx s.cur = some c' ∧ c'.pc = c0.tvec &&& ~~~1 ∧ c'.cause = x.code.zeroExtend 64 ∧
      c'.trapPc = c0.pc &&& ~~~1 ∧ c'.faultBundle = x.bundle ∧ c'.faultLanes = x.lanes ∧ c'.inh = true ∧
      c'.frame = some { c0.us with sfTrap := none } ∧ c'.us = UnitState.fresh ∧ c'.g = c0.g ∧ c'.sched = c0.sched ∧
      t.mem = s.mem)

/-- R28, R94, R95, R96. For each branch of BR with nothing standing before its bundle, a guard that holds on a lane, a
condition that holds as the issue finds it (a predicate over the live lanes, BR.A) and an even target: PC becomes the
target, which is the header's address plus T, or T itself for ret and jr, T being the lowest guarded lane's value;
call writes s31 with the address of the following bundle. SCHED_CYCLE advances and nothing else changes. -/
def Obligations.BranchesTaken : Prop :=
  ∀ (k : BitVec 3) (r : BranchRow) (m : MoveF) (s : State) (c0 : Ctx), r ∈ branches k → s.Fires c0 (r.word m) →
    let b := Bundle.one (r.word m) s.curPc
    let mv := Move.of 0 (r.word m)
    let c := c0.land
    r.taken c = true → (r.target c b mv).getLsbD 0 = false →
    ∃ t c', exec (r.instr m) s = .next t ∧ t.ctx s.cur = some c' ∧ s.Frame t ∧
      c'.Is { c.started s b mv with
        pc := r.target c b mv, lines := [], s := if r.link then Tbl.put c.s 31 b.next else c.s }

/-- R28, R95. For each conditional branch of BR with nothing standing before its bundle, a guard that holds on a lane and
a condition that does not hold: the team goes on at the following bundle; T of BR is written, SCHED_CYCLE advances and
nothing else changes. -/
def Obligations.BranchesNotTaken : Prop :=
  ∀ (k : BitVec 3) (r : BranchRow) (m : MoveF) (s : State) (c0 : Ctx), r ∈ branches k → s.Fires c0 (r.word m) →
    r.taken c0.land = false →
    ∃ t c', exec (r.instr m) s = .next t ∧ t.ctx s.cur = some c' ∧ s.Frame t ∧
      c'.Is (c0.land.started s (Bundle.one (r.word m) s.curPc) (Move.of 0 (r.word m)))

/-- R97, R350, R368. For each branch of BR that is taken with an odd target: the PC stays at the following bundle and
C_ALIGN, with the target as its address and the branch's bundle, is due before the team's next bundle. -/
def Obligations.OddBranchTargetTraps : Prop :=
  ∀ (k : BitVec 3) (r : BranchRow) (m : MoveF) (s : State) (c0 : Ctx), r ∈ branches k → s.Fires c0 (r.word m) →
    let b := Bundle.one (r.word m) s.curPc
    let mv := Move.of 0 (r.word m)
    r.taken c0.land = true → (r.target c0.land b mv).getLsbD 0 = true →
    ∃ t c' d, exec (r.instr m) s = .next t ∧ t.ctx s.cur = some c' ∧ s.Frame t ∧ c'.pc = b.next ∧ c'.s = c0.s ∧
      d ∈ c'.due ∧ d.code = 0x26 ∧ d.addr = some (r.target c0.land b mv) ∧
      d.bundle = some (c0.pc, BitVec.ofNat 64 c0.sched)

/-- R98, R99. With nothing standing before the bundle (its stores performed, its store fault buffer empty) and a guard
that holds on a lane: after exit, and after a lexit whose guard holds on every live lane, no team stands in the slot
and the team's TEAM_ID has left its gang's table of teams; after any other lexit the guarded lanes have left the live
mask, the team goes on at the following bundle, and nothing else changes. -/
def Obligations.ExitAndLexit : Prop :=
  ∀ (m : MoveF) (s : State) (c0 : Ctx) (i : Instr) (o : Nat),
    (i = .brExit m ∧ o = 0x38) ∨ (i = .brLexit m ∧ o = 0x39) → s.Fires c0 (syllable true U.br 3 o m) →
    let b := Bundle.one (syllable true U.br 3 o m) s.curPc
    let mv := Move.of 0 (syllable true U.br 3 o m)
    let c := c0.land
    (o = 0x38 ∨ c.live &&& ~~~(c.guardMask mv) = 0 →
      ∃ t, exec i s = .next t ∧ ((Tbl.drop s.ctxs (CtxId.key s.cur)).all (fun e => e.1 != CtxId.key s.cur) = true →
          t.ctx s.cur = none) ∧
        (t.gang c0.gang).map Gang.teams = (s.gang c0.gang).map (fun g => Tbl.drop g.teams c0.teamId)) ∧
    (o = 0x39 → c.live &&& ~~~(c.guardMask mv) ≠ 0 →
      ∃ t c', exec i s = .next t ∧ t.ctx s.cur = some c' ∧ s.Frame t ∧
        c'.Is { c.started s b mv with live := c.live &&& ~~~(c.guardMask mv) })

/-- R14. A move whose destination is an s register, a port of UA or BR, or port A of SV writes the value of the lowest-
numbered live lane on which its guard is true, once for the team; when there is no such lane, the move has no effect. -/
def Obligations.UniformDestinations : Prop :=
  ∀ (c : Ctx) (m : Move) (v : Nat → W64), (m.dunit = 0 ∧ m.dport = 1) ∨ (m.dport ≤ 3 ∧ (m.dunit = U.ua ∨ m.dunit = U.br)) ∨
    (m.dunit = U.sv ∧ m.dport = 0) →
    (c.guardMask m = 0 → c.write m (c.guardMask m) v = c) ∧
    (∀ l, l < c.nlanes → (c.guardMask m).getLsbD l = true → (∀ j, j < l → (c.guardMask m).getLsbD j = false) →
      (m.dunit = 0 → (c.write m (c.guardMask m) v).sReg m.dsel = v l) ∧
      (m.dunit ≠ 0 → (m.dport = 3 ∨ m.dsel = 0) →
        (let p := (c.write m (c.guardMask m) v).us.unit m.dunit
        (if m.dport = 0 then p.a else if m.dport = 1 then p.b else if m.dport = 2 then p.c else p.held).at 0) = v l))

/-- R129. The value that a move reads from R of LA, LB or AT on a lane is all 64 bits of that R when its destination is an
s register or a 64-bit port taken whole, and bits 31:0 when its destination is a g register or a 32-bit port. -/
def Obligations.WideLoadPortReads : Prop :=
  ∀ (c : Ctx) (b : Bundle) (m : Move) (u l : Nat), m.skind = 1 → m.ssel = u * 32 → (u = U.la ∨ u = U.lb ∨ u = U.at_) →
    (((m.dunit = 0 ∧ m.dport = 1) ∨ (m.dunit ≠ 0 ∧ port64 m.dunit m.dport = true ∧ (m.dport = 3 ∨ m.dsel = 0))) →
      c.src b m l = (c.us.unit u).r.at l) ∧
    (((m.dunit = 0 ∧ m.dport = 0) ∨ (m.dunit ≠ 0 ∧ port64 m.dunit m.dport = false)) → 
      c.src b m l = zx (lo32 ((c.us.unit u).r.at l)))

/-- R18, R20, R123. For each of the nine special functions under each TYPE, with nothing standing before the bundle and a
guard that holds on a lane: exec answers a next state in which one more SF operation is in flight on the triggered
lanes with the opcode, port A and the T values of its bundle, SF.R is empty until it completes, and nothing else
changes. -/
def Obligations.SpecialFunctionsStart : Prop :=
  ∀ (ty : BitVec 2) (i : (MoveF → Instr) × Nat) (m : MoveF) (s : State) (c0 : Ctx), i ∈ sfOps ty →
    s.Fires c0 (syllable true U.sf 3 (ty.toNat * 16 + i.2) m) →
    OpStarts (i.1 m) (syllable true U.sf 3 (ty.toNat * 16 + i.2) m) s c0 (fun o =>
      o.vals = none ∧ o.a = (c0.land.us.unit U.sf).a ∧
      ∀ l, l < c0.nlanes → o.mask.getLsbD l = true → o.t.at l =
        c0.land.src (Bundle.one (syllable true U.sf 3 (ty.toNat * 16 + i.2) m) s.curPc)
          (Move.of 0 (syllable true U.sf 3 (ty.toNat * 16 + i.2) m)) l)

/-- R19, R20, R99, R113, R123, R124. When the oldest SF operation in flight of a context is also the latest that emptied
SF.R, its completion answers a next state in which the operation is gone, SF.R is full and holds on each lane that is
triggered and still live the function of that lane's A and T, R on the other lanes is as it was, the exceptions of
those lanes are sticky in FP_CTL, and every flag the operation owned reads 1 and is owned no longer. -/
def Obligations.SpecialFunctionsComplete : Prop :=
  ∀ (id : CtxId) (s : State) (c : Ctx) (o : VarOp), s.ctx id = some c → c.ops.find? (fun o => o.unit == U.sf) = some o →
    (c.us.unit U.sf).last = o.uid → (c.us.unit U.sf).full = false →
    ∃ t c', exec (.sfComplete id) s = .next t ∧ t.ctx id = some c' ∧ c'.ops = c.ops.filter (fun x => x.uid != o.uid) ∧
      (c'.us.unit U.sf).full = true ∧ (c'.us.unit U.sf).frec = none ∧
      (∀ l, l < c.nlanes → (c'.us.unit U.sf).r.at l = if (o.mask &&& c.live).getLsbD l then
          BitVec.ofNat 64 ((sfLane o.opcode.toNat (lo32 (o.a.at l)).toNat (lo32 (o.t.at l)).toNat).1 % 2 ^ 32)
        else (c.us.unit U.sf).r.at l) ∧
      c'.fpCtl = c.fpCtl ||| (excUnion (o.mask &&& c.live) c.nlanes ((List.range c.nlanes).map (fun l =>
        if (o.mask &&& c.live).getLsbD l then
          (sfLane o.opcode.toNat (lo32 (o.a.at l)).toNat (lo32 (o.t.at l)).toNat).2 else 0))).zeroExtend 64 ∧
      (∀ kv ∈ c.us.owners, kv.2 = o.uid → kv.1 < 12 → c'.us.flag kv.1 = true) ∧
      c'.us.owners = c.us.owners.filter (fun kv => kv.2 != o.uid) ∧
      c'.g = c.g ∧ c'.s = c.s ∧ c'.k = c.k ∧ c'.pc = c.pc ∧ t.mem = s.mem ∧
      (∀ v, v ≠ U.sf → c'.us.unit v = c.us.unit v) ∧ (∀ j, CtxId.key j ≠ CtxId.key id → t.ctx j = s.ctx j)

/-- R151, R152, R153, R154, R155. For each of the 18 lane operations of XL, with nothing standing before the bundle and a
guard that holds on a lane: one more operation is in flight, whose value on each triggered lane is the row's function
of A, B and T over the live or triggered lanes; XL.R is empty until it completes, and nothing else changes. -/
def Obligations.LaneOperationsStart : Prop :=
  ∀ (r : XlRow) (m : MoveF) (s : State) (c0 : Ctx), r ∈ xlResults → s.Fires c0 (r.word m) →
    OpStarts (r.instr m) (r.word m) s c0 (fun o => ∃ v, o.vals = some v ∧
      ∀ l, l < c0.nlanes → o.mask.getLsbD l = true →
        v.at l = zx (r.value (c0.land.xlArgs (Bundle.one (r.word m) s.curPc) (Move.of 0 (r.word m))) l))

/-- R19, R20, R99, R151, R160, R161. When the oldest lane operation of XL in flight (or the oldest wide-register operation
whose cycle has come) is the latest that emptied XL.R, its completion answers a next state in which it is gone, XL.R
is full with the operation's values on the lanes that are triggered and still live and its earlier contents on the
others (everywhere, for a wide-register operation without values), and the flags it owned read 1. -/
def Obligations.CrossLaneOperationsComplete : Prop :=
  ∀ (id : CtxId) (s : State) (c : Ctx) (o : VarOp) (wide : Bool), s.ctx id = some c →
    c.ops.find? (fun o => o.unit == U.xl && (if wide then decide (0x40 ≤ o.opcode.toNat) &&
      decide (o.notBefore ≤ (s.fold id.fold).cycle) else decide (o.opcode.toNat < 0x40))) = some o →
    (wide = false → o.vals.isSome = true) → (c.us.unit U.xl).last = o.uid → (c.us.unit U.xl).full = false →
    ∃ t c', exec (if wide then .wideRegOpComplete id else .xlLaneOpComplete id) s = .next t ∧ t.ctx id = some c' ∧
      c'.ops = c.ops.filter (fun x => x.uid != o.uid) ∧ (c'.us.unit U.xl).full = true ∧
      (∀ l, l < c.nlanes → (c'.us.unit U.xl).r.at l = match o.vals with
        | some v => if (o.mask &&& c.live).getLsbD l then v.at l else (c.us.unit U.xl).r.at l
        | none => (c.us.unit U.xl).r.at l) ∧
      (∀ kv ∈ c.us.owners, kv.2 = o.uid → kv.1 < 12 → c'.us.flag kv.1 = true) ∧
      c'.us.owners = c.us.owners.filter (fun kv => kv.2 != o.uid) ∧ c'.fpCtl = c.fpCtl ∧
      c'.g = c.g ∧ c'.s = c.s ∧ c'.k = c.k ∧ c'.pc = c.pc ∧ t.mem = s.mem ∧
      (∀ v, v ≠ U.xl → c'.us.unit v = c.us.unit v) ∧ (∀ j, CtxId.key j ≠ CtxId.key id → t.ctx j = s.ctx j)

/-- R157, R158, R159, R161. For each of the ten wide-register operations, with nothing standing before the bundle, a guard
that holds on a lane, every wide register that the control word names within the gang's count, and no range lock over
its containers: exec answers a next state in which the operation is in flight, the containers it writes hold the
values that R159 gives from what they held, every other byte of memory reads as before, XL and the fold's path are
busy for the operation's beats, and wr.ld's value on each triggered lane is the pair of containers of its row and
columns. Container by container: wr.st and wr.pack place each triggered lane's value, wr.rotr and wr.rotc rotate a row
and a column, wr.bcr and wr.bcc repeat them, wr.redr and wr.redc give the wrapping or saturating sums of the integer
types, and wr.zero gives 0. -/
def Obligations.WideRegisterOperationsStart : Prop :=
  ∀ (op : Nat) (i : MoveF → Instr) (m : MoveF) (s : State) (c0 : Ctx) (g : Gang), (op, i) ∈ wideOps → s.memOk →
    s.Fires c0 (syllable true U.xl 3 op m) → s.gang c0.gang = some g → c0.shadow = false →
    let b := Bundle.one (syllable true U.xl 3 op m) s.curPc
    let mv := Move.of 0 (syllable true U.xl 3 op m)
    let c := c0.land
    let k := WideCtl.of (lo32 ((c.us.unit U.xl).a.at (Lanes.low (c.guardMask mv) c.nlanes)))
    let key := fun off => Memory.wideKey c0.gang (g.half s.cur.fold) off
    let act := wideAct op k (c.trigOf b mv) c.nlanes (fun l => lo32 (c.src b mv l)) (fun off => s.rd (key off) 2)
    act.regs.any (fun w => decide (g.block.wide ≤ w)) = false →
    wideLocked (s.fold s.cur.fold) (wideOwner c0.gang (g.half s.cur.fold)) (s.blockRegs s.cur.fold c g) act = false →
    ∃ t c' o, exec (i m) s = .next t ∧ t.ctx s.cur = some c' ∧ c'.ops = c.ops ++ [o] ∧ o.unit = U.xl ∧
      o.uid = c.nextUid ∧ o.mask = c.guardMask mv ∧
      (op = 0x40 → ∃ v, o.vals = some v ∧ ∀ l, l < c.nlanes → o.mask.getLsbD l = true →
        v.at l = BitVec.ofNat 64 (s.rd (key (contOff k.wreg ((k.row + l / 32) % 16) (2 * (l % 32)))) 4)) ∧
      (op ≠ 0x40 → o.vals = none) ∧
      (let old := fun w r x => s.rd (key (contOff w r x)) 2
        let new := fun w r x => t.rd (key (contOff w r x)) 2
        let tv := fun l => lo32 (c.src b mv l)
        let sum := fun (ty : Nat) (xs : List Nat) =>
          let z := (xs.map (fun x => (BitVec.ofNat 16 x).toInt)).sum
          if ty = 0 then BitVec.ofInt 16 z else BitVec.ofInt 16 (max (-32768) (min 32767 z))
        (op = 0x41 → c.nlanes ≤ 512 → ∀ l, l < c.nlanes → o.mask.getLsbD l = true →
          new k.wreg ((k.row + l / 32) % 16) (2 * (l % 32)) = (tv l).toNat % 2 ^ 16 ∧
          new k.wreg ((k.row + l / 32) % 16) (2 * (l % 32) + 1) = (tv l).toNat / 2 ^ 16) ∧
        (op = 0x42 → ∀ x, x < 64 → new k.wreg k.row x = old k.wreg k.row ((x + 64 - k.amt) % 64)) ∧
        (op = 0x43 → ∀ r, r < 16 → new k.wreg r k.col = old k.wreg ((r + 16 - k.amt % 16) % 16) k.col) ∧
        (op = 0x44 → ∀ r x, r < 16 → x < 64 → new k.wdst r x = old k.wreg k.row x) ∧
        (op = 0x45 → ∀ r x, r < 16 → x < 64 → new k.wdst r x = old k.wreg r k.col) ∧
        (op = 0x46 → k.ty < 2 → ∀ r, r < 16 →
          new k.wdst r k.col = (sum k.ty ((List.range 64).map (fun x => old k.wreg r x))).toNat) ∧
        (op = 0x47 → k.ty < 2 → ∀ x, x < 64 →
          new k.wdst k.row x = (sum k.ty ((List.range 16).map (fun r => old k.wreg r x))).toNat) ∧
        (op = 0x48 → ∀ r x, r < 16 → x < 64 → new k.wreg r x = 0) ∧
        (op = 0x49 → c.nlanes ≤ 512 → ∀ l, l < c.nlanes → o.mask.getLsbD l = true →
          new k.wreg ((k.row + l / 32) % 16) (32 * (k.col / 32) + l % 32) = widePack k.ty (tv l))) ∧
      t.mem = (act.writes.foldl (fun u x => u.wr (key x.1) 2 x.2) s).mem ∧
      (∀ a, (∀ x ∈ act.writes, ¬(key x.1 ≤ a ∧ a < key x.1 + 2)) → Memory.read t.mem a = Memory.read s.mem a) ∧
      c'.us.xlBusy = (s.fold s.cur.fold).cycle + wideBeats op (Lanes.passes c.live c.nlanes).length ∧
      (t.fold s.cur.fold).widePath = (s.fold s.cur.fold).cycle + wideBeats op (Lanes.passes c.live c.nlanes).length ∧
      c'.g = c.g ∧ c'.s = c.s ∧ c'.k = c.k ∧ c'.pc = b.next ∧ c'.sched = (c.sched + 1) % 2 ^ 48 ∧
      c'.us.flags = c.us.flags ∧ t.gangs = s.gangs ∧ t.dies = s.dies

/-- R29, R128, R131, R133, R134, R135, R136, R145. For every load, prefetch, store, maintenance operation and atomic
(defined opcodes; the reserved ones do not pass the bundle's checks), with nothing standing before the bundle and a
guard that holds on a lane: exec answers a next state in which the move stands at the end of the team's queue, one
entry per 32-lane word, each lane with the address A + s(T) (A alone for a d store); no byte of memory has changed; R
is empty until the move is performed, but for a prefetch and a red, which leave R full as it was; registers and the
other units stay. -/
def Obligations.MemoryMovesQueue : Prop :=
  ∀ (size ord rt : BitVec 2) (sgn rem asz : BitVec 1) (i : (MoveF → Instr) × Nat × Nat) (m : MoveF) (s : State) (c0 : Ctx),
    i ∈ loadOps size sgn rt ++ prefetchOps rt ++ storeOps size rt ++ atomOps rem ord asz →
    s.Fires c0 (syllable true i.2.1 3 i.2.2 m) → MemQueued (i.1 m) i.2.1 i.2.2 m s c0

/-- R131, R132, R141, R211, R215, R220, R242, R276, R360, R361, R449. For the load that stands alone in a context's queue with
one pass, no lock on the wide registers unread before it. Where the checks of its one lane name package memory and it can be
performed there, R of its unit is full and holds on that lane the bytes at that place, or, when the load is no acquire,
under .si those of the team's own self-invalidating copy where its fold holds one, extended as the opcode says. Where the
checks of all its lanes name scratchpad bytes that no map covers, R holds on each lane the bytes there, and no byte of memory
has changed. The same of one lane in a filled sector of a map; where the sector is not filled, the bytes of its global
address. Where the one lane finds a fault, R is full and holds a token of that cause on that lane, with the lane's address
in the fault record, an acquire's fault makes C_POISONED due, and no byte of memory changes but those that the walk of a
leaf that granted the access sets. The move has left the queue. Two loads of one bundle that form one access of 8 bytes
are performed together: the second, its lane done, keeps the bytes of the same moment until it completes. -/
def Obligations.LoadsPerformed : Prop :=
  ∀ (id : CtxId) (s : State) (c : Ctx) (o : MemOp), s.ctx id = some c → c.wait ≠ .exiting → c.LoadOpen o → c.Serves o →
    ((∃ x ∈ o.lanes, x.win.isSome = true) → (s.fold id.fold).unread o.locks = false) →
    let done := fun (t : State) (c' : Ctx) => exec (.loadComplete id) s = .next t ∧ t.ctx id = some c' ∧ c'.memq = [] ∧
      (c'.us.unit o.unit).full = true
    let same := fun (t : State) => ∀ a, Memory.read t.mem a = Memory.read s.mem a
    (∀ x tr p, c.memq = [o] → o.lanes = [x] → s.At id c o x tr p →
      let u := s.reached id c o x tr p
      ∃ t c', done t c' ∧ (c'.us.unit o.unit).frec = none ∧ (c'.us.unit o.unit).r.at x.lane = o.extend
          (match if o.rt = 2 && !o.acquires then (s.fold id.fold).siBytes c.tid p o.size else none with
          | some bs => natOf bs
          | none => u.rd p o.size)) ∧
    (∀ f off : MemLane → Nat, c.memq = [o] → (∀ x ∈ o.lanes, s.check id c o x = .window (f x) (off x)) → s.Unmapped →
      ∃ t c', done t c' ∧ (c'.us.unit o.unit).frec = none ∧ same t ∧
        ∀ x ∈ o.lanes, (c'.us.unit o.unit).r.at x.lane = o.extend (s.rd (Memory.spmKey (f x) (off x)) o.size)) ∧
    (∀ x f off gid g half b m, c.memq = [o] → o.lanes = [x] → s.check id c o x = .window f off → s.memOk →
      s.blockAt f off = some (gid, g, half, b) → s.gang gid = some g → g.mapAt half b = some m → b % o.size = 0 →
      ((g.sector half (b / 256)).filled = true → ∃ t c', done t c' ∧ same t ∧
        (c'.us.unit o.unit).r.at x.lane = o.extend (s.rd (Memory.spmKey f off) o.size)) ∧
      (∀ tr p, (g.sector half (b / 256)).filled = false → s.PlainWindow g f (m.global (b / 256)) .load tr →
        tr.place = .pkg p → s.eccHit tr.place 256 = false →
        ∃ t c', done t c' ∧ (c'.us.unit o.unit).r.at x.lane = o.extend (s.rd (p + b % 256) o.size))) ∧
    (∀ x e, c.memq = [o] → o.lanes = [x] → s.check id c o x = .fault e →
      ∃ t c' r, done t c' ∧ (c'.us.unit o.unit).frec = some r ∧ r.cause = e ∧ r.lanes = BitVec.ofNat 1024 (2 ^ x.lane) ∧
        r.addrs.at x.lane = x.addr ∧ (o.acquires = true → ∃ d ∈ c'.due, d.code = 0x10 ∧ d.sub = e) ∧
        (∀ a, Memory.read t.mem a = Memory.read (s.walked id c o x (.fault e)).mem a)) ∧
    (∀ p x y v w, c.memq = [o, p] → o.lanes = [x] → p.lanes = [y] → c.twin o x = some (p, y) → o.pass = p.pass →
      c.LoadOpen p → c.Serves p → (s.fold id.fold).unread p.locks = false →
      ((∃ f g a b, s.check id c o x = .window f a ∧ s.check id c p y = .window g b ∧ s.Unmapped ∧
          v = s.rd (Memory.spmKey f a) 4 ∧ w = s.rd (Memory.spmKey g b) 4) ∨
        (∃ tr tq a b, (s.pairFresh id c o p x y).At id c o x tr a ∧ (s.pairFresh id c o p x y).At id c p y tq b ∧
          (s.fold id.fold).watch = [] ∧ tr.setAD = none ∧
          tq.setAD = none ∧ tr.pte.getLsbD 62 = false ∧ tq.pte.getLsbD 62 = false ∧
          let si := fun k => if o.rt = 2 && !o.acquires then (s.fold id.fold).siBytes c.tid k 4 else none
          let both := (si a).isSome && (si b).isSome
          v = (if both then natOf ((si a).getD []) else s.rd a 4) ∧
            w = (if both then natOf ((si b).getD []) else s.rd b 4))) →
      ∃ t c' q, exec (.loadComplete id) s = .next t ∧ t.ctx id = some c' ∧ (c'.us.unit o.unit).full = true ∧
        (c'.us.unit o.unit).r.at x.lane = o.extend v ∧ c'.memq = [q] ∧ q.uid = p.uid ∧ q.lanes = [] ∧
        ∃ t2 c2, exec (.loadComplete id) t = .next t2 ∧ t2.ctx id = some c2 ∧ c2.memq = [] ∧
          (c2.us.unit p.unit).full = true ∧ (c2.us.unit p.unit).r.at y.lane = p.extend w)

/-- R98, R134, R135, R136, R141, R242, R262, R360, R361, R362, R449. For the store, red, atomic or maintenance operation
that stands alone in a context's queue with one lane and one pass, no write of the team held, no entry of the store fault
buffer of its own and no record to flush. A store, red or atomic on a scratchpad byte that no map covers, or at a package
byte where it can be performed: the bytes at that place become the stored value (an atomic's new value from the value they
held), every other byte of memory reads as before (but for the leaf and the count of its page), and a returning atomic fills
R with the value the place held; a team that has exited, with no other move queued, is then gone (log entry 56). Where the
lane's checks find a fault, a store or red becomes the newest entry of the store fault buffer with that cause, a returning
atomic fills R with a token of it, C_POISONED due when it acquires, and no byte of memory changes but those that the walk of
a leaf that granted the access sets; where they find that the lane touches an entry of the buffer, it becomes the newest
entry itself and no byte of memory changes. wb, inv and flush change no byte of memory: at a package byte wb leaves the
fold's line clean, inv and flush leave no line of the fold's L1 and no ownership of it; on the scratchpad byte of a clean
mapped sector inv and flush leave it unfilled, and where no map covers the byte nothing changes. -/
def Obligations.StoresAndAtomicsPerformed : Prop :=
  ∀ (id : CtxId) (s : State) (c : Ctx) (o : MemOp) (x : MemLane), s.memOk → s.ctx id = some c → c.memq = [o] →
    (o.unit = U.st ∨ o.unit = U.at_) → o.lanes = [x] → o.replay = none → o.res = [] → o.toks = [] →
    c.mapPending o.uid = false → c.descPending o.uid = false → (s.fold id.fold).unread o.locks = false →
    (s.fold id.fold).held.any (fun h => h.slot == id.slot && h.tid == c.tid) = false →
    (c.sfb ++ c.sfbWait).any (fun q => q.op.uid == o.uid) = false → (s.fold id.fold).dlog = none →
    (s.fold id.fold).watch = [] →
    let i := if o.isAtom then Instr.atomicComplete id else .storePerformed id
    let writes := (o.unit = U.st ∧ o.isMaint = false ∧ o.rt ≠ 0) ∨ o.unit = U.at_
    let performed := fun (u : State) (key : Nat) =>
      let new := if o.unit = U.st then x.x.toNat
        else atomNew (o.opcode.toNat % 16) (8 * o.size) (u.rd key o.size) x.x.toNat x.cmp.toNat
      ∃ t, exec i s = .next t ∧ t.rd key o.size = new % 2 ^ (8 * o.size) ∧
        (∀ a, (a < key ∨ key + o.size ≤ a) → Memory.read t.mem a = Memory.read u.mem a) ∧
        (c.wait = .exiting → (s.ctxs.map Prod.fst).Pairwise (· < ·) → t.ctx id = none) ∧
        (c.wait ≠ .exiting → ∃ c', t.ctx id = some c' ∧ c'.memq = [] ∧
          (o.isAtom = true → (c.us.unit U.at_).last = o.uid → (c.us.unit U.at_).full = false → x.lane < c.nlanes →
            (o.mask &&& c.live).getLsbD x.lane = true →
            (c'.us.unit U.at_).full = true ∧ (c'.us.unit U.at_).r.at x.lane = BitVec.ofNat 64 (u.rd key o.size)) ∧
          c'.g = c.g ∧ c'.s = c.s ∧ c'.k = c.k ∧ c'.pc = c.pc)
    (∀ f off, writes → s.check id c o x = .window f off → s.Unmapped → performed s (Memory.spmKey f off)) ∧
    (∀ tr p, writes → s.At id c o x tr p → (ringSize (s.die (dieOf id.fold)).dlogCtl 8 20) = none →
      performed (s.reached id c o x tr p) p) ∧
    (c.wait ≠ .exiting → writes →
      (∀ e, s.check id c o x = .fault e → o.isAtom = false → c.sfb.length < 16 →
        ∃ t c' q, exec i s = .next t ∧ t.ctx id = some c' ∧ c'.memq = [] ∧ c'.sfb = c.sfb ++ [q] ∧
          q.cause = e ∧ q.op.lanes = [{ x with trip := .here }] ∧
          (∀ a, Memory.read t.mem a = Memory.read (s.walked id c o x (.fault e)).mem a)) ∧
      (∀ e, s.check id c o x = .fault e → o.isAtom = true → (c.us.unit U.at_).last = o.uid →
        (c.us.unit U.at_).full = false → (c.us.unit U.at_).frec.isSome = true →
        ∃ t c', exec i s = .next t ∧ t.ctx id = some c' ∧ c'.memq = [] ∧ c'.sfb = c.sfb ∧
          c'.RToken U.at_ (BitVec.ofNat 1024 (2 ^ x.lane)) e ∧
          (o.acquires = true → ∃ d ∈ c'.due, d.code = 0x10 ∧ d.sub = e) ∧
          (∀ a, Memory.read t.mem a = Memory.read (s.walked id c o x (.fault e)).mem a)) ∧
      (s.check id c o x = .join → c.sfb.length < 16 →
        ∃ t c' q, exec i s = .next t ∧ t.ctx id = some c' ∧
          c'.memq = [] ∧ c'.sfb = c.sfb ++ [q] ∧ q.cause = 0 ∧ q.op.lanes = [{ x with trip := .here }] ∧
          (c'.us.unit U.at_).full = (c.us.unit U.at_).full ∧
          (∀ a, Memory.read t.mem a = Memory.read s.mem a))) ∧
    (c.wait ≠ .exiting → o.unit = U.st → o.isMaint = true →
      let cleared := fun (t : State) => ∃ c', exec i s = .next t ∧ t.ctx id = some c' ∧ c'.memq = []
      (∀ f off, s.check id c o x = .window f off → s.Unmapped → ∃ t, cleared t ∧ t.mem = s.mem ∧ t.gangs = s.gangs ∧
        t.folds = s.folds) ∧
      (∀ f off gid g half b m, s.check id c o x = .window f off → s.blockAt f off = some (gid, g, half, b) →
        s.gang gid = some g → g.mapAt half b = some m → (g.sector half (b / 256)).dirty = 0 →
        ∃ t, cleared t ∧ t.mem = s.mem ∧ (t.gang gid).map (fun h => h.sector half (b / 256)) =
          some (if o.opcode = 0x80 then g.sector half (b / 256) else Sector.fresh)) ∧
      (∀ tr p, s.check id c o x = .place tr → tr.place = .pkg p → tracked p = true → s.eccHit tr.place o.size = false →
        ∃ t, cleared t ∧ (∀ a, Memory.read t.mem a = Memory.read (s.walked id c o x (.place tr)).mem a) ∧
          (o.opcode = 0x80 → ∀ y ∈ (t.fold id.fold).l1, y.base = lineOf p → y.dirty = 0) ∧
          (o.opcode ≠ 0x80 → (∀ y ∈ (t.fold id.fold).l1, y.base ≠ lineOf p) ∧
            ∀ e ∈ (t.die (homeDie p)).rdir, e.owner = id.fold → e.covers (lineOf p) (lineOf p + 127) = false)))

/-- R186, R189, R190, R279, R308. With nothing standing before the bundle and a guard that holds on a lane, and no flag
owned under the trigger's own number: fset and fclr give their flag the value 1 or 0, leave the owners and refill SY.R
with what it held; yield holds the team in Yield; yieldc on an even target continues there, at once when the flag
reads 1 and held until it does when an operation owns it; fence leaves a fence pending at the bundle's scope with SY.R
empty. Registers and the rest stay. -/
def Obligations.FlagsYieldsAndFences : Prop :=
  ∀ (j : BitVec 4) (m : MoveF) (s : State) (c0 : Ctx),
    let b := fun o => Bundle.one (syllable true U.sy 3 o m) s.curPc
    let mv := fun o => Move.of 0 (syllable true U.sy 3 o m)
    let c := c0.land
    (∀ kv ∈ c.us.owners, kv.2 ≠ c.nextUid) →
    (∀ v : Bool, s.Fires c0 (syllable true U.sy 3 ((if v then 0x40 else 0x50) + j.toNat) m) →
      ∃ t c', exec (if v then .syFset j m else .syFclr j m) s = .next t ∧ t.ctx s.cur = some c' ∧ s.Frame t ∧
        (∀ i, i < 12 → c'.us.flag i = if i = j.toNat then v else c.us.flag i) ∧ c'.us.owners = c.us.owners ∧
        (c'.us.unit U.sy).full = true ∧ c'.wait = .ready ∧ c'.g = c.g ∧ c'.s = c.s ∧ c'.k = c.k ∧
        c'.pc = (b 0).next ∧ c'.sched = (c.sched + 1) % 2 ^ 48) ∧
    (s.Fires c0 (syllable true U.sy 3 0x60 m) →
      ∃ t c', exec (.syYield m) s = .next t ∧ t.ctx s.cur = some c' ∧ s.Frame t ∧ c'.wait = .yield 0 ∧
        c'.us.flags = c.us.flags ∧ (c'.us.unit U.sy).full = true ∧ c'.g = c.g ∧ c'.s = c.s ∧ c'.k = c.k ∧
        c'.pc = (b 0).next) ∧
    (s.Fires c0 (syllable true U.sy 3 (0x70 + j.toNat) m) →
      let target := s.curPc + sx (lo32 (c.src (b (0x70 + j.toNat)) (mv (0x70 + j.toNat))
        (Lanes.low (c.guardMask (mv (0x70 + j.toNat))) c.nlanes)))
      target.getLsbD 0 = false → (c.us.flag j.toNat = true ∨ c.us.owned j.toNat = true) →
      ∃ t c', exec (.syYieldc j m) s = .next t ∧ t.ctx s.cur = some c' ∧ s.Frame t ∧ c'.pc = target ∧
        c'.wait = (if c.us.flag j.toNat then .ready else .yieldc j.toNat) ∧ c'.us.flags = c.us.flags ∧
        c'.g = c.g ∧ c'.s = c.s ∧ c'.k = c.k) ∧
    (s.Fires c0 (syllable true U.sy 3 0x30 m) →
      ∃ t c', exec (.syFence m) s = .next t ∧ t.ctx s.cur = some c' ∧ s.Frame t ∧ c'.us.fence = some 0 ∧
        (c'.us.unit U.sy).full = false ∧ c'.us.flags = c.us.flags ∧ c'.g = c.g ∧ c'.s = c.s ∧ c'.k = c.k ∧
        c'.pc = (b 0).next)

/-- R34, R161, R190, R279, R308. For a resident context that is not Frozen: a run-out idle count, a yield that has counted
16, a yieldc whose flag reads 1, a wait for a free wide-register path, and a pending fence with nothing queued, held
or buffered each end with the next state Ready (the fence no longer pending, its operation gone); the rest of the
context stays. -/
def Obligations.WaitsEnd : Prop :=
  ∀ (id : CtxId) (s : State) (c : Ctx), s.ctx id = some c → c.frozen = false →
    (c.wait = .idle 0 → ∃ t, exec (.idleCountEnd id) s = .next t ∧ t.ctx id = some { c with wait := .ready }) ∧
    (∀ n, 16 ≤ n → c.wait = .yield n → ∃ t, exec (.yieldEnd id) s = .next t ∧ t.ctx id = some { c with wait := .ready }) ∧
    (∀ j, c.wait = .yieldc j → c.us.flag j = true →
      ∃ t, exec (.yieldcResume id) s = .next t ∧ t.ctx id = some { c with wait := .ready }) ∧
    (c.wait = .xlPath → (s.fold id.fold).widePath ≤ (s.fold id.fold).cycle → c.us.xlBusy ≤ (s.fold id.fold).cycle →
      ∃ t, exec (.xlBusyEnd id) s = .next t ∧ t.ctx id = some { c with wait := .ready, us := { c.us with xlBusy := 0 } }) ∧
    (∀ sc, c.us.fence = some sc → c.memq = [] → c.sfb = [] → c.sfbWait = [] →
      (s.fold id.fold).held.any (fun h => h.slot == id.slot && h.tid == c.tid) = false →
      ∃ t c', exec (.fenceComplete id) s = .next t ∧ t.ctx id = some c' ∧ c'.us.fence = none ∧
        c'.pc = c.pc ∧ c'.g = c.g ∧ c'.s = c.s ∧ c'.k = c.k ∧ (c.wait = .port U.sy → c'.wait = .ready))

/-- R186, R187, R188. For a team of a gang with nothing standing before the bundle, a guard that holds on a lane, no
operation of SY in flight and no dirty-range record to flush. When its role takes part in the barrier: bar.arr, its
arrival at the current generation not made yet, counts one arrival, fills SY.R with the generation and goes on; when
the arrival is the last expected one the generation rises and the count returns to 0. bar.sync does the same and
waits, SY.R empty, unless its arrival is the last, when it goes on with the new generation. bar.wait after an arrival
goes on with the current generation when that has passed the arrival's, and waits otherwise. When its role takes no
part, at a second arrival in one generation, and at a bar.wait without an arrival, C_BARRIER is due and no barrier changes;
that SY.R is as it was then is the model's own choice (log entry 87). Memory, registers, predicates and flags stay. -/
def Obligations.BarrierArrivalsAndWaits : Prop :=
  ∀ (bar : BitVec 4) (m : MoveF) (s : State) (c0 : Ctx) (g : Gang), s.SyIdle c0 g →
    let n := bar.toNat
    let w := fun o => syllable true U.sy 3 (o + n) m
    let b0 := g.barrier n
    let last := b0.arrivals + 1 = s.expected c0.gang g n
    let kept := fun (t : State) (c' : Ctx) => c'.g = c0.g ∧ ∀ a, Memory.read t.mem a = Memory.read s.mem a
    let counts := fun (t : State) => (last →
      (t.gang c0.gang).map (Gang.barrier · n) = some { gen := b0.gen + 1, arrivals := 0 }) ∧
      (¬last → (t.gang c0.gang).map (Gang.barrier · n) = some { gen := b0.gen, arrivals := b0.arrivals + 1 })
    (s.Fires c0 (w 0x00) → g.block.barRole n c0.role = true → c0.arrivedAt n b0.gen = false →
      TrigRuns (.syBarArr bar m) s c0 (fun t c' => kept t c' ∧ counts t ∧ c'.wait = .ready ∧
        c'.barOf n = { gen := b0.gen, waiting := true } ∧
        c0.RFilled c' U.sy (c0.rowMask (w 0x00)) (fun _ => BitVec.ofNat 64 b0.gen))) ∧
    (s.Fires c0 (w 0x20) → g.block.barRole n c0.role = true → c0.arrivedAt n b0.gen = false →
      TrigRuns (.syBarSync bar m) s c0 (fun t c' => kept t c' ∧ counts t ∧
        (last → c'.wait = .ready ∧ c0.RFilled c' U.sy (c0.rowMask (w 0x20)) (fun _ => BitVec.ofNat 64 (b0.gen + 1))) ∧
        (¬last → c'.wait = .barrier n ∧ (c'.us.unit U.sy).full = false))) ∧
    (s.Fires c0 (w 0x10) → g.block.barRole n c0.role = true → (c0.barOf n).waiting = true →
      TrigRuns (.syBarWait bar m) s c0 (fun t c' => kept t c' ∧ (t.gang c0.gang).map (Gang.barrier · n) = some b0 ∧
        ((c0.barOf n).gen < b0.gen → c'.wait = .ready ∧
          c0.RFilled c' U.sy (c0.rowMask (w 0x10)) (fun _ => BitVec.ofNat 64 b0.gen)) ∧
        (b0.gen ≤ (c0.barOf n).gen → c'.wait = .barrier n ∧ (c'.us.unit U.sy).full = false))) ∧
    (∀ i o, (i = .syBarArr bar m ∧ o = 0x00) ∨ (i = .syBarWait bar m ∧ o = 0x10) ∨ (i = .syBarSync bar m ∧ o = 0x20) →
      s.Fires c0 (w o) → (g.block.barRole n c0.role = false ∨ (o ≠ 0x10 ∧ c0.arrivedAt n b0.gen = true) ∨
        (o = 0x10 ∧ (c0.barOf n).waiting = false)) →
      TrigRuns i s c0 (fun t c' => kept t c' ∧ t.gangs = s.gangs ∧ c0.RKept c' U.sy ∧ ∃ d ∈ c'.due, d.code = 0x39))

/-- R186, R191, R192, R193. For a team of a gang with nothing standing before the bundle, a guard that holds on a lane, no
operation of SY in flight, no record to flush and no team of the gang that waits on the ring. racq by the producing role
without an index takes the producer index and goes on with the slot's offset in SY.R when the slot is granted; else it
waits while a consumer lives or the slot is empty, and ends in a C_RINGOVER token when none lives and the slot is full. rwait
does so for the consuming role, with C_PRODGONE on an empty slot. rcom and rrel by the role that holds an index mark its slot
full with its lap's phase, or empty, give the index back and refill SY.R. On a ring that does not exist, by another role, with
an index already held (racq, rwait) or none (rcom, rrel), C_RINGOVER is due and no ring changes; that SY.R is as it was
then is the model's own choice (log entry 87), and so is the index that a token leaves held (log entry 88). Memory,
registers, predicates and flags stay. -/
def Obligations.StageRings : Prop :=
  ∀ (ring : BitVec 3) (m : MoveF) (s : State) (c0 : Ctx) (g : Gang), s.SyIdle c0 g →
    let n := ring.toNat
    let w := fun o => syllable true U.sy 3 (o + n) m
    let kept := fun (t : State) (c' : Ctx) => c'.g = c0.g ∧ ∀ a, Memory.read t.mem a = Memory.read s.mem a
    let ringIs := fun (t : State) (x : Ring) => (t.gang c0.gang).map (fun y => Tbl.find y.rings n) = some (some x)
    let mem := c0.ringOf n
    (∀ (i : Instr) (o : Nat) (cons take : Bool),
      (i, o, cons, take) ∈ [(.syRacq ring m, 0x80, false, true), (.syRwait ring m, 0x90, true, true),
        (.syRcom ring m, 0x88, false, false), (.syRrel ring m, 0x98, true, false)] →
      s.Fires c0 (w o) →
      (Tbl.find g.rings n = none ∨ (∃ r, Tbl.find g.rings n = some r ∧ c0.role ≠ if cons then r.cons else r.prod) ∨
        (if cons then mem.cons else mem.prod).isSome = take) →
      TrigRuns i s c0 (fun t c' => kept t c' ∧ t.gangs = s.gangs ∧ c0.RKept c' U.sy ∧ ∃ d ∈ c'.due, d.code = 0x3A)) ∧
    (∀ r : Ring, Tbl.find g.rings n = some r → (∀ kv ∈ s.ctxs, ∀ q, kv.2.gang = c0.gang → kv.2.wait ≠ .ring n q) →
    (s.Fires c0 (w 0x80) → c0.role = r.prod → (c0.ringOf n).prod = none →
      TrigRuns (.syRacq ring m) s c0 (fun t c' => kept t c' ∧ ringIs t { r with p := r.p + 1 } ∧
        (c'.ringOf n).prod = some r.p ∧
        (r.prodOk r.p = true → c'.wait = .ready ∧
          c0.RFilled c' U.sy (c0.rowMask (w 0x80)) (fun _ => r.offset (g.half s.cur.fold) r.p)) ∧
        (r.prodOk r.p = false → (g.roleAlive r.cons = true ∨ (r.slotAt r.p).full = false) → c'.wait = .ring n false ∧
          (c'.us.unit U.sy).full = false) ∧
        (r.prodOk r.p = false → g.roleAlive r.cons = false → (r.slotAt r.p).full = true → c'.wait = .ready ∧
          c'.RToken U.sy (c0.rowMask (w 0x80)) 0x3A))) ∧
    (s.Fires c0 (w 0x90) → c0.role = r.cons → (c0.ringOf n).cons = none →
      TrigRuns (.syRwait ring m) s c0 (fun t c' => kept t c' ∧ ringIs t { r with c := r.c + 1 } ∧
        (c'.ringOf n).cons = some r.c ∧
        (r.consOk r.c = true → c'.wait = .ready ∧
          c0.RFilled c' U.sy (c0.rowMask (w 0x90)) (fun _ => r.offset (g.half s.cur.fold) r.c)) ∧
        (r.consOk r.c = false → (g.roleAlive r.prod = true ∨ (r.slotAt r.c).full = true) → c'.wait = .ring n true ∧
          (c'.us.unit U.sy).full = false) ∧
        (r.consOk r.c = false → g.roleAlive r.prod = false → (r.slotAt r.c).full = false → c'.wait = .ready ∧
          c'.RToken U.sy (c0.rowMask (w 0x90)) 0x11))) ∧
    (∀ i, s.Fires c0 (w 0x88) → c0.role = r.prod → (c0.ringOf n).prod = some i →
      TrigRuns (.syRcom ring m) s c0 (fun t c' => kept t c' ∧ (c'.ringOf n).prod = none ∧ c'.wait = .ready ∧
        c0.RKept c' U.sy ∧ ringIs t { r with
          slot := Tbl.put r.slot (i % r.slots) { full := true, phase := decide (i / r.slots % 2 = 1) } })) ∧
    (∀ i, s.Fires c0 (w 0x98) → c0.role = r.cons → (c0.ringOf n).cons = some i →
      TrigRuns (.syRrel ring m) s c0 (fun t c' => kept t c' ∧ (c'.ringOf n).cons = none ∧ c'.wait = .ready ∧
        c0.RKept c' U.sy ∧ ∃ x, ringIs t x ∧ (x.slotAt i).full = false ∧ (x.slotAt i).phase = (r.slotAt i).phase ∧
          Tbl.get x.released (i % r.slots) 0 = Tbl.get r.released (i % r.slots) 0 + 1)))

/-- R178, R179, R186, R194. With nothing standing before the bundle, a guard that holds on a lane, no operation of SY in
flight and no team of the fold waiting to grow: rgrow of T asks for the budget plus T, rounded up to a multiple of 8.
Above 128 it answers the budget it has; with enough free register words the budget becomes that number and SY.R takes
it; otherwise the team waits with SY.R empty. rshrink gives the budget less T, rounded up, drops the registers at or
above it, frees their words and answers it. Memory and the other registers stay. -/
def Obligations.RegisterBudgets : Prop :=
  ∀ (m : MoveF) (s : State) (c0 : Ctx), (∀ o ∈ c0.ops, o.unit ≠ U.sy) → (s.fold s.cur.fold).growQ = [] →
    let w := fun o => syllable true U.sy 3 o m
    (s.Fires c0 (w 0xA0) →
      let b := roundUp (c0.budget + (c0.rowT s (w 0xA0)).toNat) 8
      let enough := c0.nlanes * (b - c0.budget) ≤ s.freeWords s.cur.fold (s.prio7 c0.asid)
      TrigRuns (.syRgrow m) s c0 (fun t c' => c'.g = c0.g ∧ t.mem = s.mem ∧ t.gangs = s.gangs ∧
        (128 < b → c'.budget = c0.budget ∧ c'.wait = .ready ∧
          c0.RFilled c' U.sy (c0.rowMask (w 0xA0)) (fun _ => BitVec.ofNat 64 c0.budget)) ∧
        (b ≤ 128 → enough → c'.budget = b ∧ c'.wait = .ready ∧ (t.fold s.cur.fold).growQ = [] ∧
          c0.RFilled c' U.sy (c0.rowMask (w 0xA0)) (fun _ => BitVec.ofNat 64 b)) ∧
        (b ≤ 128 → ¬enough → c'.budget = c0.budget ∧ c'.wait = .grow b ∧ (t.fold s.cur.fold).growQ = [s.cur.slot] ∧
          (c'.us.unit U.sy).full = false))) ∧
    (s.Fires c0 (w 0xA1) →
      let b := roundUp (c0.budget - (c0.rowT s (w 0xA1)).toNat) 8
      TrigRuns (.syRshrink m) s c0 (fun t c' => t.mem = s.mem ∧ t.gangs = s.gangs ∧ c'.budget = b ∧ c'.wait = .ready ∧
        c'.g = c0.g.filter (fun kv => decide (kv.1 < b)) ∧
        c0.RFilled c' U.sy (c0.rowMask (w 0xA1)) (fun _ => BitVec.ofNat 64 b)))

/-- R186, R226, R280, R281, R282. With nothing standing before the bundle and a guard that holds on a lane, claim, unclaim
and rgn (which does not pass the checks outside the shadow context) put one operation in flight with the descriptor address
A · 2^32 + T of the lowest guarded lane. When it completes, the moves of the team before it being performed: a descriptor
that cannot be read ends in a token of its cause, memory and ownership being as its walks left them; one of rgn within its
limits writes entry INDEX of the fold's die and fills SY.R with 0; one outside the limits of R280 or R282 ends in a C_SYDESC
token and changes no region and no ownership; elements that fault end in a token of the first one's cause and change no
ownership; otherwise SY.R takes 0. Memory changes by the walks alone. -/
def Obligations.ClaimsAndRegionWrites : Prop :=
  (∀ (m : MoveF) (s : State) (c0 : Ctx) (i : Instr) (o : Nat),
      (i = .syClaim m ∧ o = 0xB0) ∨ (i = .syUnclaim m ∧ o = 0xB1) ∨ (i = .syRgn m ∧ o = 0xC0) →
      let w := syllable true U.sy 3 o m
      s.Fires c0 w → OpStarts i w s c0 (fun x => x.vals = none ∧ x.addr = BitVec.ofNat 64
        ((lo32 ((c0.land.us.unit U.sy).a.at (Lanes.low (c0.rowMask w) c0.nlanes))).toNat * 2 ^ 32 +
          (lo32 (c0.rowT s w)).toNat))) ∧
    (∀ (id : CtxId) (s : State) (c : Ctx) (o : VarOp), s.ctx id = some c → c.claimOp = some o →
      (c.us.unit U.sy).last = o.uid → (c.us.unit U.sy).full = false →
      let die := dieOf id.fold
      (∀ e s1, s.readDesc id c o.locks o.addr (if o.opcode = 0xC0 then 48 else 16) = (s1, .error e) →
        OpDone (.claimComplete id) s id c o (fun t c' => c'.RToken U.sy o.mask e ∧ t.mem = s1.mem ∧ t.dies = s1.dies)) ∧
      (∀ d s1, s.readDesc id c o.locks o.addr (if o.opcode = 0xC0 then 48 else 16) = (s1, .ok d) →
        (∀ r, o.opcode = 0xC0 → regionImage d = some r → field d 32 2 ≤ 255 → field d 34 14 = 0 →
          OpDone (.claimComplete id) s id c o (fun t c' => c.RFilled c' U.sy (o.mask &&& c.live) (fun _ => 0) ∧
            Tbl.find (t.die die).regions (field d 32 2) = some r ∧
            ∀ n, n ≠ field d 32 2 → Tbl.find (t.die die).regions n = Tbl.find (s1.die die).regions n)) ∧
        (o.opcode = 0xC0 → (regionImage d = none ∨ 255 < field d 32 2 ∨ field d 34 14 ≠ 0) →
          OpDone (.claimComplete id) s id c o (fun t c' => c'.RToken U.sy o.mask 0x2E ∧ t.dies = s1.dies)) ∧
        (o.opcode ≠ 0xC0 → ¬(field d 0 8 < 3 * 2 ^ 60 ∧ field d 14 1 ∈ [1, 2, 4, 8] ∧ field d 0 8 % field d 14 1 = 0 ∧
            1 ≤ field d 8 4 ∧ field d 8 4 ≤ 2 ^ 20 ∧ field d 14 1 ≤ field d 8 4 ∧ 1 ≤ field d 12 2 ∧ field d 12 2 ≤ 1024 ∧
            field d 15 1 = 0) →
          OpDone (.claimComplete id) s id c o (fun t c' => c'.RToken U.sy o.mask 0x2E ∧ t.dies = s1.dies)) ∧
        (o.opcode ≠ 0xC0 → field d 0 8 < 3 * 2 ^ 60 → field d 14 1 ∈ [1, 2, 4, 8] → field d 0 8 % field d 14 1 = 0 →
          1 ≤ field d 8 4 → field d 8 4 ≤ 2 ^ 20 → field d 14 1 ≤ field d 8 4 → 1 ≤ field d 12 2 → field d 12 2 ≤ 1024 →
          field d 15 1 = 0 →
          let elems := s1.claimElems id c (field d 14 1) ((List.range (field d 12 2)).map (fun i =>
            BitVec.ofNat 64 (field d 0 8 + field d 8 4 * i)))
          (∀ e a s2, elems = (s2, .error (e, a)) → OpDone (.claimComplete id) s id c o (fun t c' => c'.RToken U.sy o.mask e ∧
            t.mem = s2.mem ∧ t.dies = s2.dies)) ∧
          (∀ ps s2, elems = (s2, .ok ps) → OpDone (.claimComplete id) s id c o (fun t c' =>
            c.RFilled c' U.sy (o.mask &&& c.live) (fun _ => 0) ∧ t.mem = s2.mem)))))

/-- R18, R294, R296, R299, R300, R305. For each of the nine rows of CP, with nothing standing before the bundle and a
guard that holds on a lane. When the shape passes its checks and the table has room for its entries, the operation
joins the fold's engine, the entries of its plan are registered, and CP.R is empty until it completes. When a check
fails, CP.R keeps what it held, no operation joins, and C_CPSHAPE is due with the number of the failing word. When the
entries find no room, the bundle does not issue and the team waits. Memory and registers stay. -/
def Obligations.CopyTriggers : Prop :=
  ∀ (op : Nat) (i : MoveF → Instr) (m : MoveF) (s : State) (c0 : Ctx), (op, i) ∈ copyOps →
    let w := syllable true U.cp 3 op m
    s.Fires c0 w →
    let e := c0.engOf s w
    let plan := e.plan c0.live (s.holdsEngine c0.gang)
    (∀ p, plan = .ok p → (s.fold s.cur.fold).locks.length + (s.planLocks s.cur.fold e p).length ≤ 64 →
      TrigRuns (i m) s c0 (fun t c' => s.Joined t c0 c' e (s.planLocks s.cur.fold e p))) ∧
    (∀ n, plan = .error n → TrigRuns (i m) s c0 (fun t c' => s.Refused t c0 c' ∧ c0.RKept c' U.cp ∧
      ∃ d ∈ c'.due, d.code = 0x4A ∧ d.addr = some (BitVec.ofNat 64 n) ∧
        d.bundle = some (c0.pc, BitVec.ofNat 64 c0.sched))) ∧
    (∀ p, plan = .ok p → (s.fold s.cur.fold).locks.length ≤ 64 →
      64 < (s.fold s.cur.fold).locks.length + (s.planLocks s.cur.fold e p).length →
      exec (i m) s = .next (s.setCtx s.cur { c0 with wait := .port U.cp }))

/-- R298, R301, R302, R303, R304, R307. An operation of CP or NX that has not started starts exactly when no earlier entry
conflicts with it and its team's earlier accesses are performed; nothing else changes. A started CP operation whose
elements resolve to plain bytes without maps or watchpoints completes: each byte of a destination that no other
element writes holds the source byte as it stood before, or the fill's pattern; every other byte of memory is
unchanged; the operation and its entries are gone, and R holds the byte count (each lane's length for gather and
scatter). An operation whose one source element faults ends with a token of that cause and no byte of memory changes. -/
def Obligations.CopiesStartAndComplete : Prop :=
  ∀ (fold uid : Nat) (s : State) (e : EngOp), s.findEng fold uid = some e →
    (s.engCanStart fold e = true → ∃ t x, exec (.engineOpStart fold uid) s = .next t ∧ t.findEng fold uid = some x ∧
      x = { e with started := true } ∧ t.mem = s.mem ∧ t.ctxs = s.ctxs ∧ (t.fold fold).locks = (s.fold fold).locks) ∧
    (s.engCanStart fold e = false → exec (.engineOpStart fold uid) s = .next s) ∧
    (∀ (p : Plan) (ks kd : Elem → Nat), s.memOk → e.unit = U.cp → e.started = true → (s.fold fold).watch = [] →
      (∀ g, s.gang e.gang = some g → g.maps 0 = [] ∧ g.maps 1 = []) →
      e.plan (BitVec.allOnes 1024) (s.holdsEngine e.gang) = .ok p →
      (p.pattern = none → ∀ x ∈ p.elems, s.PlainSide fold e p.srcKind false x.src x.len (ks x)) →
      (∀ x ∈ p.elems, s.PlainSide fold e p.dstKind true x.dst x.len (kd x)) →
      ∃ t, exec (.copyComplete fold uid) s = .next t ∧ s.EngGone t fold e ∧
        (∀ a, (∀ x ∈ p.elems, ¬(kd x ≤ a ∧ a < kd x + x.len)) → Memory.read t.mem a = Memory.read s.mem a) ∧
        (∀ x ∈ p.elems, ∀ j, j < x.len →
          (∀ y ∈ p.elems, y.idx ≠ x.idx → ¬(kd y ≤ kd x + j ∧ kd x + j < kd y + y.len)) →
          Memory.read t.mem (kd x + j) = match p.pattern with
            | some b => b.getD j 0
            | none => Memory.read s.mem (ks x + j)) ∧
        s.EngFills t fold e (fun l => if e.perLane then zx (lo32 (e.b.at l))
          else zx (BitVec.ofNat 32 (p.elems.foldl (fun n x => n + x.len) 0)))) ∧
    (∀ (p : Plan) (x : Elem) (k : BitVec 7), e.unit = U.cp → e.started = true → e.perLane = false →
      (∀ g, s.gang e.gang = some g → g.maps 0 = [] ∧ g.maps 1 = []) →
      e.plan (BitVec.allOnes 1024) (s.holdsEngine e.gang) = .ok p → p.pattern = none → p.elems = [x] →
      s.engBytes fold e p.srcKind false x.src x.len = (s, .fault k) →
      ∃ t, exec (.copyComplete fold uid) s = .next t ∧ s.EngGone t fold e ∧ t.mem = s.mem ∧ s.EngToken t fold e k)

/-- R313, R314, R315, R317, R320, R324, R331, R333, R335. For each row of MX, with nothing standing before the bundle and
a guard that holds on a lane. A team whose gang holds no engine gets a C_MXENGINE token on the triggered lanes and
nothing else happens. With the engine and room in its queues and in the range-lock table: bload, drain and aload join
the engine when their control word passes its checks and end in a token of the failing check's cause otherwise; mma
and mmap join with four entries, but an mmap of a gang without PAIR ends in C_MXPAIR; zero joins with the tiles from
its mask's lowest to its highest, and a mask of 0 gives R = 0 at once; fmt writes format register T < 16 of the gang
and gives its old value; stat joins. While a queue is full the team waits. -/
def Obligations.MatrixTriggers : Prop :=
  ∀ (bank : BitVec 1) (op : Nat) (i : MoveF → Instr) (m : MoveF) (s : State) (c0 : Ctx), (op, i) ∈ matrixOps bank →
    let w := syllable true U.mx 3 op m
    let f := s.cur.fold
    s.Fires c0 w →
    let e := c0.engOf s w
    let token := fun k => TrigRuns (i m) s c0 (fun t c' => s.Refused t c0 c' ∧ c'.RToken U.mx (c0.rowMask w) k)
    let joins := fun ls => TrigRuns (i m) s c0 (fun t c' => s.Joined t c0 c' e ls)
    (s.mxGang c0 = none → token 0x4F) ∧
    (∀ g, s.mxGang c0 = some g → needMx s s.cur (c0.land.trigOf (Bundle.one w s.curPc) (Move.of 0 w)) = none →
      exec (i m) s = .next (s.setCtx s.cur { c0 with wait := .port U.mx })) ∧
    (∀ g n, s.mxGang c0 = some g → needMx s s.cur (c0.land.trigOf (Bundle.one w s.curPc) (Move.of 0 w)) = some n →
      (s.fold f).locks.length + n ≤ 64 →
      (op < 2 → (∀ k, bloadCheck g f e = .error k → token k) ∧
        (∀ x, bloadCheck g f e = .ok x → joins (s.mxLock f e false e.a0 x))) ∧
      (0x10 ≤ op → op < 0x20 → (e.isMmap = true ∧ g.block.pair = false → token 0x49) ∧
        (e.isMmap = false ∨ g.block.pair = true → joins (unreadLocks e))) ∧
      (op = 0x20 → (e.t0 = 0 → TrigRuns (i m) s c0 (fun t c' => s.Refused t c0 c' ∧
          c0.RFilled c' U.mx (c0.rowMask w) (fun _ => 0))) ∧
        (∀ lo r, maskTiles e.t0 = lo :: r → joins [tileLock f e lo (r.getLastD lo) true])) ∧
      (op = 0x30 ∨ op = 0x40 → (∀ k, tileCheck g f e = .error k → token k) ∧
        (∀ x, tileCheck g f e = .ok x → joins (s.mxLock f e (op == 0x30) e.a0 x ++
          [tileLock f e (e.t0.toNat % 32) (e.t0.toNat % 32) (op != 0x30)]))) ∧
      (op = 0x50 → (16 ≤ e.t0.toNat → token 0x48) ∧
        (e.t0.toNat < 16 → TrigRuns (i m) s c0 (fun t c' => c'.g = c0.g ∧ t.mem = s.mem ∧
          t.gang c0.gang = some { g with fm := Tbl.put g.fm e.t0.toNat (lo32 e.a0) } ∧
          c0.RFilled c' U.mx (c0.rowMask w) (fun _ => zx (Tbl.get g.fm e.t0.toNat 0))))) ∧
      (op = 0x60 → (bits e.t0.toNat 31 7 ≠ 0 → token 0x48) ∧ (bits e.t0.toNat 31 7 = 0 → joins [])))

/-- R320, R323, R324, R326, R327, R328, R329, R330, R331, R333, R335. For an operation e of MX in flight. A bank load whose
turn has come leaves each row's window bytes in its bank, VALID and ES set, no other byte changed, and R with the byte
count. The block of an mma or mmap is read once; a fault ends an mma in a token and stays with an mmap. A ready head mma on
a valid bank of its element size dispatches at the fold's cycle, to complete after the longest group's steps and 12 cycles
when no operation precedes it; on another bank it ends in C_MXFORMAT; a ready zero or transfer dispatches. When due, an mma
writes each word of its tile from the old word and the products and R takes its cycles; an mmap that is due on both folds of
its pair writes the tile of both from the even fold's old word and the products of both sides, the even fold's first, and
each side's R takes its cycles; zero clears the tiles of its mask; aload writes the converted elements; drain writes the
converted words to its elements and clears its tile where the control word asks; stat gives half a term counter. The
operation is gone then, and no other byte of memory has changed. -/
def Obligations.MatrixOperations : Prop :=
  ∀ (fold uid : Nat) (s : State) (e : EngOp), s.memOk → s.findEng fold uid = some e → e.unit = U.mx →
    let size := bloadSize e.t0.toNat
    let bankAt := fun n => Memory.bankKey fold e.bank n
    (∀ row : Nat → List Byte, s.bloadReady fold e = true → (∀ k, (row k).length = 128 * size) →
      (∀ k, k < 64 → s.mxWindow fold e (e.a0 + BitVec.ofNat 64 (k * bloadPitch e.t0.toNat)) (128 * size) = .ok (row k, s)) →
      ∃ t, exec (.mxBloadComplete fold uid) s = .next t ∧ s.EngGone t fold e ∧
        (∀ k j, k < 64 → j < 128 * size → Memory.read t.mem (bankAt (k * 128 * size + j)) = (row k).getD j 0) ∧
        (∀ a, ¬(bankAt 0 ≤ a ∧ a < bankAt (64 * 128 * size)) → Memory.read t.mem a = Memory.read s.mem a) ∧
        Tbl.find (t.fold fold).bankValid e.bank = some (true, size == 2) ∧
        s.EngFills t fold e (fun _ => BitVec.ofNat 64 (64 * 128 * size))) ∧
    (e.isMma = true → s.scalesHeld fold e = true → exec (.mxFormatBlockRead fold uid) s = .next s) ∧
    (e.isMma = true → e.block = [] → e.token = none → s.olderDone fold e = true → s.scalesHeld fold e = false →
      (∀ e1 s1, s.readBlock fold e = .ok (e1, s1) →
        ∃ t, exec (.mxFormatBlockRead fold uid) s = .next t ∧ t.findEng fold uid = some e1 ∧ t.mem = s1.mem) ∧
      (∀ k, s.readBlock fold e = .error k → ∃ t, exec (.mxFormatBlockRead fold uid) s = .next t ∧ t.mem = s.mem ∧
        (e.isMmap = false → s.EngGone t fold e ∧ s.EngToken t fold e k) ∧
        (e.isMmap = true → t.findEng fold uid = some { e with token := some k, tokenAddr := e.blockAddr }))) ∧
    ((s.fold fold).headCmd = some e → s.headReady fold e = true → e.isMmap = false →
      (e.isMma = true → s.bankOk fold e = true → (s.fold fold).mxHist = [] →
        ∃ t x, exec (.mxDispatch fold) s = .next t ∧ t.findEng fold uid = some x ∧ t.mem = s.mem ∧
          x.dispatch = some (s.fold fold).cycle ∧
          x.done = ((List.range 8).map (fun g => (s.steps fold e g).foldl (· + ·) 0)).foldl max 0 + 12) ∧
      (e.isMma = true → s.bankOk fold e = false → ∃ t, exec (.mxDispatch fold) s = .next t ∧ t.mem = s.mem ∧
        s.EngGone t fold e ∧ s.EngToken t fold e 0x48) ∧
      (e.isMma = false → ∃ t, exec (.mxDispatch fold) s = .next t ∧ t.mem = s.mem ∧
        t.findEng fold uid = some { e with dispatch := some (s.fold fold).cycle })) ∧
    (e.isMma = true → e.isMmap = false → s.mmaDue fold e = true →
      ∃ t, exec (.mxOpComplete fold uid) s = .next t ∧ s.EngGone t fold e ∧
        (∀ m n, m < 16 → n < 128 → t.rd (tileKey fold e.blk.tile m n) 4 = accumulate e.blk.acc
          (if e.blk.zd then 0 else s.rd (tileKey fold e.blk.tile m n) 4) (s.products fold e m n) % 2 ^ 32) ∧
        (∀ a, ¬(tileKey fold e.blk.tile 0 0 ≤ a ∧ a < tileKey fold e.blk.tile 0 0 + 8192) →
          Memory.read t.mem a = Memory.read s.mem a) ∧
        s.EngFills t fold e (fun _ => zx (BitVec.ofNat 32 e.done))) ∧
    (e.opcode = 0x20 → e.dispatch.isSome = true → ∃ t, exec (.mxOpComplete fold uid) s = .next t ∧ s.EngGone t fold e ∧
      (∀ i j, i < 32 → j < 8192 → Memory.read t.mem (tileKey fold i 0 0 + j) =
        if e.t0.getLsbD i then 0 else Memory.read s.mem (tileKey fold i 0 0 + j)) ∧
      (∀ a, ¬(tileKey fold 0 0 0 ≤ a ∧ a < tileKey fold 32 0 0) → Memory.read t.mem a = Memory.read s.mem a) ∧
      s.EngFills t fold e (fun _ => BitVec.ofNat 64 (maskTiles e.t0).length)) ∧
    (∀ ka : Elem → Nat, e.opcode = 0x40 → e.dispatch.isSome = true → (s.fold fold).watch = [] →
      (∀ x ∈ e.tileElems, s.PlainSide fold e .generic false x.src x.len (ka x)) →
      ∃ t, exec (.mxOpComplete fold uid) s = .next t ∧ s.EngGone t fold e ∧
        (∀ x ∈ e.tileElems, t.rd (tileKey fold (e.t0.toNat % 32) (x.idx / 128) (x.idx % 128)) 4 =
          aloadConv (bits e.t0.toNat 7 5) (s.rd (ka x) x.len) % 2 ^ 32) ∧
        (∀ a, ¬(tileKey fold (e.t0.toNat % 32) 0 0 ≤ a ∧ a < tileKey fold (e.t0.toNat % 32) 0 0 + 8192) →
          Memory.read t.mem a = Memory.read s.mem a) ∧
        s.EngFills t fold e (fun _ => BitVec.ofNat 64 (2048 * convSize (bits e.t0.toNat 7 5)))) ∧
    (∀ kd : Elem → Nat, e.opcode = 0x30 → e.dispatch.isSome = true → (s.fold fold).watch = [] →
      (∀ g, s.gang e.gang = some g → g.maps 0 = [] ∧ g.maps 1 = []) →
      (∀ x ∈ e.tileElems, s.PlainSide fold e .generic true x.dst x.len (kd x)) →
      let tile := tileKey fold (e.t0.toNat % 32) 0 0
      (∀ x ∈ e.tileElems, (kd x + x.len ≤ tile ∨ tile + 8192 ≤ kd x) ∧
        ∀ y ∈ e.tileElems, x.idx ≠ y.idx → (kd x + x.len ≤ kd y ∨ kd y + y.len ≤ kd x)) →
      ∃ t, exec (.mxOpComplete fold uid) s = .next t ∧ s.EngGone t fold e ∧
        (∀ x ∈ e.tileElems, t.rd (kd x) x.len = drainConv (bits e.t0.toNat 7 5)
          (s.rd (tileKey fold (e.t0.toNat % 32) (x.idx / 128) (x.idx % 128)) 4) % 2 ^ (8 * x.len)) ∧
        (∀ j, j < 8192 → Memory.read t.mem (tile + j) = if bit e.t0.toNat 8 then 0 else Memory.read s.mem (tile + j)) ∧
        (∀ a, ¬(tile ≤ a ∧ a < tile + 8192) → (∀ x ∈ e.tileElems, ¬(kd x ≤ a ∧ a < kd x + x.len)) →
          Memory.read t.mem a = Memory.read s.mem a) ∧
        s.EngFills t fold e (fun _ => BitVec.ofNat 64 (2048 * convSize (bits e.t0.toNat 7 5)))) ∧
    (∀ x : EngOp, e.isMmap = true → s.mmaDue fold e = true → s.mmaDue (partner fold) x = true →
      (s.fold (partner fold)).eng.find? (fun y => y.isMmap && y.gang == e.gang && y.dispatch.isSome) = some x →
      let even := fold / 2 * 2
      let lo := if fold = even then e else x
      let hi := if fold = even then x else e
      let tile := fun f => tileKey f lo.blk.tile 0 0
      ∃ t, exec (.mxOpComplete fold uid) s = .next t ∧ s.EngGone t fold e ∧ s.EngGone t (partner fold) x ∧
        (∀ f m n, f = even ∨ f = even + 1 → m < 16 → n < 128 → t.rd (tileKey f lo.blk.tile m n) 4 = accumulate lo.blk.acc
          (if lo.blk.zd then 0 else s.rd (tileKey even lo.blk.tile m n) 4)
          (s.products even lo m n ++ s.products (even + 1) hi m n) % 2 ^ 32) ∧
        (∀ a, ¬(tile even ≤ a ∧ a < tile even + 8192) → ¬(tile (even + 1) ≤ a ∧ a < tile (even + 1) + 8192) →
          Memory.read t.mem a = Memory.read s.mem a) ∧
        s.EngFills t fold e (fun _ => zx (BitVec.ofNat 32 e.done)) ∧
        s.EngFills t (partner fold) x (fun _ => zx (BitVec.ofNat 32 x.done))) ∧
    (e.opcode = 0x60 → (∀ x ∈ (s.fold fold).eng, x.isMma = true → x.slot = e.slot → x.tid = e.tid → ¬(x.uid < e.uid)) →
      (∀ c, s.EngTeam fold e c → ∃ t, exec (.mxOpComplete fold uid) s = .next t ∧ s.EngGone t fold e ∧ t.mem = s.mem ∧
        s.EngFills t fold e (fun _ => BitVec.ofNat 64
          (if bit e.t0.toNat 5 then Tbl.get c.terms (e.t0.toNat % 32) 0 / 2 ^ 32
            else Tbl.get c.terms (e.t0.toNat % 32) 0 % 2 ^ 32))))

/-- R294, R305, R416, R424, R425, R426, R433. With nothing standing before the bundle and a guard that holds on a lane. put,
get, atom and send whose descriptor passes its checks join the engine with the entries of their local range when there
is room; one that fails ends at once in a token of the cause. bind takes the die's lowest free landing counter with a
new generation for a participating role and gives its key, or ends in C_BINDOVER when all are bound; cstate gives the
field of an enabled connection; lkrate (which passes the checks in the shadow context alone) sets a running link's
target and rate, clears the windowed counts of both ends and leaves the link retraining with NX.R empty; lkwatch adds
or removes the team's watch and gives 0, a watch already held being left as it is and one not held taken away without more
(the model's own choice: log entry 77); lkstat gives half a link register. A reserved operand bit ends each of these
in C_NXERROR. The lowest free counter with a new generation is R433's. -/
def Obligations.TransportTriggers : Prop :=
  ∀ (m : MoveF) (s : State) (c0 : Ctx),
    let w := fun o => syllable true U.nx 3 o m
    let v := fun o => (lo32 (c0.rowT s (w o))).toNat
    let die := s.die (dieOf s.cur.fold)
    (∀ op i, (op, i) ∈ transportOps → s.Fires c0 (w op) →
      let e := c0.engOf s (w op)
      let bad := e.nxFault c0.live (s.connEnt e.nxConn)
      (bad = none → (s.fold s.cur.fold).locks.length + (s.nxLocks s.cur.fold e).length ≤ 64 →
        TrigRuns (i m) s c0 (fun t c' => s.Joined t c0 c' e (s.nxLocks s.cur.fold e))) ∧
      (∀ k, bad = some k → (∀ x ∈ (s.fold s.cur.fold).eng, x.uid ≠ e.uid) → (∀ x ∈ (s.fold s.cur.fold).locks, x.uid ≠ e.uid) →
        TrigRuns (i m) s c0 (fun t c' => s.Refused t c0 c' ∧ c'.RToken U.nx (c0.rowMask (w op)) k))) ∧
    (s.Fires c0 (w 0x10) →
      let target := ((c0.land.us.unit U.nx).a.at (Lanes.low (c0.rowMask (w 0x10)) c0.nlanes)).toNat
      (∀ g, v 0x10 < 16 → 1 ≤ target → target < 2 ^ 32 → s.gang c0.gang = some g →
        (g.block.barRole (v 0x10) c0.role = true →
          (∀ i, die.freeLanding = some i →
            let gen := (((Tbl.find die.landing i).map Landing.gen).getD 0 + 1) % 64
            Answers (.nxBind m) s c0 U.nx (w 0x10)
              (BitVec.ofNat 64 (gen * 1024 + dieOf s.cur.fold % 4 * 256 + i)) (fun t =>
                Tbl.find (t.die (dieOf s.cur.fold)).landing i = some (⟨gen, true, c0.gang, v 0x10, target, 0, none, none⟩ : Landing))) ∧
          (die.freeLanding = none → AnswersToken (.nxBind m) s c0 U.nx (w 0x10) 0x50)) ∧
        (g.block.barRole (v 0x10) c0.role = false → AnswersToken (.nxBind m) s c0 U.nx (w 0x10) 0x4E)) ∧
      (bits (v 0x10) 15 5 ≠ 0 → AnswersToken (.nxBind m) s c0 U.nx (w 0x10) 0x4E)) ∧
    (s.Fires c0 (w 0x20) →
      (∀ e, s.connEnt (v 0x20 % 4096) = some e → v 0x20 < 2 ^ 14 →
        let x := s.conn (v 0x20 % 4096) e
        let r := if bits (v 0x20) 13 12 = 0 then ⌊x.w.val⌋₊ else if bits (v 0x20) 13 12 = 1 then ⌊x.rtt.val⌋₊
          else if bits (v 0x20) 13 12 = 2 then ⌊x.f.val * 65536⌋₊ else x.inFlight
        Answers (.nxCstate m) s c0 U.nx (w 0x20) (BitVec.ofNat 64 (min r (2 ^ 32 - 1))) (fun t => t.pkg = s.pkg)) ∧
      (s.connEnt (v 0x20 % 4096) = none → AnswersToken (.nxCstate m) s c0 U.nx (w 0x20) 0x4E)) ∧
    (s.Fires c0 (w 0x30) →
      let n := v 0x30 % 8
      let r := bits (v 0x30) 6 4
      (bit (v 0x30) 3 = false → v 0x30 < 2 ^ 7 → r ≤ 5 → (n < 4 ∨ r ≤ 2) → (s.link n).up = true →
        TrigRuns (.nxLkrate m) s c0 (fun t c' => c'.g = c0.g ∧ t.mem = s.mem ∧ (c'.us.unit U.nx).full = false ∧
          (t.link n).target = BitVec.ofNat 3 r ∧ (t.link n).rate = BitVec.ofNat 3 r ∧ (t.link n).retraining = true ∧
          (t.link n).more = (s.link n).more + (if (s.link n).retraining then 1 else 0) ∧
          (CtxId.key s.cur, c0.nextUid) ∈ (t.link n).waiters ∧
          ∀ e, e = 2 * n ∨ e = 2 * n + 1 → (t.linkEnd e).linkCount = 0 ∧ (t.linkEnd e).laneCounts = [])) ∧
      ((bit (v 0x30) 3 = true ∨ 2 ^ 7 ≤ v 0x30 ∨ 5 < r ∨ (4 ≤ n ∧ 2 < r)) →
        AnswersToken (.nxLkrate m) s c0 U.nx (w 0x30) 0x4E)) ∧
    (s.Fires c0 (w 0x31) → bits (v 0x31) 7 3 = 0 → v 0x31 < 2 ^ 9 →
      (bit (v 0x31) 8 = false → die.watches.length < 256 → Answers (.nxLkwatch m) s c0 U.nx (w 0x31) 0 (fun t =>
        (c0.tid, v 0x31 % 8) ∈ (t.die (dieOf s.cur.fold)).watches)) ∧
      (bit (v 0x31) 8 = true → Answers (.nxLkwatch m) s c0 U.nx (w 0x31) 0 (fun t =>
        (t.die (dieOf s.cur.fold)).watches = die.watches.filter (fun x => x != (c0.tid, v 0x31 % 8))))) ∧
    (s.Fires c0 (w 0x32) → v 0x32 < 2 ^ 9 → bits (v 0x32) 7 4 ≤ 6 →
      let x := (s.linkReg (v 0x32 % 16) (bits (v 0x32) 7 4)).toNat
      Answers (.nxLkstat m) s c0 U.nx (w 0x32) (BitVec.ofNat 64 (if bit (v 0x32) 8 then bits x 47 32 else bits x 31 0))
        (fun t => t.pkg = s.pkg))

/-- R267, R303, R417, R421, R422, R423, R424, R425. For a transport operation in flight. A put or send whose connection's
window lets it sends its next packet: up to 4,096 of its plain local bytes in their order, with the connection's next
number, PEER and TC, counted as in flight and kept until it is acknowledged; a get or atom sends its request. A packet
that is sent again is the one that was kept, its bytes not read again. An invalid connection refuses the operation; one
whose die reaches no I/O die ends in C_PEERDOWN. An acknowledgement moves RTT by an eighth and F by a sixteenth of the
difference, exactly, takes the packet that it names by its entropy value out of flight, and, when it ends an RTT of
acknowledged data, moves W as R423 says; what an RTT of acknowledged data is, and that the entropy value names the packet, is
the model's own choice (log entry 32). A timeout sets
W to MINW and leaves what was sent to be sent again, or ends the operation in C_NXTIMEOUT. A write that arrives for an
entry that allows it, in its turn on a ROD connection, places its payload at its translated bytes; on a ROD connection
one ahead of its turn changes nothing (log entry 72); a refusal marks its operation; an answer to a get places its bytes at
the local range, again when it comes again, and for an invalid entry is refused, so that its operation ends as a refused
one. An operation that is done ends with LEN or the old value in R, or in its token. -/
def Obligations.TransportEvents : Prop :=
  ∀ (fold uid : Nat) (s : State) (e : EngOp) (c : ConnEnt), s.memOk → s.findEng fold uid = some e → e.unit = U.nx →
    (s.fold fold).watch = [] →
    (s.connEnt e.nxConn = some c → e.started = true → e.sentAll = false → (s.nxIo (dieOf fold)).isSome = true →
      s.nxMaySend fold e c = true → c.dev ≠ s.pkg.devId.toNat →
      (∀ k : Nat, e.redo = 0 → (e.isPut = true ∨ e.isSend = true) →
        let n := min 4096 (e.nxLen - e.progress)
        (∀ i, i < n → s.PlainSide fold e .generic false (e.nxLocal + BitVec.ofNat 64 (e.progress + i)) 1 (k + i)) →
        ∃ t p x, exec (.nxPacketSend fold uid) s = .next t ∧ t.mem = s.mem ∧ t.pkg.out = s.pkg.out ++ [.packet p] ∧
          p.kind = (if e.isPut then .write else .send) ∧ p.conn = c.dconn ∧ p.src = s.pkg.devId ∧ p.raddr = e.nxRemote ∧
          p.peer = c.peer ∧ p.tc = c.tc ∧ p.seq = (s.conn e.nxConn c).sendSeq ∧
          p.offset = e.progress ∧ p.total = e.nxLen ∧ p.payload = Memory.readN s.mem k n ∧ p.key = e.nxKey ∧
          t.findEng fold uid = some { e with progress := e.progress + n, sent := e.sent ++ [p] } ∧
          Tbl.find t.pkg.conns e.nxConn = some x ∧ x.inFlight = (s.conn e.nxConn c).inFlight + n) ∧
      (e.redo = 0 → (e.isGet = true ∨ e.isNxAtom = true) →
        ∃ t p, exec (.nxPacketSend fold uid) s = .next t ∧ t.mem = s.mem ∧ t.pkg.out = s.pkg.out ++ [.packet p] ∧
          (e.isGet = true → p.kind = .read) ∧ p.raddr = e.nxRemote ∧ p.total = e.nxLen ∧ p.peer = c.peer ∧ p.tc = c.tc ∧
          t.findEng fold uid = some { e with progress := 1, sent := e.sent ++ [p] }) ∧
      (∀ p, e.redo ≠ 0 → e.sent[e.sent.length - e.redo]? = some p →
        ∃ t q, exec (.nxPacketSend fold uid) s = .next t ∧ t.mem = s.mem ∧ t.pkg.out = s.pkg.out ++ [.packet q] ∧
          q = { p with entropy := q.entropy } ∧
          t.findEng fold uid = some { e with redo := e.redo - 1, sent := e.sent.set (e.sent.length - e.redo) q })) ∧
    (s.connEnt e.nxConn = some c → e.started = true → e.sentAll = false → s.nxIo (dieOf fold) = none →
      ∃ t, exec (.nxPacketSend fold uid) s = .next t ∧ t.mem = s.mem ∧ s.EngGone t fold e ∧ s.EngToken t fold e 0x53) ∧
    (s.connEnt e.nxConn = none → e.started = true → e.sentAll = false →
      ∃ t, exec (.nxPacketSend fold uid) s = .next t ∧
        t.findEng fold uid = some { e with nxRefused := true, redo := 0, sent := [] }) ∧
    (∀ (i bytes sample : Nat) (entropy : BitVec 8) (marked rttEnd : Bool) (tag : Nat) (l1 l2 : List (Nat × Nat × Nat)),
      s.connEnt i = some c → (s.conn i c).answers = [] → (s.conn i c).flying = l1 ++ (tag, bytes, entropy.toNat) :: l2 →
      (∀ y ∈ l1, y.2.2 ≠ entropy.toNat) → (∀ y ∈ (s.conn i c).flying, 0 < y.2.1) →
      let x := s.conn i c
      ∃ t y, exec (.nxAckReceive i ⟨bytes, entropy⟩ sample marked rttEnd) s = .next t ∧ Tbl.find t.pkg.conns i = some y ∧
        t.mem = s.mem ∧ y.rtt.val = x.rtt.val + (sample - x.rtt.val) / 8 ∧
        y.f.val = x.f.val + ((if marked then 1 else 0) - x.f.val) / 16 ∧ y.flying = l1 ++ l2 ∧
        (bytes < x.round → y.w = x.w ∧ y.round = x.round - bytes ∧ y.marked = (x.marked || marked)) ∧
        (x.round ≤ bytes → y.marked = false ∧ y.round = (l1.map (fun z => z.2.1)).sum + (l2.map (fun z => z.2.1)).sum ∧
          y.w.val = if x.marked || marked then max (c.minW : ℚ) (x.w.val - x.w.val * y.f.val / 2) else x.w.val + 4096)) ∧
    (s.connEnt e.nxConn = some c → e.started = true →
      (∃ t x, exec (.nxRetransmitTimeout fold uid false) s = .next t ∧ Tbl.find t.pkg.conns e.nxConn = some x ∧
        x.w.val = c.minW ∧
        (∀ y ∈ x.flying, y.1 ≠ flightTag true (512 * uid + fold)) ∧
        t.findEng fold uid = some { e with redo := e.sent.length }) ∧
      (∃ t x, exec (.nxRetransmitTimeout fold uid true) s = .next t ∧ Tbl.find t.pkg.conns e.nxConn = some x ∧
        x.w.val = c.minW ∧
        s.EngGone t fold e ∧ s.EngToken t fold e 0x52)) ∧
    (∀ (p : NxPacket) (ts : List Trans) (k : Nat), p.kind = .write → s.connEnt (p.conn % 4096) = some c → c.allowW = true →
      s.targetBytes c.asid .store (p.raddr.toNat + p.offset) p.payload.length = .ok ts →
      (∀ i, i < ts.length → ∃ t, ts[i]? = some t ∧ t.plain (k + i)) →
      (c.mode = 1 → (s.conn p.conn c).expect < p.seq → exec (.nxPacketArrive p) s = .next s) ∧
      (c.mode ≠ 1 ∨ p.seq ≤ (s.conn p.conn c).expect → ∃ t, exec (.nxPacketArrive p) s = .next t ∧
        (∀ i, i < p.payload.length → Memory.read t.mem (k + i) = p.payload.getD i 0) ∧
        (∀ a, ¬(k ≤ a ∧ a < k + p.payload.length) → Memory.read t.mem a = Memory.read s.mem a))) ∧
    (∀ p : NxPacket, p.kind = .refusal fold uid →
      let left := eraseOne (fun q => q.offset == p.offset) e.sent
      ∃ t, exec (.nxPacketArrive p) s = .next t ∧ t.mem = s.mem ∧
        t.findEng fold uid = some { e with nxRefused := true, sent := left, redo := min e.redo left.length }) ∧
    (∀ (p : NxPacket) (k : Nat) (c1 : ConnEnt), p.kind = .answer fold uid → s.connEnt (p.conn % 4096) = some c1 →
      e.isGet = true → p.payload ≠ [] →
      (c1.mode ≠ 1 ∨ p.offset ∈ e.landed ∨ s.answerEarly fold e p.offset = false) →
      (∀ i, i < p.payload.length → s.PlainSide fold e .generic true (e.nxLocal + BitVec.ofNat 64 (p.offset + i)) 1 (k + i)) →
      let got := e.acked + p.payload.length
      ∃ t, exec (.nxPacketArrive p) s = .next t ∧
        (∀ i, i < p.payload.length → Memory.read t.mem (k + i) = p.payload.getD i 0) ∧
        (∀ a, ¬(k ≤ a ∧ a < k + p.payload.length) → Memory.read t.mem a = Memory.read s.mem a) ∧
        (p.offset ∈ e.landed → t.findEng fold uid = some e) ∧
        (p.offset ∉ e.landed → t.findEng fold uid = some
          { e with landed := e.landed ++ [p.offset], acked := got, sent := if e.nxLen ≤ got then [] else e.sent,
                   redo := if e.nxLen ≤ got then 0 else e.redo })) ∧
    (∀ (p : NxPacket) (c1 : ConnEnt), p.kind = .answer fold uid → s.connEnt (p.conn % 4096) = some c1 → c1.mode = 1 →
      (e.isGet = true ∨ e.isNxAtom = true) → p.payload ≠ [] → p.offset ∉ e.landed → e.acked < p.offset →
      exec (.nxPacketArrive p) s = .next s) ∧
    (∀ p : NxPacket, p.kind = .answer fold uid → s.connEnt (p.conn % 4096) = none →
      ∃ t, exec (.nxPacketArrive p) s = .next t ∧ t.mem = s.mem ∧
        t.findEng fold uid = some { e with nxRefused := true, redo := 0, sent := [] }) ∧
    (e.nxDone = true → ∃ t, exec (.nxOpComplete fold uid) s = .next t ∧ s.EngGone t fold e ∧ t.mem = s.mem ∧
      (e.nxRefused = true → s.EngToken t fold e 0x4E) ∧
      (∀ k, e.nxRefused = false → e.token = some k → s.EngToken t fold e k) ∧
      (e.nxRefused = false → e.token = none → s.EngFills t fold e (fun _ => BitVec.ofNat 64
        ((if e.isNxAtom then natOf (e.block.take 4) else e.nxLen) % 2 ^ 32))))

/-- R140, R187, R424, R428, R449. Bytes for the key of a bound landing counter add to its count. Below its target nothing
else happens; at the target, with no arrival at the barrier's current generation yet, the target is taken off the
count and the counter arrives at its barrier, whose generation rises when it was the last. Bytes for any other key
change nothing. A load at the head of a team's queue whose place is at a reachable other device completes with the
value of that device's answer, or with a token of C_REMOTEERR or of C_PEERDOWN when the access is refused or the
device cannot be reached; memory stays, and the request has left as a packet over the connection that the remote map names.
While the fold has issued an access to that device before it that is not performed
yet, no answer of the device reaches it; that the answer comes as an event, at which the request leaves, and that order are
the model's reading (log entry 78). -/
def Obligations.LandingsAndRemoteAccesses : Prop :=
  (∀ (die n i : Nat) (key : BitVec 16) (s : State) (l : Landing) (g : Gang), s.landingOf die key = some (i, l) →
      s.gang l.gang = some g → g.die = die → ((s.die die).landing.map Prod.fst).Pairwise (· < ·) →
      let b := g.barrier l.barrier
      (l.count + n < l.target → ∃ t, exec (.landingCount die key n) s = .next t ∧
        t = s.modDie die (fun d => { d with landing := Tbl.put d.landing i { l with count := l.count + n } })) ∧
      (l.target ≤ l.count + n → l.count + n < 2 * l.target → l.arrivedAt ≠ some b.gen →
        ∃ t x, exec (.landingCount die key n) s = .next t ∧ t.mem = s.mem ∧
          Tbl.find (t.die die).landing i = some x ∧ x.count = l.count + n - l.target ∧ x.arrivedAt = some b.gen ∧
          (b.arrivals + 1 = s.expected l.gang g l.barrier →
            (t.gang l.gang).map (Gang.barrier · l.barrier) = some { gen := b.gen + 1, arrivals := 0 }) ∧
          (b.arrivals + 1 ≠ s.expected l.gang g l.barrier →
            (t.gang l.gang).map (Gang.barrier · l.barrier) = some { gen := b.gen, arrivals := b.arrivals + 1 }))) ∧
    (∀ (die n : Nat) (key : BitVec 16) (s : State), s.landingOf die key = none →
      exec (.landingCount die key n) s = .next s) ∧
    (∀ (id : CtxId) (s : State) (c : Ctx) (o : MemOp) (x : MemLane) (tr : Trans) (dev a : Nat), s.ctx id = some c →
      c.memq = [o] → o.isLoad = true → o.isPf = false → o.acquires = false → o.lanes = [x] → o.replay = none → o.res = [] →
      o.toks = [] → o.rt ≠ 0 → c.mapPending o.uid = false → c.descPending o.uid = false → c.wait ≠ .exiting →
      (x.win.isSome = true → (s.fold id.fold).unread o.locks = false) → s.eccHit tr.place o.size = false →
        x.lane < c.nlanes → x.lane < 1024 →
      (o.mask &&& c.live).getLsbD x.lane = true → (c.us.unit o.unit).last = o.uid → (c.us.unit o.unit).full = false →
      (c.us.unit o.unit).frec.isSome = true → s.check id c o x = .place tr → tr.setAD = none → tr.place = .remote dev a →
      s.peerOk (dieOf id.fold) dev = true → s.remoteSi id.fold c.tid o dev a = none → s.behindHeld id c o x = false →
      let asked := fun (t : State) => ∀ cn,
        s.connEnt (bits (s.rd (bits s.pkg.rmapBase.toNat 47 15 * 2 ^ 15 + 2 * (dev % 2 ^ 14)) 2) 11 0) = some cn →
        cn.dev ≠ s.pkg.devId.toNat → ∃ p, Out.packet p ∈ t.pkg.out ∧ p.kind = .read ∧ p.conn = cn.dconn ∧ p.src = s.pkg.devId ∧
          p.raddr = BitVec.ofNat 64 a ∧ p.total = o.size
      (s.remoteBefore id dev o.issued = true → ∀ ans, exec (.remoteAccess id ans) s = .next s) ∧
      (s.remoteBefore id dev o.issued = false → ∀ v, ∃ t c', exec (.remoteAccess id (.done v)) s = .next t ∧
        t.ctx id = some c' ∧ c'.memq = [] ∧
        (c'.us.unit o.unit).full = true ∧ (c'.us.unit o.unit).r.at x.lane = o.extend (v.toNat % 2 ^ (8 * o.size)) ∧
        c'.g = c.g ∧ c'.pc = c.pc ∧ asked t) ∧
      (s.remoteBefore id dev o.issued = false → ∀ ans k, (ans = .refused ∧ k = 0x36) ∨ (ans = .unreachable ∧ k = 0x53) →
        ∃ t c', exec (.remoteAccess id ans) s = .next t ∧ t.ctx id = some c' ∧ c'.memq = [] ∧
          c'.RToken o.unit (BitVec.ofNat 1024 (2 ^ x.lane)) k ∧ asked t ∧ ∀ b, Memory.read t.mem b = Memory.read s.mem b))

/-- R411, R412, R413, R414, R415, R416, R417, R418, R420, R429, R430, R438. For an end of a link that is up and not
retraining: the expected flit with a good CRC is accepted, the expected number rises, the sender keeps no flit up to it any
more, and the message that the flit carries waits at the next link of its route, or has come: a duplicate of one that came
before does nothing, another request lets the lanes that sent it be performed at this home, unless earlier traffic of its
fold, die, channel and scope is still on its way, for which it is held; a bad one not in a run already discarded counts in
LK_CRC for its CRC, owes one NAK with the expected number, and counts one event of the lane its parity names, if it names
one. The NAK sets the sender back to its number, counts in LK_REPLAY, and counts an event of the link where the error named
no lane, in a window that lasts WINUS. An error below THRESH only counts; one that reaches it in its window takes a
ladder step: a link error above rate code 0 lowers the rate by one code, both ends count a degradation and the link
retrains. While it retrains, a flit with a good CRC does nothing and one with a bad CRC counts in LK_CRC and as an error, and
may take another step, after which the link retrains once more (log entry 51). A window whose time is over clears its count.
The end of the last retrain lets each sender resume at its first unacknowledged flit. A lost Ethernet link of a port and a
degraded Lumen port post their notices; a Lumen port that goes down is down. -/
def Obligations.LinksAndPorts : Prop :=
  (∀ (e : Nat) (f : Flit) (s : State), e < 16 → (s.link (e / 2)).up = true → (s.link (e / 2)).retraining = false →
    f.null = false →
      let x := s.linkEnd e
      ((s.linkEnd (otherEnd e)).flit f.seq.toNat = none → exec (.flitReceive e f) s = .next s) ∧
      (∀ y m, (s.linkEnd (otherEnd e)).flit f.seq.toNat = some (y, m) → f.crcOk = true → f.seq = x.expect →
        let z := y.acknowledge ((f.seq.toNat + 1) % 1024)
        ∃ t, exec (.flitReceive e f) s = .next t ∧ t.mem = s.mem ∧ t.agenda = s.agenda ∧ t.pkg.links = s.pkg.links ∧
          (t.linkEnd e).expect = x.expect + 1 ∧ (t.linkEnd e).discarding = false ∧
          (t.linkEnd (otherEnd e)).acked = (f.seq.toNat + 1) % 1024 ∧ (t.linkEnd (otherEnd e)).unacked = z.unacked ∧
          (∀ u ∈ z.unacked, (u.1 + 1024 - (f.seq.toNat + 1) % 1024) % 1024 < 512) ∧
          (m = none → t.linkEnd e = { x with expect := x.expect + 1, discarding := false } ∧ t.linkEnd (otherEnd e) = z) ∧
          (∀ g, m = some g → endNode e = g.dst →
            let seen := Tbl.get s.pkg.meshSeen (meshSeenKey g.dst g.src g.vc) []
            (g.seq ∈ seen → t.ctxs = s.ctxs ∧ t.pkg.meshSeen = s.pkg.meshSeen ∧ t.pkg.meshHold = s.pkg.meshHold) ∧
            (g.seq ∉ seen → s.pkg.meshHold = [] → g.vc = 0 →
              ((∀ u ∈ t.meshTransit, u.before g = false) → t.pkg.meshHold = [] ∧
                ∀ (id : CtxId) (c : Ctx), id.slot < 64 → s.ctx id = some c → t.ctx id = some
                  (if id.fold = g.fold then { c with memq := c.memq.map (fun o => { o with lanes := o.lanes.map (fun x =>
                    if x.trip = .sent g.dst g.seq then { x with trip := .there g.dst } else x) }) } else c)) ∧
              ((∃ u ∈ t.meshTransit, u.before g = true) → t.pkg.meshHold = [g] ∧ t.ctxs = s.ctxs))) ∧
          (∀ g o r, m = some g → endNode e ≠ g.dst → s.route (endNode e) g.dst = some (endNode e :: endNode (otherEnd o) :: r) →
            endTo (endNode e) (endNode (otherEnd o)) = some o →
            g ∈ (t.linkEnd o).queue)) ∧
      ((s.linkEnd (otherEnd e)).flit f.seq.toNat ≠ none → (f.crcOk = false ∨ f.seq ≠ x.expect) → x.discarding = false →
        let lane := if f.crcOk then none else (s.link (e / 2)).laneOf (e / 2) f
        let y := { x with crc := (if f.crcOk then x.crc else (x.crc + 1) % 2 ^ 48), discarding := true, nak := some lane.isNone }
        let naks := s.agenda ++ [.nakReceive (otherEnd e) x.expect]
        (lane = none → ∃ t, exec (.flitReceive e f) s = .next t ∧ t.linkEnd e = y ∧ t.agenda = naks ∧
          t.pkg.links = s.pkg.links) ∧
        (∀ k, lane = some k → Tbl.get x.laneCounts k 0 = 0 → 1 < bits x.win.toNat 23 16 →
          (x.laneCounts.map Prod.fst).Pairwise (· < ·) →
          ∃ t, exec (.flitReceive e f) s = .next t ∧ t.agenda = naks ∧ t.pkg.links = s.pkg.links ∧
            Tbl.get (t.linkEnd e).laneCounts k 0 = 1 ∧ (t.linkEnd e).linkCount = x.linkCount ∧
            (t.linkEnd e).replay = x.replay ∧ (t.linkEnd e).nak = some false ∧ (t.linkEnd e).crc = y.crc))) ∧
    (∀ (e : Nat) (f : Flit) (s : State), e < 16 → (s.link (e / 2)).up = true → (s.link (e / 2)).retraining = true →
      let x := s.linkEnd e
      let l := s.link (e / 2)
      (f.crcOk = true → exec (.flitReceive e f) s = .next s) ∧
      (f.crcOk = false → l.laneOf (e / 2) f = none →
        (x.linkCount = 0 → 1 < bits x.win.toNat 23 16 → ∃ t, exec (.flitReceive e f) s = .next t ∧ t.agenda = s.agenda ∧
          t.linkEnd e = { x with crc := (x.crc + 1) % 2 ^ 48, linkCount := 1, linkThr := bits x.win.toNat 23 16,
                                 linkShut := s.ticks + max 1 (bits x.win.toNat 15 0) * 100 }) ∧
        (s.ticks < x.linkShut → x.linkCount + 1 = x.linkThr → 1 < x.linkThr → l.rate ≠ 0 → l.mw ≠ 0 →
          ∃ t, exec (.flitReceive e f) s = .next t ∧ t.link (e / 2) = { l with rate := l.rate - 1, more := l.more + 1 } ∧
            (t.linkEnd e).linkCount = 0))) ∧
    (∀ (e : Nat) (q : BitVec 10) (s : State), e < 16 → (s.link (e / 2)).up = true →
      let r := otherEnd e
      let x := s.linkEnd r
      let l := s.link (e / 2)
      let y := if l.retraining then s.linkEnd e else { (s.linkEnd e).acknowledge q.toNat with sendNext := q.toNat }
      let sent := { x with nak := none, replay := (x.replay + 1) % 2 ^ 48 }
      (x.nak = none → ∃ t, exec (.nakReceive e q) s = .next t ∧ t.linkEnd e = y ∧ t.linkEnd r = x ∧ t.pkg.links = s.pkg.links) ∧
      (x.nak = some false → ∃ t, exec (.nakReceive e q) s = .next t ∧ t.linkEnd e = y ∧ t.linkEnd r = sent ∧
        t.pkg.links = s.pkg.links) ∧
      (x.nak = some true → (x.linkCount = 0 ∨ x.linkShut ≤ s.ticks) → 1 < bits x.win.toNat 23 16 →
        ∃ t, exec (.nakReceive e q) s = .next t ∧ t.linkEnd e = y ∧ t.pkg.links = s.pkg.links ∧
          t.linkEnd r = { sent with linkCount := 1, linkThr := bits x.win.toNat 23 16,
                                    linkShut := s.ticks + max 1 (bits x.win.toNat 15 0) * 100 }) ∧
      (x.nak = some true → s.ticks < x.linkShut → x.linkCount + 1 = x.linkThr → 1 < x.linkThr → l.rate ≠ 0 → l.mw ≠ 0 →
        ∃ t, exec (.nakReceive e q) s = .next t ∧
          t.link (e / 2) = { l with rate := l.rate - 1, retraining := true, more := if l.retraining then l.more + 1 else 0 } ∧
          (t.linkEnd r).linkCount = 0 ∧ (t.linkEnd r).replay = sent.replay ∧
          ∀ z, z = e ∨ z = r → (t.linkEnd z).degr = ((s.linkEnd z).degr + 1) % 2 ^ 48)) ∧
    (∀ (e : Nat) (lane : Option Nat) (s : State), e < 16 → ((s.linkEnd e).laneCounts.map Prod.fst).Pairwise (· < ·) →
      (s.windowOver (s.linkEnd e) lane = false → exec (.errorWindowClose e lane) s = .next s) ∧
      (s.windowOver (s.linkEnd e) lane = true → ∃ t, exec (.errorWindowClose e lane) s = .next t ∧
        (lane = none → (t.linkEnd e).linkCount = 0 ∧ (t.linkEnd e).laneCounts = (s.linkEnd e).laneCounts) ∧
        (∀ k, lane = some k → Tbl.get (t.linkEnd e).laneCounts k 0 = 0 ∧ (t.linkEnd e).linkCount = (s.linkEnd e).linkCount))) ∧
    (∀ (n : Nat) (s : State), (s.link n).retraining = true → (s.link n).more ≠ 0 → exec (.linkRetrainEnd n) s =
      .next (s.setLink n { s.link n with more := (s.link n).more - 1 })) ∧
    (∀ (n : Nat) (s : State), (s.link n).retraining = true → (s.link n).more = 0 →
      ∃ t, exec (.linkRetrainEnd n) s = .next t ∧ (t.link n).retraining = false ∧ (t.link n).waiters = [] ∧
        (∀ e, e = 2 * n ∨ e = 2 * n + 1 → (t.linkEnd e).sendNext = (s.linkEnd e).acked) ∧ t.mem = s.mem) ∧
    (∀ (port : Nat) (s : State),
      (port < 16 → port % 8 < s.ethPorts (port / 8) → ∃ t n, exec (.ethLinkDown port) s = .next t ∧
        t.pkg.out = s.pkg.out ++ [.notice n] ∧ n.event = eventWord 0x54 0 0 true false port ∧
        n.seq = BitVec.ofNat 64 s.pkg.noticeSeq ∧ t.mem = s.mem ∧ t.ctxs = s.ctxs) ∧
      (16 ≤ port ∨ s.ethPorts (port / 8) ≤ port % 8 → exec (.ethLinkDown port) s = .next s)) ∧
    (∀ s : State, (∃ t n, exec (.lumenPortDown .degraded) s = .next t ∧ t.pkg.out = s.pkg.out ++ [.notice n] ∧
        n.event = eventWord 0x57 0 0 true false 0 ∧ t.pkg.lumenUp = s.pkg.lumenUp) ∧
      (∃ t, exec (.lumenPortDown .down) s = .next t ∧ t.pkg = { s.pkg with lumenUp := false } ∧ t.mem = s.mem))

/-- R23, R24, R28, R33, R34, R35, R38, R39, R46, R184. For a Ready context with no acquire outstanding, no due trap, no
breakpoint, no fence and no loop step: an idle bundle advances PC by 2 and SCHED_CYCLE by ICNT + 1 and holds the team for
ICNT + 1, the results in flight as they were (what comes before it is the model's own choice: log entry 55). A recall of a
valid entry issues the entry's bundle at the recall's address
with the next bundle 2 bytes on; a recall of an entry that is not valid is C_MIRROR, taken through TVEC. A plain or
extended bundle, or one recalled, of moves into g registers alone gives each register and lane the value that its
highest slot with a true guard reads before the bundle, and changes nothing else. One of triggers of fixed-latency units, SF
and loads starts each of them with the operands that stand before the bundle: a fixed-latency result is in flight with the
values of its row, an SF operation and a load are in flight with R empty; SETA and SETB clear their flags and name the owners,
or set the flag of a trigger that no live lane has, and the other flags stay. A bundle that waits on flags that read 0, each
owned, and on nothing else does not issue and waits for them. YLD changes nothing, and a ready team of the same class that
issued before goes next in the ranking. A code line at most four lines ahead
of PC is kept as it reads, or nothing happens where it cannot be read. -/
def Obligations.IdleRecallAndBundles : Prop :=
  (∀ (n : BitVec 14) (s : State) (c0 : Ctx), s.ctx s.cur = some c0 → c0.ready = true → s.acqOut s.cur c0 = none →
      c0.nextDue = none → s.breaks s.cur c0 = false → c0.us.fence = none → (∀ q, c0.loop = some q → q.started = false) →
      ∃ c', exec (.idle n) s = .next (s.setCtx s.cur c') ∧ c'.Is { c0 with
        pc := c0.pc + 2, sched := (c0.sched + (n.toNat + 1)) % 2 ^ 48, wait := .idle (n.toNat + 1), brkSkip := false,
        lastIssue := (s.fold s.cur.fold).cycle }) ∧
    (∀ (n : BitVec 9) (s : State) (c0 : Ctx), s.ctx s.cur = some c0 → c0.ready = true →
      (∀ r, s.mirrorEntry s.cur c0 n.toNat = some r →
        exec (.recall n) s = .next (s.issue allUnits (rawAt r c0.pc (c0.pc + 2)) s.cur)) ∧
      (s.mirrorEntry s.cur c0 n.toNat = none → s.cur.slot < 64 → s.acqOut s.cur c0.boundary = none →
        c0.boundary.nextDue = none →
        s.breaks s.cur c0.boundary = false → c0.shadow = false → c0.inh = false → c0.tvec &&& ~~~1 ≠ 0 →
        ∃ t c', exec (.recall n) s = .next t ∧ t.ctx s.cur = some c' ∧ c'.pc = c0.tvec &&& ~~~1 ∧ c'.cause = 0x08 ∧
          c'.trapPc = c0.pc &&& ~~~1 ∧ c'.frame = some c0.boundary.us ∧ c'.us = UnitState.fresh ∧ c'.g = c0.g ∧
          c'.sched = c0.sched ∧ t.mem = s.mem)) ∧
    (∀ (i : Instr) (b : Bundle) (s : State) (c0 : Ctx), s.Issues c0 i b → s.Clear c0 b →
      (∀ m ∈ b.moves, m.dunit = U.rf ∧ m.dport = 0) →
      ∃ t c' g, exec i s = .next t ∧ t.ctx s.cur = some c' ∧ s.Frame t ∧
        c'.Is { c0.land.after b (s.fold s.cur.fold).cycle c0.land.us.ticked with g := g } ∧
        ∀ r l, l < c0.nlanes → c'.gReg r l =
          match (b.moves.filter (fun m => m.dsel == r && (c0.land.guardMask m).getLsbD l)).getLast? with
          | some m => lo32 (c0.land.src b m l)
          | none => c0.gReg r l) ∧
    (∀ (i : Instr) (b : Bundle) (s : State) (c0 : Ctx), s.Issues c0 i b → s.Clear c0 b →
      (∀ m ∈ b.moves, m.isTrig = true ∧ (m.dunit ≤ 9 ∨ ((m.dunit = U.la ∨ m.dunit = U.lb) ∧ m.dsel < 0xC0))) →
      let c := c0.land
      let uid := fun (m : Move) => c0.nextUid + m.slot
      let on := fun (m : Move) => c.guardMask m ≠ 0
      ∃ t c', exec i s = .next t ∧ t.ctx s.cur = some c' ∧ t.mem = s.mem ∧ c'.pc = b.next ∧ c'.sched = (c0.sched + 1) % 2 ^ 48 ∧
        c'.g = c0.g ∧ c'.s = c0.s ∧ c'.k = c.k ∧
        (∀ m ∈ b.moves, on m → ∀ r : FixedRow, r.Listed → r.unit = m.dunit → r.opcode = m.dsel →
          ∃ p ∈ c'.us.pend, p.unit = m.dunit ∧ p.left = fixedLat m.dunit - 1 ∧ p.mask = c.guardMask m ∧ p.kdst = r.kdst ∧
            ∀ l, l < c.nlanes → (c.guardMask m).getLsbD l = true → p.vals.at l = r.onLane c b m l) ∧
        (∀ m ∈ b.moves, on m → m.dunit = U.sf → (c'.us.unit U.sf).full = false ∧ ∃ o ∈ c'.ops, o.unit = U.sf ∧ o.uid = uid m ∧
          o.mask = c.guardMask m ∧ o.opcode.toNat = m.dsel % 256) ∧
        (∀ m ∈ b.moves, on m → m.dunit = U.la ∨ m.dunit = U.lb → (c'.us.unit m.dunit).full = false ∧
          ∃ o ∈ c'.memq, o.unit = m.dunit ∧ o.uid = uid m ∧ o.mask = c.guardMask m ∧ o.opcode.toNat = m.dsel % 256) ∧
        (b.isExt = false → c'.us.flags = c.us.flags ∧ c'.us.owners = c.us.owners) ∧
        (b.isExt = true → ∀ j m, (b.seta = j + 1 ∧ b.counted[0]? = some m) ∨ (b.setb = j + 1 ∧ b.counted[1]? = some m) →
          (on m → c'.us.flag j = false ∧ (j, uid m) ∈ c'.us.owners) ∧
          (¬on m → c'.us.flag j = true ∧ c'.us.owned j = false)) ∧
        (b.isExt = true → ∀ j, j < 12 → b.seta ≠ j + 1 → b.setb ≠ j + 1 → c'.us.flag j = c.us.flag j)) ∧
    (∀ (i : Instr) (b : Bundle) (s : State) (c0 : Ctx), s.Issues c0 i b → s.Reaches c0 b → (∀ k, ¬s.Fails c0.land b k) →
      c0.land.tokenRead b = none → s.WaitsForNone c0.land b → c0.land.sfb = [] → (∃ j < 12, c0.land.Awaits b j) →
      exec i s = .next (s.setCtx s.cur { c0 with wait := .flag })) ∧
    (∀ (r : RawBundle) (s : State) (c0 : Ctx),
      s.Clear c0 (rawAt r s.curPc (s.curPc + BitVec.ofNat 64 (2 * headerLength r.header))) →
      exec (.bundleIssue { r with header := r.header ^^^ 0x0040 }) s = exec (.bundleIssue r) s) ∧
    (∀ (rot : Nat) (x y : Nat × Ctx), x.2.shadow = y.2.shadow → x.2.prio = y.2.prio → x.2.lastIssue < y.2.lastIssue →
      rankBefore rot x y = true ∧ rankBefore rot y x = false) ∧
    (∀ (id : CtxId) (line : Nat) (s : State) (x : Ctx), s.ctx id = some x → x.pc.toNat / 64 ≤ line →
      line ≤ x.pc.toNat / 64 + 4 →
      let bytes := s.fetchBytes (dieOf id.fold) x.asid (!x.shadow) (64 * line) 64
      (∀ bs, bytes = .ok bs → ∃ t c', exec (.fetchLineFill id line) s = .next t ∧ t.ctx id = some c' ∧
        c' = { x with lines := c'.lines } ∧ Tbl.find c'.lines line = some bs ∧
        ∀ l, l ≠ line → Tbl.find c'.lines l = Tbl.find x.lines l) ∧
      (∀ e, bytes = .error e → exec (.fetchLineFill id line) s = .next s))

/-- R6, R126, R371, R372. With nothing standing before the bundle and a guard that holds on a lane, where the selector T
names a register that the operation may act on. csrr fills SV.R with the register's value as it stands before the bundle.
csrw, csrs and csrc of a register without an action of its own fill SV.R with the old value and leave what R6 and R372 give,
in the team's own FP_CTL with the sticky bits of the results that land at this bundle set besides; every other such register
keeps its value, FP_CTL but for those bits. An operation that stands behind one on the same register, or names a register of
another die, is one operation in flight with SV.R empty; when it completes SV.R takes the old value and the register what
the operation leaves. Where the selector names no register that the operation may act on, C_CSRACCESS is due with the
selector as its address; SV.R takes a free value, which is the model's own choice (log entry 33). Memory, g, s and k
registers stay. -/
def Obligations.RegisterOperations : Prop :=
  (∀ (n : Nat) (op : CsrOp) (i : MoveF → Instr) (m : MoveF) (s : State) (c0 : Ctx), (n, op, i) ∈ csrRows →
      let w := syllable true U.sv 3 n m
      s.Fires c0 w →
      let sel := c0.rowT s w
      let a := (c0.land.us.unit U.sv).a.at 0
      let s1 := s.atIssue c0
      let reg := s1.csrReg (Who.of s.cur c0) sel op
      (∀ r, reg = some r → c0.land.csrBehind sel = false → r.slow (dieOf s.cur.fold) op = false → op = .read →
        Answers (i m) s c0 U.sv w (s1.readReg r) (fun t => (s.afterIssue c0).OtherRegs t 0x1000)) ∧
      (∀ r, reg = some r → c0.land.csrBehind sel = false → r.slow (dieOf s.cur.fold) op = false → op ≠ .read →
        r.num ∈ plainRegs →
        let landed := if r.num = 0x01C ∧ r.team = some s.cur then c0.excBits (c0.dueWithin 1) else 0
        Answers (i m) s c0 U.sv w (s1.readReg r) (fun t => t.readReg r = stick (r.after op (s1.readReg r) a) landed ∧
          (s.afterIssue c0).OtherRegs t r.num)) ∧
      (∀ r, reg = some r → r.num ≠ 0x031 → (c0.land.csrBehind sel = true ∨ r.slow (dieOf s.cur.fold) op = true) →
        OpStarts (i m) w s c0 (fun o => o.vals = none ∧ o.tv c0.nlanes = sel ∧ o.av = a)) ∧
      (reg = none → TrigRuns (i m) s c0 (fun t c' => c'.g = c0.g ∧ t.mem = s.mem ∧ t.free = s.free + 1 ∧
        (s.afterIssue c0).OtherRegs t 0x1000 ∧ c0.RFilled c' U.sv (c0.rowMask w) (fun _ => Config.freeValue s.free) ∧
        ∃ d ∈ c'.due, d.code = 0x0D ∧ d.addr = some sel ∧ d.bundle = some (c0.pc, BitVec.ofNat 64 c0.sched)))) ∧
    (∀ (id : CtxId) (s : State) (c : Ctx) (o : VarOp) (r : Reg), s.ctx id = some c → c.ops = [o] → o.unit = U.sv →
      o.opcode.toNat ≤ 3 → o.vals = none → (c.us.unit U.sv).last = o.uid → (c.us.unit U.sv).full = false →
      s.csrReg (Who.of id c) (o.tv c.nlanes) (CsrOp.ofOpcode o.opcode) = some r → r.num ∈ plainRegs →
      OpDone (.svOpComplete id) s id c o (fun t c' => c.RFilled c' U.sv (o.mask &&& c.live) (fun _ => s.readReg r) ∧
        t.mem = s.mem ∧ s.OtherRegs t r.num ∧
        t.readReg r = r.after (CsrOp.ofOpcode o.opcode) (s.readReg r) o.av))

/-- R36, R371, R372, R397, R181, R232, R248. While the dies run, a write to a register without an action of its own that the
accessor may write leaves what R6 gives and changes no other such register; one that the accessor may not write changes
nothing. A request of the control node over the management path answers with the register's old value, or with a refusal,
without a value (log entry 74); a fold number past the last names no fold's registers (log entry 39). A write that must wait
is kept, and so is a request whose write of a floor is not yet in force. MIRROR_SEL of a team's gang takes its RW bits. A
key is loaded into its slot of the die; DEV_ID is written once while the dies run. An enabling write to MIGQ_CTL or DLOG_CTL
sets WIDX to 0, other writes keep it. A region entry is as it was written (log entry 52). -/
def Obligations.RegisterWritesFromOutside : Prop :=
  (∀ (who : Agent) (fold : Nat) (sel v : W64) (s : State), s.running = true → s.pkg.reqs = [] →
      (who = .control ∨ fold < 384) →
      let w := match who with | .control => Who.node fold | .shadow => Who.shadowOf fold
      let meant := fun (r : Reg) => fold < 384 ∨ r.desc.holder = .die ∨ r.desc.holder = .pkg
      (∀ r, s.csrReg w sel .write = some r → ¬meant r → exec (.registerWrite who fold sel v) s = .next s) ∧
      (∀ r, s.csrReg w sel .write = some r → meant r → r.num ∈ plainRegs → (∀ id, r.team = some id → (s.ctx id).isSome = true) →
        ∃ t, exec (.registerWrite who fold sel v) s = .next t ∧ t.mem = s.mem ∧
          t.readReg r = r.after .write (s.readReg r) v ∧ s.OtherRegs t r.num) ∧
      (s.csrReg w sel .write = none → exec (.registerWrite who fold sel v) s = .next s) ∧
      (s.accessWaits w sel .write v = true → exec (.registerWrite who fold sel v) s =
        .next { s with pkg := { s.pkg with reqs := [(.registerWrite who fold sel v, none)] } })) ∧
    (∀ (fold : Nat) (sel v : W64) (s : State), s.running = true → s.pkg.lumenUp = true → s.pkg.reqs = [] →
      let meant := fun (r : Reg) => fold < 384 ∨ r.desc.holder = .die ∨ r.desc.holder = .pkg
      (∀ r, s.csrReg (Who.node fold) sel .read = some r → ¬meant r →
        exec (.mgmtCsrRequest fold sel false v) s = .next (s.respond none)) ∧
      (∀ r, s.csrReg (Who.node fold) sel .read = some r → meant r →
        exec (.mgmtCsrRequest fold sel false v) s = .next (s.respond (some (s.readReg r)))) ∧
      (∀ r, s.csrReg (Who.node fold) sel .write = some r → meant r → r.num ∈ plainRegs →
        ∃ t, exec (.mgmtCsrRequest fold sel true v) s = .next t ∧ t.mem = s.mem ∧
          t.pkg.out = s.pkg.out ++ [.response (some (s.readReg r))] ∧
          ((∀ id, r.team = some id → (s.ctx id).isSome = true) → t.readReg r = r.after .write (s.readReg r) v)) ∧
      (s.csrReg (Who.node fold) sel .read = none →
        exec (.mgmtCsrRequest fold sel false v) s = .next (s.respond none)) ∧
      (s.csrReg (Who.node fold) sel .write = none →
        exec (.mgmtCsrRequest fold sel true v) s = .next (s.respond none)) ∧
      (s.accessWaits (Who.node fold) sel .write v = true → exec (.mgmtCsrRequest fold sel true v) s =
        .next { s with pkg := { s.pkg with reqs := [(.mgmtCsrRequest fold sel true v, none)] } }) ∧
      (∀ t old, s.access (Who.node fold) sel .write v = .done t old → t.floorWaits (Who.node fold) sel = true →
        exec (.mgmtCsrRequest fold sel true v) s =
          .next { t with pkg := { t.pkg with reqs := t.pkg.reqs ++ [(.mgmtCsrRequest fold sel true v, some old)] } })) ∧
    (∀ (id : CtxId) (v : W64) (s : State) (x : Ctx) (g : Gang), s.ctx id = some x → x.shadow = false →
      s.gang x.gang = some g → ∃ t h, exec (.mirrorSelWrite id v) s = .next t ∧ t.mem = s.mem ∧ t.ctxs = s.ctxs ∧
        t.gang x.gang = some h ∧ h = { g with mirrorSel := h.mirrorSel } ∧
        Tbl.get h.mirrorSel (g.half id.fold) 0 = (Tbl.get g.mirrorSel (g.half id.fold) 0 &&& ~~~0x101) ||| (v &&& 0x101)) ∧
    (∀ (d k : Nat) (key : BitVec 256) (s : State), d < 4 → k < 256 → ∃ t, exec (.keyLoad d k key) s = .next t ∧
      Tbl.find (t.die d).keys k = some key ∧ (∀ j, j ≠ k → Tbl.find (t.die d).keys j = Tbl.find (s.die d).keys j) ∧
      (∀ e, e ≠ d → t.die e = s.die e) ∧ t.mem = s.mem ∧ t.ctxs = s.ctxs) ∧
    (∀ (v : BitVec 14) (s : State), s.running = true →
      (s.pkg.devIdSet = false → ∃ t, exec (.devIdWrite v) s = .next t ∧ t.pkg.devId = v ∧ t.pkg.devIdSet = true) ∧
      (s.pkg.devIdSet = true → exec (.devIdWrite v) s = .next s)) ∧
    (∀ (d : Nat) (v : W64) (s : State), d < 4 →
      (∃ t, exec (.migqCtlWrite d v) s = .next t ∧ t.mem = s.mem ∧
        let old := (s.die d).migqCtl
        let new := CsrOp.write.apply old v 0xFE001F 0x100
        (t.die d).migqCtl = if (ringSize old 4 16).isNone ∧ (ringSize new 4 16).isSome then new &&& 0xFFFFFFFF else new) ∧
      (let old := (s.die d).dlogCtl
        let new := CsrOp.write.apply old v 0x1F 0x100
        ¬((ringSize old 8 20).isSome = true ∧ (ringSize new 8 20).isNone = true) →
        ∃ t, exec (.dlogCtlWrite d v) s = .next t ∧ t.mem = s.mem ∧
          (t.die d).dlogCtl = if (ringSize old 8 20).isNone ∧ (ringSize new 8 20).isSome then new &&& 0xFFFFFFFF else new)) ∧
    (∀ (d k : Nat) (e : Region) (s : State), d < 4 → k < 256 → ∃ t, exec (.regionTableWrite d k e) s = .next t ∧
      Tbl.find (t.die d).regions k = some e ∧
      ∀ j, j ≠ k → Tbl.find (t.die d).regions j = Tbl.find (s.die d).regions j)

/-- R350, R354, R355, R357, R358, R359, R368, R377, R450. For a context that is neither Frozen nor stopped whose lowest ripe
due trap is taken, with the route, CAUSE and SUBCAUSE that R357 and R369 leave. On every route the trap registers take
CAUSE, TRAP_PC, ORIGIN, SUBCAUSE and the FAULT registers that the cause sets, and registers, predicates and live lanes stay.
On route U the unit state moves into the frame unless a handler runs, the team has fresh unit state, INH is 1 and PC is
TVEC. On route S, C_PREEMPT among its causes, the team is Frozen with PC, unit state and wait kept (log entry 16), and an
event joins the fold's queue. On route H a notice leaves for the control node; a team is Frozen, the shadow context stops.
Memory stays. -/
def Obligations.TrapsTaken : Prop :=
  ∀ (id : CtxId) (s : State) (x : Ctx) (d : DueTrap), s.TrapNow id x d →
    let code := (x.redirect d).2.1
    let sub := (x.redirect d).2.2
    ((x.redirect d).1 = .user → d.code ≠ 0x3B → ∃ t c', exec (.trapRouteU id) s = .next t ∧ t.ctx id = some c' ∧
      x.Trapped c' d code sub 0 ∧ c'.pc = x.tvec &&& ~~~1 ∧ c'.inh = true ∧ c'.us = UnitState.fresh ∧
      c'.frame = (if x.inh then x.frame else some x.us) ∧ c'.wait = .ready ∧ c'.lines = [] ∧ c'.frozen = false ∧
      c'.tstatus.getLsbD 17 = resumable d.code ∧ t.mem = s.mem ∧ t.gangs = s.gangs ∧ t.dies = s.dies ∧ t.pkg = s.pkg) ∧
    (∀ i, (i = .trapRouteS id ∧ d.code ≠ 0x3B) ∨ (i = .teamFreeze id ∧ d.code = 0x3B) → (x.redirect d).1 = .shadow →
      ∃ t c', exec i s = .next t ∧ t.ctx id = some c' ∧ x.Trapped c' d code sub 1 ∧ c'.frozen = true ∧ c'.pc = x.pc ∧
        c'.us = x.us ∧ c'.frame = x.frame ∧ c'.wait = x.wait ∧ c'.inh = x.inh ∧ (∀ r ∈ c'.due, r.isRequest = false) ∧
        ((s.fold id.fold).eventLost = false → (t.fold id.fold).events =
          (s.fold id.fold).events ++ [eventWord code sub id.slot false false 0]) ∧
        t.mem = s.mem ∧ t.gangs = s.gangs) ∧
    ((x.redirect d).1 = .host → d.code ≠ 0x3B → ∃ t c' n, exec (.trapRouteH id) s = .next t ∧ t.ctx id = some c' ∧
      x.Trapped c' d code sub 2 ∧ c'.frozen = !x.shadow ∧ c'.stopped = x.shadow ∧ c'.pc = x.pc ∧ c'.us = x.us ∧
      c'.frame = x.frame ∧ c'.wait = x.wait ∧ t.pkg.out = s.pkg.out ++ [.notice n] ∧
      n.event = eventWord code sub id.slot false false 0 ∧ n.fold = BitVec.ofNat 16 id.fold ∧ n.flock = x.flock ∧
      n.trapPc = c'.trapPc ∧ n.faultBundle = c'.faultBundle ∧ n.faultAddr = c'.faultAddr ∧
      t.mem = s.mem ∧ t.gangs = s.gangs ∧ t.dies = s.dies)

/-- R26, R38, R45, R46, R357, R367, R368, R369, R373, R377, R398. A bundle that comes to the checks at issue and fails some
of them raises the lowest cause, C_MALFORMED, C_RESOPCODE, C_READPORT, C_WRITEPORT, C_REGRANGE, C_ROLE, C_SCHEDULE,
C_PRIVOP, or C_FLAGDEAD after all the others, and does not execute: a team with a handler enters it, its unit state with the
results in flight in the frame, registers, predicates and memory as they were; EMU0 to EMU3 describe a bundle with a
reserved opcode and stay for every other cause. A bundle that cannot be fetched raises C_FETCHFAULT with its first unmapped
byte, or C_FETCHPERM with its first byte that cannot be executed where all are mapped, and freezes its team on route S with
FAULT_BUNDLE, FAULT_CYCLE and FAULT_LANES kept. With nothing standing before the bundle and a guard that holds on a lane:
trap of v = T bits 6:0 makes C_SOFTA to C_SOFTD due for v of 0x1C to 0x1F, and C_SWTRAP with SUBCAUSE v otherwise, with A as
its address; brk makes C_BREAK due, or C_CONFIDENTIAL in a confidential flock. The cause names the bundle; SV.R takes a free
value, the model's own choice (log entry 33). A request to pre-empt a team that is not Frozen and has none makes C_PREEMPT
due; the shadow context has none. The watchdog of a context makes 0x5A due. -/
def Obligations.TrapsAsked : Prop :=
  (∀ (i : Instr) (b : Bundle) (code : BitVec 7) (s : State) (c0 : Ctx), s.Issues c0 i b → s.Reaches c0 b →
      s.Fails c0.land b code → (∀ k < code, ¬s.Fails c0.land b k) →
      (code = 0x07 → ∀ m ∈ b.moves, m.isTrig = true → ¬(17 ≤ m.dunit ∧ m.dunit ≤ 19)) →
      c0.shadow = false → c0.inh = false → c0.tvec &&& ~~~1 ≠ 0 →
      ∃ t c', exec i s = .next t ∧ t.ctx s.cur = some c' ∧ t.mem = s.mem ∧
        c0.Trapped c' { DueTrap.of code b.pc (BitVec.ofNat 64 c0.sched) with pc := some b.pc } code 0 0 ∧
        c'.pc = c0.tvec &&& ~~~1 ∧ c'.inh = true ∧ c'.frame = some c0.us ∧ c'.us = UnitState.fresh ∧
        (code ≠ 0x02 → c'.emu0 = c0.emu0 ∧ c'.emu1 = c0.emu1 ∧ c'.emu2 = c0.emu2 ∧ c'.emu3 = c0.emu3) ∧
        (∀ m : Move, code = 0x02 → b.moves.find? (fun x => x.isTrig && !opDefined x.dunit x.dsel) = some m →
          c'.emu0 = BitVec.ofNat 64 (b.header.toNat * 2 ^ 32 + if b.isExt then b.ext.toNat else 0) ∧
          c'.emu1 = BitVec.ofNat 64 (m.slot * 2 ^ 32 + m.word.toNat) ∧
          c'.emu2 = BitVec.ofNat 64 (if b.hasLimm then b.limm.toNat else 0) ∧ c'.emu3 = b.next)) ∧
    (∀ (s : State) (c : Ctx) (code : BitVec 7) (a : Nat),
      let d := s.dropConns
      let u : State := { d with bgTurn := true }
      let x := u.approach
      let y := x.1.fetched x.1.cur c
      s.agenda = [] → d.dueEvent = none → (s.bgTurn = true → d.bgEvent = none) → u.mayIssue = true → x.2 = false →
      x.1.ctx x.1.cur = some c → x.1.fetch x.1.cur c = .error (code, a) → c.nextDue = none → y.breaks y.cur c = false →
      c.shadow = false → y.cur.slot < 64 → code = 0x20 ∨ code = 0x21 →
      ∃ (t : State) (c' : Ctx), step s = .next t.resched ∧ t.ctx y.cur = some c' ∧ t.mem = y.mem ∧ c'.frozen = true ∧
        c.Trapped c' (fetchTrap (code, a)) (if c.inh then 0x0F else code) (if c.inh then code else 0) 1 ∧
        c'.trapPc = c.pc &&& ~~~1 ∧ (c.inh = false → c'.faultAddr = BitVec.ofNat 64 a) ∧ c'.faultBundle = c.faultBundle ∧
        c'.faultCycle = c.faultCycle ∧ c'.faultLanes = c.faultLanes ∧ c'.pc = c.pc ∧ c'.us = c.us) ∧
    (∀ (s : State) (die asid pc n i : Nat) (user : Bool), i < n →
      let byte := fun j => s.translate die asid (BitVec.ofNat 64 (pc + j)) .fetch user
      let fine := fun j => ∃ t, byte j = .ok t
      (byte i = .error 0x20 → (∀ j < i, fine j ∨ byte j = .error 0x21) →
        s.fetchBytes die asid user pc n = .error (0x20, pc + i)) ∧
      (byte i = .error 0x21 → (∀ j < i, fine j) → (∀ j, i < j → j < n → fine j ∨ byte j = .error 0x21) →
        s.fetchBytes die asid user pc n = .error (0x21, pc + i))) ∧
  (∀ (m : MoveF) (s : State) (c0 : Ctx),
      let free := fun (w : W32) (t : State) (c' : Ctx) => c'.g = c0.g ∧ t.mem = s.mem ∧ t.free = s.free + 1 ∧
        c'.wait = .ready ∧ c0.RFilled c' U.sv (c0.rowMask w) (fun _ => Config.freeValue s.free)
      let w := syllable true U.sv 3 0x10 m
      let w2 := syllable true U.sv 3 0x13 m
      (s.Fires c0 w →
        let v : BitVec 7 := (c0.rowT s w).truncate 7
        TrigRuns (.svTrap m) s c0 (fun t c' => free w t c' ∧ ∃ d ∈ c'.due, d.own = true ∧
          d.addr = some ((c0.land.us.unit U.sv).a.at 0) ∧ d.bundle = some (c0.pc, BitVec.ofNat 64 c0.sched) ∧
          (0x1C ≤ v ∧ v ≤ 0x1F → d.code = v ∧ d.sub = 0) ∧ (¬(0x1C ≤ v ∧ v ≤ 0x1F) → d.code = 0 ∧ d.sub = v))) ∧
      (s.Fires c0 w2 → TrigRuns (.svBrk m) s c0 (fun t c' => free w2 t c' ∧ ∃ d ∈ c'.due, d.own = true ∧
        d.code = (if c0.conf then 0x58 else 0x0A) ∧ d.bundle = some (c0.pc, BitVec.ofNat 64 c0.sched)))) ∧
    (∀ (id : CtxId) (s : State) (x : Ctx), s.ctx id = some x →
      (x.shadow = false → x.frozen = false → (∀ d ∈ x.due, d.code ≠ 0x3B) →
        exec (.preemptRequest id) s = .next (s.setCtx id { x with due := x.due ++ [DueTrap.async 0x3B] })) ∧
      (x.shadow = true → ∃ t, exec (.preemptRequest id) s = .next t ∧ t.ctx id = some x) ∧
      (x.frozen = false → x.stopped = false →
        exec (.watchdogExpiry id) s = .next (s.setCtx id { x with due := x.due ++ [DueTrap.async 0x5A] })))

/-- R356, R357, R359, R375, R376, R381, R398. When a write that clears TSTATUS.INH completes in a context with a frame, the
frame becomes the unit state, PC takes TRAP_PC and TSTATUS the new value; g, s and k registers, live lanes and the other
trap registers stay. For the shadow context, with nothing before the bundle and a guard that holds on a lane, eret of T:
reserved bits set end in a C_CSRACCESS token; with no Frozen team in the slot C_ERETSTATE is due, SV.R taking a free value
by the model's own choice (log entry 33); with REPLAY set it is an operation in flight. Otherwise SV.R takes 0 and the team,
whose image fits and which waits for nothing shared, goes on at TRAP_PC with its own unit state, or under REFLECT, with INH
0 and a handler, enters its handler with ORIGIN 3, its corners being the model's own choice (log entry 43); a team whose
image does not fit takes C_CTXFMT and stays Frozen, with a free value for the address of an image that stands in no memory
(log entry 73). On a team that C_CONFIDENTIAL froze it is a C_CSRACCESS token, the model's own choice (log entry 61). While
Lumen is up the control node resumes a Frozen team alike, ends a flock, reads and writes the words of a Frozen team's image
outside a confidential flock, asks a team to freeze, asks for the save of its gang and for a restore; what it is answered is
the model's own choice (log entry 74). -/
def Obligations.ReturnsAndResumption : Prop :=
  (∀ (id : CtxId) (s : State) (x : Ctx) (o : VarOp) (f : UnitState), s.ctx id = some x →
      x.csrOps.find? (fun o => bits (o.tv x.nlanes).toNat 11 0 == 0x01B && o.opcode != 0) = some o → x.inh = true →
      x.frame = some f →
      let new := (CsrOp.ofOpcode o.opcode).apply x.tstatus o.av (rwMask 0x01B 0) 0
      new.getLsbD 8 = false →
      ∃ c', exec (.handlerReturn id) s = .next (s.setCtx id c') ∧ c'.pc = x.trapPc ∧ c'.frame = none ∧ c'.tstatus = new ∧
        c'.ops = x.ops.filter (fun y => y.uid != o.uid) ∧ (∀ u, u ≠ o.unit → c'.us.unit u = f.unit u) ∧
        c'.us.pend = f.pend ∧ ((∀ kv ∈ f.owners, kv.2 ≠ o.uid) → c'.us.flags = f.flags) ∧ c'.g = x.g ∧ c'.s = x.s ∧
        c'.k = x.k ∧ c'.live = x.live ∧ c'.cause = x.cause ∧ c'.trapPc = x.trapPc ∧ c'.faultAddr = x.faultAddr) ∧
    (∀ (m : MoveF) (s : State) (c0 : Ctx), let w := syllable true U.sv 3 0x11 m
      s.Fires c0 w → s.cur.slot = CtxId.shadowSlot →
      let v := c0.rowT s w
      let target : CtxId := { fold := s.cur.fold, slot := bits v.toNat 4 0 }
      let clean := bits v.toNat 63 10 = 0 ∧ bits v.toNat 7 5 = 0
      (¬clean → AnswersToken (.svEret m) s c0 U.sv w 0x0D) ∧
      (clean → (∀ x, s.ctx target = some x → x.frozen = false) → RowFree (.svEret m) s c0 w (fun d => d.code = 0x1B)) ∧
      (∀ x, clean → s.ctx target = some x → x.frozen = true →
        (x.shielded = true → AnswersToken (.svEret m) s c0 U.sv w 0x0D) ∧
        (x.shielded = false → v.getLsbD 9 = true → RowPending (.svEret m) s c0 U.sv (fun _ o => o.opcode = 0x11 ∧
          o.vals = none ∧
          o.tv c0.nlanes = v)) ∧
        (x.shielded = false → v.getLsbD 9 = false → v.getLsbD 8 = false → s.Fit x →
          Answers (.svEret m) s c0 U.sv w 0 (fun t => ∃ y, t.ctx target = some y ∧ y.frozen = false ∧ y.pc = x.trapPc ∧
            y.us = x.us ∧ y.frame = x.frame ∧ y.g = x.g ∧ y.s = x.s ∧ y.k = x.k ∧ y.tstatus = x.tstatus ∧
            y.brkSkip = true ∧ y.wait = .ready)) ∧
        (x.shielded = false → v.getLsbD 9 = false → v.getLsbD 8 = true → s.Fit x → x.inh = false → x.tvec &&& ~~~1 ≠ 0 →
          Answers (.svEret m) s c0 U.sv w 0 (fun t => ∃ y, t.ctx target = some y ∧ y.frozen = false ∧
            y.pc = x.tvec &&& ~~~1 ∧ y.frame = some x.us ∧ y.us = UnitState.fresh ∧ y.inh = true ∧ y.g = x.g ∧
            y.trapPc = x.trapPc &&& ~~~1 ∧ y.cause = (x.cause.truncate 7 : BitVec 7).zeroExtend 64 ∧
            bits y.tstatus.toNat 31 30 = 3)) ∧
        (∀ g, x.shielded = false → v.getLsbD 9 = false → s.gang x.gang = some g → x.misfit g = true → x.shadow = false →
          Answers (.svEret m) s c0 U.sv w 0 (fun t => ∃ y, t.ctx target = some y ∧ y.frozen = true ∧ y.cause = 0x0E ∧
            y.faultAddr = Config.freeValue s.free ∧ y.us = x.us ∧ y.g = x.g)))) ∧
    (∀ (id : CtxId) (s : State) (x : Ctx), s.ctx id = some x → x.shadow = false →
      (s.pkg.lumenUp = true → x.frozen = true → s.Fit x → exec (.ctrlResumeTeam id .resume) s = .next (s.setCtx id x.resume)) ∧
      (s.pkg.lumenUp = true → x.frozen = false → exec (.ctrlResumeTeam id .resume) s = .next s) ∧
      (s.pkg.lumenUp = true → exec (.ctrlResumeTeam id .endFlock) s = exec (.flockAbort x.flock) s) ∧
      (∀ n v, s.pkg.lumenUp = true → (x.frozen = false ∨ x.conf = true ∨ (imageBytes (s.imageNow x).1).length < 8 * n + 8) →
        exec (.ctrlResumeTeam id (.read n)) s = .next (s.respond none) ∧
        exec (.ctrlResumeTeam id (.write n v)) s = .next (s.respond none)) ∧
      (∀ n v, s.pkg.lumenUp = true → x.frozen = true → x.conf = false → 8 * n + 8 ≤ (imageBytes (s.imageNow x).1).length →
        let (ps, s1) := s.imageNow x
        let old := some (getWord (imageBytes ps) (8 * n))
        exec (.ctrlResumeTeam id (.read n)) s = .next (s1.respond old) ∧
        exec (.ctrlResumeTeam id (.write n v)) s = .next ((s1.setCtx id (patchImage x (word8 v) (8 * n) ps)).respond old)) ∧
      (s.pkg.lumenUp = true → x.frozen = false → (∀ d ∈ x.due, d.code ≠ 0x3B) →
        exec (.ctrlResumeTeam id .freeze) s = .next (s.setCtx id { x with due := x.due ++ [DueTrap.async 0x3B] })) ∧
      (s.pkg.lumenUp = true → x.frozen = false → ∃ t y, exec (.ctrlResumeTeam id .save) s = .next t ∧ t.ctx id = some y ∧
        (∃ d ∈ y.due, d.code = 0x3B) ∧
        ∀ g, s.gang x.gang = some g → t.gang x.gang = some { g with saving := true, asked := g.asked ++ [id] }) ∧
      (∀ a, s.pkg.lumenUp = true → ∃ t, exec (.ctrlResumeTeam id (.restore a)) s = .next t ∧
        (t.die (dieOf id.fold)).restores = (s.die (dieOf id.fold)).restores ++ [a] ∧
        t.pkg.out = s.pkg.out ++ [.response (some 0)]) ∧
      (∀ e, s.pkg.lumenUp = false → exec (.ctrlResumeTeam id e) s = .next s))

/-- R363, R374, R387, R388, R389, R391, R395, R396. With nothing before the bundle and a guard that holds on a lane: replay
is one operation in flight; where its code, T bits 4:0, names no record, or an empty store fault buffer, it completes with
all ones (log entry 42). snap of a scope up to 3 asks every fold of the instance for a latch with its tag and the tick of
its issue, and is in flight until none of its requests is left, when SV.R takes the SNAP_SEQ that the fold's latch gave it,
or the fold's own (log entry 45); any other T is a C_CSRACCESS token. At B + 16 a fold latches: SNAP_SEQ rises by 1,
SNAP_TAG, SNAP_TB, SNAP_STALL and SNAP_MXC are set and every request of that tick ends. With a period set, each cycle whose
number it divides makes a sample, under FLT only of the flock named or of no team. The samples made leave in their order,
with the trace on as records of their cycles when their teams are in clear, or they are lost and marked so while the channel
is busy or down. A stop request is due at every team it names that has none, Frozen or not. Clearing leaves the engine's
table and overflow bucket empty. -/
def Obligations.ReplaysSnapshotsAndStops : Prop :=
  (∀ (m : MoveF) (s : State) (c0 : Ctx), let w := syllable true U.sv 3 0x12 m
      s.Fires c0 w → OpStarts (.svReplay m) w s c0 (fun o => o.vals = none ∧ o.tv c0.nlanes = c0.rowT s w)) ∧
    (∀ (id : CtxId) (s : State) (c : Ctx) (o : VarOp), s.ctx id = some c → c.ops = [o] → o.unit = U.sv →
      (c.us.unit U.sv).last = o.uid → (c.us.unit U.sv).full = false →
      let code := bits (o.tv c.nlanes).toNat 4 0
      (o.opcode = 0x12 → o.vals = none → ((code = 0x1F ∧ c.sfb = []) ∨ (code ≠ 0x1F ∧ code ≠ U.cp ∧
          (((if c.inh then c.frame.getD UnitState.fresh else c.us).unit code).frec = none))) →
        OpDone (.svOpComplete id) s id c o (fun t c' => t.mem = s.mem ∧
          c.RFilled c' U.sv (o.mask &&& c.live) (fun _ => BitVec.allOnes 64))) ∧
      (o.opcode = 0x20 → (∀ kv ∈ s.folds, ∀ r ∈ kv.2.snapReq, r.2 ≠ (o.addr.toNat, id.fold, id.slot)) →
        OpDone (.svOpComplete id) s id c o (fun t c' => t.mem = s.mem ∧
          c.RFilled c' U.sv (o.mask &&& c.live) (fun _ => match o.vals with
            | some v => v.at 0
            | none => BitVec.ofNat 64 (s.fold id.fold).snapSeq)))) ∧
    (∀ (m : MoveF) (s : State) (c0 : Ctx), let w := syllable true U.sv 3 0x20 m
      s.Fires c0 w →
      let v := (c0.rowT s w).toNat
      (3 < v → AnswersToken (.svSnap m) s c0 U.sv w 0x0D) ∧
      (v ≤ 3 → s.foldList.Pairwise (· < ·) → s.cur.fold ∈ s.foldList →
        RowPending (.svSnap m) s c0 U.sv (fun t o => o.opcode = 0x20 ∧
        o.addr = BitVec.ofNat 64 s.ticks ∧
        (∀ f ∈ s.snapFolds v s.cur.fold, (t.fold f).snapReq = (s.fold f).snapReq ++
          [((c0.land.us.unit U.sv).a.at 0, s.ticks, s.cur.fold, s.cur.slot)]) ∧
        ∀ f, f ∉ s.snapFolds v s.cur.fold → (t.fold f).snapReq = (s.fold f).snapReq))) ∧
    (∀ (fold : Nat) (s : State) (r : W64 × Nat × Nat × Nat), r ∈ (s.fold fold).snapReq →
      (∀ x ∈ (s.fold fold).snapReq, r.2.1 ≤ x.2.1) →
      (s.ticks < r.2.1 + 16 → exec (.snapshotLatch fold) s = .next s) ∧
      (r.2.1 + 16 ≤ s.ticks → ∃ t, exec (.snapshotLatch fold) s = .next t ∧ t.mem = s.mem ∧
        (t.fold fold).snapSeq = ((s.fold fold).snapSeq + 1) % 2 ^ 48 ∧ (t.fold fold).snapTb = (r.2.1 + 16) % 2 ^ 48 ∧
        (t.fold fold).snapStall = (s.fold fold).stallFold ∧ (t.fold fold).snapMxc = (s.fold fold).mxcTotals ∧
        (t.fold fold).snapReq = (s.fold fold).snapReq.filter (fun x => x.2.1 != r.2.1) ∧
        ((∀ x ∈ (s.fold fold).snapReq, x.2.1 = r.2.1 → x = r ∨ 64 * r.2.2.1 + r.2.2.2 < 64 * x.2.2.1 + x.2.2.2) →
          (t.fold fold).snapTag = r.1))) ∧
    (∀ (f : Fold) (held : Bool) (x : Sample),
      (sampPeriod f.sampCtl = none → (f.tick held x).samples = f.samples) ∧
      (∀ p, sampPeriod f.sampCtl = some p → (f.tick held x).samples =
        if (f.cycle + 1) % p = 0 ∧ (f.sampCtl.getLsbD 1 = false ∨ x.slot = 33 ∨ x.flock = f.sampCtl.extractLsb' 32 32)
          then f.samples ++ [x] else f.samples)) ∧
    (∀ (fold : Nat) (s : State), let f := s.fold fold
      (f.samples = [] → exec (.sampleRecord fold) s = .next s) ∧
      (∀ x r, f.samples = x :: r → (∀ y ∈ f.samples, y.slot ≠ 33) → ∃ t, exec (.sampleRecord fold) s = .next t ∧ t.mem = s.mem ∧
        t.ctxs = s.ctxs ∧ (t.fold fold).samples = [] ∧
        let on := (s.die (dieOf fold)).traceCtl.getLsbD 0 = true ∧ (s.die (dieOf fold)).traceCtl.getLsbD 2 = true
        let rec_ := fun (lost : Bool) (y : Sample) =>
          Out.trace (recordBytes 1 lost false fold y.slot y.idx y.pc y.sched y.flock y.tb)
        (on → s.pkg.lumenUp = true → s.pkg.traceBusy = false → (∀ y ∈ f.samples, y.conf = false) →
          t.pkg.out = s.pkg.out ++ rec_ f.recordLost x :: r.map (rec_ false)) ∧
        (on → (s.pkg.lumenUp = false ∨ s.pkg.traceBusy = true) → t.pkg = s.pkg ∧
          (t.fold fold).recordLost = true ∧ (t.die (dieOf fold)).traceCtl = (s.die (dieOf fold)).traceCtl ||| 0x10) ∧
        (¬on → t.pkg = s.pkg))) ∧
    (∀ (fold : Nat) (v : W64) (s : State), ∃ t, exec (.stopRequest fold v) s = .next t ∧ t.mem = s.mem ∧
      (t.fold fold).stopCtl = ((s.fold fold).stopCtl &&& ~~~0xFFFFFFFF00001F38) ||| (v &&& 0xFFFFFFFF00001F38) ∧
      ∀ (id : CtxId) (x : Ctx), (s.ctxs.map Prod.fst).Pairwise (· < ·) → id.fold = fold → id.slot < 64 →
        s.ctx id = some x → x.shadow = false →
        let named := (bits v.toNat 5 4 = 0 ∧ id.slot = bits v.toNat 12 8) ∨ bits v.toNat 5 4 = 1 ∨ bits v.toNat 5 4 = 3 ∨
          (bits v.toNat 5 4 = 2 ∧ x.flock.toNat = bits v.toNat 63 32)
        (v.getLsbD 0 = true → named → (∀ d ∈ x.due, d.code ≠ 0x0C) →
          t.ctx id = some { x with due := x.due ++ [DueTrap.async 0x0C] }) ∧
        ((v.getLsbD 0 = false ∨ ¬named) → t.ctx id = some x)) ∧
    (∀ (fold : Nat) (s : State), ∃ t, exec (.mxcCtlClr fold) s = .next t ∧ (t.fold fold).mxc = [] ∧
      (t.fold fold).mxcOvf = [] ∧ t.mem = s.mem ∧ t.ctxs = s.ctxs ∧ ∀ f, f ≠ fold → t.fold f = s.fold f)

/-- R98, R358, R375, R376, R377, R379, R381, R382, R398. For the shadow context, with nothing before the bundle and a guard
that holds on a lane; T holds OP, SLOT and ITEM. NEXTEV, FREEZE and SAVE are operations in flight; FREEZE asks its team to
freeze, SAVE marks its gang as saving and asks its teams. READ and WRITE of a Frozen team outside a confidential flock
answer with the word of the image that the team would save, whose reading walks nothing new here, WRITE leaving the team as
its image with that word replaced; RESTORE adds its address to the die's requests and answers 0; KILL aborts the flock's
gangs, its teams being gone or, while stores they have queued are not performed, exiting (log entry 56), and answers 0, or
is a C_CSRACCESS token where C_CONFIDENTIAL has frozen one of them (the model's own choice, log entry 61). OP 7 to 15, a
slot with no team, and READ or WRITE of another team end in a C_CSRACCESS token. NEXTEV completes with the oldest event,
which leaves the queue, and FREEZE with 0 once its team is Frozen. A READ or WRITE past the image is not covered (log entry
33). -/
def Obligations.ContextOperations : Prop :=
  (∀ (i : MoveF → Instr) (m : MoveF) (s : State) (c0 : Ctx), i ∈ ctxRows → let w := syllable true U.sv 3 0x30 m
      s.Fires c0 w → s.cur.slot = CtxId.shadowSlot → c0.shadow = true →
      let v := (c0.rowT s w).toNat
      let a := (c0.land.us.unit U.sv).a.at 0
      let op := bits v 31 28
      let target : CtxId := { fold := s.cur.fold, slot := bits v 27 23 }
      let item := bits v 22 0
      (op = 0 → OpStarts (i m) w s c0 (fun o => o.vals = none ∧ o.tv c0.nlanes = c0.rowT s w)) ∧
      (op = 5 → Answers (i m) s c0 U.sv w 0 (fun t => (t.die (dieOf s.cur.fold)).restores =
        (s.die (dieOf s.cur.fold)).restores ++ [a])) ∧
      (7 ≤ op → AnswersToken (i m) s c0 U.sv w 0x0D) ∧
      (op ≠ 0 → op ≠ 5 → s.ctx target = none → AnswersToken (i m) s c0 U.sv w 0x0D) ∧
      (∀ x, s.ctx target = some x →
        (op = 1 ∨ op = 2 → (x.frozen = false ∨ x.conf = true) → AnswersToken (i m) s c0 U.sv w 0x0D) ∧
        (∀ ps, s.imageNow x = (ps, s) → x.frozen = true → x.conf = false → 8 * item + 8 ≤ (imageBytes ps).length →
          (op = 1 → Answers (i m) s c0 U.sv w (getWord (imageBytes ps) (8 * item)) (fun t =>
            (t.ctx target).map Ctx.still = some x.still)) ∧
          (op = 2 → Answers (i m) s c0 U.sv w (getWord (imageBytes ps) (8 * item)) (fun t =>
            (t.ctx target).map Ctx.still = some (patchImage x (word8 a) (8 * item) ps).still))) ∧
        (op = 3 → RowPending (i m) s c0 U.sv (fun t o => o.opcode = 0x30 ∧ o.addr = BitVec.ofNat 64 x.tid ∧
          (t.ctx target).map Ctx.still = some (if x.frozen = true ∨ (∃ d ∈ x.due, d.code = 0x3B) then x.still
            else { x.still with due := x.due ++ [DueTrap.async 0x3B] }))) ∧
        (op = 4 → x.shadow = false → RowPending (i m) s c0 U.sv (fun t o => o.opcode = 0x30 ∧
          (∀ g, s.gang x.gang = some g → (t.gang x.gang).map Gang.saving = some true) ∧
          (x.frozen = false → ∃ y, t.ctx target = some y ∧ ∃ d ∈ y.due, d.code = 0x3B))) ∧
        let held := s.ctxs.any (fun kv => kv.2.flock == x.flock && !kv.2.shadow && kv.2.shielded)
        (op = 6 → held = true → AnswersToken (i m) s c0 U.sv w 0x0D) ∧
        (op = 6 → held = false → x.shadow = false → (s.ctxs.map Prod.fst).Pairwise (· < ·) →
          TrigRuns (i m) s c0 (fun t c' => c'.g = c0.g ∧ c0.RFilled c' U.sv (c0.rowMask w) (fun _ => 0) ∧
            (t.ctx target = none ∨ ∃ y, t.ctx target = some y ∧ y.wait = .exiting) ∧
            ∀ k g, s.gang k = some g → g.flock = x.flock → (t.gang k).map Gang.aborted = some true)))) ∧
    (∀ (id : CtxId) (s : State) (c : Ctx) (o : VarOp), s.ctx id = some c → c.ops = [o] → o.unit = U.sv → o.opcode = 0x30 →
      (c.us.unit U.sv).last = o.uid → (c.us.unit U.sv).full = false →
      let v := (o.tv c.nlanes).toNat
      (∀ e r, bits v 31 28 = 0 → (s.fold id.fold).events = e :: r →
        OpDone (.svOpComplete id) s id c o (fun t c' => t.mem = s.mem ∧ (t.fold id.fold).events = r ∧
          c.RFilled c' U.sv (o.mask &&& c.live) (fun _ => e))) ∧
      (∀ x, bits v 31 28 = 3 → s.ctx { fold := id.fold, slot := bits v 27 23 } = some x → x.tid = o.addr.toNat →
        x.frozen = true → OpDone (.svOpComplete id) s id c o (fun t c' => t.mem = s.mem ∧
          c.RFilled c' U.sv (o.mask &&& c.live) (fun _ => 0))))

/-- R164, R165, R166, R167, R168, R169, R170, R171, R172, R197. QNOTIFY of an enabled queue reads its write index, or marks
the queue and posts C_QUEUEFAULT; of a disabled one it does nothing. While the Shepherd acts, enabling checks the entry: one
that fails stays disabled with a C_LAUNCH notice of address 0 (the model's own choice: log entry 85), another reads both
indices from its pointers, or marks the queue and posts C_QUEUEFAULT; a PRIO above 7 acts as 7 (log entry 36). Disabling
clears ENABLE. The packet that the Shepherd has chosen starts under its number with its bytes, the read index moves on and
LAUNCH and LOOP take a flock number; a malformed packet has LAUNCH_BADPKT (log entry 86 for WCOND and GANGS), NOP and SIGNAL
complete, LAUNCH and LOOP with readable blocks place gangs, fail with LAUNCH_NOFIT where no fold could hold one, or with
LAUNCH_BADBLOCK or LAUNCH_BADLOOP. A watching WAITVAL completes when its condition holds, keeps watching otherwise and posts
C_WAITFAULT on a fault. A finished packet leaves, its signal record is stored or C_SIGFAULT is posted. -/
def Obligations.QueuesAndPackets : Prop :=
  (∀ (d q : Nat) (s : State), let x := s.queue d q
      let s1 := s.setQueue d q { x with stuck := false }
      (x.enabled = false → exec (.qnotify d q) s = .next s) ∧
      (∀ b s2, s.shepherdOn d = true → x.enabled = true → x.needRidx = false →
        s1.readVirt d (queueAsid d q) true x.ent2.toNat 8 = .ok (b, s2) →
        ∃ t, exec (.qnotify d q) s = .next t ∧ t.queue d q = { x with stuck := false, widx := natOf b }) ∧
      (∀ k a s2, s.shepherdOn d = true → x.enabled = true → x.needRidx = false →
        s1.readVirt d (queueAsid d q) true x.ent2.toNat 8 = .error (k, a, s2) →
        ∃ t, exec (.qnotify d q) s = .next t ∧ t.queue d q = { x with stuck := true } ∧
          s2.Noticed t 0x42 0 (BitVec.ofNat 64 a))) ∧
    (∀ (d q : Nat) (v : W64) (s : State), v.getLsbD 16 = true → s.shepherdOn d = true → let x := s.queue d q
      let ok := 1 ≤ bits v.toNat 7 0 ∧ bits v.toNat 7 0 ≤ 16 ∧ x.ent0.toNat % 64 = 0 ∧ x.ent2.toNat % 8 = 0 ∧
        x.ent3.toNat % 8 = 0
      (x.enabled = true → exec (.queueEnable d q v) s = .next s) ∧
      (x.enabled = false → ¬ok → ∃ t, exec (.queueEnable d q v) s = .next t ∧ (t.queue d q).ent1 = v &&& 0xFFFF ∧
        s.Noticed t 0x3D 0 0) ∧
      (x.enabled = false → ok → ∃ t, exec (.queueEnable d q v) s = .next t ∧ (t.queue d q).ent1 = v &&& 0x1FFFF ∧
        (t.queue d q).effPrio = min 7 (bits v.toNat 15 8) ∧ (t.queue d q).passOver = 0 ∧
        (t.queue d q).ent0 = x.ent0) ∧
      (x.enabled = false → ok →
        let y := { x with ent1 := v &&& 0x1FFFF, needRidx := true, effPrio := min 7 (bits v.toNat 15 8), passOver := 0,
                          stuck := false }
        let asid := queueAsid d q
        (∀ b2 s2 b3 s3, (s.setQueue d q y).readVirt d asid true x.ent3.toNat 8 = .ok (b2, s2) →
          let z := { y with needRidx := false, ridx := natOf b2 }
          (s2.setQueue d q z).readVirt d asid true x.ent2.toNat 8 = .ok (b3, s3) →
          ∃ t, exec (.queueEnable d q v) s = .next t ∧ t.queue d q = { z with widx := natOf b3 }) ∧
        (∀ k a s2, (s.setQueue d q y).readVirt d asid true x.ent3.toNat 8 = .error (k, a, s2) →
          ∃ t, exec (.queueEnable d q v) s = .next t ∧ t.queue d q = { y with stuck := true } ∧
            s2.Noticed t 0x42 0 (BitVec.ofNat 64 a)))) ∧
    (∀ (d q : Nat) (v : W64) (s : State), s.shepherdOn d = false → exec (.queueEnable d q v) s = .next s ∧
      exec (.queueDisable d q) s = .next s ∧ exec (.qnotify d q) s = .next s) ∧
    (∀ (d q : Nat) (s : State), (s.shepherdOn d = true → (s.queue d q).enabled = true →
      ∃ t, exec (.queueDisable d q) s = .next t ∧
        t.queue d q = { s.queue d q with ent1 := (s.queue d q).ent1 &&& 0xFFFF } ∧ t.mem = s.mem ∧ t.ctxs = s.ctxs) ∧
      ((s.queue d q).enabled = false → exec (.queueDisable d q) s = .next s)) ∧
    (∀ (i : Nat → Nat → Instr) (ty d q : Nat) (s s1 : State) (b : List Byte), (i, ty) ∈ pktRows → s.chosen d = some q →
      s.headPacket d q = .ok (b, s1) → pktType b = ty →
      ∃ t p, exec (i d q) s = .next t ∧ p ∈ (t.die d).packets ∧ p.q = q ∧ p.idx = (s.queue d q).ridx ∧ p.bytes = b ∧
        (t.queue d q).ridx = (s.queue d q).ridx + 1 ∧
        ((ty = 1 ∨ ty = 2) → p.flock = BitVec.ofNat 32 (d * 2 ^ 30 + (s.die d).flockCtr % 2 ^ 30) ∧
          (t.die d).flockCtr = ((s.die d).flockCtr + 1) % 2 ^ 30) ∧
        (pktOk b = false → p.status = 2 ∧ p.st = .completing) ∧
        (pktOk b = true → ty = 0 ∨ ty = 3 → p.status = 0 ∧ p.st = .completing)) ∧
    (∀ (i : Nat → Nat → Instr) (ty d q : Nat) (s s1 : State) (p : Packet), (i, ty) ∈ pktRows → ty = 1 ∨ ty = 2 →
      s.beginPacket d q (· == ty) = some (s1, some p) → pktOk p.bytes = true →
      (∀ s2, s1.readLaunch d q (field p.bytes 8 8) = .error s2 → ∃ t, exec (i d q) s = .next t ∧
        (t.die d).packets = (s2.die d).packets ++ [{ p with status := 3, st := .completing }]) ∧
      (∀ b s2, s1.readLaunch d q (field p.bytes 8 8) = .ok (b, s2) → p.gangs ≠ 0 →
        let places := fun (s3 : State) (lr : Option LoopRec) => ∃ t, exec (i d q) s = .next t ∧
          (t.die d).packets = (s3.die d).packets ++ [if s3.couldFit d b (queueAsid d q)
            then { p with block := some b, loop := lr, status := 0, st := .placing }
            else { p with status := 1, st := .completing }]
        (ty = 1 → places s2 none) ∧
        (∀ e, ty = 2 → s2.readVirt d (queueAsid d q) true (field p.bytes 40 8) 64 = .error e → ∃ t,
          exec (i d q) s = .next t ∧ (t.die d).packets = (e.2.2.die d).packets ++ [{ p with status := 4, st := .completing }]) ∧
        (∀ r s3, ty = 2 → s2.readVirt d (queueAsid d q) true (field p.bytes 40 8) 64 = .ok (r, s3) →
          (∀ lr, parseLoop b r = some lr → places s3 (some lr)) ∧
          (parseLoop b r = none → ∃ t, exec (i d q) s = .next t ∧
            (t.die d).packets = (s3.die d).packets ++ [{ p with status := 4, st := .completing }])))) ∧
    (∀ (d q : Nat) (s : State) (p : Packet), (s.die d).packets = [p] → p.q = q → p.st = .watching →
      let word := s.readVirt d (queueAsid d q) true (field p.bytes 8 8) 8
      (∀ b s1, word = .ok (b, s1) → ∃ t, exec (.waitvalRecheck d q) s = .next t ∧ (t.die d).packets =
        [{ p with st := if p.waitHolds (BitVec.ofNat 64 (natOf b)) then .completing else .watching }]) ∧
      (∀ k a s2, word = .error (k, a, s2) → ∃ t, exec (.waitvalRecheck d q) s = .next t ∧ (t.die d).packets = [p] ∧
        s2.Noticed t 0x44 0 (BitVec.ofNat 64 a))) ∧
    (∀ (d q n : Nat) (s : State), (∀ p ∈ (s.die d).packets, p.q = q → p.idx = n → s.packetDone p = false) →
      exec (.packetComplete d q n) s = .next s) ∧
    (∀ (d q n : Nat) (s : State) (p : Packet),
      (s.die d).packets.find? (fun p => p.q == q && p.idx == n && s.packetDone p) = some p →
      let s1 := s.modDie d (fun x => { x with packets := x.packets.filter (fun y => y.num != p.num) })
      let stored := s1.writeVirt d (queueAsid d q) true p.sigAddr
        (bytesOf 8 (field p.bytes 56 8) ++ bytesOf 4 p.status ++ bytesOf 4 0)
      ((p.sigAddr = 0 ∨ p.sigAddr % 16 ≠ 0) → exec (.packetComplete d q n) s = .next s1) ∧
      (∀ s2, p.sigAddr ≠ 0 → p.sigAddr % 16 = 0 → stored = .ok s2 → exec (.packetComplete d q n) s = .next s2) ∧
      (∀ k a s2, p.sigAddr ≠ 0 → p.sigAddr % 16 = 0 → stored = .error (k, a, s2) →
        ∃ t, exec (.packetComplete d q n) s = .next t ∧ t.mem = s2.mem ∧ s2.Noticed t 0x43 0 (BitVec.ofNat 64 a)))

/-- R98, R172, R176, R177, R180, R182, R313, R358. A placing packet whose next gang fits: the gang takes the next number
on the fold that R176 chooses, with the packet's queue, flock and count, and every team of its block takes a free slot
of its fold with the PC, lanes, budget and s registers of R180, g and k registers 0, every lane live and fresh unit
state. A gang whose teams have exited and whose engine operations are done leaves and frees its landing counters;
another stays. Ending a flock aborts its gangs, removes its teams, or leaves them exiting while stores they have queued
are not performed (log entry 56), leaves other teams resident, and its placing and
running packets complete with LAUNCH_ABORTED. The gang numbers are the model's own; statements about every table
assume its canonical form. -/
def Obligations.GangsPlacedAndEnded : Prop :=
  (∀ (d q f : Nat) (s : State) (p : Packet) (b : Block), s.placingOf d q = some p → p.block = some b →
      s.placeFor d b (queueAsid d q) p.flock = some f →
      ∃ t g, exec (.gangPlace d q) s = .next t ∧ t.gang s.nextId = some g ∧ g.fold = f ∧ g.die = d ∧ g.queue = p.q ∧
        g.flock = p.flock ∧ g.gangIdx = p.placed ∧ g.asid = queueAsid d p.q ∧ g.block = b ∧
        g.hasEngine = b.needsEngine ∧ g.liveBase = b.liveAddr ∧ g.barriers = [] ∧ g.sectors = [] ∧
        ∀ j r i, b.teamList[j]? = some (r, i) → ∃ id c, t.ctx id = some c ∧
          id.fold = (if b.pair then f / 2 * 2 + i % 2 else f) ∧ id.slot < 32 ∧ s.ctx id = none ∧ c.gang = s.nextId ∧
          c.teamId = j ∧ c.role = r ∧ c.pc = (b.role r).entry ∧ c.nlanes = (b.role r).lanes ∧
          c.live = allLanes (b.role r).lanes ∧ c.budget = roundUp (b.role r).regs 8 ∧ c.g = [] ∧ c.k = [] ∧
          c.s = [(0, BitVec.ofNat 64 (field p.bytes 24 8)), (1, BitVec.ofNat 64 p.placed), (2, BitVec.ofNat 64 r),
            (3, BitVec.ofNat 64 i)] ∧
          c.us = UnitState.fresh ∧ c.tstatus = 0 ∧ c.sched = 0 ∧ c.wait = .ready ∧ c.frozen = false ∧ c.shadow = false) ∧
    (∀ (k : Nat) (s : State) (g : Gang), s.gang k = some g → s.tablesOk →
      (s.gangDone k g = false → exec (.gangEnd k) s = .next s) ∧
      (s.gangDone k g = true → ∃ t, exec (.gangEnd k) s = .next t ∧ t.gang k = none ∧
        (∀ j, j ≠ k → t.gang j = s.gang j) ∧
        ∀ kv ∈ (t.die g.die).landing, kv.2.gang = k → kv.2.bound = false)) ∧
    (∀ (flock : W32) (s : State), s.tablesOk → ∃ t, exec (.flockAbort flock) s = .next t ∧
      (∀ k g, s.gang k = some g → g.flock = flock → (t.gang k).map Gang.aborted = some true) ∧
      (∀ k g, s.gang k = some g → g.flock ≠ flock → (t.gang k).map Gang.aborted = some g.aborted) ∧
      (∀ id x, s.ctx id = some x → id.slot ≤ 32 → x.shadow = false → x.flock = flock →
        t.ctx id = none ∨ ∃ y, t.ctx id = some y ∧ y.wait = .exiting) ∧
      (∀ id x, s.ctx id = some x → id.slot ≤ 32 → (x.shadow = true ∨ x.flock ≠ flock) → (t.ctx id).isSome = true) ∧
      (∀ d, ∀ p ∈ (s.die d).packets, p.flock = flock → (p.st = .placing ∨ p.st = .running) →
        { p with st := .completing, status := 5 } ∈ (t.die d).packets))

/-- R195, R376, R379, R380, R381, R382. A fold that is not starved evicts nothing. On a starved fold the youngest team, by
its incarnation number, quiet and with room in its flock's SAVE area, leaves its slot with its image stored and is listed
for restore; where its flock has no SAVE area every waiting grow ends in C_REGSTARVE and leaves the grow queue, a Frozen
team's staying. An evicted team that fits a fold takes a slot and leaves the list; one whose image cannot be read is Frozen
with C_CTXXLATE (the youngest, quiet and the seat are the model's reading: log entry 38). A full save whose waits are over
and whose images fit removes the gang and its teams and lists its record under the image's address; one whose images do not
fit frees nothing and raises C_SAVEFULL at a team. A restore request that names no saved gang of the package posts C_CTXFMT
and ends, one whose image cannot be read C_RESTOREXLATE (log entry 37); one that fits places the gang on the fold and takes
it from the list of the die that saved it; one that does not fit waits. -/
def Obligations.TeamsAndGangsSaved : Prop :=
  (∀ (f : Nat) (s : State), s.tablesOk →
      (s.starved f = false → exec (.teamEvict f) s = .next s) ∧
      (∀ slot c g, s.starved f = true → youngest (s.awake f) = some (slot, c) → s.gang c.gang = some g →
        (g.save = 0 → ∃ t, exec (.teamEvict f) s = .next t ∧ t.mem = s.mem ∧
          (t.fold f).growQ = (s.fold f).growQ.filter (fun x => !(s.awake f).any (fun y => y.1 == x)) ∧
          ∀ x ∈ s.awake f, t.ctx { fold := f, slot := x.1 } = some x.2.regStarve) ∧
        (∀ a rest s2, g.save ≠ 0 → s.quiet { fold := f, slot := slot } c = true →
          (s.teamImage g c).2.writeImages g.die g.asid g.save [imageBytes (s.teamImage g c).1] = .ok (a :: rest, s2) →
          ∃ t, exec (.teamEvict f) s = .next t ∧ t.ctx { fold := f, slot := slot } = none ∧ t.mem = s2.mem ∧
            { gang := c.gang, ctx := c, half := g.block.teamHalf c.teamId, addr := a } ∈ (t.die g.die).evicted))) ∧
    (∀ (d : Nat) (s : State), ((∀ t ∈ (s.die d).evicted, s.seatFor t = none) → exec (.teamRestore d) s = .next s) ∧
      (∀ x g id, (s.die d).evicted.find? (fun t => (s.seatFor t).isSome) = some x → s.seatFor x = some (g, id) →
        ∃ t c, exec (.teamRestore d) s = .next t ∧ t.ctx id = some c ∧
          (t.die d).evicted = (s.die d).evicted.filter (fun y => y.ctx.tid != x.ctx.tid) ∧
          (let (live, s1) := s.liveAt g.die g.asid g.liveBase x.ctx.resumePc
            ∀ k a s2, x.ctx.shadow = false →
              s1.readVirt g.die g.asid true x.addr.toNat (partsLength (x.ctx.image live)) = .error (k, a, s2) →
              c.frozen = true ∧ c.cause = 0x31 ∧ c.faultAddr = BitVec.ofNat 64 a))) ∧
    (∀ (k : Nat) (s : State) (g : Gang), s.gang k = some g → s.tablesOk →
      (s.saveReady k g = false → exec (.gangSaveComplete k) s = .next s) ∧
      (let ts := s.teamsOf k
        let (imgs, s0) := ts.foldl (fun a x => (a.1 ++ [imageBytes (a.2.teamImage g x.2).1], (a.2.teamImage g x.2).2)) ([], s)
        let saved := s0.writeImages g.die g.asid g.save (imgs ++ [s0.gangImage k g])
        let block := fun (a : Nat) => g.block.scrLog2 ≠ 0 ∧ ∃ h ∈ g.halves,
          let b := Memory.spmKey (g.foldOf h.1) (Tbl.get g.base h.1 0)
          b ≤ a ∧ a < b + 2 ^ g.block.scrLog2
        (∀ a s1, s.saveReady k g = true → saved = .ok (a, s1) →
          ∃ t r, exec (.gangSaveComplete k) s = .next t ∧ t.gang k = none ∧ (∀ x ∈ ts, t.ctx x.1 = none) ∧
            (∀ a, ¬block a → Memory.read t.mem a = Memory.read s1.mem a) ∧ r ∈ (t.die g.die).saved ∧
              r.addr = a.getD ts.length 0 ∧
            r.teams.map SavedTeam.ctx = ts.map Prod.snd ∧ r.gang.block = g.block) ∧
        (∀ s1, s.saveReady k g = true → saved = .error (.full, s1) → ts ≠ [] → ∃ t, exec (.gangSaveComplete k) s = .next t ∧
          (t.gang k).map Gang.saving = some false ∧ (∀ x ∈ ts, (t.ctx x.1).isSome = true) ∧ t.mem = s1.mem))) ∧
    (∀ (d : Nat) (a : W64) (s : State),
      (a ∈ (s.die d).restores → s.savedAt d a = none → ∃ t, exec (.gangRestore d a) s = .next t ∧
        (t.die d).restores = (s.die d).restores.erase a ∧ s.Noticed t 0x0E 0 a ∧ t.mem = s.mem) ∧
      (¬(a ∈ (s.die d).restores ∧ s.savedAt d a = none) → s.restorable d a = none →
        exec (.gangRestore d a) s = .next s) ∧
      (∀ e x f, s.restorable d a = some (e, x, f) →
        let home := { x.gang with die := d, fold := f }
        (∀ k at_ s1, s.readVirt d home.asid true a.toNat home.imageSize = .error (k, at_, s1) →
          ∃ t, exec (.gangRestore d a) s = .next t ∧ (t.die d).restores = (s.die d).restores.erase a ∧
            s1.Noticed t 0x31 0 (BitVec.ofNat 64 at_) ∧ t.mem = s1.mem ∧ t.gangs = s.gangs) ∧
        (∀ bs s1, s.readVirt d home.asid true a.toNat home.imageSize = .ok (bs, s1) → ∃ t,
          exec (.gangRestore d a) s = .next t ∧
          (t.gang x.gid).map (fun g => (g.fold, g.die, g.block, g.flock)) = some (f, d, x.gang.block, x.gang.flock) ∧
          (t.die d).restores = (s1.die d).restores.erase a ∧
          (t.die e).saved = (s1.die e).saved.filter (fun y => y.addr != a))))

/-- R214, R215, R216, R221, R225, R226, R227, R306. An own request for bytes that lie in installed memory joins the
directory as its fold's entry, where its die's directory has room, and leaves no entry of another fold that touches the
bytes, and in no other fold's L1 a copy of a word that they touch, but for words of which that fold owns other bytes and
self-invalidating copies; lines recalled whole from other folds become line entries of the requester; a write request leaves
neither too; a read changes no directory and no L1; a request outside memory changes nothing. What a home's cache allocates
meanwhile is log entry 67. A sector that is not filled takes the 256 bytes of its global address and is filled and clean; a
filled one stays. A write to SMAP_Sn that meets a page whose writes are held, or an engine operation before it that has still
to read what it locks, waits. A binding that passes its checks stores the register and leaves the sectors of its range, and of
the map it replaces, unfilled and clean; a locked range is C_RANGELOCK with nothing changed, and a bad binding C_SPMWINDOW,
which leaves the map unbound and the register's other bits (log entry 40).
Unbinding a clean map stores the register and leaves memory as it is; of a map of one dirty sector exactly the dirty
bytes are written to its global address. -/
def Obligations.HomesAndMaps : Prop :=
  (∀ (f p n : Nat) (s : State), 0 < n → physOk p n = true →
      let s1 := (s.l2Touch p true).takeBytes (some f) p (p + n - 1) false
      let e : RangeEnt := { base := p, stride := n, count := 1, width := n, owner := f, line := false }
      let clear := fun (t : State) => t.mem = s.mem ∧ (∀ e ∈ (t.die (homeDie p)).rdir, e.owner ≠ f →
          (e.line = false → ∀ i, i < e.count → e.touches i p (p + n - 1) = false) ∧
          (e.line = true → overlap e.base (e.base + 127) p (p + n - 1) = false)) ∧
        ∀ k, k ≠ f → ∀ x ∈ (t.fold k).l1,
          x.valid &&& lineWords x.base p (p + n - 1) &&& ~~~x.owned &&& ~~~x.siWords = 0
      let ls := s.otherLines f p (p + n - 1)
      ((s1.die (homeDie p)).rdir.length + ls.length < 4096 → (∀ l ∈ ls, homeDie l.base = homeDie p) →
        ∃ t, exec (.homeRequest f 0 true p n) s = .next t ∧ (ls = [] → t = s1.addEntry e) ∧ clear t ∧
          e ∈ (t.die (homeDie p)).rdir ∧ ∀ l ∈ ls, RangeEnt.ofLine f l.base ∈ (t.die (homeDie p)).rdir) ∧
      (∀ rt : BitVec 2, rt ≠ 0 → ∃ t, exec (.homeRequest f rt true p n) s = .next t ∧ clear t) ∧
      (∀ rt : BitVec 2, rt ≠ 0 → ∃ t, exec (.homeRequest f rt false p n) s = .next t ∧ t.mem = s.mem ∧
        t.folds = s.folds ∧ ∀ d, (t.die d).rdir = (s.die d).rdir)) ∧
    (∀ (f p n : Nat) (rt : BitVec 2) (w : Bool) (s : State), (n = 0 ∨ physOk p n = false) →
      exec (.homeRequest f rt w p n) s = .next s) ∧
    (∀ (k f sec : Nat) (s : State) (g : Gang) (m : SMap) (t : Trans) (p : Nat), s.memOk → s.gang k = some g →
      g.foldOf (g.half f) = f → g.mapAt (g.half f) (256 * sec) = some m →
      ((g.sector (g.half f) sec).filled = true → exec (.sectorFill k f sec) s = .next s) ∧
      ((g.sector (g.half f) sec).filled = false → s.PlainWindow g f (m.global sec) .load t → t.place = .pkg p →
        s.eccHit t.place 256 = false →
        let key := Memory.spmKey f (Tbl.get g.base (g.half f) 0 + 256 * sec)
        ∃ u, exec (.sectorFill k f sec) s = .next u ∧
          (u.gang k).map (fun h => h.sector (g.half f) sec) = some { filled := true, dirty := 0 } ∧
          (∀ i, i < 256 → Memory.read u.mem (key + i) = Memory.read s.mem (p + i)) ∧
          (∀ a, (a < key ∨ key + 256 ≤ a) → Memory.read u.mem a = Memory.read s.mem a))) ∧
    (∀ (id : CtxId) (n : Nat) (v : W64) (s : State) (x : Ctx) (g : Gang), s.ctx id = some x → x.shadow = false →
      s.gang x.gang = some g → n < 8 →
      let h := g.half id.fold
      let old := Tbl.get g.smapS (8 * h + n) 0
      let stores := fun (t : State) => ∃ g', t.gang x.gang = some g' ∧
        Tbl.get g'.smapS (8 * h + n) 0 = v &&& 0xC0001FFF000FFF00
      let fresh := fun (t : State) (r : Nat × Nat) => ∀ g', t.gang x.gang = some g' → ∀ c, r.1 / 256 ≤ c →
        c < (r.1 + r.2) / 256 → g'.sector h c = Sector.fresh
      let waits := s.smapWaits x.gang g h n (s.fold id.fold).lockSeq v
      let locked := ∃ r ∈ smapRanges old v, s.rangeLocked g h (s.fold id.fold).lockSeq r = true
      (waits = true → exec (.smapBind id n v) s = .next s ∧ exec (.smapUnbind id n v) s = .next s) ∧
      (v.getLsbD 63 = true → waits = false → ¬locked → g.bindOk h n v = true →
        ∃ t, exec (.smapBind id n v) s = .next t ∧ stores t ∧ (∀ r ∈ smapRanges old v, fresh t r) ∧ t.mem = s.mem ∧
          t.ctxs = s.ctxs) ∧
      (v.getLsbD 63 = true → waits = false → locked → ∃ t c', exec (.smapBind id n v) s = .next t ∧
        t.ctx id = some c' ∧ t.gangs = s.gangs ∧ t.mem = s.mem ∧ ∃ d ∈ c'.due, d.code = 0x28) ∧
      (v.getLsbD 63 = true → waits = false → ¬locked → g.bindOk h n v = false →
        ∃ t c' g', exec (.smapBind id n v) s = .next t ∧ t.ctx id = some c' ∧ t.mem = s.mem ∧
          (∃ d ∈ c'.due, d.code = 0x2A) ∧ (old.getLsbD 63 = false → t.gangs = s.gangs) ∧ t.gang x.gang = some g' ∧
          Tbl.get g'.smapS (8 * h + n) 0 = old &&& 0x7FFFFFFFFFFFFFFF) ∧
      (v.getLsbD 63 = false → waits = false → old.getLsbD 63 = false → ∃ t, exec (.smapUnbind id n v) s = .next t ∧ stores t ∧
        t.mem = s.mem ∧ t.ctxs = s.ctxs) ∧
      (v.getLsbD 63 = false → waits = false → locked → ∃ t c', exec (.smapUnbind id n v) s = .next t ∧
        t.ctx id = some c' ∧ t.gangs = s.gangs ∧ t.mem = s.mem ∧ ∃ d ∈ c'.due, d.code = 0x28) ∧
      (v.getLsbD 63 = false → waits = false → old.getLsbD 63 = true → ¬locked →
        (∀ c, (g.sector h c).dirty = 0) → ∃ t, exec (.smapUnbind id n v) s = .next t ∧ stores t ∧
          fresh t (smapRange old) ∧ t.mem = s.mem) ∧
      (∀ m tr p, v.getLsbD 63 = false → waits = false → old.getLsbD 63 = true → ¬locked → s.memOk →
        (g.maps h).find? (fun m => m.n == n) = some m → m.len = 256 → g.foldOf h = id.fold →
        s.PlainWindow g id.fold (m.global (m.off / 256)) .store tr → tr.place = .pkg p → p + 256 ≤ 2 ^ 48 →
        s.eccHit tr.place 256 = false →
        let key := Memory.spmKey id.fold (Tbl.get g.base h 0 + 256 * (m.off / 256))
        let dirty := (g.sector h (m.off / 256)).dirty
        ∃ t, exec (.smapUnbind id n v) s = .next t ∧ stores t ∧ fresh t (smapRange old) ∧
          (∀ i, i < 256 → Memory.read t.mem (p + i) = Memory.read s.mem (if dirty.getLsbD i then key + i else p + i)) ∧
          (∀ a, (a < p ∨ p + 256 ≤ a) → Memory.read t.mem a = Memory.read s.mem a)))

/-- R222, R240, R242, R244, R245, R247, R252. A walk that succeeds sets its leaf's bits and caches the translation with A
set, and D for a write, with its stripe descriptor where it has one; one that faults changes nothing. The walk event is what
fills the translation cache (log entry 8). An access whose page is counted adds to the count of the page, or of the entry
used where the 16 entries of a 64 KiB page differ, which returns to 0 at THRESH; with THRESH 0, and for another page, an
access changes nothing. An invalidation removes every cached translation that it names from the die, and from every die for
KIND 0 and 1, drops the fetched lines of its space and is in progress until its completion. A staging store takes its size
with BUSY set and its lost bytes read 0 (log entry 41); at the end of the change BUSY is clear. -/
def Obligations.TranslationAndCounts : Prop :=
  (∀ (d asid : Nat) (va : W64) (w : Bool) (s : State),
      let tr := s.translate d asid va (if w then .store else .load) (decide (asid < 256))
      (∀ e, tr = .error e → exec (.pageWalk d asid va w) s = .next s) ∧
      (∀ t base, tr = .ok t → s.root asid = some base → ∃ u e, exec (.pageWalk d asid va w) s = .next u ∧
        (u.die d).tlb.head? = some e ∧ e.asid = asid ∧ e.page = t.page ∧ e.size = t.size ∧ e.pte = t.pte ∧ e.ent = t.ent ∧
        e.desc = t.desc ∧
        e.pte.getLsbD 6 = true ∧ (w = true → e.pte.getLsbD 7 = true) ∧ u.mem = (s.applyAD t).mem ∧
        u.ctxs = s.ctxs ∧ ∀ k, k ≠ d → (u.die k).tlb = (s.die k).tlb)) ∧
    (∀ (f asid : Nat) (va : W64) (n : Nat) (s : State) (t : Trans),
      s.translate (dieOf f) asid va .load (decide (asid < 256)) = .ok t →
      let th := bits (s.die (dieOf f)).migThresh.toNat 15 0
      let own := fun (x : AccCount) => x.asid == asid && x.page == t.ent
      let old := (((s.die (dieOf f)).counts.find? own).map AccCount.count).getD 0
      ((t.pte.getLsbD 62 = false ∨ n = 0 ∨ th = 0) → exec (.accessCount f asid va n) s = .next s) ∧
      (t.pte.getLsbD 62 = true → n ≠ 0 → th ≠ 0 → ∃ u, exec (.accessCount f asid va n) s = .next u ∧
        ((u.die (dieOf f)).counts.find? own).map AccCount.count =
          some (if th ≤ old + n then 0 else old + n) ∧
        (old + n < th → u.mem = s.mem))) ∧
    (∀ (d : Nat) (v : W64) (s : State), d < 4 → ∃ t, exec (.xlateInv d v) s = .next t ∧ t.mem = s.mem ∧
      (t.die d).invs = (s.die d).invs ++ [(v, 0, 0)] ∧
      (∀ k, (bits v.toNat 63 62 < 2 ∨ k = d) → (t.die k).tlb = (s.die k).tlb.filter (fun e => !invHits d v e)) ∧
      (∀ k, 2 ≤ bits v.toNat 63 62 → k ≠ d → (t.die k).tlb = (s.die k).tlb) ∧
      ∀ id x, s.ctx id = some x → id.slot < 64 → ∃ y, t.ctx id = some y ∧ y = { x with lines := y.lines } ∧
        (bits v.toNat 63 62 < 2 → x.asid = (if v.getLsbD 8 then 256 + d else bits v.toNat 7 0) → y.lines = []) ∧
        (2 ≤ bits v.toNat 63 62 → dieOf id.fold = d → y.lines = [])) ∧
    (∀ (d : Nat) (s : State), ((s.die d).invs = [] → exec (.xlateInvComplete d) s = .next s) ∧
      (∀ w key uid r, (s.die d).invs = (w, key, uid) :: r → (∀ f, (s.fold f).held = []) →
        ∃ t, exec (.xlateInvComplete d) s = .next t ∧ (t.die d).invs = r ∧ t.mem = s.mem ∧
          ∀ c o, s.ctx (ctxOfKey key) = some c → c.findOp (fun o => o.uid == uid && o.unit == U.sv) = some o →
            (c.us.unit U.sv).last = uid → (c.us.unit U.sv).full = false →
            ∃ c', t.ctx (ctxOfKey key) = some c' ∧ c.RFilled c' U.sv (o.mask &&& c.live) (fun _ => 0) ∧
              c'.ops = c.ops.filter (fun x => x.uid != uid))) ∧
    (∀ (d k : Nat) (v : W64) (s : State), d < 4 → k < 32 → s.memOk →
      let size := fun (x : W64) => min 8 (bits x.toNat 3 0) * 2 ^ 19
      let old := Tbl.get (s.die d).l2Stage k 0
      ∃ t, exec (.l2StageWrite d k v) s = .next t ∧ Tbl.get (t.die d).l2Stage k 0 = (v &&& 0xF) ||| 0x10 ∧
        (∀ o, size v ≤ o → o < size old → Memory.read t.mem (Memory.stageKey d k o) = 0) ∧
        (∀ a, (a < Memory.stageKey d k (size v) ∨ Memory.stageKey d k (size old) ≤ a) →
          Memory.read t.mem a = Memory.read s.mem a)) ∧
    (∀ (d k : Nat) (s : State), let v := Tbl.get (s.die d).l2Stage k 0
      (v.getLsbD 4 = false → exec (.l2StageChangeDone d k) s = .next s) ∧
      (v.getLsbD 4 = true → ∃ t, exec (.l2StageChangeDone d k) s = .next t ∧ t.mem = s.mem ∧
        Tbl.get (t.die d).l2Stage k 0 = v &&& 0xF))

/-- R78, R79, R369, R447, R448, R451. Power brings the boot block and the Lumen port up and leaves a running package as it
is. While the boot ROM waits and the Lumen port is up, an image whose signature of 3,309 bytes verifies and that is a
shadow-context object boots: every die runs, the shadow context of every fold of the package stands at the entry point that
ENTRYSYM names with INH 0, translation is off, no gang is resident, memory holds the image's sections over zeros with the
control node's memory kept (where a section stands is the model's own, log entry 62), and MEAS0 is extended by the image's
digest; another image posts C_FWAUTH and nothing else changes. Removing power leaves the control node's memory alone and no
context. Measurements extend MEAS1 to MEAS7 alone, while the dies run. A report on a nonce leaves with its signature. The
report's layout is the model's own choice (log entry 34). -/
def Obligations.PowerBootAndAttestation : Prop :=
  (∀ s : State, (s.pkg.boot = .off → ∃ t, exec .powerOnReset s = .next t ∧ t.pkg.boot = .rom ∧ t.pkg.lumenUp = true ∧
        t.timebase = 0 ∧ t.ctxs = s.ctxs ∧ t.mem = s.mem) ∧
      (s.pkg.boot ≠ .off → exec .powerOnReset s = .next s)) ∧
    (∀ (image sig : List Byte) (s : State), let digest := Config.shake256 image
      let good := sig.length = 3309 ∧ Config.mldsaVerify digest sig = true ∧ (imageEntry image).isSome = true
      ((s.pkg.boot ≠ .rom ∨ s.pkg.lumenUp = false) → exec (.firmwareImageReceive image sig) s = .next s) ∧
      (s.pkg.boot = .rom → s.pkg.lumenUp = true → ¬good → ∃ t, exec (.firmwareImageReceive image sig) s = .next t ∧
        s.Noticed t 0x5D 0 0 ∧
        t.pkg.boot = .rom ∧ t.mem = s.mem ∧ t.ctxs = s.ctxs ∧ t.pkg.meas = s.pkg.meas) ∧
      (∀ entry, s.pkg.boot = .rom → s.pkg.lumenUp = true → good → imageEntry image = some entry → s.memOk →
        ∃ t, exec (.firmwareImageReceive image sig) s = .next t ∧
        t.pkg.boot = .running ∧ t.gangs = [] ∧ t.pkg.measOf 0 = Config.shake256 (s.pkg.measOf 0 ++ digest) ∧
        (∀ a, Memory.read t.mem a = Memory.bootByte s image a) ∧
        (∀ f, f < 384 → ∃ c, t.ctx { fold := f, slot := CtxId.shadowSlot } = some c ∧ c.shadow = true ∧
          c.pc = entry &&& ~~~1 ∧ c.inh = false ∧ c.frozen = false ∧ c.stopped = false ∧
          c.wait = .ready ∧ c.us = UnitState.fresh ∧ c.asid = 256 + dieOf f) ∧
        (∀ d, d < 4 → (t.die d).sroot = 0 ∧ (t.die d).migThresh = 256 ∧ (t.die d).eccCtl = 0x3E804))) ∧
    (∀ s : State, s.memOk → ∃ t, exec .packagePowerOff s = .next t ∧ t.pkg.boot = .off ∧ t.ctxs = [] ∧ t.gangs = [] ∧
      t.pkg.devIdSet = false ∧
      ∀ a, Memory.read t.mem a = if 2 ^ 52 ≤ a ∧ a < 2 ^ 53 then Memory.read s.mem a else 0) ∧
    (∀ (i : Nat) (c : List Byte) (s : State),
      (s.running = true → 1 ≤ i → i ≤ 7 → ∃ t, exec (.measurementExtend i c) s = .next t ∧
        t.pkg.measOf i = Config.shake256 (s.pkg.measOf i ++ Config.shake256 c) ∧
        (∀ j, j ≠ i → t.pkg.measOf j = s.pkg.measOf j) ∧ t.mem = s.mem ∧ t.ctxs = s.ctxs) ∧
      (¬(s.running = true ∧ 1 ≤ i ∧ i ≤ 7) → exec (.measurementExtend i c) s = .next s)) ∧
    (∀ (nonce : BitVec 256) (s : State),
      (s.pkg.boot ≠ .off → s.pkg.lumenUp = true → ∃ t r, exec (.attestationRequest nonce) s = .next t ∧
        r = s.attestReport nonce ∧ t.pkg.out = s.pkg.out ++ [.report r (Config.mldsaSign (Config.shake256 r))] ∧
        t.mem = s.mem ∧ t.ctxs = s.ctxs ∧ t.pkg.meas = s.pkg.meas) ∧
      ((s.pkg.boot = .off ∨ s.pkg.lumenUp = false) → exec (.attestationRequest nonce) s = .next s))

/-- R224, R399, R442, R443, R444, R445, R446. While the dies run: a corrected error raises its class's ECC_CE by 1 and its
location's count; below the threshold nothing retires, and a location of class 3 that reaches it leaves the tracker,
ECC_RETIRED rises and C_ECCRETIRE is queued at the die's first fold with the location in FAULT_ADDR; a window lasts WINUS
from its first error, and its close returns the count to 0. An uncorrectable error spoils its line, which stays bad (log
entry 50). A write of FLOOR takes the code, unless 7 is written for an island that may not be Off. An island takes the state
that its floor, the cap and any thermal hold give, and nothing changes when it has it; FLOOR 7 keeps a fold without a team
or a gang, and an engine, Off. A power window over LIMIT raises CAPSTATE by 1 up to 4, one below 9/10 of it, or with LIMIT 0
(log entry 48), lowers CAPSTATE, and AVG takes the window's watts. A thermal sample records the temperatures, and each
action holds from above its threshold until 5 °C below it; above 115 °C the die's islands go Off and its teams are lost
until that action ends. Outside running, none of these but the window's close acts. The free refresh counts are the model's
own (log entry 35). -/
def Obligations.ErrorsIslandsAndLimits : Prop :=
  (∀ (d cls inst loc : Nat) (s : State), s.running = true → d < 4 → cls < 7 →
      let window := max 1 (bits (s.die d).eccCtl.toNat 23 8) * 100
      let old := match (s.die d).eccLocs.find? (fun e => e.is cls inst loc) with
        | some e => if e.opened + window ≤ s.ticks then 0 else e.count
        | none => 0
      let th := bits (s.die d).eccCtl.toNat 7 0
      ∃ t, exec (.eccCorrectedError d cls inst (.corrected loc)) s = .next t ∧
        Tbl.get (t.die d).eccCe cls 0 = (Tbl.get (s.die d).eccCe cls 0 + 1) % 2 ^ 48 ∧
        ((th = 0 ∨ old + 1 < th) → (t.die d).eccRet = (s.die d).eccRet ∧ t.mem = s.mem ∧ t.folds = s.folds ∧
          ((t.die d).eccLocs.find? (fun e => e.is cls inst loc)).map EccLoc.count = some (old + 1)) ∧
        (th ≠ 0 → th ≤ old + 1 → cls = 3 → (t.die d).eccLocs.find? (fun e => e.is cls inst loc) = none ∧
          Tbl.get (t.die d).eccRet cls 0 = (Tbl.get (s.die d).eccRet cls 0 + 1) % 2 ^ 48 ∧
          (let f := s.firstFold d;
            ((((s.fold f).events.filter EventWord.noTeam).length < 32 ∧ (s.fold f).eventLost = false) →
              (t.fold f).events = (s.fold f).events ++ [eventWord 0x56 0 0 true false 0]) ∧
            ∀ c, s.ctx { fold := f, slot := CtxId.shadowSlot } = some c → ∃ c',
              t.ctx { fold := f, slot := CtxId.shadowSlot } = some c' ∧ c'.faultAddr = BitVec.ofNat 64 loc))) ∧
    (∀ (d cls inst phys : Nat) (s : State), s.running = true → d < 4 → phys < 2 ^ 48 → homeDie phys = d →
      ∃ t, exec (.eccCorrectedError d cls inst (.uncorrectable phys)) s = .next t ∧ t.mem = s.mem ∧ t.ctxs = s.ctxs ∧
        t.eccHit (.pkg phys) 1 = true ∧ (∀ p n, s.eccHit p n = true → t.eccHit p n = true)) ∧
    (∀ (d cls inst loc : Nat) (s : State), ∃ t, exec (.eccWindowClose d cls inst loc) s = .next t ∧
      let window := max 1 (bits (s.die d).eccCtl.toNat 23 8) * 100
      (t.die d).eccCe = (s.die d).eccCe ∧ (t.die d).eccRet = (s.die d).eccRet ∧
      (t.die d).eccLocs = (s.die d).eccLocs.map (fun e =>
        if e.is cls inst loc ∧ e.opened + window ≤ s.ticks then { e with count := 0 } else e)) ∧
    (∀ (d i : Nat) (v : W64) (s : State), s.running = true → d < 4 → islandNamed i = true →
      let f := bits v.toNat 2 0
      ((f ≠ 7 ∨ s.mayOff d i = true) → ∃ t, exec (.islandFloorWrite (some d) i v) s = .next t ∧
        Tbl.get (t.die d).islFloor i 0 = f ∧ (t.die d).islands = (s.die d).islands ∧ t.mem = s.mem ∧ t.ctxs = s.ctxs) ∧
      (f = 7 → s.mayOff d i = false → exec (.islandFloorWrite (some d) i v) s = .next s)) ∧
    (∀ (i : Nat) (v : W64) (s : State), s.running = true → i < 16 → let f := bits v.toNat 2 0
      ((f ≠ 7 ∨ (i ≠ 4 ∧ i ≠ 5 ∧ i ≠ 13)) → ∃ t, exec (.islandFloorWrite none i v) s = .next t ∧
        Tbl.get t.pkg.islIo i 0 = f) ∧
      (f = 7 → (i = 4 ∨ i = 5 ∨ i = 13) → exec (.islandFloorWrite none i v) s = .next s)) ∧
    (∀ (d i : Nat) (s : State), s.running = true → d < 4 → islandNamed i = true → (s.die d).dead = false →
      (s.islandOf d i = s.islandTarget d i → exec (.islandStateChange d i) s = .next s) ∧
      (s.islandOf d i ≠ s.islandTarget d i → ∃ t, exec (.islandStateChange d i) s = .next t ∧
        t.islandOf d i = s.islandTarget d i) ∧
      (i < 96 → Tbl.get (s.die d).islFloor i 0 ≤ 4 →
        s.islandTarget d i = max (Tbl.get (s.die d).islFloor i 0) (max s.capState (s.die d).holdState)) ∧
      (i < 96 → Tbl.get (s.die d).islFloor i 0 = 7 → s.hasTeam (96 * d + i) = false → s.gangsOn (96 * d + i) = [] →
        s.islandTarget d i = 7) ∧
      (96 ≤ i → i < 192 → Tbl.get (s.die d).islFloor i 0 = 7 → s.islandTarget d i = 7)) ∧
    (∀ (w : BitVec 16) (s : State), s.running = true →
      let limit := bits s.pkg.pwrCap.toNat 15 0
      let next := if limit ≠ 0 ∧ limit < w.toNat then min 4 (s.capState + 1)
        else if limit = 0 ∨ 10 * w.toNat < 9 * limit then s.capState - 1 else s.capState
      ∃ t, exec (.powerWindowEnd w) s = .next t ∧ t.capState = next ∧ bits t.pkg.pwrStat.toNat 15 0 = w.toNat ∧
        t.mem = s.mem ∧ t.ctxs = s.ctxs ∧
        (s.capState = 0 → next = 1 → s.pkg.capNoticed = false → s.Noticed t 0x5C 0 0)) ∧
    (∀ (d : Nat) (dram logic : BitVec 16) (s : State), s.running = true → d < 4 → (s.die d).dead = false →
      logic.toNat ≤ 1840 → ∃ t, exec (.thermalSample d dram logic) s = .next t ∧
        bits (t.die d).thermStat.toNat 31 16 = dram.toNat ∧ bits (t.die d).thermStat.toNat 15 0 = logic.toNat ∧
        (let above := fun (k deg x : Nat) => if bit (s.die d).thermHold k then 16 * (deg - 5) < x else 16 * deg < x;
          (bit (t.die d).thermHold 0 = true ↔ above 0 85 dram.toNat) ∧
            (bit (t.die d).thermHold 1 = true ↔ above 1 95 dram.toNat) ∧
          (bit (t.die d).thermHold 2 = true ↔ above 2 105 logic.toNat)) ∧
        t.mem = s.mem ∧ t.ctxs = s.ctxs) ∧
    (∀ (d : Nat) (dram logic : BitVec 16) (s : State), s.running = true → d < 4 →
      ((s.die d).dead = false → 1840 < logic.toNat → ∃ t, exec (.thermalSample d dram logic) s = .next t ∧
        (t.die d).dead = true ∧ (∀ id, dieOf id.fold = d → id.slot < 64 → t.ctx id = none) ∧
        ∀ i, islandNamed i = true → t.islandOf d i = 7 ∧ t.islandTarget d i = 7) ∧
      ((s.die d).dead = true → ∃ t, exec (.thermalSample d dram logic) s = .next t ∧
        ((t.die d).dead = true ↔ 1760 < logic.toNat) ∧ (t.die d).islands = (s.die d).islands ∧ t.mem = s.mem)) ∧
    (∀ (d cls inst loc i : Nat) (v : W64) (w dram logic : BitVec 16) (s : State), s.running = false →
      exec (.eccCorrectedError d cls inst (.corrected loc)) s = .next s ∧
      exec (.eccCorrectedError d cls inst (.uncorrectable loc)) s = .next s ∧
        exec (.islandFloorWrite (some d) i v) s = .next s ∧
      exec (.islandStateChange d i) s = .next s ∧ exec (.powerWindowEnd w) s = .next s ∧
      exec (.thermalSample d dram logic) s = .next s)
end

