-- ==== Sys2Proof/Laws/Table.lean ====
section
/-! SUPPORT. Reading a table after an update of it, and reading a value list after a merge. -/

namespace Sys2Proof.Machine

@[simp] theorem Tbl.find_put_same {α : Type} (t : Tbl α) (k : Nat) (v : α) : Tbl.find (Tbl.put t k v) k = some v := by
  induction t with
  | nil => simp [Tbl.put, Tbl.find]
  | cons e r ih =>
    obtain ⟨j, w⟩ := e
    simp only [Tbl.put]
    split
    · simp [Tbl.find]
    · split
      · simp [Tbl.find]
      · rename_i h1 h2; simp only [Tbl.find, if_neg (fun h => h2 (Eq.symm h)), ih]

theorem Tbl.find_put_ne {α : Type} (t : Tbl α) {k j : Nat} (v : α) (h : j ≠ k) :
    Tbl.find (Tbl.put t k v) j = Tbl.find t j := by
  induction t with
  | nil => simp [Tbl.put, Tbl.find, Ne.symm h]
  | cons e r ih =>
    obtain ⟨i, w⟩ := e
    simp only [Tbl.put]
    split
    · simp [Tbl.find, Ne.symm h]
    · split
      · rename_i h2; subst h2; simp [Tbl.find, Ne.symm h]
      · simp only [Tbl.find, ih]

@[simp] theorem Tbl.get_put_same {α : Type} (t : Tbl α) (k : Nat) (v d : α) : Tbl.get (Tbl.put t k v) k d = v := by
  simp [Tbl.get]

theorem Tbl.get_put_ne {α : Type} (t : Tbl α) {k j : Nat} (v d : α) (h : j ≠ k) :
    Tbl.get (Tbl.put t k v) j d = Tbl.get t j d := by
  simp [Tbl.get, Tbl.find_put_ne t v h]

@[simp] theorem Tbl.get_upd_same {α : Type} (t : Tbl α) (k : Nat) (d : α) (f : α → α) (e : α) :
    Tbl.get (Tbl.upd t k d f) k e = f (Tbl.get t k d) := by simp [Tbl.upd]

theorem Tbl.get_upd_ne {α : Type} (t : Tbl α) {k j : Nat} (d : α) (f : α → α) (e : α) (h : j ≠ k) :
    Tbl.get (Tbl.upd t k d f) j e = Tbl.get t j e := by simp [Tbl.upd, Tbl.get_put_ne t _ e h]

theorem Tbl.find_drop_ne {α : Type} (t : Tbl α) {k j : Nat} (h : j ≠ k) : Tbl.find (Tbl.drop t k) j = Tbl.find t j := by
  induction t with
  | nil => rfl
  | cons e r ih =>
    obtain ⟨i, w⟩ := e
    simp only [Tbl.drop]
    split
    · rename_i h2; subst h2; simp [Tbl.find, Ne.symm h]
    · simp only [Tbl.find, ih]

theorem Tbl.find_map {α : Type} (t : Tbl α) (g : Nat → α → α) (k : Nat) :
    Tbl.find (t.map (fun e => (e.1, g e.1 e.2))) k = (Tbl.find t k).map (g k) := by
  induction t with
  | nil => rfl
  | cons e r ih =>
    obtain ⟨i, w⟩ := e
    simp only [List.map_cons, Tbl.find]
    split
    · rename_i h; subst h; rfl
    · exact ih

theorem Tbl.find_map_pair {α : Type} (t : Tbl α) (h : Nat × α → Nat × α) (hk : ∀ e, (h e).1 = e.1) (k : Nat) :
    Tbl.find (t.map h) k = (Tbl.find t k).map (fun v => (h (k, v)).2) := by
  induction t with
  | nil => rfl
  | cons e r ih =>
    obtain ⟨i, w⟩ := e
    have e1 : h (i, w) = (i, (h (i, w)).2) := Prod.ext (hk (i, w)) rfl
    rw [List.map_cons, e1]
    simp only [Tbl.find]
    split
    · rename_i q; subst q; rfl
    · exact ih

@[simp] theorem Vals.merge_length (n : Nat) (m : Lanes) (f : Nat → W64) (v : Vals) : (Vals.merge n m f v).length = n := by
  simp [Vals.merge]

theorem Vals.at_map_range (n : Nat) (f : Nat → W64) {l : Nat} (h : l < n) : Vals.at ((List.range n).map f) l = f l := by
  simp [Vals.at, h]

theorem Vals.at_merge {n : Nat} (m : Lanes) (f : Nat → W64) (v : Vals) {l : Nat} (h : l < n) :
    Vals.at (Vals.merge n m f v) l = if m.getLsbD l then f l else Vals.at v l := by
  rw [Vals.merge, Vals.at_map_range _ _ h]; rfl

end Sys2Proof.Machine
end

