-- ==== Sys2Proof/Laws/State.lean ====
section
/-! SUPPORT. What each update of the state leaves in each field, and what is read after it. -/

namespace Sys2Proof.Machine

@[simp] theorem State.setCtx_mem (s : State) (c : CtxId) (x : Ctx) : (s.setCtx c x).mem = s.mem := rfl
@[simp] theorem State.setCtx_ctxs (s : State) (c : CtxId) (x : Ctx) : (s.setCtx c x).ctxs = Tbl.put s.ctxs (CtxId.key c) x := rfl
@[simp] theorem State.setCtx_folds (s : State) (c : CtxId) (x : Ctx) : (s.setCtx c x).folds = s.folds := rfl
@[simp] theorem State.setCtx_gangs (s : State) (c : CtxId) (x : Ctx) : (s.setCtx c x).gangs = s.gangs := rfl
@[simp] theorem State.setCtx_dies (s : State) (c : CtxId) (x : Ctx) : (s.setCtx c x).dies = s.dies := rfl
@[simp] theorem State.setCtx_pkg (s : State) (c : CtxId) (x : Ctx) : (s.setCtx c x).pkg = s.pkg := rfl
@[simp] theorem State.setCtx_cur (s : State) (c : CtxId) (x : Ctx) : (s.setCtx c x).cur = s.cur := rfl
@[simp] theorem State.setCtx_agenda (s : State) (c : CtxId) (x : Ctx) : (s.setCtx c x).agenda = s.agenda := rfl
@[simp] theorem State.setCtx_bgTurn (s : State) (c : CtxId) (x : Ctx) : (s.setCtx c x).bgTurn = s.bgTurn := rfl
@[simp] theorem State.setCtx_nextId (s : State) (c : CtxId) (x : Ctx) : (s.setCtx c x).nextId = s.nextId := rfl
@[simp] theorem State.setCtx_free (s : State) (c : CtxId) (x : Ctx) : (s.setCtx c x).free = s.free := rfl
@[simp] theorem State.dropCtx_mem (s : State) (c : CtxId) : (s.dropCtx c).mem = s.mem := rfl
@[simp] theorem State.dropCtx_ctxs (s : State) (c : CtxId) : (s.dropCtx c).ctxs = Tbl.drop s.ctxs (CtxId.key c) := rfl
@[simp] theorem State.dropCtx_folds (s : State) (c : CtxId) : (s.dropCtx c).folds = s.folds := rfl
@[simp] theorem State.dropCtx_gangs (s : State) (c : CtxId) : (s.dropCtx c).gangs = s.gangs := rfl
@[simp] theorem State.dropCtx_dies (s : State) (c : CtxId) : (s.dropCtx c).dies = s.dies := rfl
@[simp] theorem State.dropCtx_pkg (s : State) (c : CtxId) : (s.dropCtx c).pkg = s.pkg := rfl
@[simp] theorem State.dropCtx_cur (s : State) (c : CtxId) : (s.dropCtx c).cur = s.cur := rfl
@[simp] theorem State.dropCtx_agenda (s : State) (c : CtxId) : (s.dropCtx c).agenda = s.agenda := rfl
@[simp] theorem State.dropCtx_bgTurn (s : State) (c : CtxId) : (s.dropCtx c).bgTurn = s.bgTurn := rfl
@[simp] theorem State.dropCtx_nextId (s : State) (c : CtxId) : (s.dropCtx c).nextId = s.nextId := rfl
@[simp] theorem State.dropCtx_free (s : State) (c : CtxId) : (s.dropCtx c).free = s.free := rfl
@[simp] theorem State.setFold_mem (s : State) (f : Nat) (x : Fold) : (s.setFold f x).mem = s.mem := rfl
@[simp] theorem State.setFold_ctxs (s : State) (f : Nat) (x : Fold) : (s.setFold f x).ctxs = s.ctxs := rfl
@[simp] theorem State.setFold_folds (s : State) (f : Nat) (x : Fold) : (s.setFold f x).folds = Tbl.put s.folds f x := rfl
@[simp] theorem State.setFold_gangs (s : State) (f : Nat) (x : Fold) : (s.setFold f x).gangs = s.gangs := rfl
@[simp] theorem State.setFold_dies (s : State) (f : Nat) (x : Fold) : (s.setFold f x).dies = s.dies := rfl
@[simp] theorem State.setFold_pkg (s : State) (f : Nat) (x : Fold) : (s.setFold f x).pkg = s.pkg := rfl
@[simp] theorem State.setFold_cur (s : State) (f : Nat) (x : Fold) : (s.setFold f x).cur = s.cur := rfl
@[simp] theorem State.setFold_agenda (s : State) (f : Nat) (x : Fold) : (s.setFold f x).agenda = s.agenda := rfl
@[simp] theorem State.setFold_bgTurn (s : State) (f : Nat) (x : Fold) : (s.setFold f x).bgTurn = s.bgTurn := rfl
@[simp] theorem State.setFold_nextId (s : State) (f : Nat) (x : Fold) : (s.setFold f x).nextId = s.nextId := rfl
@[simp] theorem State.setFold_free (s : State) (f : Nat) (x : Fold) : (s.setFold f x).free = s.free := rfl
@[simp] theorem State.modFold_mem (s : State) (f : Nat) (g : Fold → Fold) : (s.modFold f g).mem = s.mem := rfl
@[simp] theorem State.modFold_ctxs (s : State) (f : Nat) (g : Fold → Fold) : (s.modFold f g).ctxs = s.ctxs := rfl
@[simp] theorem State.modFold_folds (s : State) (f : Nat) (g : Fold → Fold) : (s.modFold f g).folds = Tbl.put s.folds f (g (s.fold f)) := rfl
@[simp] theorem State.modFold_gangs (s : State) (f : Nat) (g : Fold → Fold) : (s.modFold f g).gangs = s.gangs := rfl
@[simp] theorem State.modFold_dies (s : State) (f : Nat) (g : Fold → Fold) : (s.modFold f g).dies = s.dies := rfl
@[simp] theorem State.modFold_pkg (s : State) (f : Nat) (g : Fold → Fold) : (s.modFold f g).pkg = s.pkg := rfl
@[simp] theorem State.modFold_cur (s : State) (f : Nat) (g : Fold → Fold) : (s.modFold f g).cur = s.cur := rfl
@[simp] theorem State.modFold_agenda (s : State) (f : Nat) (g : Fold → Fold) : (s.modFold f g).agenda = s.agenda := rfl
@[simp] theorem State.modFold_bgTurn (s : State) (f : Nat) (g : Fold → Fold) : (s.modFold f g).bgTurn = s.bgTurn := rfl
@[simp] theorem State.modFold_nextId (s : State) (f : Nat) (g : Fold → Fold) : (s.modFold f g).nextId = s.nextId := rfl
@[simp] theorem State.modFold_free (s : State) (f : Nat) (g : Fold → Fold) : (s.modFold f g).free = s.free := rfl
@[simp] theorem State.setDie_mem (s : State) (d : Nat) (x : Die) : (s.setDie d x).mem = s.mem := rfl
@[simp] theorem State.setDie_ctxs (s : State) (d : Nat) (x : Die) : (s.setDie d x).ctxs = s.ctxs := rfl
@[simp] theorem State.setDie_folds (s : State) (d : Nat) (x : Die) : (s.setDie d x).folds = s.folds := rfl
@[simp] theorem State.setDie_gangs (s : State) (d : Nat) (x : Die) : (s.setDie d x).gangs = s.gangs := rfl
@[simp] theorem State.setDie_dies (s : State) (d : Nat) (x : Die) : (s.setDie d x).dies = Tbl.put s.dies d x := rfl
@[simp] theorem State.setDie_pkg (s : State) (d : Nat) (x : Die) : (s.setDie d x).pkg = s.pkg := rfl
@[simp] theorem State.setDie_cur (s : State) (d : Nat) (x : Die) : (s.setDie d x).cur = s.cur := rfl
@[simp] theorem State.setDie_agenda (s : State) (d : Nat) (x : Die) : (s.setDie d x).agenda = s.agenda := rfl
@[simp] theorem State.setDie_bgTurn (s : State) (d : Nat) (x : Die) : (s.setDie d x).bgTurn = s.bgTurn := rfl
@[simp] theorem State.setDie_nextId (s : State) (d : Nat) (x : Die) : (s.setDie d x).nextId = s.nextId := rfl
@[simp] theorem State.setDie_free (s : State) (d : Nat) (x : Die) : (s.setDie d x).free = s.free := rfl
@[simp] theorem State.modDie_mem (s : State) (d : Nat) (g : Die → Die) : (s.modDie d g).mem = s.mem := rfl
@[simp] theorem State.modDie_ctxs (s : State) (d : Nat) (g : Die → Die) : (s.modDie d g).ctxs = s.ctxs := rfl
@[simp] theorem State.modDie_folds (s : State) (d : Nat) (g : Die → Die) : (s.modDie d g).folds = s.folds := rfl
@[simp] theorem State.modDie_gangs (s : State) (d : Nat) (g : Die → Die) : (s.modDie d g).gangs = s.gangs := rfl
@[simp] theorem State.modDie_dies (s : State) (d : Nat) (g : Die → Die) : (s.modDie d g).dies = Tbl.put s.dies d (g (s.die d)) := rfl
@[simp] theorem State.modDie_pkg (s : State) (d : Nat) (g : Die → Die) : (s.modDie d g).pkg = s.pkg := rfl
@[simp] theorem State.modDie_cur (s : State) (d : Nat) (g : Die → Die) : (s.modDie d g).cur = s.cur := rfl
@[simp] theorem State.modDie_agenda (s : State) (d : Nat) (g : Die → Die) : (s.modDie d g).agenda = s.agenda := rfl
@[simp] theorem State.modDie_bgTurn (s : State) (d : Nat) (g : Die → Die) : (s.modDie d g).bgTurn = s.bgTurn := rfl
@[simp] theorem State.modDie_nextId (s : State) (d : Nat) (g : Die → Die) : (s.modDie d g).nextId = s.nextId := rfl
@[simp] theorem State.modDie_free (s : State) (d : Nat) (g : Die → Die) : (s.modDie d g).free = s.free := rfl
@[simp] theorem State.setGang_mem (s : State) (g : Nat) (x : Gang) : (s.setGang g x).mem = s.mem := rfl
@[simp] theorem State.setGang_ctxs (s : State) (g : Nat) (x : Gang) : (s.setGang g x).ctxs = s.ctxs := rfl
@[simp] theorem State.setGang_folds (s : State) (g : Nat) (x : Gang) : (s.setGang g x).folds = s.folds := rfl
@[simp] theorem State.setGang_gangs (s : State) (g : Nat) (x : Gang) : (s.setGang g x).gangs = Tbl.put s.gangs g x := rfl
@[simp] theorem State.setGang_dies (s : State) (g : Nat) (x : Gang) : (s.setGang g x).dies = s.dies := rfl
@[simp] theorem State.setGang_pkg (s : State) (g : Nat) (x : Gang) : (s.setGang g x).pkg = s.pkg := rfl
@[simp] theorem State.setGang_cur (s : State) (g : Nat) (x : Gang) : (s.setGang g x).cur = s.cur := rfl
@[simp] theorem State.setGang_agenda (s : State) (g : Nat) (x : Gang) : (s.setGang g x).agenda = s.agenda := rfl
@[simp] theorem State.setGang_bgTurn (s : State) (g : Nat) (x : Gang) : (s.setGang g x).bgTurn = s.bgTurn := rfl
@[simp] theorem State.setGang_nextId (s : State) (g : Nat) (x : Gang) : (s.setGang g x).nextId = s.nextId := rfl
@[simp] theorem State.setGang_free (s : State) (g : Nat) (x : Gang) : (s.setGang g x).free = s.free := rfl
@[simp] theorem State.setPkg_mem (s : State) (p : Pkg) : (s.setPkg p).mem = s.mem := rfl
@[simp] theorem State.setPkg_ctxs (s : State) (p : Pkg) : (s.setPkg p).ctxs = s.ctxs := rfl
@[simp] theorem State.setPkg_folds (s : State) (p : Pkg) : (s.setPkg p).folds = s.folds := rfl
@[simp] theorem State.setPkg_gangs (s : State) (p : Pkg) : (s.setPkg p).gangs = s.gangs := rfl
@[simp] theorem State.setPkg_dies (s : State) (p : Pkg) : (s.setPkg p).dies = s.dies := rfl
@[simp] theorem State.setPkg_pkg (s : State) (p : Pkg) : (s.setPkg p).pkg = p := rfl
@[simp] theorem State.setPkg_cur (s : State) (p : Pkg) : (s.setPkg p).cur = s.cur := rfl
@[simp] theorem State.setPkg_agenda (s : State) (p : Pkg) : (s.setPkg p).agenda = s.agenda := rfl
@[simp] theorem State.setPkg_bgTurn (s : State) (p : Pkg) : (s.setPkg p).bgTurn = s.bgTurn := rfl
@[simp] theorem State.setPkg_nextId (s : State) (p : Pkg) : (s.setPkg p).nextId = s.nextId := rfl
@[simp] theorem State.setPkg_free (s : State) (p : Pkg) : (s.setPkg p).free = s.free := rfl
@[simp] theorem State.wr_mem (s : State) (k n v : Nat) : (s.wr k n v).mem = Memory.writeN s.mem k (bytesOf n v) := rfl
@[simp] theorem State.wr_ctxs (s : State) (k n v : Nat) : (s.wr k n v).ctxs = s.ctxs := rfl
@[simp] theorem State.wr_folds (s : State) (k n v : Nat) : (s.wr k n v).folds = s.folds := rfl
@[simp] theorem State.wr_gangs (s : State) (k n v : Nat) : (s.wr k n v).gangs = s.gangs := rfl
@[simp] theorem State.wr_dies (s : State) (k n v : Nat) : (s.wr k n v).dies = s.dies := rfl
@[simp] theorem State.wr_pkg (s : State) (k n v : Nat) : (s.wr k n v).pkg = s.pkg := rfl
@[simp] theorem State.wr_cur (s : State) (k n v : Nat) : (s.wr k n v).cur = s.cur := rfl
@[simp] theorem State.wr_agenda (s : State) (k n v : Nat) : (s.wr k n v).agenda = s.agenda := rfl
@[simp] theorem State.wr_bgTurn (s : State) (k n v : Nat) : (s.wr k n v).bgTurn = s.bgTurn := rfl
@[simp] theorem State.wr_nextId (s : State) (k n v : Nat) : (s.wr k n v).nextId = s.nextId := rfl
@[simp] theorem State.wr_free (s : State) (k n v : Nat) : (s.wr k n v).free = s.free := rfl
@[simp] theorem State.modCtx_mem (s : State) (c : CtxId) (f : Ctx → Ctx) : (s.modCtx c f).mem = s.mem := by
  unfold State.modCtx; split <;> rfl
@[simp] theorem State.modCtx_folds (s : State) (c : CtxId) (f : Ctx → Ctx) : (s.modCtx c f).folds = s.folds := by
  unfold State.modCtx; split <;> rfl
@[simp] theorem State.modCtx_gangs (s : State) (c : CtxId) (f : Ctx → Ctx) : (s.modCtx c f).gangs = s.gangs := by
  unfold State.modCtx; split <;> rfl
@[simp] theorem State.modCtx_dies (s : State) (c : CtxId) (f : Ctx → Ctx) : (s.modCtx c f).dies = s.dies := by
  unfold State.modCtx; split <;> rfl
@[simp] theorem State.modCtx_pkg (s : State) (c : CtxId) (f : Ctx → Ctx) : (s.modCtx c f).pkg = s.pkg := by
  unfold State.modCtx; split <;> rfl
@[simp] theorem State.modCtx_cur (s : State) (c : CtxId) (f : Ctx → Ctx) : (s.modCtx c f).cur = s.cur := by
  unfold State.modCtx; split <;> rfl
@[simp] theorem State.modCtx_agenda (s : State) (c : CtxId) (f : Ctx → Ctx) : (s.modCtx c f).agenda = s.agenda := by
  unfold State.modCtx; split <;> rfl
@[simp] theorem State.modCtx_bgTurn (s : State) (c : CtxId) (f : Ctx → Ctx) : (s.modCtx c f).bgTurn = s.bgTurn := by
  unfold State.modCtx; split <;> rfl
@[simp] theorem State.modCtx_nextId (s : State) (c : CtxId) (f : Ctx → Ctx) : (s.modCtx c f).nextId = s.nextId := by
  unfold State.modCtx; split <;> rfl
@[simp] theorem State.modCtx_free (s : State) (c : CtxId) (f : Ctx → Ctx) : (s.modCtx c f).free = s.free := by
  unfold State.modCtx; split <;> rfl
@[simp] theorem State.modGang_mem (s : State) (g : Nat) (f : Gang → Gang) : (s.modGang g f).mem = s.mem := by
  unfold State.modGang; split <;> rfl
@[simp] theorem State.modGang_ctxs (s : State) (g : Nat) (f : Gang → Gang) : (s.modGang g f).ctxs = s.ctxs := by
  unfold State.modGang; split <;> rfl
@[simp] theorem State.modGang_folds (s : State) (g : Nat) (f : Gang → Gang) : (s.modGang g f).folds = s.folds := by
  unfold State.modGang; split <;> rfl
@[simp] theorem State.modGang_dies (s : State) (g : Nat) (f : Gang → Gang) : (s.modGang g f).dies = s.dies := by
  unfold State.modGang; split <;> rfl
@[simp] theorem State.modGang_pkg (s : State) (g : Nat) (f : Gang → Gang) : (s.modGang g f).pkg = s.pkg := by
  unfold State.modGang; split <;> rfl
@[simp] theorem State.modGang_cur (s : State) (g : Nat) (f : Gang → Gang) : (s.modGang g f).cur = s.cur := by
  unfold State.modGang; split <;> rfl
@[simp] theorem State.modGang_agenda (s : State) (g : Nat) (f : Gang → Gang) : (s.modGang g f).agenda = s.agenda := by
  unfold State.modGang; split <;> rfl
@[simp] theorem State.modGang_bgTurn (s : State) (g : Nat) (f : Gang → Gang) : (s.modGang g f).bgTurn = s.bgTurn := by
  unfold State.modGang; split <;> rfl
@[simp] theorem State.modGang_nextId (s : State) (g : Nat) (f : Gang → Gang) : (s.modGang g f).nextId = s.nextId := by
  unfold State.modGang; split <;> rfl
@[simp] theorem State.modGang_free (s : State) (g : Nat) (f : Gang → Gang) : (s.modGang g f).free = s.free := by
  unfold State.modGang; split <;> rfl

/-! ## Reading after an update -/

theorem CtxId.key_inj_of_slot {a b : CtxId} (ha : a.slot < 64) (hb : b.slot < 64) (h : CtxId.key a = CtxId.key b) :
    a = b := by
  cases a; cases b; simp only [CtxId.key] at *; simp only [CtxId.mk.injEq]; omega

@[simp] theorem State.ctx_setCtx_same (s : State) (c : CtxId) (x : Ctx) : (s.setCtx c x).ctx c = some x := by
  simp [State.ctx]

theorem State.ctx_setCtx_ne (s : State) {c d : CtxId} (x : Ctx) (h : CtxId.key d ≠ CtxId.key c) :
    (s.setCtx c x).ctx d = s.ctx d := by
  simp [State.ctx, Tbl.find_put_ne _ _ h]

theorem State.ctx_congr {s t : State} (h : s.ctxs = t.ctxs) (c : CtxId) : s.ctx c = t.ctx c := by simp [State.ctx, h]

@[simp] theorem State.ctx_setFold (s : State) (f : Nat) (x : Fold) (c : CtxId) : (s.setFold f x).ctx c = s.ctx c := rfl
@[simp] theorem State.ctx_modFold (s : State) (f : Nat) (g : Fold → Fold) (c : CtxId) :
    (s.modFold f g).ctx c = s.ctx c := rfl
@[simp] theorem State.ctx_setDie (s : State) (d : Nat) (x : Die) (c : CtxId) : (s.setDie d x).ctx c = s.ctx c := rfl
@[simp] theorem State.ctx_modDie (s : State) (d : Nat) (g : Die → Die) (c : CtxId) : (s.modDie d g).ctx c = s.ctx c := rfl
@[simp] theorem State.ctx_setGang (s : State) (g : Nat) (x : Gang) (c : CtxId) : (s.setGang g x).ctx c = s.ctx c := rfl
@[simp] theorem State.ctx_setPkg (s : State) (p : Pkg) (c : CtxId) : (s.setPkg p).ctx c = s.ctx c := rfl
@[simp] theorem State.ctx_wr (s : State) (k n v : Nat) (c : CtxId) : (s.wr k n v).ctx c = s.ctx c := rfl

theorem State.modCtx_eq {s : State} {c : CtxId} {x : Ctx} (h : s.ctx c = some x) (f : Ctx → Ctx) :
    s.modCtx c f = s.setCtx c (f x) := by simp [State.modCtx, h]

theorem State.modGang_eq {s : State} {g : Nat} {x : Gang} (h : s.gang g = some x) (f : Gang → Gang) :
    s.modGang g f = s.setGang g (f x) := by simp [State.modGang, h]

@[simp] theorem State.fold_setFold_same (s : State) (f : Nat) (x : Fold) : (s.setFold f x).fold f = x := by
  simp [State.fold]
theorem State.fold_setFold_ne (s : State) {f g : Nat} (x : Fold) (h : g ≠ f) : (s.setFold f x).fold g = s.fold g := by
  simp [State.fold, Tbl.get_put_ne _ _ _ h]
@[simp] theorem State.fold_modFold_same (s : State) (f : Nat) (g : Fold → Fold) : (s.modFold f g).fold f = g (s.fold f) :=
  by simp [State.modFold]
theorem State.fold_modFold_ne (s : State) {f h : Nat} (g : Fold → Fold) (e : h ≠ f) : (s.modFold f g).fold h = s.fold h :=
  by simp [State.modFold, State.fold_setFold_ne _ _ e]
@[simp] theorem State.fold_setCtx (s : State) (c : CtxId) (x : Ctx) (f : Nat) : (s.setCtx c x).fold f = s.fold f := rfl
@[simp] theorem State.fold_setDie (s : State) (d : Nat) (x : Die) (f : Nat) : (s.setDie d x).fold f = s.fold f := rfl
@[simp] theorem State.fold_modDie (s : State) (d : Nat) (g : Die → Die) (f : Nat) : (s.modDie d g).fold f = s.fold f := rfl
@[simp] theorem State.fold_setGang (s : State) (g : Nat) (x : Gang) (f : Nat) : (s.setGang g x).fold f = s.fold f := rfl
@[simp] theorem State.fold_setPkg (s : State) (p : Pkg) (f : Nat) : (s.setPkg p).fold f = s.fold f := rfl
@[simp] theorem State.fold_wr (s : State) (k n v f : Nat) : (s.wr k n v).fold f = s.fold f := rfl

@[simp] theorem State.die_setDie_same (s : State) (d : Nat) (x : Die) : (s.setDie d x).die d = x := by simp [State.die]
theorem State.die_setDie_ne (s : State) {d e : Nat} (x : Die) (h : e ≠ d) : (s.setDie d x).die e = s.die e := by
  simp [State.die, Tbl.get_put_ne _ _ _ h]
@[simp] theorem State.die_modDie_same (s : State) (d : Nat) (g : Die → Die) : (s.modDie d g).die d = g (s.die d) := by
  simp [State.modDie]
theorem State.die_modDie_ne (s : State) {d e : Nat} (g : Die → Die) (h : e ≠ d) : (s.modDie d g).die e = s.die e := by
  simp [State.modDie, State.die_setDie_ne _ _ h]
@[simp] theorem State.die_setCtx (s : State) (c : CtxId) (x : Ctx) (d : Nat) : (s.setCtx c x).die d = s.die d := rfl
@[simp] theorem State.die_setFold (s : State) (f : Nat) (x : Fold) (d : Nat) : (s.setFold f x).die d = s.die d := rfl
@[simp] theorem State.die_modFold (s : State) (f : Nat) (g : Fold → Fold) (d : Nat) : (s.modFold f g).die d = s.die d := rfl
@[simp] theorem State.die_setGang (s : State) (g : Nat) (x : Gang) (d : Nat) : (s.setGang g x).die d = s.die d := rfl
@[simp] theorem State.die_wr (s : State) (k n v d : Nat) : (s.wr k n v).die d = s.die d := rfl

@[simp] theorem State.gang_setGang_same (s : State) (g : Nat) (x : Gang) : (s.setGang g x).gang g = some x := by
  simp [State.gang]
theorem State.gang_setGang_ne (s : State) {g h : Nat} (x : Gang) (e : h ≠ g) : (s.setGang g x).gang h = s.gang h := by
  simp [State.gang, Tbl.find_put_ne _ _ e]
@[simp] theorem State.gang_setCtx (s : State) (c : CtxId) (x : Ctx) (g : Nat) : (s.setCtx c x).gang g = s.gang g := rfl
@[simp] theorem State.gang_setFold (s : State) (f : Nat) (x : Fold) (g : Nat) : (s.setFold f x).gang g = s.gang g := rfl
@[simp] theorem State.gang_modFold (s : State) (f : Nat) (g : Fold → Fold) (n : Nat) :
    (s.modFold f g).gang n = s.gang n := rfl
@[simp] theorem State.gang_modDie (s : State) (d : Nat) (g : Die → Die) (n : Nat) : (s.modDie d g).gang n = s.gang n := rfl

/-! ## The ports of a unit state -/

@[simp] theorem UnitState.unit_setUnit_same (us : UnitState) (u : Nat) (p : UPorts) : (us.setUnit u p).unit u = p := by
  simp [UnitState.unit, UnitState.setUnit]
theorem UnitState.unit_setUnit_ne (us : UnitState) {u v : Nat} (p : UPorts) (h : v ≠ u) :
    (us.setUnit u p).unit v = us.unit v := by
  simp [UnitState.unit, UnitState.setUnit, Tbl.get_put_ne _ _ _ h]
@[simp] theorem UnitState.setUnit_pend (us : UnitState) (u : Nat) (p : UPorts) : (us.setUnit u p).pend = us.pend := rfl
@[simp] theorem UnitState.setUnit_flags (us : UnitState) (u : Nat) (p : UPorts) : (us.setUnit u p).flags = us.flags := rfl
@[simp] theorem UnitState.setUnit_owners (us : UnitState) (u : Nat) (p : UPorts) : (us.setUnit u p).owners = us.owners :=
  rfl
@[simp] theorem UnitState.setUnit_xlBusy (us : UnitState) (u : Nat) (p : UPorts) : (us.setUnit u p).xlBusy = us.xlBusy :=
  rfl
@[simp] theorem UnitState.setUnit_sfTrap (us : UnitState) (u : Nat) (p : UPorts) : (us.setUnit u p).sfTrap = us.sfTrap :=
  rfl
@[simp] theorem UnitState.setUnit_fence (us : UnitState) (u : Nat) (p : UPorts) : (us.setUnit u p).fence = us.fence := rfl

end Sys2Proof.Machine
end

