-- ==== Sys2Proof/Laws/Issue.lean ====
section
/-! SUPPORT. What the issue of a bundle does when nothing stands before it (`State.Clear`), and what a cycle changes. -/

namespace Sys2Proof.Machine

/-! ## What the landing of a result changes (R16) -/

/-- The fields that a landing changes: the units' ports, the predicates and FP_CTL. -/
theorem Ctx.landOne_only (c : Ctx) (p : Pend) :
    ∃ u k x, c.landOne p = { c with us := { c.us with units := u }, k := k, fpCtl := x } := by
  unfold Ctx.landOne
  simp only
  split
  · split
    · exact ⟨_, _, _, rfl⟩
    · exact ⟨_, _, _, rfl⟩
  · exact ⟨_, _, _, rfl⟩

theorem Ctx.foldl_landOne_only (l : List Pend) (c : Ctx) :
    ∃ u k x, l.foldl Ctx.landOne c = { c with us := { c.us with units := u }, k := k, fpCtl := x } := by
  induction l generalizing c with
  | nil => exact ⟨_, _, _, rfl⟩
  | cons p r ih =>
    obtain ⟨u, k, x, h⟩ := Ctx.landOne_only c p
    obtain ⟨u', k', x', h'⟩ := ih (c.landOne p)
    rw [List.foldl_cons, h', h]
    exact ⟨_, _, _, rfl⟩

/-- The fields that the landings within `n` counted bundles change: those, the results in flight and what is due. -/
theorem Ctx.landWithin_only (c : Ctx) (n : Nat) :
    ∃ u q k x d, c.landWithin n =
      { c with us := { c.us with units := u, pend := q }, k := k, fpCtl := x, due := d } := by
  unfold Ctx.landWithin
  simp only
  split
  · exact ⟨_, _, _, _, _, rfl⟩
  · obtain ⟨u, k, x, h⟩ := Ctx.foldl_landOne_only (c.dueWithin n)
      { c with us := { c.us with pend := c.us.pend.filter (fun p => !decide (p.left < n)) } }
    rw [h]
    split
    · exact ⟨_, _, _, _, _, rfl⟩
    · exact ⟨_, _, _, _, _, rfl⟩

/-! ## A cycle -/

theorem State.ctx_map (s : State) (g : Nat → Ctx → Ctx) (c : CtxId) :
    ({ s with ctxs := s.ctxs.map (fun kv => (kv.1, g kv.1 kv.2)) } : State).ctx c =
      (s.ctx c).map (g (CtxId.key c)) := Tbl.find_map s.ctxs g _

/-- What a cycle of its fold leaves of a context that does not issue in it (R34, R190). -/
theorem Ctx.cycles_still (c : Ctx) (issued ready : Bool) (n : Nat) : (c.cycles issued ready n).still = c.still := by
  unfold Ctx.cycles
  split
  · rename_i k hk
    obtain ⟨u, q, m, x, d, h⟩ := Ctx.landWithin_only c (min k n)
    rw [h]
    simp only [Ctx.countDown, Ctx.still, hk]
  · rename_i k hk
    simp only [Ctx.still, hk]
  · rfl

theorem Ctx.still_stall (c : Ctx) (x : Tbl Nat) : ({ c with stall := x } : Ctx).still = c.still := by
  unfold Ctx.still
  simp only

theorem Fold.chargeMx_keeps (f : Fold) : ∃ m o, f.chargeMx = { f with mxc := m, mxcOvf := o } := by
  unfold Fold.chargeMx
  simp only
  split
  · exact ⟨_, _, rfl⟩
  · split
    · exact ⟨_, _, rfl⟩
    · split
      · exact ⟨_, _, rfl⟩
      · exact ⟨_, _, rfl⟩

theorem Fold.tick_still (f : Fold) (held : Bool) (smp : Sample) : (f.tick held smp).still = f.still := by
  obtain ⟨m, o, h⟩ := Fold.chargeMx_keeps f
  unfold Fold.tick
  cases held
  · rfl
  · simp only [if_true, h]; rfl

/-- What a cycle of a context's fold changes in a context (R34, R190, R386). -/
def Ctx.charged (c : Ctx) (mine issued ready : Bool) (idx : Nat) : Ctx :=
  if c.frozen then c
  else if mine then
    let t := { c with stall := Tbl.upd c.stall (teamIndex idx) 0 (fun x => (x + 1) % 2 ^ 48) }
    if issued then t else t.cycles false ready 1
  else c.cycles issued ready 1

theorem Ctx.charged_still (c : Ctx) (mine issued ready : Bool) (idx : Nat) :
    (c.charged mine issued ready idx).still = c.still := by
  unfold Ctx.charged
  split
  · rfl
  · split
    · simp only
      split
      · exact Ctx.still_stall c _
      · exact (Ctx.cycles_still _ _ _ _).trans (Ctx.still_stall c _)
    · exact Ctx.cycles_still _ _ _ _

/-- What a cycle charged to a context does to any context. -/
theorem State.chargeAs_ctx (s : State) (f : Nat) (who : Option Nat) (x : Sample) (issued : Bool) (idx : Nat)
    (id : CtxId) : ∃ ready, (s.chargeAs f who x issued idx).ctx id = (s.ctx id).map (fun c =>
      if CtxId.key id / 64 = f then c.charged (who == some (CtxId.key id % 64)) issued ready idx else c) := by
  refine ⟨(s.onFold f).any (fun kv => kv.1 != CtxId.key id % 64 && kv.2.ready), ?_⟩
  unfold State.chargeAs
  simp only
  rw [State.ctx, State.ctx]
  simp only [State.setFold_ctxs]
  rw [Tbl.find_map_pair]
  · congr 1
    funext c
    simp only [Ctx.charged, State.onFold]
    by_cases h1 : CtxId.key id / 64 = f <;> by_cases h2 : c.frozen = true <;>
      by_cases h3 : (who == some (CtxId.key id % 64)) = true <;> simp [h1, h2, h3]
  · intro kv; split <;> (try split) <;> rfl

@[simp] theorem State.chargeAs_mem (s : State) (f : Nat) (who : Option Nat) (x : Sample) (i : Bool) (idx : Nat) :
    (s.chargeAs f who x i idx).mem = s.mem := rfl
@[simp] theorem State.chargeAs_gangs (s : State) (f : Nat) (who : Option Nat) (x : Sample) (i : Bool) (idx : Nat) :
    (s.chargeAs f who x i idx).gangs = s.gangs := rfl
@[simp] theorem State.chargeAs_dies (s : State) (f : Nat) (who : Option Nat) (x : Sample) (i : Bool) (idx : Nat) :
    (s.chargeAs f who x i idx).dies = s.dies := rfl
@[simp] theorem State.chargeAs_pkg (s : State) (f : Nat) (who : Option Nat) (x : Sample) (i : Bool) (idx : Nat) :
    (s.chargeAs f who x i idx).pkg = s.pkg := rfl
@[simp] theorem State.chargeAs_cur (s : State) (f : Nat) (who : Option Nat) (x : Sample) (i : Bool) (idx : Nat) :
    (s.chargeAs f who x i idx).cur = s.cur := rfl
@[simp] theorem State.chargeAs_agenda (s : State) (f : Nat) (who : Option Nat) (x : Sample) (i : Bool) (idx : Nat) :
    (s.chargeAs f who x i idx).agenda = s.agenda := rfl
@[simp] theorem State.chargeAs_bgTurn (s : State) (f : Nat) (who : Option Nat) (x : Sample) (i : Bool) (idx : Nat) :
    (s.chargeAs f who x i idx).bgTurn = s.bgTurn := rfl
@[simp] theorem State.chargeAs_nextId (s : State) (f : Nat) (who : Option Nat) (x : Sample) (i : Bool) (idx : Nat) :
    (s.chargeAs f who x i idx).nextId = s.nextId := rfl
@[simp] theorem State.chargeAs_free (s : State) (f : Nat) (who : Option Nat) (x : Sample) (i : Bool) (idx : Nat) :
    (s.chargeAs f who x i idx).free = s.free := rfl
@[simp] theorem State.charge_mem (s : State) (f : Nat) (who : Option Nat) (pc : W64) (idx : Nat) :
    (s.charge f who pc idx).mem = s.mem := rfl
@[simp] theorem State.charge_gangs (s : State) (f : Nat) (who : Option Nat) (pc : W64) (idx : Nat) :
    (s.charge f who pc idx).gangs = s.gangs := rfl
@[simp] theorem State.charge_dies (s : State) (f : Nat) (who : Option Nat) (pc : W64) (idx : Nat) :
    (s.charge f who pc idx).dies = s.dies := rfl
@[simp] theorem State.charge_pkg (s : State) (f : Nat) (who : Option Nat) (pc : W64) (idx : Nat) :
    (s.charge f who pc idx).pkg = s.pkg := rfl
@[simp] theorem State.charge_cur (s : State) (f : Nat) (who : Option Nat) (pc : W64) (idx : Nat) :
    (s.charge f who pc idx).cur = s.cur := rfl
@[simp] theorem State.charge_agenda (s : State) (f : Nat) (who : Option Nat) (pc : W64) (idx : Nat) :
    (s.charge f who pc idx).agenda = s.agenda := rfl
@[simp] theorem State.charge_bgTurn (s : State) (f : Nat) (who : Option Nat) (pc : W64) (idx : Nat) :
    (s.charge f who pc idx).bgTurn = s.bgTurn := rfl
@[simp] theorem State.charge_nextId (s : State) (f : Nat) (who : Option Nat) (pc : W64) (idx : Nat) :
    (s.charge f who pc idx).nextId = s.nextId := rfl
@[simp] theorem State.charge_free (s : State) (f : Nat) (who : Option Nat) (pc : W64) (idx : Nat) :
    (s.charge f who pc idx).free = s.free := rfl

theorem State.chargeAs_fold_still (s : State) (f : Nat) (who : Option Nat) (x : Sample) (i : Bool) (idx g : Nat) :
    ((s.chargeAs f who x i idx).fold g).still = (s.fold g).still := by
  unfold State.chargeAs
  simp only
  by_cases h : g = f
  · subst h
    refine Eq.trans (b := ((s.setFold g _).fold g).still) rfl ?_
    rw [State.fold_setFold_same]
    exact Fold.tick_still _ (s.engineHeld g) x
  · refine Eq.trans (b := ((s.setFold f _).fold g).still) rfl ?_
    rw [State.fold_setFold_ne _ _ h]

/-! ## The frame as a relation -/

theorem State.Frame.rfl' (s : State) : s.Frame s :=
  ⟨fun _ => rfl, fun _ _ => rfl, fun _ => rfl, rfl, rfl, rfl, rfl, rfl, rfl, rfl, rfl⟩

theorem State.Frame.trans' {s t u : State} (h : s.Frame t) (k : t.Frame u) : s.Frame u :=
  ⟨fun a => (k.mem a).trans (h.mem a), fun id e => (k.ctxs id (h.cur ▸ e)).trans (h.ctxs id e),
    fun f => (k.folds f).trans (h.folds f), k.gangs.trans h.gangs, k.dies.trans h.dies, k.pkg.trans h.pkg,
    k.cur.trans h.cur, k.agenda.trans h.agenda, k.bgTurn.trans h.bgTurn, k.nextId.trans h.nextId, k.free.trans h.free⟩

theorem State.setCtx_frame (s : State) (c : Ctx) : s.Frame (s.setCtx s.cur c) :=
  ⟨fun _ => rfl, fun id h => by rw [State.ctx_setCtx_ne s c h], fun _ => rfl, rfl, rfl, rfl, rfl, rfl, rfl, rfl, rfl⟩

theorem State.modFold_frame (s : State) (f : Nat) (g : Fold → Fold) (h : (g (s.fold f)).still = (s.fold f).still) :
    s.Frame (s.modFold f g) := by
  refine ⟨fun _ => rfl, fun _ _ => rfl, fun k => ?_, rfl, rfl, rfl, rfl, rfl, rfl, rfl, rfl⟩
  by_cases e : k = f
  · subst e; rw [State.fold_modFold_same, h]
  · rw [State.fold_modFold_ne s g e]

theorem State.chargeAs_frame (s : State) (f : Nat) (who : Option Nat) (x : Sample) (i : Bool) (idx : Nat) :
    s.Frame (s.chargeAs f who x i idx) := by
  refine ⟨fun _ => rfl, fun id _ => ?_, fun g => State.chargeAs_fold_still s f who x i idx g, rfl, rfl, rfl, rfl, rfl,
    rfl, rfl, rfl⟩
  obtain ⟨r, h⟩ := State.chargeAs_ctx s f who x i idx id
  rw [h]
  cases s.ctx id with
  | none => rfl
  | some c =>
    simp only [Option.map_some]
    split
    · rw [Ctx.charged_still]
    · rfl

/-- The cycle of a bundle's first pass, and the record of its others, change nothing else (R145). -/
theorem State.firstPass_frame (s : State) (id : CtxId) (c : Ctx) (pc : W64) (n : Nat) : s.Frame (s.firstPass id c pc n) := by
  unfold State.firstPass
  simp only
  split
  · exact State.chargeAs_frame _ _ _ _ _ _
  · exact (State.modFold_frame s _ _ (by rfl)).trans' (State.chargeAs_frame _ _ _ _ _ _)

theorem State.firstPass_ctx (s : State) (id : CtxId) (c : Ctx) (pc : W64) (n : Nat) :
    ∃ ready, (s.firstPass id c pc n).ctx id = (s.ctx id).map (fun x =>
      if CtxId.key id / 64 = id.fold then x.charged (some id.slot == some (CtxId.key id % 64)) true ready 0 else x) := by
  unfold State.firstPass
  simp only
  split <;> exact State.chargeAs_ctx _ _ _ _ _ _ _

/-! ## An observed completion (R220, R267) -/

/-- The set of words of a line's self-invalidating copies holds each of their numbers. -/
theorem siWords_mem (l : Tbl (Nat × List Byte)) (m : BitVec 32) (i : Nat) (hi : i < 32) :
    (l.foldl (fun m kv => m ||| BitVec.ofNat 32 (2 ^ kv.1)) m).getLsbD i =
      (m.getLsbD i || l.any (fun kv => kv.1 == i)) := by
  induction l generalizing m with
  | nil => simp
  | cons kv r ih =>
    rw [List.foldl_cons, ih, List.any_cons, BitVec.getLsbD_or, ← Bool.or_assoc]
    congr 2
    rw [BitVec.getLsbD_ofNat, Nat.testBit_two_pow, decide_eq_true hi, Bool.true_and]
    rfl

/-- Dropping a line's self-invalidating words twice is dropping them once. -/
theorem L1Line.drop_drop (x : L1Line) :
    (x.drop x.siWords true).drop (x.drop x.siWords true).siWords true = x.drop x.siWords true := by
  have zero : ∀ i, (0 : BitVec 32).getLsbD i = false := by intro i; exact BitVec.getLsbD_zero
  have key : (x.drop x.siWords true).siWords = 0 := by
    apply BitVec.eq_of_getLsbD_eq
    intro i hi
    simp only [L1Line.siWords, L1Line.drop, if_true]
    rw [siWords_mem _ _ i hi]
    rw [zero, Bool.false_or, List.any_eq_false]
    intro kv hkv
    obtain ⟨h1, h2⟩ := List.mem_filter.mp hkv
    intro e
    have e' : kv.1 = i := by simpa using e
    rw [e', siWords_mem _ _ i hi] at h2
    have : x.si.any (fun kv => kv.1 == i) = true := List.any_eq_true.mpr ⟨kv, h1, by simp [e']⟩
    simp [this] at h2
  have z : ∀ w : BitVec 128, w &&& ~~~wordBytes 0 = w := by
    rw [show wordBytes 0 = 0 by decide]
    intro w
    rw [show ~~~(0 : BitVec 128) = BitVec.allOnes 128 by decide, BitVec.and_allOnes]
  have o : ∀ w : BitVec 32, w &&& ~~~0 = w := by
    intro w
    rw [show ~~~(0 : BitVec 32) = BitVec.allOnes 32 by decide, BitVec.and_allOnes]
  rw [key]
  unfold L1Line.drop
  simp only [if_true, z, o, zero, Bool.not_false, List.filter_true]

@[simp] theorem Fold.dropSi_dropSi (f : Fold) : f.dropSi.dropSi = f.dropSi := by
  unfold Fold.dropSi
  simp only
  congr 1
  generalize f.l1 = l
  induction l with
  | nil => rfl
  | cons x r ih =>
    simp only [List.map_cons, List.filter_cons]
    split
    · rename_i h
      rw [List.map_cons, List.filter_cons, L1Line.drop_drop, if_pos h, ih]
    · exact ih

/-- An observed completion changes the fold's self-invalidating copies and nothing else. -/
theorem State.observe_frame (s : State) (c : Ctx) (b : Bundle) : s.Frame (s.observe s.cur c b) := by
  unfold State.observe
  split
  · refine State.modFold_frame s _ _ ?_
    unfold Fold.still
    rw [Fold.dropSi_dropSi]
  · exact State.Frame.rfl' s

@[simp] theorem State.observe_ctx (s : State) (i : CtxId) (c : Ctx) (b : Bundle) (id : CtxId) :
    (s.observe i c b).ctx id = s.ctx id := by
  unfold State.observe
  split <;> rfl

/-! ## Issue of a bundle that nothing stands before -/

/-- The fields of a context that landing a result leaves. -/
theorem Ctx.landOne_keeps (c : Ctx) (p : Pend) :
    (c.landOne p).loop = c.loop ∧ (c.landOne p).tid = c.tid ∧ (c.landOne p).frozen = c.frozen ∧
      (c.landOne p).stopped = c.stopped ∧ (c.landOne p).wait = c.wait ∧ (c.landOne p).tstatus = c.tstatus ∧
      (c.landOne p).memq = c.memq ∧ (c.landOne p).pc = c.pc ∧ (c.landOne p).shadow = c.shadow ∧
      (c.landOne p).g = c.g ∧ (c.landOne p).s = c.s ∧ (c.landOne p).live = c.live ∧
      (c.landOne p).nlanes = c.nlanes ∧ (c.landOne p).sched = c.sched := by
  unfold Ctx.landOne
  simp only
  split
  · split <;> simp
  · simp

theorem Ctx.foldl_landOne_keeps (l : List Pend) (c : Ctx) :
    (l.foldl Ctx.landOne c).loop = c.loop ∧ (l.foldl Ctx.landOne c).tid = c.tid ∧
      (l.foldl Ctx.landOne c).frozen = c.frozen ∧
      (l.foldl Ctx.landOne c).stopped = c.stopped ∧ (l.foldl Ctx.landOne c).wait = c.wait ∧
      (l.foldl Ctx.landOne c).tstatus = c.tstatus ∧ (l.foldl Ctx.landOne c).memq = c.memq ∧
      (l.foldl Ctx.landOne c).pc = c.pc ∧ (l.foldl Ctx.landOne c).shadow = c.shadow ∧
      (l.foldl Ctx.landOne c).g = c.g ∧ (l.foldl Ctx.landOne c).s = c.s ∧
      (l.foldl Ctx.landOne c).live = c.live ∧ (l.foldl Ctx.landOne c).nlanes = c.nlanes ∧
      (l.foldl Ctx.landOne c).sched = c.sched := by
  induction l generalizing c with
  | nil => simp
  | cons p r ih =>
    obtain ⟨h1, h2, h3, h4, h5, h6, h7, h8, h9, h10, h11, h12, h13, h14⟩ := ih (c.landOne p)
    obtain ⟨k1, k2, k3, k4, k5, k6, k7, k8, k9, k10, k11, k12, k13, k14⟩ := Ctx.landOne_keeps c p
    simp only [List.foldl_cons]
    exact ⟨h1.trans k1, h2.trans k2, h3.trans k3, h4.trans k4, h5.trans k5, h6.trans k6, h7.trans k7, h8.trans k8,
      h9.trans k9, h10.trans k10, h11.trans k11, h12.trans k12, h13.trans k13, h14.trans k14⟩

/-- The fields of a context that a landing leaves (R16: it changes R, carry latches, predicates, FP_CTL and what is
due). -/
theorem Ctx.land_keeps (c : Ctx) :
    c.land.loop = c.loop ∧ c.land.tid = c.tid ∧ c.land.frozen = c.frozen ∧ c.land.stopped = c.stopped ∧
      c.land.wait = c.wait ∧ c.land.tstatus = c.tstatus ∧ c.land.memq = c.memq ∧ c.land.pc = c.pc ∧
      c.land.shadow = c.shadow ∧ c.land.g = c.g ∧ c.land.s = c.s ∧ c.land.live = c.live ∧
      c.land.nlanes = c.nlanes ∧ c.land.sched = c.sched := by
  unfold Ctx.land
  split
  · simp
  · unfold Ctx.landWithin
    simp only
    split
    · simp
    · split
      · exact Ctx.foldl_landOne_keeps _ _
      · exact Ctx.foldl_landOne_keeps _ _

/-- No pending trap of SF joins the traps that are due when the bundle does not meet it. -/
theorem Ctx.meetSf_clear {c : Ctx} {b : Bundle} (h : ∀ t, c.us.sfTrap = some t → c.meetsSf b t = false) :
    c.meetSf b = c := by
  have e : c.us.sfTrap.filter (c.meetsSf b) = none := by
    cases e : c.us.sfTrap with
    | none => rfl
    | some t => simp [Option.filter, h t e]
  unfold Ctx.meetSf
  rw [e]

/-- Nothing of the team holds the bundle back before its traps are looked at. -/
theorem State.waitFirst_clear {s : State} {c0 : Ctx} {b : Bundle} (h : s.Clear c0 b) :
    s.waitFirst s.cur c0.land b = none := by
  unfold State.waitFirst
  rw [h.full]
  have e : (c0.land.afterStores b && s.storesOut s.cur c0.land) = false := by
    cases e : c0.land.afterStores b
    · rfl
    · rw [h.stores e]; rfl
  simp only [e, Bool.false_eq_true, if_false]
  split
  · rename_i e; rw [h.loads e]; rfl
  · rfl

theorem State.waits_clear {s : State} {c0 : Ctx} {b : Bundle} (h : s.Clear c0 b) : c0.land.waits b = [] := by
  unfold Ctx.waits
  split
  · rename_i e; exact h.flags e
  · rfl

/-- Nothing holds it back after them. -/
theorem State.waitThen_clear {s : State} {c0 : Ctx} {b : Bundle} (h : s.Clear c0 b) :
    s.waitThen s.cur c0.land b = none := by
  unfold State.waitThen
  rw [State.waits_clear h]
  have h3 := h.held
  have h4 := h.wide
  cases e : c0.land.trigs b (fun u _ => u == U.st || u == U.at_) <;>
    cases e' : c0.land.trigs b (fun u o => u == 10 && 0x40 ≤ o) <;> simp only [e, e'] at h3 h4 <;>
    simp [Nat.not_le.mpr, Nat.not_lt.mpr, h3, h4]

/-- The bundle reads FP_CTL through its operations alone (R126). -/
theorem State.verdict_fpCtl (s : State) (id : CtxId) (c : Ctx) (b : Bundle) (x : W64) :
    s.verdict id { c with fpCtl := x } b = s.verdict id c b := rfl

/-- A bundle before which nothing stands executes. -/
theorem State.verdict_clear {s : State} {c0 : Ctx} {b : Bundle} (h : s.Clear c0 b) (x : Ctx) :
    (s.setCtx s.cur x).verdict s.cur c0.land b = .go := by
  have w1 : (s.setCtx s.cur x).waitFirst s.cur c0.land b = none := by
    have e := State.waitFirst_clear h; exact e
  have w2 : (s.setCtx s.cur x).waitThen s.cur c0.land b = none := by
    have e := State.waitThen_clear h; exact e
  have hb : (s.setCtx s.cur x).breaks s.cur c0.land = false := h.brk
  have hx : c0.land.failing b ((s.setCtx s.cur x).busyXl s.cur c0.land b) = [] := by
    unfold State.busyXl
    rw [w1, w2]
    simp only [Option.isNone_none, Bool.and_true, Bool.or_true]
    exact h.checks
  have ha : (s.setCtx s.cur x).acqOut s.cur c0.land = none := h.acq
  have hd : c0.land.deadWait b = false := by
    unfold Ctx.deadWait
    rw [State.waits_clear h]
    rfl
  unfold State.verdict
  dsimp only
  simp only [hx, w1, w2, hb, ha, hd, h.fence, h.token, lowestCause, Ctx.dueFirst, h.due,
    Option.isSome_none, Bool.false_eq_true, if_false]
  cases hm : c0.land.meetsSfb b
  · rfl
  · rw [h.sfb hm]

/-- Every landing leaves in FP_CTL the sticky bits of its exceptions (R113). -/
theorem Ctx.landOne_sticks (c : Ctx) (p : Pend) :
    (c.landOne p).fpCtl = stick c.fpCtl (excUnion (p.mask &&& c.live) c.nlanes p.excs) := by
  unfold Ctx.landOne
  simp only
  split
  · split <;> rfl
  · rfl

theorem stick_or (x : W64) (a b : BitVec 5) : stick (stick x a) b = stick x (a ||| b) := by
  unfold stick
  ext i hi
  simp only [BitVec.getElem_or, BitVec.getElem_setWidth, BitVec.getLsbD_or]
  rw [Bool.or_assoc]

/-- The sticky bits of a list of landings (R113). -/
theorem Ctx.foldl_landOne_sticks (l : List Pend) (c : Ctx) (e : BitVec 5) (x : W64) (h : c.fpCtl = stick x e) :
    (l.foldl Ctx.landOne c).fpCtl =
      stick x (l.foldl (fun acc p => acc ||| excUnion (p.mask &&& c.live) c.nlanes p.excs) e) := by
  induction l generalizing c e with
  | nil => exact h
  | cons p r ih =>
    obtain ⟨k1, k2, k3, k4, k5, k6, k7, k8, k9, k10, k11, k12, k13, k14⟩ := Ctx.landOne_keeps c p
    simp only [List.foldl_cons]
    rw [ih (c.landOne p) (e ||| excUnion (p.mask &&& c.live) c.nlanes p.excs)
      (by rw [Ctx.landOne_sticks, h, stick_or]), k12, k13]

/-- The landing before a bundle sets the sticky bits that the bundle's issue sets again (R113, R126). -/
theorem Ctx.land_sticks {c : Ctx} (hw : c.wait = .ready) : c.land.fpCtl = stick c.fpCtl (c.excBits (c.dueWithin 1)) := by
  have z : stick c.fpCtl 0 = c.fpCtl := by simp [stick]
  unfold Ctx.land
  rw [hw]
  simp only [Ctx.landWithin]
  split
  · rename_i e
    rw [List.isEmpty_iff.mp e]
    exact z.symm
  · split
    · exact Ctx.foldl_landOne_sticks _ _ 0 _ z.symm
    · exact Ctx.foldl_landOne_sticks _ _ 0 _ z.symm

/-- The sticky bits set after a bundle change nothing but the context's FP_CTL (R126). -/
theorem State.restick_frame (t : State) (c0 : Ctx) : t.Frame (t.restick t.cur c0) := by
  unfold State.restick State.modCtx
  simp only
  split
  · exact State.Frame.rfl' t
  · split
    · exact State.Frame.rfl' t
    · exact State.setCtx_frame t _

/-- A bundle whose operation leaves FP_CTL as the landing left it finds the sticky bits set already (R126). -/
theorem State.restick_ctx {t : State} {id : CtxId} {c0 x : Ctx} (hw : c0.wait = .ready) (hx : t.ctx id = some x)
    (hf : x.fpCtl = c0.land.fpCtl) : (t.restick id c0).ctx id = some x := by
  have e : stick x.fpCtl (c0.excBits (c0.dueWithin 1)) = x.fpCtl := by
    rw [hf, Ctx.land_sticks hw, stick_or, BitVec.or_self]
  unfold State.restick
  simp only
  split
  · exact hx
  · rw [State.modCtx_eq hx, State.ctx_setCtx_same, e, ite_self]

/-- The context with which a bundle executes that nothing stands before: its results landed, and FP_CTL without their
sticky bits when the bundle has a register operation (R16, R126). -/
def Ctx.atBundle (c0 : Ctx) (b : Bundle) : Ctx := c0.land.unstick c0 b

/-- A bundle without a register operation finds the landed context. -/
theorem Ctx.atBundle_land {c0 : Ctx} {b : Bundle}
    (h : c0.land.trigs b (fun u o => u == U.sv && decide (o ≤ 3)) = false) : c0.atBundle b = c0.land := by
  unfold Ctx.atBundle Ctx.unstick
  rw [h]
  rfl

theorem State.issue_clear {s : State} {c0 : Ctx} {b : Bundle} (us : Units) (h : s.Clear c0 b)
    (room : (s.setCtx s.cur (c0.atBundle b)).noRoom us b s.cur (c0.atBundle b) = none) :
    s.issue us b s.cur = (((s.setCtx s.cur (c0.atBundle b)).commit us b s.cur (c0.atBundle b)).restick s.cur c0).observe
      s.cur (c0.atBundle b) b := by
  have hv : (s.setCtx s.cur (c0.atBundle b)).verdict s.cur (c0.atBundle b) b = .go := by
    have e : ∃ x, c0.atBundle b = { c0.land with fpCtl := x } := by
      unfold Ctx.atBundle Ctx.unstick
      split
      · exact ⟨_, rfl⟩
      · exact ⟨c0.land.fpCtl, rfl⟩
    obtain ⟨x, e⟩ := e
    have := State.verdict_clear h (c0.atBundle b)
    rw [← State.verdict_fpCtl _ _ _ _ x, ← e] at this
    exact this
  unfold State.issue
  simp only [h.here, Ctx.meetSf_clear h.sf]
  unfold Ctx.atBundle at hv room ⊢
  simp only [hv, room]

theorem State.canIssue_clear {s : State} {c0 : Ctx} {b : Bundle} (h : s.Clear c0 b) : s.canIssue = true := by
  simp [State.canIssue, h.here, h.ready]

theorem firstShort_zero (l : List Trig) (n : Nat) : firstShort (fun _ => some 0) n l = none := by
  induction l generalizing n with
  | nil => rfl
  | cons t r ih => simp [firstShort, ih]

/-- A trigger row executes when nothing stands before its bundle. -/
theorem issueOne_clear {s : State} {c0 : Ctx} {w : W32} (st : Start) (h : s.Clear c0 (Bundle.one w s.curPc)) :
    issueOne w st s = .next ((((s.setCtx s.cur (c0.atBundle (Bundle.one w s.curPc))).commit
      { start := fun _ => st, need := fun _ _ _ => some 0 } (Bundle.one w s.curPc) s.cur
      (c0.atBundle (Bundle.one w s.curPc))).restick s.cur c0).observe s.cur (c0.atBundle (Bundle.one w s.curPc))
      (Bundle.one w s.curPc)) := by
  unfold issueOne issueBundle
  rw [State.canIssue_clear h, if_pos rfl, State.issue_clear _ h]
  exact firstShort_zero _ _

/-- An engine row executes when nothing stands before its bundle and its engine has room (R305, R315). -/
theorem issueEngine_clear {s : State} {c0 : Ctx} {w : W32} (st : Start) (need : State → CtxId → Trig → Option Nat)
    (h : s.Clear c0 (Bundle.one w s.curPc))
    (room : (s.setCtx s.cur (c0.atBundle (Bundle.one w s.curPc))).noRoom { start := fun _ => st, need := need }
      (Bundle.one w s.curPc) s.cur (c0.atBundle (Bundle.one w s.curPc)) = none) :
    issueEngine w st need s = .next ((((s.setCtx s.cur (c0.atBundle (Bundle.one w s.curPc))).commit
      { start := fun _ => st, need := need } (Bundle.one w s.curPc) s.cur
      (c0.atBundle (Bundle.one w s.curPc))).restick s.cur c0).observe s.cur (c0.atBundle (Bundle.one w s.curPc))
      (Bundle.one w s.curPc)) := by
  unfold issueEngine issueBundle
  rw [State.canIssue_clear h, if_pos rfl, State.issue_clear _ h room]

/-! ## The bundle of one trigger -/

@[simp] theorem Ctx.after_us (c : Ctx) (b : Bundle) (n : Nat) (us : UnitState) : (c.after b n us).us = us := rfl
@[simp] theorem Ctx.after_tid (c : Ctx) (b : Bundle) (n : Nat) (us : UnitState) : (c.after b n us).tid = c.tid := rfl
@[simp] theorem Ctx.after_loop (c : Ctx) (b : Bundle) (n : Nat) (us : UnitState) : (c.after b n us).loop = c.loop := rfl
@[simp] theorem Ctx.after_tstatus (c : Ctx) (b : Bundle) (n : Nat) (us : UnitState) :
    (c.after b n us).tstatus = c.tstatus := rfl
@[simp] theorem Ctx.after_memq (c : Ctx) (b : Bundle) (n : Nat) (us : UnitState) : (c.after b n us).memq = c.memq := rfl
@[simp] theorem Ctx.after_nlanes (c : Ctx) (b : Bundle) (n : Nat) (us : UnitState) :
    (c.after b n us).nlanes = c.nlanes := rfl
@[simp] theorem Ctx.after_live (c : Ctx) (b : Bundle) (n : Nat) (us : UnitState) : (c.after b n us).live = c.live := rfl
@[simp] theorem Ctx.after_pc (c : Ctx) (b : Bundle) (n : Nat) (us : UnitState) : (c.after b n us).pc = b.next := rfl
@[simp] theorem Ctx.after_gang (c : Ctx) (b : Bundle) (n : Nat) (us : UnitState) : (c.after b n us).gang = c.gang := rfl
@[simp] theorem Ctx.after_shadow (c : Ctx) (b : Bundle) (n : Nat) (us : UnitState) :
    (c.after b n us).shadow = c.shadow := rfl
@[simp] theorem Ctx.after_role (c : Ctx) (b : Bundle) (n : Nat) (us : UnitState) : (c.after b n us).role = c.role := rfl
@[simp] theorem Ctx.after_wait (c : Ctx) (b : Bundle) (n : Nat) (us : UnitState) : (c.after b n us).wait = c.wait := rfl
@[simp] theorem Ctx.after_ops (c : Ctx) (b : Bundle) (n : Nat) (us : UnitState) : (c.after b n us).ops = c.ops := rfl
@[simp] theorem Ctx.after_s (c : Ctx) (b : Bundle) (n : Nat) (us : UnitState) : (c.after b n us).s = c.s := rfl
@[simp] theorem Ctx.after_barMem (c : Ctx) (b : Bundle) (n : Nat) (us : UnitState) :
    (c.after b n us).barMem = c.barMem := rfl
@[simp] theorem Ctx.after_ringMem (c : Ctx) (b : Bundle) (n : Nat) (us : UnitState) :
    (c.after b n us).ringMem = c.ringMem := rfl
@[simp] theorem Ctx.after_budget (c : Ctx) (b : Bundle) (n : Nat) (us : UnitState) :
    (c.after b n us).budget = c.budget := rfl

theorem startOrder_one (x : Move × Trig) : startOrder [x] = [x] := by
  unfold startOrder
  by_cases h1 : x.1.dunit = U.br <;> by_cases h2 : x.1.dunit = U.sy <;> by_cases h3 : x.1.dunit = U.mx <;>
    by_cases h4 : x.1.dsel = 0x38 <;> by_cases h5 : x.1.dsel = 0x39 <;> by_cases h6 : x.1.dsel = 0x50 <;>
    simp_all [U.br, U.sy, U.mx]

/-- The state in which the operation of the one move of a bundle starts. -/
def State.begun (s : State) (id : CtxId) (c : Ctx) (b : Bundle) (m : Move) : State :=
  s.setCtx id (c.after b (s.fold id.fold).cycle (c.begun b m))

theorem State.begun_ctx (s : State) (id : CtxId) (c : Ctx) (b : Bundle) (m : Move) :
    (s.begun id c b m).ctx id = some (c.after b (s.fold id.fold).cycle (c.begun b m)) := by
  simp [State.begun]

theorem State.begun_frame (s : State) (c : Ctx) (b : Bundle) (m : Move) : s.Frame (s.begun s.cur c b m) :=
  State.setCtx_frame s _

theorem Ctx.write_trig (c : Ctx) (m : Move) (ht : m.isTrig = true) (hg : c.guardMask m ≠ 0) (v : Nat → W64) :
    c.write m (c.guardMask m) v = { c with us := c.us.setUnit m.dunit { c.us.unit m.dunit with
      held := writeVals (uniformPort m.dunit 3) c.nlanes (c.guardMask m) (c.us.unit m.dunit).held (fun l _ => v l) } } := by
  simp only [Move.isTrig, Bool.and_eq_true, beq_iff_eq, bne_iff_ne] at ht
  unfold Ctx.write
  rw [if_neg hg, if_neg ht.2]
  simp only [ht.1]

theorem Ctx.trigsOf_one {c : Ctx} {b : Bundle} {m : Move} (hm : b.moves = [m]) (hx : b.isExt = false)
    (ht : m.isTrig = true) (hg : c.guardMask m ≠ 0) : c.trigsOf b = [(m, c.trigOf b m)] := by
  have hb : (c.guardMask m != 0) = true := by rw [bne_iff_ne]; exact hg
  simp only [Ctx.trigsOf, Ctx.trigOf, hm, hx, List.filter_cons, ht, hb, Bool.and_self, if_true, List.filter_nil,
    List.map_cons, List.map_nil, Bool.false_eq_true, if_false]

theorem Ctx.issued_one {c : Ctx} {b : Bundle} {m : Move} (hm : b.moves = [m]) (hx : b.isExt = false)
    (ht : m.isTrig = true) (hg : c.guardMask m ≠ 0) (now : Nat) :
    c.issued b [(m, c.trigOf b m)] now = c.after b now (c.begun b m) := by
  unfold Ctx.issued
  simp only [hm, Ctx.doMoves, setFlags, hx, List.foldl_cons, List.foldl_nil, Bool.false_eq_true, if_false]
  rw [Ctx.write_trig c m ht hg]
  rfl

/-- A bundle of one trigger: the operation starts in `begun`; what follows it is the count of the bundle and the cycle. -/
theorem State.commit_one {s : State} {us : Units} {id : CtxId} {c c2 : Ctx} {b : Bundle} {m : Move}
    (hm : b.moves = [m]) (hx : b.isExt = false) (ht : m.isTrig = true) (hg : c.guardMask m ≠ 0)
    (h2 : (us.start m (s.begun id c b m) id (c.trigOf b m)).ctx id = some c2) (htid : c2.tid = c.tid) :
    s.commit us b id c = ((us.start m (s.begun id c b m) id (c.trigOf b m)).setCtx id
      (c2.afterBundle c b 1).stepOver).firstPass id (c.after b (s.fold id.fold).cycle (c.begun b m)) b.pc
      (Lanes.passes c.live c.nlanes).length := by
  unfold State.commit
  simp only [Ctx.trigsOf_one hm hx ht hg, Ctx.issued_one hm hx ht hg, startOrder_one, List.foldl_cons, List.foldl_nil]
  rw [show s.setCtx id (c.after b (s.fold id.fold).cycle (c.begun b m)) = s.begun id c b m from rfl]
  simp only [h2, htid, if_true]

/-- The memory moves that a bundle queued, in the order of its passes (R145). -/
def queued (old new : List MemOp) : List MemOp :=
  new.take old.length ++ (new.drop old.length).foldl (fun acc m => insPass m acc) []

theorem queued_self (l : List MemOp) : queued l l = l := by simp [queued]

/-- What follows a bundle's operation when no loop step runs: the counts of the results in flight, and the trap of a
single step. -/
theorem Ctx.afterBundle_is {c c2 : Ctx} {b : Bundle} (hl : c2.loop = c.loop)
    (hs : ∀ q, c.loop = some q → q.started = false) (ht : c2.tstatus = c.tstatus) :
    (c2.afterBundle c b 1).stepOver.Is { c2 with us := c2.us.ticked, memq := queued c.memq c2.memq } := by
  have key : ∀ x : Ctx, x.loop = c.loop → x.stepOver = x := by
    intro x hx
    unfold Ctx.stepOver
    rw [hx]
    cases e : c.loop with
    | none => rfl
    | some q => simp [hs q e]
  unfold Ctx.afterBundle
  simp only [Ctx.countDown, hl]
  cases e : c.loop with
  | none =>
    simp only
    split
    · rename_i hb
      split
      · rw [key _ (by simp [Ctx.addDue, e])]
        exact ⟨by simp [Ctx.addDue, UnitState.ticked, queued], fun h => absurd (ht ▸ hb) (by simpa using h)⟩
      · split
        · rw [key _ (by simp [Ctx.addDue, e])]
          exact ⟨by simp [Ctx.addDue, UnitState.ticked, queued], fun h => absurd (ht ▸ hb) (by simpa using h)⟩
        · rw [key _ (by simp [e])]
          exact ⟨by simp [UnitState.ticked, queued], fun _ => rfl⟩
    · rw [key _ (by simp [e])]
      exact ⟨by simp [UnitState.ticked, queued], fun _ => rfl⟩
  | some q =>
    simp only [hs q e, Bool.false_and, Bool.false_eq_true, if_false]
    split
    · rename_i hb
      split
      · rw [key _ (by simp [Ctx.addDue, e])]
        exact ⟨by simp [Ctx.addDue, UnitState.ticked, queued], fun h => absurd (ht ▸ hb) (by simpa using h)⟩
      · split
        · rw [key _ (by simp [Ctx.addDue, e])]
          exact ⟨by simp [Ctx.addDue, UnitState.ticked, queued], fun h => absurd (ht ▸ hb) (by simpa using h)⟩
        · rw [key _ (by simp [e])]
          exact ⟨by simp [UnitState.ticked, queued], fun _ => rfl⟩
    · rw [key _ (by simp [e])]
      exact ⟨by simp [UnitState.ticked, queued], fun _ => rfl⟩

theorem Bundle.one_isExt (w : W32) (pc : W64) : (Bundle.one w pc).isExt = false := by
  simp [Bundle.isExt, Bundle.one, bits]

theorem Ctx.Is.restall {x y : Ctx} (h : x.Is y) (st : Tbl Nat) : ({ x with stall := st } : Ctx).Is y := by
  obtain ⟨e1, e2⟩ := h
  refine ⟨?_, e2⟩
  rw [e1]

/-- What a cycle that a context issues in leaves of it. -/
theorem Ctx.charged_mine {x y : Ctx} (h : x.Is y) (r : Bool) (idx : Nat) : (x.charged true true r idx).Is y := by
  unfold Ctx.charged
  split
  · exact h
  · exact h.restall _

theorem CtxId.key_split {c : CtxId} (h : c.slot ≤ CtxId.shadowSlot) :
    CtxId.key c / 64 = c.fold ∧ CtxId.key c % 64 = c.slot := by
  simp only [CtxId.key, CtxId.shadowSlot] at *; omega

/-- The state of a context after the first cycle that its bundle takes, and what the cycle leaves of the rest. -/
theorem State.close_bundle (s u : State) (x c y : Ctx) (pc : W64) (n : Nat) (hcur : u.cur = s.cur)
    (hp : s.cur.slot ≤ CtxId.shadowSlot) (h : c.Is y) :
    ∃ c', ((u.setCtx s.cur c).firstPass s.cur x pc n).ctx s.cur = some c' ∧ c'.Is y ∧
      u.Frame ((u.setCtx s.cur c).firstPass s.cur x pc n) := by
  obtain ⟨r, hr⟩ := State.firstPass_ctx (u.setCtx s.cur c) s.cur x pc n
  obtain ⟨e1, e2⟩ := CtxId.key_split hp
  rw [State.ctx_setCtx_same, Option.map_some, if_pos e1, e2] at hr
  refine ⟨_, hr, ?_, ?_⟩
  · rw [beq_self_eq_true]; exact Ctx.charged_mine h r 0
  · rw [← hcur]
    exact (State.setCtx_frame u c).trans' (State.firstPass_frame _ _ _ _ _)

/-- A bundle of one move that is no register operation finds the landed context. -/
theorem Ctx.atBundle_one {c0 : Ctx} {w : W32} {pc : W64}
    (h : (Move.of 0 w).dunit = U.sv → 3 < (Move.of 0 w).dsel) : c0.atBundle (Bundle.one w pc) = c0.land := by
  apply Ctx.atBundle_land
  simp only [Ctx.trigs, Bundle.one, List.any_cons, List.any_nil, Bool.or_false]
  cases e : (Move.of 0 w).dunit == U.sv
  · simp
  · have := h (by simpa using e)
    simp [Nat.not_le.mpr this]

/-- A trigger row whose move's guard holds on a lane: what `exec` answers, from what the operation makes of the context
(`c2`) and what it leaves of the rest. -/
theorem issueOne_runs {s : State} {c0 c2 : Ctx} {w : W32} (st : Start) (h : s.Clear c0 (Bundle.one w s.curPc))
    (ht : (Move.of 0 w).isTrig = true) (hg : c0.land.guardMask (Move.of 0 w) ≠ 0)
    (hs : (Move.of 0 w).dunit = U.sv → 3 < (Move.of 0 w).dsel) (u : State)
    (hu : st ((s.setCtx s.cur c0.land).begun s.cur c0.land (Bundle.one w s.curPc) (Move.of 0 w)) s.cur
      (c0.land.trigOf (Bundle.one w s.curPc) (Move.of 0 w)) = u)
    (h2 : u.ctx s.cur = some c2) (htid : c2.tid = c0.tid) (hl : c2.loop = c0.loop) (hts : c2.tstatus = c0.tstatus)
    (hfp : c2.fpCtl = c0.land.fpCtl) (hcur : u.cur = s.cur) :
    ∃ t c', issueOne w st s = .next t ∧ t.ctx s.cur = some c' ∧
      c'.Is { c2 with us := c2.us.ticked, memq := queued c0.land.memq c2.memq } ∧ u.Frame t := by
  obtain ⟨k1, k2, k3, k4, k5, k6, k7, k8, k9, k10, k11, k12, k13, k14⟩ := Ctx.land_keeps c0
  subst hu
  have hi := Ctx.afterBundle_is (c := c0.land) (c2 := c2) (b := Bundle.one w s.curPc) (hl.trans k1.symm)
    (fun q e => h.loop q (k1 ▸ e)) (hts.trans k6.symm)
  have hc := State.commit_one (us := { start := fun _ => st, need := fun _ _ _ => some 0 })
    (s := s.setCtx s.cur c0.land) (id := s.cur) (c := c0.land) (c2 := c2)
    (b := Bundle.one w s.curPc) (m := Move.of 0 w) rfl (Bundle.one_isExt w s.curPc) ht hg h2 (htid.trans k2.symm)
  obtain ⟨c', e1, e2, e3⟩ := State.close_bundle s _ (c0.land.after (Bundle.one w s.curPc) (s.fold s.cur.fold).cycle
    (c0.land.begun (Bundle.one w s.curPc) (Move.of 0 w))) _ _ (Bundle.one w s.curPc).pc
    (Lanes.passes c0.land.live c0.land.nlanes).length hcur h.place hi
  have hw : c0.wait = .ready := by
    have := h.ready
    simp only [Ctx.ready, Bool.and_eq_true, beq_iff_eq] at this
    exact this.2
  have hf : c'.fpCtl = c0.land.fpCtl := by
    rw [e2.1]
    exact hfp
  have hk := issueOne_clear st h
  rw [Ctx.atBundle_one hs] at hk
  refine ⟨_, c', hk, ?_, e2, ?_⟩
  · rw [State.observe_ctx]
    exact State.restick_ctx hw (hc ▸ e1) hf
  · have e4 := e3.trans' (State.restick_frame _ c0)
    have e5 := e4.trans' (State.observe_frame _ c0.land (Bundle.one w s.curPc))
    rw [hc]
    rw [e4.cur, e3.cur, hcur] at e5
    exact e5

/-- A queue whose first move waits for no held write of its team goes in order (R250). -/
theorem State.passHeld_free {s : State} {id : CtxId} {c : Ctx} {o : MemOp} {q : List MemOp}
    (h : s.waitsHeld id c o = false) : s.passHeld id c [] (o :: q) = o :: q := by
  simp [State.passHeld, h]

/-- A queue of one move goes in order. -/
theorem State.passHeld_one (s : State) (id : CtxId) (c : Ctx) (o : MemOp) : s.passHeld id c [] [o] = [o] := by
  unfold State.passHeld
  split <;> simp [State.passHeld]

end Sys2Proof.Machine
end

