-- ==== Sys2Proof/Laws/Fixed.lean ====
section
/-! SUPPORT. The fields of a one-move word, the ports after a trigger's move, and what a fixed-latency row does once its
operation is known to put one result in flight. -/

namespace Sys2Proof.Machine

/-- A syllable as a number (R40). -/
theorem syllable_toNat (u p o : Nat) (m : MoveF) (hu : u < 32) (hp : p < 4) (ho : o < 256) :
    (syllable true u p o m).toNat = 2147483648 + (if m.neg = true then 1073741824 else 0) + m.guard.toNat * 134217728 +
      u * 4194304 + p * 1048576 + o * 4096 + m.skind.toNat * 1024 + m.ssel.toNat := by
  have h1 := m.guard.isLt
  have h2 := m.skind.isLt
  have h3 := m.ssel.isLt
  simp only [syllable, if_true, BitVec.toNat_ofNat]
  apply Nat.mod_eq_of_lt
  split <;> omega

/-- The fields that a syllable holds are those it was made from (R40). -/
theorem Move.of_syllable (u p o : Nat) (m : MoveF) (hu : u < 32) (hp : p < 4) (ho : o < 256) :
    (Move.of 0 (syllable true u p o m)).dunit = u ∧ (Move.of 0 (syllable true u p o m)).dport = p ∧
      (Move.of 0 (syllable true u p o m)).dsel = o ∧ (Move.of 0 (syllable true u p o m)).guard = m.guard.toNat ∧
      (Move.of 0 (syllable true u p o m)).skind = m.skind.toNat ∧
      (Move.of 0 (syllable true u p o m)).ssel = m.ssel.toNat := by
  have h1 := m.guard.isLt
  have h2 := m.skind.isLt
  have h3 := m.ssel.isLt
  simp only [Move.of, bits, syllable_toNat u p o m hu hp ho]
  refine ⟨?_, ?_, ?_, ?_, ?_, ?_⟩ <;> (split <;> omega)

/-- The ports of the unit after a trigger's move: T's source on the guarded lanes, A, B, C and R as they were. -/
theorem Ctx.withT_held {c : Ctx} {b : Bundle} {m : Move} (hu : uniformPort m.dunit 3 = false) {l : Nat}
    (hl : l < c.nlanes) (hm : (c.guardMask m).getLsbD l = true) :
    ((c.withT b m).unit m.dunit).held.at l = c.src b m l := by
  simp only [Ctx.withT, UnitState.unit_setUnit_same, writeVals, hu, Bool.false_eq_true, if_false]
  rw [Vals.at_merge _ _ _ hl, if_pos hm]
theorem Ctx.withT_heldUniform {c : Ctx} {b : Bundle} {m : Move} (hu : uniformPort m.dunit 3 = true) :
    ((c.withT b m).unit m.dunit).held.at 0 = c.src b m (Lanes.low (c.guardMask m) c.nlanes) := by
  simp [Ctx.withT, writeVals, hu, Vals.at]
@[simp] theorem Ctx.withT_a (c : Ctx) (b : Bundle) (m : Move) (u : Nat) :
    ((c.withT b m).unit u).a = (c.us.unit u).a := by
  by_cases h : u = m.dunit
  · subst h; simp [Ctx.withT]
  · simp [Ctx.withT, UnitState.unit_setUnit_ne _ _ h]
@[simp] theorem Ctx.withT_b (c : Ctx) (b : Bundle) (m : Move) (u : Nat) :
    ((c.withT b m).unit u).b = (c.us.unit u).b := by
  by_cases h : u = m.dunit
  · subst h; simp [Ctx.withT]
  · simp [Ctx.withT, UnitState.unit_setUnit_ne _ _ h]
@[simp] theorem Ctx.withT_c (c : Ctx) (b : Bundle) (m : Move) (u : Nat) :
    ((c.withT b m).unit u).c = (c.us.unit u).c := by
  by_cases h : u = m.dunit
  · subst h; simp [Ctx.withT]
  · simp [Ctx.withT, UnitState.unit_setUnit_ne _ _ h]
@[simp] theorem Ctx.withT_carry (c : Ctx) (b : Bundle) (m : Move) (u : Nat) :
    ((c.withT b m).unit u).carry = (c.us.unit u).carry := by
  by_cases h : u = m.dunit
  · subst h; simp [Ctx.withT]
  · simp [Ctx.withT, UnitState.unit_setUnit_ne _ _ h]
@[simp] theorem Ctx.withT_pend (c : Ctx) (b : Bundle) (m : Move) : (c.withT b m).pend = c.us.pend := rfl
@[simp] theorem Ctx.withT_flags (c : Ctx) (b : Bundle) (m : Move) : (c.withT b m).flags = c.us.flags := rfl
@[simp] theorem Ctx.withT_owners (c : Ctx) (b : Bundle) (m : Move) : (c.withT b m).owners = c.us.owners := rfl

/-- What a row's pending result must hold. -/
structure FixedRow.Gives (r : FixedRow) (p : Pend) (c : Ctx) (t : Trig) : Prop where
  unit : p.unit = r.unit
  left : p.left = fixedLat r.unit
  mask : p.mask = t.mask
  kdst : p.kdst = r.kdst
  bundle : p.bundle = t.pc
  cycle : p.cycle = t.cycle
  vals : ∀ l, l < c.nlanes → t.mask.getLsbD l = true →
    p.vals.at l = r.value (lo32 ((c.us.unit r.unit).a.at l)) (lo32 ((c.us.unit r.unit).b.at l))
        (lo32 ((c.us.unit r.unit).held.at l)) ((c.us.unit r.unit).carry.getLsbD l) ∧
      p.excs.getD l 0 = r.exc (lo32 ((c.us.unit r.unit).a.at l)) (lo32 ((c.us.unit r.unit).b.at l))
        (lo32 ((c.us.unit r.unit).held.at l))
  carry : match r.carry with
    | none => p.carry = none
    | some f => ∃ k, p.carry = some k ∧ ∀ l, l < c.nlanes → t.mask.getLsbD l = true →
        k.getLsbD l = f (lo32 ((c.us.unit r.unit).a.at l)) (lo32 ((c.us.unit r.unit).held.at l))
          ((c.us.unit r.unit).carry.getLsbD l)

/-- A row whose operation puts one result in flight runs as stated. -/
theorem FixedRow.runs_of_pend {r : FixedRow} {m : MoveF} {s : State} {c0 : Ctx} (st : Start) (pf : Ctx → Trig → Pend)
    (h : s.Clear c0 (Bundle.one (r.word m) s.curPc)) (hg : c0.land.guardMask (Move.of 0 (r.word m)) ≠ 0)
    (hx : Sys2Proof.Machine.exec (r.instr m) s = issueOne (r.word m) st s) (hv : isVar r.unit = false)
    (hu : uniformPort r.unit 3 = false) (hw : r.unit < 32 ∧ r.unit ≠ 0 ∧ r.opcode < 256)
    (hst : ∀ s id t c, s.ctx id = some c → st s id t = s.addPend id (pf c t))
    (hp : ∀ c t, t.unit = r.unit → r.Gives (pf c t) c t) : r.Runs m s c0 := by
  obtain ⟨f1, f2, f3, f4, f5, f6⟩ := Move.of_syllable r.unit 3 r.opcode m hw.1 (by omega) hw.2.2
  have ht : (Move.of 0 (r.word m)).isTrig = true := by
    simp [Move.isTrig, FixedRow.word, f1, f2, hw.2.1]
  obtain ⟨k1, k2, k3, k4, k5, k6, k7, k8, k9, k10, k11, k12, k13, k14⟩ := Ctx.land_keeps c0
  have hunit : (Move.of 0 (r.word m)).dunit = r.unit := f1
  have hb : ((s.setCtx s.cur c0.land).begun s.cur c0.land (Bundle.one (r.word m) s.curPc)
      (Move.of 0 (r.word m))).ctx s.cur = some (c0.land.after (Bundle.one (r.word m) s.curPc) (s.fold s.cur.fold).cycle
        (c0.land.begun (Bundle.one (r.word m) s.curPc) (Move.of 0 (r.word m)))) := State.begun_ctx _ _ _ _ _
  have he := hst _ s.cur (c0.land.trigOf (Bundle.one (r.word m) s.curPc) (Move.of 0 (r.word m))) _ hb
  unfold State.addPend at he
  rw [State.modCtx_eq hb] at he
  have hP := hp (c0.land.after (Bundle.one (r.word m) s.curPc) (s.fold s.cur.fold).cycle
    (c0.land.begun (Bundle.one (r.word m) s.curPc) (Move.of 0 (r.word m))))
    (c0.land.trigOf (Bundle.one (r.word m) s.curPc) (Move.of 0 (r.word m))) hunit
  generalize pf (c0.land.after (Bundle.one (r.word m) s.curPc) (s.fold s.cur.fold).cycle
    (c0.land.begun (Bundle.one (r.word m) s.curPc) (Move.of 0 (r.word m))))
    (c0.land.trigOf (Bundle.one (r.word m) s.curPc) (Move.of 0 (r.word m))) = P at he hP
  have hs : (Move.of 0 (r.word m)).dunit = U.sv → 3 < (Move.of 0 (r.word m)).dsel := by
    intro e
    rw [← hunit, e] at hv
    exact absurd hv (by decide)
  obtain ⟨t, c', e1, e2, e3, e4⟩ := issueOne_runs (c0 := c0) st h ht hg hs _ he (State.ctx_setCtx_same _ _ _)
    k2 k1 k6 rfl rfl
  have hbeg : c0.land.begun (Bundle.one (r.word m) s.curPc) (Move.of 0 (r.word m)) =
      c0.land.withT (Bundle.one (r.word m) s.curPc) (Move.of 0 (r.word m)) := by simp [Ctx.begun, hunit, hv]
  have hheld : ∀ l, l < c0.land.nlanes → (c0.land.guardMask (Move.of 0 (r.word m))).getLsbD l = true →
      (((c0.land.withT (Bundle.one (r.word m) s.curPc) (Move.of 0 (r.word m))).unit r.unit).held.at l) =
        c0.land.src (Bundle.one (r.word m) s.curPc) (Move.of 0 (r.word m)) l := by
    intro l hl hm
    have := Ctx.withT_held (c := c0.land) (b := Bundle.one (r.word m) s.curPc) (m := Move.of 0 (r.word m))
      (by rw [hunit]; exact hu) hl hm
    rwa [hunit] at this
  refine ⟨t, c', { P with left := fixedLat r.unit - 1 },
    hx.trans e1, e2, ?_, ?_, hP.unit, rfl, hP.mask, hP.kdst, ?_, hP.cycle, ?_, ?_⟩
  · refine State.Frame.trans' ?_ e4
    exact ((State.setCtx_frame s _).trans' (State.begun_frame _ _ _ _)).trans' (State.setCtx_frame _ _)
  · convert e3 using 1
    rw [hbeg]
    simp only [Ctx.after, UnitState.ticked, List.map_append, List.map_cons, List.map_nil, k7, queued_self]
    congr 1
    simp only [Ctx.withT, UnitState.setUnit]
    rw [← hP.left]
  · rw [hP.bundle]
    simp [Ctx.trigOf, Bundle.one, State.curPc, h.here]
  · intro l hl hm
    have q := hP.vals l hl hm
    simp only [Ctx.after_us, hbeg, Ctx.withT_a, Ctx.withT_b, Ctx.withT_carry, hheld l hl hm] at q
    exact q
  · have q := hP.carry
    cases hcar : r.carry with
    | none => simp only [hcar] at q; exact q
    | some f =>
      simp only [hcar] at q
      obtain ⟨k, q1, q2⟩ := q
      refine ⟨k, q1, ?_⟩
      intro l hl hm
      have q := q2 l hl hm
      simp only [Ctx.after_us, hbeg, Ctx.withT_a, Ctx.withT_carry, hheld l hl hm] at q
      exact q

/-- The pending result of a lane operation without carry. -/
theorem FixedRow.runs_of_lane3 {r : FixedRow} {m : MoveF} {s : State} {c0 : Ctx} (f : W32 → W32 → W32 → W32)
    (h : s.Clear c0 (Bundle.one (r.word m) s.curPc)) (hg : c0.land.guardMask (Move.of 0 (r.word m)) ≠ 0)
    (hx : Sys2Proof.Machine.exec (r.instr m) s = issueOne (r.word m) (lane3 f) s) (hv : isVar r.unit = false)
    (hu : uniformPort r.unit 3 = false) (hw : r.unit < 32 ∧ r.unit ≠ 0 ∧ r.opcode < 256)
    (hf : ∀ a b t k, r.value a b t k = zx (f a b t)) (he : ∀ a b t, r.exc a b t = 0) (hk : r.kdst = 0)
    (hc : r.carry = none) : r.Runs m s c0 := by
  refine FixedRow.runs_of_pend (lane3 f) (fun c t => t.pend c.nlanes (fun l => zx (f (lo32 ((c.us.unit t.unit).a.at l))
    (lo32 ((c.us.unit t.unit).b.at l)) (lo32 ((c.us.unit t.unit).held.at l))))) h hg hx hv hu hw ?_ ?_
  · intro s id t c hc; simp [lane3, hc]
  · intro c t ht
    refine ⟨ht, by simp [Trig.pend, ht], rfl, hk.symm, rfl, rfl, ?_, by rw [hc]; rfl⟩
    intro l hl hm
    refine ⟨?_, by rw [he]; rfl⟩
    simp only [Trig.pend]
    rw [Vals.at_map_range _ _ hl, if_pos hm, hf, ht]

end Sys2Proof.Machine
end

