-- ==== Sys2Proof/Laws/Memory.lean ====
section
/-! SUPPORT. The memory laws: a byte read after a write, and the canonical form that every memory operation keeps. -/

namespace Sys2Proof.Machine

theorem Memory.okFrom_mono {j k : Nat} (h : j ≤ k) {m : List Host.Cell} (hm : Memory.okFrom k m = true) :
    Memory.okFrom j m = true := by
  cases m with
  | nil => rfl
  | cons c r =>
    obtain ⟨a, b⟩ := c
    simp only [Memory.okFrom, Bool.and_eq_true, decide_eq_true_eq] at hm ⊢
    exact ⟨⟨by omega, hm.1.2⟩, hm.2⟩

/-- A byte below every listed address reads as an unlisted one. -/
theorem Memory.read_below {k j : Nat} {m : List Host.Cell} (hm : Memory.okFrom k m = true) (h : j < k) :
    Memory.read m j = Memory.unlisted := by
  cases m with
  | nil => rfl
  | cons c r =>
    obtain ⟨a, b⟩ := c
    simp only [Memory.okFrom, Bool.and_eq_true, decide_eq_true_eq] at hm
    simp only [Memory.read]
    rw [if_neg (by omega), if_pos (by omega)]

theorem Memory.write_okFrom {j k : Nat} (v : Byte) {m : List Host.Cell} (hm : Memory.okFrom j m = true) (h : j ≤ k) :
    Memory.okFrom j (Memory.write m k v) = true := by
  induction m generalizing j with
  | nil =>
    simp only [Memory.write]
    split
    · rfl
    · rename_i hv; simp [Memory.okFrom, h, hv]
  | cons c r ih =>
    obtain ⟨a, b⟩ := c
    simp only [Memory.okFrom, Bool.and_eq_true, decide_eq_true_eq] at hm
    obtain ⟨⟨h1, h2⟩, h3⟩ := hm
    simp only [Memory.write]
    split
    · rename_i hak
      simp only [Memory.okFrom, Bool.and_eq_true, decide_eq_true_eq]
      exact ⟨⟨h1, h2⟩, ih h3 (by omega)⟩
    · split
      · rename_i hak
        split
        · exact Memory.okFrom_mono (by omega) h3
        · rename_i hv
          simp only [Memory.okFrom, Bool.and_eq_true, decide_eq_true_eq]
          exact ⟨⟨h, by simpa using hv⟩, hak ▸ h3⟩
      · split
        · simp only [Memory.okFrom, Bool.and_eq_true, decide_eq_true_eq]
          exact ⟨⟨h1, h2⟩, h3⟩
        · rename_i hv
          simp only [Memory.okFrom, Bool.and_eq_true, decide_eq_true_eq]
          exact ⟨⟨h, by simpa using hv⟩, ⟨by omega, h2⟩, h3⟩

theorem Memory.write_wf (m : List Host.Cell) (k : Nat) (v : Byte) (h : Memory.wf m = true) :
    Memory.wf (Memory.write m k v) = true := Memory.write_okFrom v h (Nat.zero_le k)

theorem Memory.writeN_wf (m : List Host.Cell) (k : Nat) (bs : List Byte) (h : Memory.wf m = true) :
    Memory.wf (Memory.writeN m k bs) = true := by
  induction bs generalizing m k with
  | nil => exact h
  | cons b r ih => exact ih _ _ (Memory.write_wf m k b h)

theorem Memory.filter_okFrom (p : Host.Cell → Bool) {j : Nat} {m : List Host.Cell} (h : Memory.okFrom j m = true) :
    Memory.okFrom j (m.filter p) = true := by
  induction m generalizing j with
  | nil => rfl
  | cons c r ih =>
    obtain ⟨a, b⟩ := c
    simp only [Memory.okFrom, Bool.and_eq_true, decide_eq_true_eq] at h
    by_cases hp : p (a, b) = true
    · rw [List.filter_cons_of_pos hp]
      simp only [Memory.okFrom, Bool.and_eq_true, decide_eq_true_eq]
      exact ⟨h.1, ih h.2⟩
    · rw [List.filter_cons_of_neg hp]
      exact Memory.okFrom_mono (by omega) (ih h.2)

theorem Memory.clear_wf (m : List Host.Cell) (k n : Nat) (h : Memory.wf m = true) :
    Memory.wf (Memory.clear m k n) = true := Memory.filter_okFrom _ h

theorem Memory.read_write_from {j k : Nat} (v : Byte) (a : Nat) {m : List Host.Cell} (hm : Memory.okFrom j m = true) :
    Memory.read (Memory.write m k v) a = if a = k then v else Memory.read m a := by
  induction m generalizing j with
  | nil =>
    simp only [Memory.write]
    split
    · rename_i hv; simp only [Memory.read, hv]; split <;> rfl
    · simp only [Memory.read]
      by_cases h : a = k
      · simp [h]
      · rw [if_neg (Ne.symm h), if_neg h]; split <;> rfl
  | cons c r ih =>
    obtain ⟨b, w⟩ := c
    simp only [Memory.okFrom, Bool.and_eq_true, decide_eq_true_eq] at hm
    obtain ⟨⟨h1, h2⟩, h3⟩ := hm
    simp only [Memory.write]
    split
    · rename_i hbk
      simp only [Memory.read, ih h3]
      by_cases h : b = a
      · simp [h, show a ≠ k by omega]
      · by_cases h' : a < b
        · simp [h, h', show a ≠ k by omega]
        · simp [h, h']
    · split
      · rename_i hbk hb
        subst hb
        split
        · rename_i hv
          simp only [Memory.read]
          by_cases h : a = b
          · subst h; rw [if_pos rfl, hv]; exact Memory.read_below h3 (by omega)
          · rw [if_neg h, if_neg (Ne.symm h)]
            by_cases h' : a < b
            · rw [if_pos h']; exact Memory.read_below h3 (by omega)
            · rw [if_neg h']
        · simp only [Memory.read]
          by_cases h : a = b
          · simp [h]
          · simp [h, Ne.symm h]
      · rename_i hbk hb
        split
        · rename_i hv
          simp only [Memory.read]
          by_cases h : a = k
          · subst h; rw [if_pos rfl, if_neg (by omega), if_pos (by omega)]; exact hv.symm
          · rw [if_neg h]
        · simp only [Memory.read]
          by_cases h : a = k
          · simp [h]
          · rw [if_neg (Ne.symm h), if_neg h]
            by_cases h' : a < k
            · simp only [if_pos h', show a < b by omega, if_true]; rw [if_neg (by omega)]
            · rw [if_neg h']

/-- A write changes one byte and no other (R4). -/
theorem Memory.read_write (m : List Host.Cell) (k a : Nat) (v : Byte) (h : Memory.wf m = true) :
    Memory.read (Memory.write m k v) a = if a = k then v else Memory.read m a := Memory.read_write_from v a h

theorem Memory.read_writeN (m : List Host.Cell) (k a : Nat) (bs : List Byte) (h : Memory.wf m = true) :
    Memory.read (Memory.writeN m k bs) a =
      if k ≤ a ∧ a < k + bs.length then bs.getD (a - k) 0 else Memory.read m a := by
  induction bs generalizing m k with
  | nil => simp only [Memory.writeN, List.length_nil]; rw [if_neg (by omega)]
  | cons b r ih =>
    rw [Memory.writeN, ih _ _ (Memory.write_wf m k b h), Memory.read_write m k a b h]
    simp only [List.length_cons]
    by_cases h1 : a = k
    · subst h1
      rw [if_neg (by omega), if_pos rfl, if_pos (by omega)]; simp
    · by_cases h2 : k + 1 ≤ a ∧ a < k + 1 + r.length
      · rw [if_pos h2, if_pos (by omega)]
        obtain ⟨n, hn⟩ : ∃ n, a - k = n + 1 := ⟨a - k - 1, by omega⟩
        rw [hn, List.getD_cons_succ, show a - (k + 1) = n by omega]
      · rw [if_neg h2, if_neg h1, if_neg (by omega)]

theorem Memory.readN_length (m : List Host.Cell) (k n : Nat) : (Memory.readN m k n).length = n := by
  induction n generalizing k with
  | zero => rfl
  | succ n ih => simp [Memory.readN, ih]

/-- `n` bytes read depend on nothing but those bytes. -/
theorem Memory.readN_congr {m m' : List Host.Cell} (k n : Nat)
    (h : ∀ a, k ≤ a → a < k + n → Memory.read m a = Memory.read m' a) : Memory.readN m k n = Memory.readN m' k n := by
  induction n generalizing k with
  | zero => rfl
  | succ n ih =>
    rw [Memory.readN, Memory.readN, h k (by omega) (by omega), ih (k + 1) (fun a h1 h2 => h a (by omega) (by omega))]

@[simp] theorem bytesOf_length (n x : Nat) : (bytesOf n x).length = n := by
  induction n generalizing x with
  | zero => rfl
  | succ n ih => simp [bytesOf, ih]

/-- Bytes and number agree (R4). -/
theorem natOf_bytesOf (n x : Nat) : natOf (bytesOf n x) = x % 256 ^ n := by
  induction n generalizing x with
  | zero => simp [bytesOf, natOf, Nat.mod_one]
  | succ n ih =>
    rw [bytesOf, natOf, ih, BitVec.toNat_ofNat, show (256 : Nat) ^ (n + 1) = 256 * 256 ^ n from by rw [Nat.pow_succ, Nat.mul_comm],
      Nat.mod_mul]

theorem State.wr_memOk (s : State) (k n v : Nat) (h : Memory.wf s.mem = true) : Memory.wf (s.wr k n v).mem = true :=
  Memory.writeN_wf _ _ _ h

theorem State.reset_memOk : Memory.wf State.reset.mem = true := rfl

end Sys2Proof.Machine
end

