-- ==== Sys2Proof/Laws/Package.lean ====
section
/-! SUPPORT. What each update of the package's own tables leaves in each field: links, connections and waiting requests. -/

namespace Sys2Proof.Machine

@[simp] theorem State.setEnd_mem (s : State) (e : Nat) (x : LinkEnd) : (s.setEnd e x).mem = s.mem := rfl
@[simp] theorem State.setEnd_ctxs (s : State) (e : Nat) (x : LinkEnd) : (s.setEnd e x).ctxs = s.ctxs := rfl
@[simp] theorem State.setEnd_folds (s : State) (e : Nat) (x : LinkEnd) : (s.setEnd e x).folds = s.folds := rfl
@[simp] theorem State.setEnd_gangs (s : State) (e : Nat) (x : LinkEnd) : (s.setEnd e x).gangs = s.gangs := rfl
@[simp] theorem State.setEnd_dies (s : State) (e : Nat) (x : LinkEnd) : (s.setEnd e x).dies = s.dies := rfl
@[simp] theorem State.setEnd_cur (s : State) (e : Nat) (x : LinkEnd) : (s.setEnd e x).cur = s.cur := rfl
@[simp] theorem State.setEnd_agenda (s : State) (e : Nat) (x : LinkEnd) : (s.setEnd e x).agenda = s.agenda := rfl
@[simp] theorem State.setEnd_free (s : State) (e : Nat) (x : LinkEnd) : (s.setEnd e x).free = s.free := rfl
@[simp] theorem State.setEnd_ends (s : State) (e : Nat) (x : LinkEnd) : (s.setEnd e x).pkg.ends = Tbl.put s.pkg.ends e x := rfl
@[simp] theorem State.setLink_mem (s : State) (n : Nat) (x : Link) : (s.setLink n x).mem = s.mem := rfl
@[simp] theorem State.setLink_ctxs (s : State) (n : Nat) (x : Link) : (s.setLink n x).ctxs = s.ctxs := rfl
@[simp] theorem State.setLink_folds (s : State) (n : Nat) (x : Link) : (s.setLink n x).folds = s.folds := rfl
@[simp] theorem State.setLink_gangs (s : State) (n : Nat) (x : Link) : (s.setLink n x).gangs = s.gangs := rfl
@[simp] theorem State.setLink_dies (s : State) (n : Nat) (x : Link) : (s.setLink n x).dies = s.dies := rfl
@[simp] theorem State.setLink_cur (s : State) (n : Nat) (x : Link) : (s.setLink n x).cur = s.cur := rfl
@[simp] theorem State.setLink_agenda (s : State) (n : Nat) (x : Link) : (s.setLink n x).agenda = s.agenda := rfl
@[simp] theorem State.setLink_free (s : State) (n : Nat) (x : Link) : (s.setLink n x).free = s.free := rfl
@[simp] theorem State.setLink_links (s : State) (n : Nat) (x : Link) : (s.setLink n x).pkg.links = Tbl.put s.pkg.links n x := rfl
@[simp] theorem State.setConn_mem (s : State) (i : Nat) (x : Conn) : (s.setConn i x).mem = s.mem := rfl
@[simp] theorem State.setConn_ctxs (s : State) (i : Nat) (x : Conn) : (s.setConn i x).ctxs = s.ctxs := rfl
@[simp] theorem State.setConn_folds (s : State) (i : Nat) (x : Conn) : (s.setConn i x).folds = s.folds := rfl
@[simp] theorem State.setConn_gangs (s : State) (i : Nat) (x : Conn) : (s.setConn i x).gangs = s.gangs := rfl
@[simp] theorem State.setConn_dies (s : State) (i : Nat) (x : Conn) : (s.setConn i x).dies = s.dies := rfl
@[simp] theorem State.setConn_cur (s : State) (i : Nat) (x : Conn) : (s.setConn i x).cur = s.cur := rfl
@[simp] theorem State.setConn_agenda (s : State) (i : Nat) (x : Conn) : (s.setConn i x).agenda = s.agenda := rfl
@[simp] theorem State.setConn_free (s : State) (i : Nat) (x : Conn) : (s.setConn i x).free = s.free := rfl
@[simp] theorem State.setConn_conns (s : State) (i : Nat) (x : Conn) : (s.setConn i x).pkg.conns = Tbl.put s.pkg.conns i x := rfl
@[simp] theorem State.await_mem (s : State) (i : Instr) (a : Option W64) : (s.await i a).mem = s.mem := rfl
@[simp] theorem State.await_ctxs (s : State) (i : Instr) (a : Option W64) : (s.await i a).ctxs = s.ctxs := rfl
@[simp] theorem State.await_folds (s : State) (i : Instr) (a : Option W64) : (s.await i a).folds = s.folds := rfl
@[simp] theorem State.await_gangs (s : State) (i : Instr) (a : Option W64) : (s.await i a).gangs = s.gangs := rfl
@[simp] theorem State.await_dies (s : State) (i : Instr) (a : Option W64) : (s.await i a).dies = s.dies := rfl
@[simp] theorem State.await_cur (s : State) (i : Instr) (a : Option W64) : (s.await i a).cur = s.cur := rfl
@[simp] theorem State.await_agenda (s : State) (i : Instr) (a : Option W64) : (s.await i a).agenda = s.agenda := rfl
@[simp] theorem State.await_free (s : State) (i : Instr) (a : Option W64) : (s.await i a).free = s.free := rfl
@[simp] theorem State.await_reqs (s : State) (i : Instr) (a : Option W64) : (s.await i a).pkg.reqs = s.pkg.reqs ++ [(i, a)] := rfl
@[simp] theorem State.unwait_mem (s : State) (i : Instr) : (s.unwait i).mem = s.mem := rfl
@[simp] theorem State.unwait_ctxs (s : State) (i : Instr) : (s.unwait i).ctxs = s.ctxs := rfl
@[simp] theorem State.unwait_folds (s : State) (i : Instr) : (s.unwait i).folds = s.folds := rfl
@[simp] theorem State.unwait_gangs (s : State) (i : Instr) : (s.unwait i).gangs = s.gangs := rfl
@[simp] theorem State.unwait_dies (s : State) (i : Instr) : (s.unwait i).dies = s.dies := rfl
@[simp] theorem State.unwait_cur (s : State) (i : Instr) : (s.unwait i).cur = s.cur := rfl
@[simp] theorem State.unwait_agenda (s : State) (i : Instr) : (s.unwait i).agenda = s.agenda := rfl
@[simp] theorem State.unwait_free (s : State) (i : Instr) : (s.unwait i).free = s.free := rfl
@[simp] theorem State.unwait_reqs (s : State) (i : Instr) : (s.unwait i).pkg.reqs = eraseOne (fun x => decide (x.1 = i)) s.pkg.reqs := rfl

end Sys2Proof.Machine
end

