-- ==== Sys2Proof/Laws/PerInstr.lean ====
section
/-! SUPPORT. Per instruction: the destination fields that the encoder gives an instruction of one move are in range, and
the decoder reads the instruction back from them. -/

namespace Sys2Proof.Laws.Encoding

open Sys2Proof

/-- The fields of a well-formed instruction of one move fit a syllable (R40, R41), and name the instruction. -/
def Statement (i : Instr) : Prop :=
  WellFormed i = true → ∀ u p o m, destOf i = some (u, p, o, m) → u < 32 ∧ p < 4 ∧ o < 256 ∧ decDest u p o m = some i

theorem of_dest {i : Instr} {u p o : Nat} {m : MoveF} (hd : destOf i = some (u, p, o, m)) (hu : u < 32) (hp : p < 4)
    (ho : o < 256) (h : WellFormed i = true → decDest u p o m = some i) : Statement i := by
  intro hw u' p' o' m' h'
  rw [hd] at h'
  cases h'
  exact ⟨hu, hp, ho, h hw⟩

/-- A bit vector as a numeral below its bound. -/
theorem ofNat_form {w : Nat} (x : BitVec w) : ∃ n, n < 2 ^ w ∧ x = BitVec.ofNat w n := ⟨x.toNat, x.isLt, by simp⟩

/-- An instruction that is no move has no destination fields. -/
theorem of_none {i : Instr} (h : destOf i = none) : Statement i := by
  intro _ u p o m h'
  rw [h] at h'
  cases h'


theorem bundleIssue (b : RawBundle) : Statement (.bundleIssue b) := of_none rfl

theorem fetchLineFill (c : CtxId) (line : Nat) : Statement (.fetchLineFill c line) := of_none rfl

theorem fixedResultLand (c : CtxId) (u : UnitId) : Statement (.fixedResultLand c u) := of_none rfl

theorem cmPredicateLand (c : CtxId) : Statement (.cmPredicateLand c) := of_none rfl

theorem idleCountEnd (c : CtxId) : Statement (.idleCountEnd c) := of_none rfl

theorem xlBusyEnd (c : CtxId) : Statement (.xlBusyEnd c) := of_none rfl

theorem yieldEnd (c : CtxId) : Statement (.yieldEnd c) := of_none rfl

theorem yieldcResume (c : CtxId) : Statement (.yieldcResume c) := of_none rfl

theorem sfComplete (c : CtxId) : Statement (.sfComplete c) := of_none rfl

theorem xlLaneOpComplete (c : CtxId) : Statement (.xlLaneOpComplete c) := of_none rfl

theorem wideRegOpComplete (c : CtxId) : Statement (.wideRegOpComplete c) := of_none rfl

theorem loadComplete (c : CtxId) : Statement (.loadComplete c) := of_none rfl

theorem atomicComplete (c : CtxId) : Statement (.atomicComplete c) := of_none rfl

theorem storePerformed (c : CtxId) : Statement (.storePerformed c) := of_none rfl

theorem fenceComplete (c : CtxId) : Statement (.fenceComplete c) := of_none rfl

theorem trapRouteU (c : CtxId) : Statement (.trapRouteU c) := of_none rfl

theorem trapRouteS (c : CtxId) : Statement (.trapRouteS c) := of_none rfl

theorem trapRouteH (c : CtxId) : Statement (.trapRouteH c) := of_none rfl

theorem handlerReturn (c : CtxId) : Statement (.handlerReturn c) := of_none rfl

theorem qnotify (die q : Nat) : Statement (.qnotify die q) := of_none rfl

theorem queueEnable (die q : Nat) (ent1 : W64) : Statement (.queueEnable die q ent1) := of_none rfl

theorem queueDisable (die q : Nat) : Statement (.queueDisable die q) := of_none rfl

theorem pktNop (die q : Nat) : Statement (.pktNop die q) := of_none rfl

theorem pktSignal (die q : Nat) : Statement (.pktSignal die q) := of_none rfl

theorem pktWaitval (die q : Nat) : Statement (.pktWaitval die q) := of_none rfl

theorem waitvalRecheck (die q : Nat) : Statement (.waitvalRecheck die q) := of_none rfl

theorem pktLaunch (die q : Nat) : Statement (.pktLaunch die q) := of_none rfl

theorem pktLoop (die q : Nat) : Statement (.pktLoop die q) := of_none rfl

theorem gangPlace (die q : Nat) : Statement (.gangPlace die q) := of_none rfl

theorem packetComplete (die q idx : Nat) : Statement (.packetComplete die q idx) := of_none rfl

theorem gangEnd (gang : Nat) : Statement (.gangEnd gang) := of_none rfl

theorem flockAbort (flock : W32) : Statement (.flockAbort flock) := of_none rfl

theorem teamEvict (fold : Nat) : Statement (.teamEvict fold) := of_none rfl

theorem teamRestore (die : Nat) : Statement (.teamRestore die) := of_none rfl

theorem preemptRequest (c : CtxId) : Statement (.preemptRequest c) := of_none rfl

theorem teamFreeze (c : CtxId) : Statement (.teamFreeze c) := of_none rfl

theorem gangSaveComplete (gang : Nat) : Statement (.gangSaveComplete gang) := of_none rfl

theorem gangRestore (die : Nat) (addr : W64) : Statement (.gangRestore die addr) := of_none rfl

theorem sectorFill (gang fold : Nat) (sector : Nat) : Statement (.sectorFill gang fold sector) := of_none rfl

theorem smapBind (c : CtxId) (n : Nat) (v : W64) : Statement (.smapBind c n v) := of_none rfl

theorem smapUnbind (c : CtxId) (n : Nat) (v : W64) : Statement (.smapUnbind c n v) := of_none rfl

theorem mirrorSelWrite (c : CtxId) (v : W64) : Statement (.mirrorSelWrite c v) := of_none rfl

theorem homeRequest (fold : Nat) (rt : BitVec 2) (write : Bool) (phys size : Nat) : Statement (.homeRequest fold rt write phys size) := of_none rfl

theorem pageWalk (die asid : Nat) (va : W64) (write : Bool) : Statement (.pageWalk die asid va write) := of_none rfl

theorem accessCount (fold asid : Nat) (va : W64) (n : Nat) : Statement (.accessCount fold asid va n) := of_none rfl

theorem xlateInv (die : Nat) (v : W64) : Statement (.xlateInv die v) := of_none rfl

theorem xlateInvComplete (die : Nat) : Statement (.xlateInvComplete die) := of_none rfl

theorem l2StageWrite (die slice : Nat) (v : W64) : Statement (.l2StageWrite die slice v) := of_none rfl

theorem l2StageChangeDone (die slice : Nat) : Statement (.l2StageChangeDone die slice) := of_none rfl

theorem dlogCtlWrite (die : Nat) (v : W64) : Statement (.dlogCtlWrite die v) := of_none rfl

theorem migqCtlWrite (die : Nat) (v : W64) : Statement (.migqCtlWrite die v) := of_none rfl

theorem regionTableWrite (die idx : Nat) (e : Region) : Statement (.regionTableWrite die idx e) := of_none rfl

theorem engineOpStart (fold uid : Nat) : Statement (.engineOpStart fold uid) := of_none rfl

theorem copyComplete (fold uid : Nat) : Statement (.copyComplete fold uid) := of_none rfl

theorem mxFormatBlockRead (fold uid : Nat) : Statement (.mxFormatBlockRead fold uid) := of_none rfl

theorem mxDispatch (fold : Nat) : Statement (.mxDispatch fold) := of_none rfl

theorem mxOpComplete (fold uid : Nat) : Statement (.mxOpComplete fold uid) := of_none rfl

theorem mxBloadComplete (fold uid : Nat) : Statement (.mxBloadComplete fold uid) := of_none rfl

theorem nxPacketSend (fold uid : Nat) : Statement (.nxPacketSend fold uid) := of_none rfl

theorem nxPacketArrive (p : NxPacket) : Statement (.nxPacketArrive p) := of_none rfl

theorem nxAckReceive (conn : Nat) (acked : AckedBytes) (sampleNs : Nat) (marked rttEnd : Bool) :
    Statement (.nxAckReceive conn acked sampleNs marked rttEnd) := of_none rfl

theorem nxRetransmitTimeout (fold uid : Nat) (exhausted : Bool) : Statement (.nxRetransmitTimeout fold uid exhausted) := of_none rfl

theorem nxOpComplete (fold uid : Nat) : Statement (.nxOpComplete fold uid) := of_none rfl

theorem landingCount (die : Nat) (key : BitVec 16) (n : Nat) : Statement (.landingCount die key n) := of_none rfl

theorem remoteAccess (c : CtxId) (ans : RemoteAnswer) : Statement (.remoteAccess c ans) := of_none rfl

theorem ethLinkDown (port : Nat) : Statement (.ethLinkDown port) := of_none rfl

theorem flitReceive (linkEnd : Nat) (f : Flit) : Statement (.flitReceive linkEnd f) := of_none rfl

theorem nakReceive (linkEnd : Nat) (seq : BitVec 10) : Statement (.nakReceive linkEnd seq) := of_none rfl

theorem errorWindowClose (linkEnd : Nat) (lane : Option Nat) : Statement (.errorWindowClose linkEnd lane) := of_none rfl

theorem linkRetrainEnd (link : Nat) : Statement (.linkRetrainEnd link) := of_none rfl

theorem lumenPortDown (e : LumenEvent) : Statement (.lumenPortDown e) := of_none rfl

theorem mgmtCsrRequest (fold : Nat) (sel : W64) (write : Bool) (v : W64) : Statement (.mgmtCsrRequest fold sel write v) := of_none rfl

theorem ctrlResumeTeam (c : CtxId) (op : CtrlOp) : Statement (.ctrlResumeTeam c op) := of_none rfl

theorem keyLoad (die slot : Nat) (key : BitVec 256) : Statement (.keyLoad die slot key) := of_none rfl

theorem devIdWrite (v : BitVec 14) : Statement (.devIdWrite v) := of_none rfl

theorem attestationRequest (nonce : BitVec 256) : Statement (.attestationRequest nonce) := of_none rfl

theorem powerOnReset : Statement .powerOnReset := of_none rfl

theorem firmwareImageReceive (image sig : List Byte) : Statement (.firmwareImageReceive image sig) := of_none rfl

theorem stopRequest (fold : Nat) (v : W64) : Statement (.stopRequest fold v) := of_none rfl

theorem snapshotLatch (fold : Nat) : Statement (.snapshotLatch fold) := of_none rfl

theorem sampleRecord (fold : Nat) : Statement (.sampleRecord fold) := of_none rfl

theorem mxcCtlClr (fold : Nat) : Statement (.mxcCtlClr fold) := of_none rfl

theorem eccCorrectedError (die cls inst : Nat) (loc : EccLocus) : Statement (.eccCorrectedError die cls inst loc) := of_none rfl

theorem eccWindowClose (die cls inst loc : Nat) : Statement (.eccWindowClose die cls inst loc) := of_none rfl

theorem islandFloorWrite (die : Option Nat) (idx : Nat) (v : W64) : Statement (.islandFloorWrite die idx v) := of_none rfl

theorem islandStateChange (die idx : Nat) : Statement (.islandStateChange die idx) := of_none rfl

theorem powerWindowEnd (watts : BitVec 16) : Statement (.powerWindowEnd watts) := of_none rfl

theorem thermalSample (die : Nat) (dram logic : BitVec 16) : Statement (.thermalSample die dram logic) := of_none rfl

theorem registerWrite (by_ : Agent) (fold : Nat) (sel : W64) (v : W64) : Statement (.registerWrite by_ fold sel v) := of_none rfl

theorem moveToPort (dunit : BitVec 5) (dport : BitVec 2) (modf : BitVec 8) (m : MoveF) : Statement (.moveToPort dunit dport modf m) := by
  refine of_dest rfl dunit.isLt dport.isLt modf.isLt (fun h => ?_)
  simp only [WellFormed, Bool.and_eq_true, bne_iff_ne, ne_eq, decide_eq_true_eq] at h
  obtain ⟨⟨h1, h2⟩, h3⟩ := h
  have e1 : dunit.toNat ≠ 0 := fun e => h1 (BitVec.eq_of_toNat_eq (by simpa using e))
  have e3 : dport.toNat ≠ 3 := fun e => h3 (BitVec.eq_of_toNat_eq (by simpa using e))
  simp [decDest, e1, h2, e3]

theorem svOpComplete (c : CtxId) : Statement (.svOpComplete c) := of_none rfl

theorem claimComplete (c : CtxId) : Statement (.claimComplete c) := of_none rfl

theorem watchdogExpiry (c : CtxId) : Statement (.watchdogExpiry c) := of_none rfl

theorem packagePowerOff : Statement .packagePowerOff := of_none rfl

theorem measurementExtend (i : Nat) (component : List Byte) : Statement (.measurementExtend i component) := of_none rfl

theorem moveToG (reg : BitVec 8) (m : MoveF) : Statement (.moveToG reg m) :=
  of_dest rfl (by decide) (by decide) reg.isLt (fun _ => by simp [decDest])

theorem moveToS (reg : BitVec 8) (m : MoveF) : Statement (.moveToS reg m) :=
  of_dest rfl (by decide) (by decide) reg.isLt (fun _ => by simp [decDest])

theorem moveToK (reg : BitVec 8) (m : MoveF) : Statement (.moveToK reg m) :=
  of_dest rfl (by decide) (by decide) reg.isLt (fun _ => by simp [decDest])

end Sys2Proof.Laws.Encoding

namespace Sys2Proof.Laws

open Sys2Proof

theorem Encoding.recall (idx : BitVec 9) : Encoding.Statement (.recall idx) := Encoding.of_none rfl

end Sys2Proof.Laws

namespace Sys2Proof.Laws.Encoding

open Sys2Proof

theorem idle (icnt : BitVec 14) : Statement (.idle icnt) := of_none rfl

theorem iaAdd (m : MoveF) : Statement (.iaAdd m) := of_dest rfl (by decide) (by decide) (by decide) (fun _ => rfl)

theorem iaSub (m : MoveF) : Statement (.iaSub m) := of_dest rfl (by decide) (by decide) (by decide) (fun _ => rfl)

theorem iaRsub (m : MoveF) : Statement (.iaRsub m) := of_dest rfl (by decide) (by decide) (by decide) (fun _ => rfl)

theorem iaNeg (m : MoveF) : Statement (.iaNeg m) := of_dest rfl (by decide) (by decide) (by decide) (fun _ => rfl)

theorem iaAnd (m : MoveF) : Statement (.iaAnd m) := of_dest rfl (by decide) (by decide) (by decide) (fun _ => rfl)

theorem iaOr (m : MoveF) : Statement (.iaOr m) := of_dest rfl (by decide) (by decide) (by decide) (fun _ => rfl)

theorem iaXor (m : MoveF) : Statement (.iaXor m) := of_dest rfl (by decide) (by decide) (by decide) (fun _ => rfl)

theorem iaAndn (m : MoveF) : Statement (.iaAndn m) := of_dest rfl (by decide) (by decide) (by decide) (fun _ => rfl)

theorem iaOrn (m : MoveF) : Statement (.iaOrn m) := of_dest rfl (by decide) (by decide) (by decide) (fun _ => rfl)

theorem iaMinS (m : MoveF) : Statement (.iaMinS m) := of_dest rfl (by decide) (by decide) (by decide) (fun _ => rfl)

theorem iaMinN (m : MoveF) : Statement (.iaMinN m) := of_dest rfl (by decide) (by decide) (by decide) (fun _ => rfl)

theorem iaMaxS (m : MoveF) : Statement (.iaMaxS m) := of_dest rfl (by decide) (by decide) (by decide) (fun _ => rfl)

theorem iaMaxN (m : MoveF) : Statement (.iaMaxN m) := of_dest rfl (by decide) (by decide) (by decide) (fun _ => rfl)

theorem iaAbs (m : MoveF) : Statement (.iaAbs m) := of_dest rfl (by decide) (by decide) (by decide) (fun _ => rfl)

theorem iaAddSatS (m : MoveF) : Statement (.iaAddSatS m) := of_dest rfl (by decide) (by decide) (by decide) (fun _ => rfl)

theorem iaAddSatN (m : MoveF) : Statement (.iaAddSatN m) := of_dest rfl (by decide) (by decide) (by decide) (fun _ => rfl)

theorem iaSubSatS (m : MoveF) : Statement (.iaSubSatS m) := of_dest rfl (by decide) (by decide) (by decide) (fun _ => rfl)

theorem iaSubSatN (m : MoveF) : Statement (.iaSubSatN m) := of_dest rfl (by decide) (by decide) (by decide) (fun _ => rfl)

theorem iaAvgN (m : MoveF) : Statement (.iaAvgN m) := of_dest rfl (by decide) (by decide) (by decide) (fun _ => rfl)

theorem iaAbsdN (m : MoveF) : Statement (.iaAbsdN m) := of_dest rfl (by decide) (by decide) (by decide) (fun _ => rfl)

theorem iaMov (m : MoveF) : Statement (.iaMov m) := of_dest rfl (by decide) (by decide) (by decide) (fun _ => rfl)

theorem iaAddsh1 (m : MoveF) : Statement (.iaAddsh1 m) := of_dest rfl (by decide) (by decide) (by decide) (fun _ => rfl)

theorem iaAddsh2 (m : MoveF) : Statement (.iaAddsh2 m) := of_dest rfl (by decide) (by decide) (by decide) (fun _ => rfl)

theorem iaAddsh3 (m : MoveF) : Statement (.iaAddsh3 m) := of_dest rfl (by decide) (by decide) (by decide) (fun _ => rfl)

theorem iaAddc (m : MoveF) : Statement (.iaAddc m) := of_dest rfl (by decide) (by decide) (by decide) (fun _ => rfl)

theorem iaSubb (m : MoveF) : Statement (.iaSubb m) := of_dest rfl (by decide) (by decide) (by decide) (fun _ => rfl)

theorem ibAdd (m : MoveF) : Statement (.ibAdd m) := of_dest rfl (by decide) (by decide) (by decide) (fun _ => rfl)

theorem ibSub (m : MoveF) : Statement (.ibSub m) := of_dest rfl (by decide) (by decide) (by decide) (fun _ => rfl)

theorem ibRsub (m : MoveF) : Statement (.ibRsub m) := of_dest rfl (by decide) (by decide) (by decide) (fun _ => rfl)

theorem ibNeg (m : MoveF) : Statement (.ibNeg m) := of_dest rfl (by decide) (by decide) (by decide) (fun _ => rfl)

theorem ibAnd (m : MoveF) : Statement (.ibAnd m) := of_dest rfl (by decide) (by decide) (by decide) (fun _ => rfl)

theorem ibOr (m : MoveF) : Statement (.ibOr m) := of_dest rfl (by decide) (by decide) (by decide) (fun _ => rfl)

theorem ibXor (m : MoveF) : Statement (.ibXor m) := of_dest rfl (by decide) (by decide) (by decide) (fun _ => rfl)

theorem ibAndn (m : MoveF) : Statement (.ibAndn m) := of_dest rfl (by decide) (by decide) (by decide) (fun _ => rfl)

theorem ibOrn (m : MoveF) : Statement (.ibOrn m) := of_dest rfl (by decide) (by decide) (by decide) (fun _ => rfl)

theorem ibMinS (m : MoveF) : Statement (.ibMinS m) := of_dest rfl (by decide) (by decide) (by decide) (fun _ => rfl)

theorem ibMinN (m : MoveF) : Statement (.ibMinN m) := of_dest rfl (by decide) (by decide) (by decide) (fun _ => rfl)

theorem ibMaxS (m : MoveF) : Statement (.ibMaxS m) := of_dest rfl (by decide) (by decide) (by decide) (fun _ => rfl)

theorem ibMaxN (m : MoveF) : Statement (.ibMaxN m) := of_dest rfl (by decide) (by decide) (by decide) (fun _ => rfl)

theorem ibAbs (m : MoveF) : Statement (.ibAbs m) := of_dest rfl (by decide) (by decide) (by decide) (fun _ => rfl)

theorem ibAddSatS (m : MoveF) : Statement (.ibAddSatS m) := of_dest rfl (by decide) (by decide) (by decide) (fun _ => rfl)

theorem ibAddSatN (m : MoveF) : Statement (.ibAddSatN m) := of_dest rfl (by decide) (by decide) (by decide) (fun _ => rfl)

theorem ibSubSatS (m : MoveF) : Statement (.ibSubSatS m) := of_dest rfl (by decide) (by decide) (by decide) (fun _ => rfl)

theorem ibSubSatN (m : MoveF) : Statement (.ibSubSatN m) := of_dest rfl (by decide) (by decide) (by decide) (fun _ => rfl)

theorem ibAvgN (m : MoveF) : Statement (.ibAvgN m) := of_dest rfl (by decide) (by decide) (by decide) (fun _ => rfl)

theorem ibAbsdN (m : MoveF) : Statement (.ibAbsdN m) := of_dest rfl (by decide) (by decide) (by decide) (fun _ => rfl)

theorem ibMov (m : MoveF) : Statement (.ibMov m) := of_dest rfl (by decide) (by decide) (by decide) (fun _ => rfl)

theorem ibAddsh1 (m : MoveF) : Statement (.ibAddsh1 m) := of_dest rfl (by decide) (by decide) (by decide) (fun _ => rfl)

theorem ibAddsh2 (m : MoveF) : Statement (.ibAddsh2 m) := of_dest rfl (by decide) (by decide) (by decide) (fun _ => rfl)

theorem ibAddsh3 (m : MoveF) : Statement (.ibAddsh3 m) := of_dest rfl (by decide) (by decide) (by decide) (fun _ => rfl)

theorem ibAddc (m : MoveF) : Statement (.ibAddc m) := of_dest rfl (by decide) (by decide) (by decide) (fun _ => rfl)

theorem ibSubb (m : MoveF) : Statement (.ibSubb m) := of_dest rfl (by decide) (by decide) (by decide) (fun _ => rfl)

theorem shShl (m : MoveF) : Statement (.shShl m) := of_dest rfl (by decide) (by decide) (by decide) (fun _ => rfl)

theorem shShrN (m : MoveF) : Statement (.shShrN m) := of_dest rfl (by decide) (by decide) (by decide) (fun _ => rfl)

theorem shShrS (m : MoveF) : Statement (.shShrS m) := of_dest rfl (by decide) (by decide) (by decide) (fun _ => rfl)

theorem shRotl (m : MoveF) : Statement (.shRotl m) := of_dest rfl (by decide) (by decide) (by decide) (fun _ => rfl)

theorem shRotr (m : MoveF) : Statement (.shRotr m) := of_dest rfl (by decide) (by decide) (by decide) (fun _ => rfl)

theorem shBfxN (m : MoveF) : Statement (.shBfxN m) := of_dest rfl (by decide) (by decide) (by decide) (fun _ => rfl)

theorem shBfxS (m : MoveF) : Statement (.shBfxS m) := of_dest rfl (by decide) (by decide) (by decide) (fun _ => rfl)

theorem shBfi (m : MoveF) : Statement (.shBfi m) := of_dest rfl (by decide) (by decide) (by decide) (fun _ => rfl)

theorem shClz (m : MoveF) : Statement (.shClz m) := of_dest rfl (by decide) (by decide) (by decide) (fun _ => rfl)

theorem shCtz (m : MoveF) : Statement (.shCtz m) := of_dest rfl (by decide) (by decide) (by decide) (fun _ => rfl)

theorem shPopc (m : MoveF) : Statement (.shPopc m) := of_dest rfl (by decide) (by decide) (by decide) (fun _ => rfl)

theorem shBrev (m : MoveF) : Statement (.shBrev m) := of_dest rfl (by decide) (by decide) (by decide) (fun _ => rfl)

theorem shBswap (m : MoveF) : Statement (.shBswap m) := of_dest rfl (by decide) (by decide) (by decide) (fun _ => rfl)

theorem shFshl (m : MoveF) : Statement (.shFshl m) := of_dest rfl (by decide) (by decide) (by decide) (fun _ => rfl)

theorem shFshr (m : MoveF) : Statement (.shFshr m) := of_dest rfl (by decide) (by decide) (by decide) (fun _ => rfl)

theorem shPklo (m : MoveF) : Statement (.shPklo m) := of_dest rfl (by decide) (by decide) (by decide) (fun _ => rfl)

theorem shPkhi (m : MoveF) : Statement (.shPkhi m) := of_dest rfl (by decide) (by decide) (by decide) (fun _ => rfl)

theorem shSext8 (m : MoveF) : Statement (.shSext8 m) := of_dest rfl (by decide) (by decide) (by decide) (fun _ => rfl)

theorem shSext16 (m : MoveF) : Statement (.shSext16 m) := of_dest rfl (by decide) (by decide) (by decide) (fun _ => rfl)

theorem shZext8 (m : MoveF) : Statement (.shZext8 m) := of_dest rfl (by decide) (by decide) (by decide) (fun _ => rfl)

theorem shZext16 (m : MoveF) : Statement (.shZext16 m) := of_dest rfl (by decide) (by decide) (by decide) (fun _ => rfl)

theorem imMulLo (m : MoveF) : Statement (.imMulLo m) := of_dest rfl (by decide) (by decide) (by decide) (fun _ => rfl)

theorem imMulHiS (m : MoveF) : Statement (.imMulHiS m) := of_dest rfl (by decide) (by decide) (by decide) (fun _ => rfl)

theorem imMulHiN (m : MoveF) : Statement (.imMulHiN m) := of_dest rfl (by decide) (by decide) (by decide) (fun _ => rfl)

theorem imMadLo (m : MoveF) : Statement (.imMadLo m) := of_dest rfl (by decide) (by decide) (by decide) (fun _ => rfl)

theorem imDot4S8 (m : MoveF) : Statement (.imDot4S8 m) := of_dest rfl (by decide) (by decide) (by decide) (fun _ => rfl)

theorem imDot4N8 (m : MoveF) : Statement (.imDot4N8 m) := of_dest rfl (by decide) (by decide) (by decide) (fun _ => rfl)

theorem imDot2S16 (m : MoveF) : Statement (.imDot2S16 m) := of_dest rfl (by decide) (by decide) (by decide) (fun _ => rfl)

theorem uaAdd (m : MoveF) : Statement (.uaAdd m) := of_dest rfl (by decide) (by decide) (by decide) (fun _ => rfl)

theorem uaSub (m : MoveF) : Statement (.uaSub m) := of_dest rfl (by decide) (by decide) (by decide) (fun _ => rfl)

theorem uaAnd (m : MoveF) : Statement (.uaAnd m) := of_dest rfl (by decide) (by decide) (by decide) (fun _ => rfl)

theorem uaOr (m : MoveF) : Statement (.uaOr m) := of_dest rfl (by decide) (by decide) (by decide) (fun _ => rfl)

theorem uaXor (m : MoveF) : Statement (.uaXor m) := of_dest rfl (by decide) (by decide) (by decide) (fun _ => rfl)

theorem uaShl (m : MoveF) : Statement (.uaShl m) := of_dest rfl (by decide) (by decide) (by decide) (fun _ => rfl)

theorem uaShrN (m : MoveF) : Statement (.uaShrN m) := of_dest rfl (by decide) (by decide) (by decide) (fun _ => rfl)

theorem uaShrS (m : MoveF) : Statement (.uaShrS m) := of_dest rfl (by decide) (by decide) (by decide) (fun _ => rfl)

theorem uaMul (m : MoveF) : Statement (.uaMul m) := of_dest rfl (by decide) (by decide) (by decide) (fun _ => rfl)

theorem uaMinS (m : MoveF) : Statement (.uaMinS m) := of_dest rfl (by decide) (by decide) (by decide) (fun _ => rfl)

theorem uaMinN (m : MoveF) : Statement (.uaMinN m) := of_dest rfl (by decide) (by decide) (by decide) (fun _ => rfl)

theorem uaMaxS (m : MoveF) : Statement (.uaMaxS m) := of_dest rfl (by decide) (by decide) (by decide) (fun _ => rfl)

theorem uaMaxN (m : MoveF) : Statement (.uaMaxN m) := of_dest rfl (by decide) (by decide) (by decide) (fun _ => rfl)

theorem uaSel (m : MoveF) : Statement (.uaSel m) := of_dest rfl (by decide) (by decide) (by decide) (fun _ => rfl)

theorem uaCmpEq (m : MoveF) : Statement (.uaCmpEq m) := of_dest rfl (by decide) (by decide) (by decide) (fun _ => rfl)

theorem uaCmpNe (m : MoveF) : Statement (.uaCmpNe m) := of_dest rfl (by decide) (by decide) (by decide) (fun _ => rfl)

theorem uaCmpLtS (m : MoveF) : Statement (.uaCmpLtS m) := of_dest rfl (by decide) (by decide) (by decide) (fun _ => rfl)

theorem uaCmpLtN (m : MoveF) : Statement (.uaCmpLtN m) := of_dest rfl (by decide) (by decide) (by decide) (fun _ => rfl)

theorem uaCmpLeS (m : MoveF) : Statement (.uaCmpLeS m) := of_dest rfl (by decide) (by decide) (by decide) (fun _ => rfl)

theorem uaCmpLeN (m : MoveF) : Statement (.uaCmpLeN m) := of_dest rfl (by decide) (by decide) (by decide) (fun _ => rfl)

theorem uaCmpGtS (m : MoveF) : Statement (.uaCmpGtS m) := of_dest rfl (by decide) (by decide) (by decide) (fun _ => rfl)

theorem uaCmpGtN (m : MoveF) : Statement (.uaCmpGtN m) := of_dest rfl (by decide) (by decide) (by decide) (fun _ => rfl)

theorem cmCmpEq (kdst : BitVec 3) (m : MoveF) : Statement (.cmCmpEq kdst m) := by
  obtain ⟨nkdst, hkdst, rfl⟩ := ofNat_form kdst
  interval_cases nkdst <;> exact of_dest rfl (by decide) (by decide) (by decide) (fun _ => rfl)

theorem cmKset (kdst : BitVec 3) (m : MoveF) : Statement (.cmKset kdst m) := by
  obtain ⟨nkdst, hkdst, rfl⟩ := ofNat_form kdst
  interval_cases nkdst <;> exact of_dest rfl (by decide) (by decide) (by decide) (fun _ => rfl)

theorem cmCmpEqFo (kdst : BitVec 3) (m : MoveF) : Statement (.cmCmpEqFo kdst m) := by
  obtain ⟨nkdst, hkdst, rfl⟩ := ofNat_form kdst
  interval_cases nkdst <;> exact of_dest rfl (by decide) (by decide) (by decide) (fun _ => rfl)

theorem cmCmpEqFu (kdst : BitVec 3) (m : MoveF) : Statement (.cmCmpEqFu kdst m) := by
  obtain ⟨nkdst, hkdst, rfl⟩ := ofNat_form kdst
  interval_cases nkdst <;> exact of_dest rfl (by decide) (by decide) (by decide) (fun _ => rfl)

theorem cmCmpNe (kdst : BitVec 3) (m : MoveF) : Statement (.cmCmpNe kdst m) := by
  obtain ⟨nkdst, hkdst, rfl⟩ := ofNat_form kdst
  interval_cases nkdst <;> exact of_dest rfl (by decide) (by decide) (by decide) (fun _ => rfl)

theorem cmCmpNeFo (kdst : BitVec 3) (m : MoveF) : Statement (.cmCmpNeFo kdst m) := by
  obtain ⟨nkdst, hkdst, rfl⟩ := ofNat_form kdst
  interval_cases nkdst <;> exact of_dest rfl (by decide) (by decide) (by decide) (fun _ => rfl)

theorem cmCmpNeFu (kdst : BitVec 3) (m : MoveF) : Statement (.cmCmpNeFu kdst m) := by
  obtain ⟨nkdst, hkdst, rfl⟩ := ofNat_form kdst
  interval_cases nkdst <;> exact of_dest rfl (by decide) (by decide) (by decide) (fun _ => rfl)

theorem cmCmpLt (kind : BitVec 2) (kdst : BitVec 3) (m : MoveF) : Statement (.cmCmpLt kind kdst m) := by
  obtain ⟨nkind, hkind, rfl⟩ := ofNat_form kind
  obtain ⟨nkdst, hkdst, rfl⟩ := ofNat_form kdst
  interval_cases nkind <;> interval_cases nkdst <;> exact of_dest rfl (by decide) (by decide) (by decide) (fun _ => rfl)

theorem cmCmpLe (kind : BitVec 2) (kdst : BitVec 3) (m : MoveF) : Statement (.cmCmpLe kind kdst m) := by
  obtain ⟨nkind, hkind, rfl⟩ := ofNat_form kind
  obtain ⟨nkdst, hkdst, rfl⟩ := ofNat_form kdst
  interval_cases nkind <;> interval_cases nkdst <;> exact of_dest rfl (by decide) (by decide) (by decide) (fun _ => rfl)

theorem cmCmpGt (kind : BitVec 2) (kdst : BitVec 3) (m : MoveF) : Statement (.cmCmpGt kind kdst m) := by
  obtain ⟨nkind, hkind, rfl⟩ := ofNat_form kind
  obtain ⟨nkdst, hkdst, rfl⟩ := ofNat_form kdst
  interval_cases nkind <;> interval_cases nkdst <;> exact of_dest rfl (by decide) (by decide) (by decide) (fun _ => rfl)

theorem cmCmpGe (kind : BitVec 2) (kdst : BitVec 3) (m : MoveF) : Statement (.cmCmpGe kind kdst m) := by
  obtain ⟨nkind, hkind, rfl⟩ := ofNat_form kind
  obtain ⟨nkdst, hkdst, rfl⟩ := ofNat_form kdst
  interval_cases nkind <;> interval_cases nkdst <;> exact of_dest rfl (by decide) (by decide) (by decide) (fun _ => rfl)

theorem cmPlogAnd (kdst : BitVec 3) (m : MoveF) : Statement (.cmPlogAnd kdst m) := by
  obtain ⟨nkdst, hkdst, rfl⟩ := ofNat_form kdst
  interval_cases nkdst <;> exact of_dest rfl (by decide) (by decide) (by decide) (fun _ => rfl)

theorem cmPlogOr (kdst : BitVec 3) (m : MoveF) : Statement (.cmPlogOr kdst m) := by
  obtain ⟨nkdst, hkdst, rfl⟩ := ofNat_form kdst
  interval_cases nkdst <;> exact of_dest rfl (by decide) (by decide) (by decide) (fun _ => rfl)

theorem cmPlogXor (kdst : BitVec 3) (m : MoveF) : Statement (.cmPlogXor kdst m) := by
  obtain ⟨nkdst, hkdst, rfl⟩ := ofNat_form kdst
  interval_cases nkdst <;> exact of_dest rfl (by decide) (by decide) (by decide) (fun _ => rfl)

theorem cmPlogAndn (kdst : BitVec 3) (m : MoveF) : Statement (.cmPlogAndn kdst m) := by
  obtain ⟨nkdst, hkdst, rfl⟩ := ofNat_form kdst
  interval_cases nkdst <;> exact of_dest rfl (by decide) (by decide) (by decide) (fun _ => rfl)

theorem cmPlogOrn (kdst : BitVec 3) (m : MoveF) : Statement (.cmPlogOrn kdst m) := by
  obtain ⟨nkdst, hkdst, rfl⟩ := ofNat_form kdst
  interval_cases nkdst <;> exact of_dest rfl (by decide) (by decide) (by decide) (fun _ => rfl)

theorem cmPlogNand (kdst : BitVec 3) (m : MoveF) : Statement (.cmPlogNand kdst m) := by
  obtain ⟨nkdst, hkdst, rfl⟩ := ofNat_form kdst
  interval_cases nkdst <;> exact of_dest rfl (by decide) (by decide) (by decide) (fun _ => rfl)

theorem cmPlogNor (kdst : BitVec 3) (m : MoveF) : Statement (.cmPlogNor kdst m) := by
  obtain ⟨nkdst, hkdst, rfl⟩ := ofNat_form kdst
  interval_cases nkdst <;> exact of_dest rfl (by decide) (by decide) (by decide) (fun _ => rfl)

theorem cmPlogXnor (kdst : BitVec 3) (m : MoveF) : Statement (.cmPlogXnor kdst m) := by
  obtain ⟨nkdst, hkdst, rfl⟩ := ofNat_form kdst
  interval_cases nkdst <;> exact of_dest rfl (by decide) (by decide) (by decide) (fun _ => rfl)

theorem brBr (m : MoveF) : Statement (.brBr m) := of_dest rfl (by decide) (by decide) (by decide) (fun _ => rfl)

theorem brAny (kdst : BitVec 3) (m : MoveF) : Statement (.brAny kdst m) := by
  obtain ⟨nkdst, hkdst, rfl⟩ := ofNat_form kdst
  interval_cases nkdst <;> exact of_dest rfl (by decide) (by decide) (by decide) (fun _ => rfl)

theorem brAll (kdst : BitVec 3) (m : MoveF) : Statement (.brAll kdst m) := by
  obtain ⟨nkdst, hkdst, rfl⟩ := ofNat_form kdst
  interval_cases nkdst <;> exact of_dest rfl (by decide) (by decide) (by decide) (fun _ => rfl)

theorem brNone (kdst : BitVec 3) (m : MoveF) : Statement (.brNone kdst m) := by
  obtain ⟨nkdst, hkdst, rfl⟩ := ofNat_form kdst
  interval_cases nkdst <;> exact of_dest rfl (by decide) (by decide) (by decide) (fun _ => rfl)

theorem brSZ (m : MoveF) : Statement (.brSZ m) := of_dest rfl (by decide) (by decide) (by decide) (fun _ => rfl)

theorem brSNz (m : MoveF) : Statement (.brSNz m) := of_dest rfl (by decide) (by decide) (by decide) (fun _ => rfl)

theorem brSLt (m : MoveF) : Statement (.brSLt m) := of_dest rfl (by decide) (by decide) (by decide) (fun _ => rfl)

theorem brSGe (m : MoveF) : Statement (.brSGe m) := of_dest rfl (by decide) (by decide) (by decide) (fun _ => rfl)

theorem brCall (m : MoveF) : Statement (.brCall m) := of_dest rfl (by decide) (by decide) (by decide) (fun _ => rfl)

theorem brRet (m : MoveF) : Statement (.brRet m) := of_dest rfl (by decide) (by decide) (by decide) (fun _ => rfl)

theorem brJr (m : MoveF) : Statement (.brJr m) := of_dest rfl (by decide) (by decide) (by decide) (fun _ => rfl)

theorem brExit (m : MoveF) : Statement (.brExit m) := of_dest rfl (by decide) (by decide) (by decide) (fun _ => rfl)

theorem brLexit (m : MoveF) : Statement (.brLexit m) := of_dest rfl (by decide) (by decide) (by decide) (fun _ => rfl)

theorem faFadd (ty : BitVec 2) (rnd : BitVec 2) (ftz : BitVec 1) (m : MoveF) : Statement (.faFadd ty rnd ftz m) := by
  obtain ⟨nty, hty, rfl⟩ := ofNat_form ty
  obtain ⟨nrnd, hrnd, rfl⟩ := ofNat_form rnd
  obtain ⟨nftz, hftz, rfl⟩ := ofNat_form ftz
  interval_cases nty <;> interval_cases nrnd <;> interval_cases nftz <;>
    first
    | exact of_dest rfl (by decide) (by decide) (by decide) (fun _ => rfl)
    | exact fun h => absurd (show false = true from h) Bool.false_ne_true

theorem faFsub (ty : BitVec 2) (rnd : BitVec 2) (ftz : BitVec 1) (m : MoveF) : Statement (.faFsub ty rnd ftz m) := by
  obtain ⟨nty, hty, rfl⟩ := ofNat_form ty
  obtain ⟨nrnd, hrnd, rfl⟩ := ofNat_form rnd
  obtain ⟨nftz, hftz, rfl⟩ := ofNat_form ftz
  interval_cases nty <;> interval_cases nrnd <;> interval_cases nftz <;>
    first
    | exact of_dest rfl (by decide) (by decide) (by decide) (fun _ => rfl)
    | exact fun h => absurd (show false = true from h) Bool.false_ne_true

theorem faFmul (ty : BitVec 2) (rnd : BitVec 2) (ftz : BitVec 1) (m : MoveF) : Statement (.faFmul ty rnd ftz m) := by
  obtain ⟨nty, hty, rfl⟩ := ofNat_form ty
  obtain ⟨nrnd, hrnd, rfl⟩ := ofNat_form rnd
  obtain ⟨nftz, hftz, rfl⟩ := ofNat_form ftz
  interval_cases nty <;> interval_cases nrnd <;> interval_cases nftz <;>
    first
    | exact of_dest rfl (by decide) (by decide) (by decide) (fun _ => rfl)
    | exact fun h => absurd (show false = true from h) Bool.false_ne_true

theorem faFma (ty : BitVec 2) (rnd : BitVec 2) (ftz : BitVec 1) (m : MoveF) : Statement (.faFma ty rnd ftz m) := by
  obtain ⟨nty, hty, rfl⟩ := ofNat_form ty
  obtain ⟨nrnd, hrnd, rfl⟩ := ofNat_form rnd
  obtain ⟨nftz, hftz, rfl⟩ := ofNat_form ftz
  interval_cases nty <;> interval_cases nrnd <;> interval_cases nftz <;>
    first
    | exact of_dest rfl (by decide) (by decide) (by decide) (fun _ => rfl)
    | exact fun h => absurd (show false = true from h) Bool.false_ne_true

theorem faFnma (ty : BitVec 2) (rnd : BitVec 2) (ftz : BitVec 1) (m : MoveF) : Statement (.faFnma ty rnd ftz m) := by
  obtain ⟨nty, hty, rfl⟩ := ofNat_form ty
  obtain ⟨nrnd, hrnd, rfl⟩ := ofNat_form rnd
  obtain ⟨nftz, hftz, rfl⟩ := ofNat_form ftz
  interval_cases nty <;> interval_cases nrnd <;> interval_cases nftz <;>
    first
    | exact of_dest rfl (by decide) (by decide) (by decide) (fun _ => rfl)
    | exact fun h => absurd (show false = true from h) Bool.false_ne_true

theorem faFmin (ty : BitVec 2) (rnd : BitVec 2) (ftz : BitVec 1) (m : MoveF) : Statement (.faFmin ty rnd ftz m) := by
  obtain ⟨nty, hty, rfl⟩ := ofNat_form ty
  obtain ⟨nrnd, hrnd, rfl⟩ := ofNat_form rnd
  obtain ⟨nftz, hftz, rfl⟩ := ofNat_form ftz
  interval_cases nty <;> interval_cases nrnd <;> interval_cases nftz <;>
    first
    | exact of_dest rfl (by decide) (by decide) (by decide) (fun _ => rfl)
    | exact fun h => absurd (show false = true from h) Bool.false_ne_true

theorem faFmax (ty : BitVec 2) (rnd : BitVec 2) (ftz : BitVec 1) (m : MoveF) : Statement (.faFmax ty rnd ftz m) := by
  obtain ⟨nty, hty, rfl⟩ := ofNat_form ty
  obtain ⟨nrnd, hrnd, rfl⟩ := ofNat_form rnd
  obtain ⟨nftz, hftz, rfl⟩ := ofNat_form ftz
  interval_cases nty <;> interval_cases nrnd <;> interval_cases nftz <;>
    first
    | exact of_dest rfl (by decide) (by decide) (by decide) (fun _ => rfl)
    | exact fun h => absurd (show false = true from h) Bool.false_ne_true

theorem faFdot2 (ty : BitVec 2) (rnd : BitVec 2) (ftz : BitVec 1) (m : MoveF) : Statement (.faFdot2 ty rnd ftz m) := by
  obtain ⟨nty, hty, rfl⟩ := ofNat_form ty
  obtain ⟨nrnd, hrnd, rfl⟩ := ofNat_form rnd
  obtain ⟨nftz, hftz, rfl⟩ := ofNat_form ftz
  interval_cases nty <;> interval_cases nrnd <;> interval_cases nftz <;>
    first
    | exact of_dest rfl (by decide) (by decide) (by decide) (fun _ => rfl)
    | exact fun h => absurd (show false = true from h) Bool.false_ne_true

theorem fbFadd (ty : BitVec 2) (rnd : BitVec 2) (ftz : BitVec 1) (m : MoveF) : Statement (.fbFadd ty rnd ftz m) := by
  obtain ⟨nty, hty, rfl⟩ := ofNat_form ty
  obtain ⟨nrnd, hrnd, rfl⟩ := ofNat_form rnd
  obtain ⟨nftz, hftz, rfl⟩ := ofNat_form ftz
  interval_cases nty <;> interval_cases nrnd <;> interval_cases nftz <;>
    first
    | exact of_dest rfl (by decide) (by decide) (by decide) (fun _ => rfl)
    | exact fun h => absurd (show false = true from h) Bool.false_ne_true

theorem fbFsub (ty : BitVec 2) (rnd : BitVec 2) (ftz : BitVec 1) (m : MoveF) : Statement (.fbFsub ty rnd ftz m) := by
  obtain ⟨nty, hty, rfl⟩ := ofNat_form ty
  obtain ⟨nrnd, hrnd, rfl⟩ := ofNat_form rnd
  obtain ⟨nftz, hftz, rfl⟩ := ofNat_form ftz
  interval_cases nty <;> interval_cases nrnd <;> interval_cases nftz <;>
    first
    | exact of_dest rfl (by decide) (by decide) (by decide) (fun _ => rfl)
    | exact fun h => absurd (show false = true from h) Bool.false_ne_true

theorem fbFmul (ty : BitVec 2) (rnd : BitVec 2) (ftz : BitVec 1) (m : MoveF) : Statement (.fbFmul ty rnd ftz m) := by
  obtain ⟨nty, hty, rfl⟩ := ofNat_form ty
  obtain ⟨nrnd, hrnd, rfl⟩ := ofNat_form rnd
  obtain ⟨nftz, hftz, rfl⟩ := ofNat_form ftz
  interval_cases nty <;> interval_cases nrnd <;> interval_cases nftz <;>
    first
    | exact of_dest rfl (by decide) (by decide) (by decide) (fun _ => rfl)
    | exact fun h => absurd (show false = true from h) Bool.false_ne_true

theorem fbFma (ty : BitVec 2) (rnd : BitVec 2) (ftz : BitVec 1) (m : MoveF) : Statement (.fbFma ty rnd ftz m) := by
  obtain ⟨nty, hty, rfl⟩ := ofNat_form ty
  obtain ⟨nrnd, hrnd, rfl⟩ := ofNat_form rnd
  obtain ⟨nftz, hftz, rfl⟩ := ofNat_form ftz
  interval_cases nty <;> interval_cases nrnd <;> interval_cases nftz <;>
    first
    | exact of_dest rfl (by decide) (by decide) (by decide) (fun _ => rfl)
    | exact fun h => absurd (show false = true from h) Bool.false_ne_true

theorem fbFnma (ty : BitVec 2) (rnd : BitVec 2) (ftz : BitVec 1) (m : MoveF) : Statement (.fbFnma ty rnd ftz m) := by
  obtain ⟨nty, hty, rfl⟩ := ofNat_form ty
  obtain ⟨nrnd, hrnd, rfl⟩ := ofNat_form rnd
  obtain ⟨nftz, hftz, rfl⟩ := ofNat_form ftz
  interval_cases nty <;> interval_cases nrnd <;> interval_cases nftz <;>
    first
    | exact of_dest rfl (by decide) (by decide) (by decide) (fun _ => rfl)
    | exact fun h => absurd (show false = true from h) Bool.false_ne_true

theorem fbFmin (ty : BitVec 2) (rnd : BitVec 2) (ftz : BitVec 1) (m : MoveF) : Statement (.fbFmin ty rnd ftz m) := by
  obtain ⟨nty, hty, rfl⟩ := ofNat_form ty
  obtain ⟨nrnd, hrnd, rfl⟩ := ofNat_form rnd
  obtain ⟨nftz, hftz, rfl⟩ := ofNat_form ftz
  interval_cases nty <;> interval_cases nrnd <;> interval_cases nftz <;>
    first
    | exact of_dest rfl (by decide) (by decide) (by decide) (fun _ => rfl)
    | exact fun h => absurd (show false = true from h) Bool.false_ne_true

theorem fbFmax (ty : BitVec 2) (rnd : BitVec 2) (ftz : BitVec 1) (m : MoveF) : Statement (.fbFmax ty rnd ftz m) := by
  obtain ⟨nty, hty, rfl⟩ := ofNat_form ty
  obtain ⟨nrnd, hrnd, rfl⟩ := ofNat_form rnd
  obtain ⟨nftz, hftz, rfl⟩ := ofNat_form ftz
  interval_cases nty <;> interval_cases nrnd <;> interval_cases nftz <;>
    first
    | exact of_dest rfl (by decide) (by decide) (by decide) (fun _ => rfl)
    | exact fun h => absurd (show false = true from h) Bool.false_ne_true

theorem fbFdot2 (ty : BitVec 2) (rnd : BitVec 2) (ftz : BitVec 1) (m : MoveF) : Statement (.fbFdot2 ty rnd ftz m) := by
  obtain ⟨nty, hty, rfl⟩ := ofNat_form ty
  obtain ⟨nrnd, hrnd, rfl⟩ := ofNat_form rnd
  obtain ⟨nftz, hftz, rfl⟩ := ofNat_form ftz
  interval_cases nty <;> interval_cases nrnd <;> interval_cases nftz <;>
    first
    | exact of_dest rfl (by decide) (by decide) (by decide) (fun _ => rfl)
    | exact fun h => absurd (show false = true from h) Bool.false_ne_true

theorem cvCvt (pair : BitVec 4) (rnd : BitVec 2) (sat : BitVec 1) (m : MoveF) : Statement (.cvCvt pair rnd sat m) := by
  obtain ⟨npair, hpair, rfl⟩ := ofNat_form pair
  obtain ⟨nrnd, hrnd, rfl⟩ := ofNat_form rnd
  obtain ⟨nsat, hsat, rfl⟩ := ofNat_form sat
  interval_cases npair <;> interval_cases nrnd <;> interval_cases nsat <;> exact of_dest rfl (by decide) (by decide) (by decide) (fun _ => rfl)

theorem cvFabs (ty : BitVec 2) (m : MoveF) : Statement (.cvFabs ty m) := by
  obtain ⟨nty, hty, rfl⟩ := ofNat_form ty
  interval_cases nty <;>
    first
    | exact of_dest rfl (by decide) (by decide) (by decide) (fun _ => rfl)
    | exact fun h => absurd (show false = true from h) Bool.false_ne_true

theorem cvFneg (ty : BitVec 2) (m : MoveF) : Statement (.cvFneg ty m) := by
  obtain ⟨nty, hty, rfl⟩ := ofNat_form ty
  interval_cases nty <;>
    first
    | exact of_dest rfl (by decide) (by decide) (by decide) (fun _ => rfl)
    | exact fun h => absurd (show false = true from h) Bool.false_ne_true

theorem cvFclass (ty : BitVec 2) (m : MoveF) : Statement (.cvFclass ty m) := by
  obtain ⟨nty, hty, rfl⟩ := ofNat_form ty
  interval_cases nty <;>
    first
    | exact of_dest rfl (by decide) (by decide) (by decide) (fun _ => rfl)
    | exact fun h => absurd (show false = true from h) Bool.false_ne_true

theorem cvFrexp (ty : BitVec 2) (m : MoveF) : Statement (.cvFrexp ty m) := by
  obtain ⟨nty, hty, rfl⟩ := ofNat_form ty
  interval_cases nty <;>
    first
    | exact of_dest rfl (by decide) (by decide) (by decide) (fun _ => rfl)
    | exact fun h => absurd (show false = true from h) Bool.false_ne_true

theorem cvFrint (rnd : BitVec 2) (ty : BitVec 2) (m : MoveF) : Statement (.cvFrint rnd ty m) := by
  obtain ⟨nrnd, hrnd, rfl⟩ := ofNat_form rnd
  obtain ⟨nty, hty, rfl⟩ := ofNat_form ty
  interval_cases nrnd <;> interval_cases nty <;>
    first
    | exact of_dest rfl (by decide) (by decide) (by decide) (fun _ => rfl)
    | exact fun h => absurd (show false = true from h) Bool.false_ne_true

theorem cvLdexp (ty : BitVec 2) (m : MoveF) : Statement (.cvLdexp ty m) := by
  obtain ⟨nty, hty, rfl⟩ := ofNat_form ty
  interval_cases nty <;>
    first
    | exact of_dest rfl (by decide) (by decide) (by decide) (fun _ => rfl)
    | exact fun h => absurd (show false = true from h) Bool.false_ne_true

theorem cvCvtFmTo (fm : BitVec 4) (rz : BitVec 1) (m : MoveF) : Statement (.cvCvtFmTo fm rz m) := by
  obtain ⟨nfm, hfm, rfl⟩ := ofNat_form fm
  obtain ⟨nrz, hrz, rfl⟩ := ofNat_form rz
  interval_cases nfm <;> interval_cases nrz <;> exact of_dest rfl (by decide) (by decide) (by decide) (fun _ => rfl)

theorem cvCvtFmFrom (fm : BitVec 4) (m : MoveF) : Statement (.cvCvtFmFrom fm m) := by
  obtain ⟨nfm, hfm, rfl⟩ := ofNat_form fm
  interval_cases nfm <;> exact of_dest rfl (by decide) (by decide) (by decide) (fun _ => rfl)

theorem sfRcp (ty : BitVec 2) (m : MoveF) : Statement (.sfRcp ty m) := by
  obtain ⟨nty, hty, rfl⟩ := ofNat_form ty
  interval_cases nty <;>
    first
    | exact of_dest rfl (by decide) (by decide) (by decide) (fun _ => rfl)
    | exact fun h => absurd (show false = true from h) Bool.false_ne_true

theorem sfRsqrt (ty : BitVec 2) (m : MoveF) : Statement (.sfRsqrt ty m) := by
  obtain ⟨nty, hty, rfl⟩ := ofNat_form ty
  interval_cases nty <;>
    first
    | exact of_dest rfl (by decide) (by decide) (by decide) (fun _ => rfl)
    | exact fun h => absurd (show false = true from h) Bool.false_ne_true

theorem sfSqrt (ty : BitVec 2) (m : MoveF) : Statement (.sfSqrt ty m) := by
  obtain ⟨nty, hty, rfl⟩ := ofNat_form ty
  interval_cases nty <;>
    first
    | exact of_dest rfl (by decide) (by decide) (by decide) (fun _ => rfl)
    | exact fun h => absurd (show false = true from h) Bool.false_ne_true

theorem sfExp2 (ty : BitVec 2) (m : MoveF) : Statement (.sfExp2 ty m) := by
  obtain ⟨nty, hty, rfl⟩ := ofNat_form ty
  interval_cases nty <;>
    first
    | exact of_dest rfl (by decide) (by decide) (by decide) (fun _ => rfl)
    | exact fun h => absurd (show false = true from h) Bool.false_ne_true

theorem sfLog2 (ty : BitVec 2) (m : MoveF) : Statement (.sfLog2 ty m) := by
  obtain ⟨nty, hty, rfl⟩ := ofNat_form ty
  interval_cases nty <;>
    first
    | exact of_dest rfl (by decide) (by decide) (by decide) (fun _ => rfl)
    | exact fun h => absurd (show false = true from h) Bool.false_ne_true

theorem sfSin (ty : BitVec 2) (m : MoveF) : Statement (.sfSin ty m) := by
  obtain ⟨nty, hty, rfl⟩ := ofNat_form ty
  interval_cases nty <;>
    first
    | exact of_dest rfl (by decide) (by decide) (by decide) (fun _ => rfl)
    | exact fun h => absurd (show false = true from h) Bool.false_ne_true

theorem sfCos (ty : BitVec 2) (m : MoveF) : Statement (.sfCos ty m) := by
  obtain ⟨nty, hty, rfl⟩ := ofNat_form ty
  interval_cases nty <;>
    first
    | exact of_dest rfl (by decide) (by decide) (by decide) (fun _ => rfl)
    | exact fun h => absurd (show false = true from h) Bool.false_ne_true

theorem sfTanh (ty : BitVec 2) (m : MoveF) : Statement (.sfTanh ty m) := by
  obtain ⟨nty, hty, rfl⟩ := ofNat_form ty
  interval_cases nty <;>
    first
    | exact of_dest rfl (by decide) (by decide) (by decide) (fun _ => rfl)
    | exact fun h => absurd (show false = true from h) Bool.false_ne_true

theorem sfDiv (ty : BitVec 2) (m : MoveF) : Statement (.sfDiv ty m) := by
  obtain ⟨nty, hty, rfl⟩ := ofNat_form ty
  interval_cases nty <;>
    first
    | exact of_dest rfl (by decide) (by decide) (by decide) (fun _ => rfl)
    | exact fun h => absurd (show false = true from h) Bool.false_ne_true

theorem xlShflIdx (m : MoveF) : Statement (.xlShflIdx m) := of_dest rfl (by decide) (by decide) (by decide) (fun _ => rfl)

theorem xlShflUp (m : MoveF) : Statement (.xlShflUp m) := of_dest rfl (by decide) (by decide) (by decide) (fun _ => rfl)

theorem xlShflDn (m : MoveF) : Statement (.xlShflDn m) := of_dest rfl (by decide) (by decide) (by decide) (fun _ => rfl)

theorem xlShflXor (m : MoveF) : Statement (.xlShflXor m) := of_dest rfl (by decide) (by decide) (by decide) (fun _ => rfl)

theorem xlBcast (m : MoveF) : Statement (.xlBcast m) := of_dest rfl (by decide) (by decide) (by decide) (fun _ => rfl)

theorem xlVoteAny (m : MoveF) : Statement (.xlVoteAny m) := of_dest rfl (by decide) (by decide) (by decide) (fun _ => rfl)

theorem xlVoteAll (m : MoveF) : Statement (.xlVoteAll m) := of_dest rfl (by decide) (by decide) (by decide) (fun _ => rfl)

theorem xlBallot (m : MoveF) : Statement (.xlBallot m) := of_dest rfl (by decide) (by decide) (by decide) (fun _ => rfl)

theorem xlScanAddI32 (m : MoveF) : Statement (.xlScanAddI32 m) := of_dest rfl (by decide) (by decide) (by decide) (fun _ => rfl)

theorem xlScanAddF32 (m : MoveF) : Statement (.xlScanAddF32 m) := of_dest rfl (by decide) (by decide) (by decide) (fun _ => rfl)

theorem xlRedAddI32 (m : MoveF) : Statement (.xlRedAddI32 m) := of_dest rfl (by decide) (by decide) (by decide) (fun _ => rfl)

theorem xlRedAddF32 (m : MoveF) : Statement (.xlRedAddF32 m) := of_dest rfl (by decide) (by decide) (by decide) (fun _ => rfl)

theorem xlRedMinS (m : MoveF) : Statement (.xlRedMinS m) := of_dest rfl (by decide) (by decide) (by decide) (fun _ => rfl)

theorem xlRedMinN (m : MoveF) : Statement (.xlRedMinN m) := of_dest rfl (by decide) (by decide) (by decide) (fun _ => rfl)

theorem xlRedMinF32 (m : MoveF) : Statement (.xlRedMinF32 m) := of_dest rfl (by decide) (by decide) (by decide) (fun _ => rfl)

theorem xlRedMaxS (m : MoveF) : Statement (.xlRedMaxS m) := of_dest rfl (by decide) (by decide) (by decide) (fun _ => rfl)

theorem xlRedMaxN (m : MoveF) : Statement (.xlRedMaxN m) := of_dest rfl (by decide) (by decide) (by decide) (fun _ => rfl)

theorem xlRedMaxF32 (m : MoveF) : Statement (.xlRedMaxF32 m) := of_dest rfl (by decide) (by decide) (by decide) (fun _ => rfl)

theorem xlWrLd (m : MoveF) : Statement (.xlWrLd m) := of_dest rfl (by decide) (by decide) (by decide) (fun _ => rfl)

theorem xlWrSt (m : MoveF) : Statement (.xlWrSt m) := of_dest rfl (by decide) (by decide) (by decide) (fun _ => rfl)

theorem xlWrRotr (m : MoveF) : Statement (.xlWrRotr m) := of_dest rfl (by decide) (by decide) (by decide) (fun _ => rfl)

theorem xlWrRotc (m : MoveF) : Statement (.xlWrRotc m) := of_dest rfl (by decide) (by decide) (by decide) (fun _ => rfl)

theorem xlWrBcr (m : MoveF) : Statement (.xlWrBcr m) := of_dest rfl (by decide) (by decide) (by decide) (fun _ => rfl)

theorem xlWrBcc (m : MoveF) : Statement (.xlWrBcc m) := of_dest rfl (by decide) (by decide) (by decide) (fun _ => rfl)

theorem xlWrRedr (m : MoveF) : Statement (.xlWrRedr m) := of_dest rfl (by decide) (by decide) (by decide) (fun _ => rfl)

theorem xlWrRedc (m : MoveF) : Statement (.xlWrRedc m) := of_dest rfl (by decide) (by decide) (by decide) (fun _ => rfl)

theorem xlWrZero (m : MoveF) : Statement (.xlWrZero m) := of_dest rfl (by decide) (by decide) (by decide) (fun _ => rfl)

theorem xlWrPack (m : MoveF) : Statement (.xlWrPack m) := of_dest rfl (by decide) (by decide) (by decide) (fun _ => rfl)

theorem laLd (size : BitVec 2) (sgn : BitVec 1) (rt : BitVec 2) (m : MoveF) : Statement (.laLd size sgn rt m) := by
  obtain ⟨nsize, hsize, rfl⟩ := ofNat_form size
  obtain ⟨nsgn, hsgn, rfl⟩ := ofNat_form sgn
  obtain ⟨nrt, hrt, rfl⟩ := ofNat_form rt
  interval_cases nsize <;> interval_cases nsgn <;> interval_cases nrt <;>
    first
    | exact of_dest rfl (by decide) (by decide) (by decide) (fun _ => rfl)
    | exact fun h => absurd (show false = true from h) Bool.false_ne_true

theorem laLdAcq (size : BitVec 2) (sgn : BitVec 1) (rt : BitVec 2) (m : MoveF) : Statement (.laLdAcq size sgn rt m) := by
  obtain ⟨nsize, hsize, rfl⟩ := ofNat_form size
  obtain ⟨nsgn, hsgn, rfl⟩ := ofNat_form sgn
  obtain ⟨nrt, hrt, rfl⟩ := ofNat_form rt
  interval_cases nsize <;> interval_cases nsgn <;> interval_cases nrt <;>
    first
    | exact of_dest rfl (by decide) (by decide) (by decide) (fun _ => rfl)
    | exact fun h => absurd (show false = true from h) Bool.false_ne_true

theorem laLdAcqRem (size : BitVec 2) (sgn : BitVec 1) (rt : BitVec 2) (m : MoveF) : Statement (.laLdAcqRem size sgn rt m) := by
  obtain ⟨nsize, hsize, rfl⟩ := ofNat_form size
  obtain ⟨nsgn, hsgn, rfl⟩ := ofNat_form sgn
  obtain ⟨nrt, hrt, rfl⟩ := ofNat_form rt
  interval_cases nsize <;> interval_cases nsgn <;> interval_cases nrt <;>
    first
    | exact of_dest rfl (by decide) (by decide) (by decide) (fun _ => rfl)
    | exact fun h => absurd (show false = true from h) Bool.false_ne_true

theorem laPf (rt : BitVec 2) (m : MoveF) : Statement (.laPf rt m) := by
  obtain ⟨nrt, hrt, rfl⟩ := ofNat_form rt
  interval_cases nrt <;> exact of_dest rfl (by decide) (by decide) (by decide) (fun _ => rfl)

theorem lbLd (size : BitVec 2) (sgn : BitVec 1) (rt : BitVec 2) (m : MoveF) : Statement (.lbLd size sgn rt m) := by
  obtain ⟨nsize, hsize, rfl⟩ := ofNat_form size
  obtain ⟨nsgn, hsgn, rfl⟩ := ofNat_form sgn
  obtain ⟨nrt, hrt, rfl⟩ := ofNat_form rt
  interval_cases nsize <;> interval_cases nsgn <;> interval_cases nrt <;>
    first
    | exact of_dest rfl (by decide) (by decide) (by decide) (fun _ => rfl)
    | exact fun h => absurd (show false = true from h) Bool.false_ne_true

theorem lbLdAcq (size : BitVec 2) (sgn : BitVec 1) (rt : BitVec 2) (m : MoveF) : Statement (.lbLdAcq size sgn rt m) := by
  obtain ⟨nsize, hsize, rfl⟩ := ofNat_form size
  obtain ⟨nsgn, hsgn, rfl⟩ := ofNat_form sgn
  obtain ⟨nrt, hrt, rfl⟩ := ofNat_form rt
  interval_cases nsize <;> interval_cases nsgn <;> interval_cases nrt <;>
    first
    | exact of_dest rfl (by decide) (by decide) (by decide) (fun _ => rfl)
    | exact fun h => absurd (show false = true from h) Bool.false_ne_true

theorem lbLdAcqRem (size : BitVec 2) (sgn : BitVec 1) (rt : BitVec 2) (m : MoveF) : Statement (.lbLdAcqRem size sgn rt m) := by
  obtain ⟨nsize, hsize, rfl⟩ := ofNat_form size
  obtain ⟨nsgn, hsgn, rfl⟩ := ofNat_form sgn
  obtain ⟨nrt, hrt, rfl⟩ := ofNat_form rt
  interval_cases nsize <;> interval_cases nsgn <;> interval_cases nrt <;>
    first
    | exact of_dest rfl (by decide) (by decide) (by decide) (fun _ => rfl)
    | exact fun h => absurd (show false = true from h) Bool.false_ne_true

theorem lbPf (rt : BitVec 2) (m : MoveF) : Statement (.lbPf rt m) := by
  obtain ⟨nrt, hrt, rfl⟩ := ofNat_form rt
  interval_cases nrt <;> exact of_dest rfl (by decide) (by decide) (by decide) (fun _ => rfl)

theorem stSt (size : BitVec 2) (rt : BitVec 2) (m : MoveF) : Statement (.stSt size rt m) := by
  obtain ⟨nsize, hsize, rfl⟩ := ofNat_form size
  obtain ⟨nrt, hrt, rfl⟩ := ofNat_form rt
  interval_cases nsize <;> interval_cases nrt <;> exact of_dest rfl (by decide) (by decide) (by decide) (fun _ => rfl)

theorem stStRel (size : BitVec 2) (rt : BitVec 2) (m : MoveF) : Statement (.stStRel size rt m) := by
  obtain ⟨nsize, hsize, rfl⟩ := ofNat_form size
  obtain ⟨nrt, hrt, rfl⟩ := ofNat_form rt
  interval_cases nsize <;> interval_cases nrt <;> exact of_dest rfl (by decide) (by decide) (by decide) (fun _ => rfl)

theorem stWb (m : MoveF) : Statement (.stWb m) := of_dest rfl (by decide) (by decide) (by decide) (fun _ => rfl)

theorem stInv (m : MoveF) : Statement (.stInv m) := of_dest rfl (by decide) (by decide) (by decide) (fun _ => rfl)

theorem stFlush (m : MoveF) : Statement (.stFlush m) := of_dest rfl (by decide) (by decide) (by decide) (fun _ => rfl)

theorem atAdd (rem : BitVec 1) (ord : BitVec 2) (size : BitVec 1) (m : MoveF) : Statement (.atAdd rem ord size m) := by
  obtain ⟨nrem, hrem, rfl⟩ := ofNat_form rem
  obtain ⟨nord, hord, rfl⟩ := ofNat_form ord
  obtain ⟨nsize, hsize, rfl⟩ := ofNat_form size
  interval_cases nrem <;> interval_cases nord <;> interval_cases nsize <;>
    first
    | exact of_dest rfl (by decide) (by decide) (by decide) (fun _ => rfl)
    | exact fun h => absurd (show false = true from h) Bool.false_ne_true

theorem atSub (rem : BitVec 1) (ord : BitVec 2) (size : BitVec 1) (m : MoveF) : Statement (.atSub rem ord size m) := by
  obtain ⟨nrem, hrem, rfl⟩ := ofNat_form rem
  obtain ⟨nord, hord, rfl⟩ := ofNat_form ord
  obtain ⟨nsize, hsize, rfl⟩ := ofNat_form size
  interval_cases nrem <;> interval_cases nord <;> interval_cases nsize <;>
    first
    | exact of_dest rfl (by decide) (by decide) (by decide) (fun _ => rfl)
    | exact fun h => absurd (show false = true from h) Bool.false_ne_true

theorem atAnd (rem : BitVec 1) (ord : BitVec 2) (size : BitVec 1) (m : MoveF) : Statement (.atAnd rem ord size m) := by
  obtain ⟨nrem, hrem, rfl⟩ := ofNat_form rem
  obtain ⟨nord, hord, rfl⟩ := ofNat_form ord
  obtain ⟨nsize, hsize, rfl⟩ := ofNat_form size
  interval_cases nrem <;> interval_cases nord <;> interval_cases nsize <;>
    first
    | exact of_dest rfl (by decide) (by decide) (by decide) (fun _ => rfl)
    | exact fun h => absurd (show false = true from h) Bool.false_ne_true

theorem atOr (rem : BitVec 1) (ord : BitVec 2) (size : BitVec 1) (m : MoveF) : Statement (.atOr rem ord size m) := by
  obtain ⟨nrem, hrem, rfl⟩ := ofNat_form rem
  obtain ⟨nord, hord, rfl⟩ := ofNat_form ord
  obtain ⟨nsize, hsize, rfl⟩ := ofNat_form size
  interval_cases nrem <;> interval_cases nord <;> interval_cases nsize <;>
    first
    | exact of_dest rfl (by decide) (by decide) (by decide) (fun _ => rfl)
    | exact fun h => absurd (show false = true from h) Bool.false_ne_true

theorem atXor (rem : BitVec 1) (ord : BitVec 2) (size : BitVec 1) (m : MoveF) : Statement (.atXor rem ord size m) := by
  obtain ⟨nrem, hrem, rfl⟩ := ofNat_form rem
  obtain ⟨nord, hord, rfl⟩ := ofNat_form ord
  obtain ⟨nsize, hsize, rfl⟩ := ofNat_form size
  interval_cases nrem <;> interval_cases nord <;> interval_cases nsize <;>
    first
    | exact of_dest rfl (by decide) (by decide) (by decide) (fun _ => rfl)
    | exact fun h => absurd (show false = true from h) Bool.false_ne_true

theorem atMinS (rem : BitVec 1) (ord : BitVec 2) (size : BitVec 1) (m : MoveF) : Statement (.atMinS rem ord size m) := by
  obtain ⟨nrem, hrem, rfl⟩ := ofNat_form rem
  obtain ⟨nord, hord, rfl⟩ := ofNat_form ord
  obtain ⟨nsize, hsize, rfl⟩ := ofNat_form size
  interval_cases nrem <;> interval_cases nord <;> interval_cases nsize <;>
    first
    | exact of_dest rfl (by decide) (by decide) (by decide) (fun _ => rfl)
    | exact fun h => absurd (show false = true from h) Bool.false_ne_true

theorem atMinN (rem : BitVec 1) (ord : BitVec 2) (size : BitVec 1) (m : MoveF) : Statement (.atMinN rem ord size m) := by
  obtain ⟨nrem, hrem, rfl⟩ := ofNat_form rem
  obtain ⟨nord, hord, rfl⟩ := ofNat_form ord
  obtain ⟨nsize, hsize, rfl⟩ := ofNat_form size
  interval_cases nrem <;> interval_cases nord <;> interval_cases nsize <;>
    first
    | exact of_dest rfl (by decide) (by decide) (by decide) (fun _ => rfl)
    | exact fun h => absurd (show false = true from h) Bool.false_ne_true

theorem atMaxS (rem : BitVec 1) (ord : BitVec 2) (size : BitVec 1) (m : MoveF) : Statement (.atMaxS rem ord size m) := by
  obtain ⟨nrem, hrem, rfl⟩ := ofNat_form rem
  obtain ⟨nord, hord, rfl⟩ := ofNat_form ord
  obtain ⟨nsize, hsize, rfl⟩ := ofNat_form size
  interval_cases nrem <;> interval_cases nord <;> interval_cases nsize <;>
    first
    | exact of_dest rfl (by decide) (by decide) (by decide) (fun _ => rfl)
    | exact fun h => absurd (show false = true from h) Bool.false_ne_true

theorem atMaxN (rem : BitVec 1) (ord : BitVec 2) (size : BitVec 1) (m : MoveF) : Statement (.atMaxN rem ord size m) := by
  obtain ⟨nrem, hrem, rfl⟩ := ofNat_form rem
  obtain ⟨nord, hord, rfl⟩ := ofNat_form ord
  obtain ⟨nsize, hsize, rfl⟩ := ofNat_form size
  interval_cases nrem <;> interval_cases nord <;> interval_cases nsize <;>
    first
    | exact of_dest rfl (by decide) (by decide) (by decide) (fun _ => rfl)
    | exact fun h => absurd (show false = true from h) Bool.false_ne_true

theorem atXchg (rem : BitVec 1) (ord : BitVec 2) (size : BitVec 1) (m : MoveF) : Statement (.atXchg rem ord size m) := by
  obtain ⟨nrem, hrem, rfl⟩ := ofNat_form rem
  obtain ⟨nord, hord, rfl⟩ := ofNat_form ord
  obtain ⟨nsize, hsize, rfl⟩ := ofNat_form size
  interval_cases nrem <;> interval_cases nord <;> interval_cases nsize <;>
    first
    | exact of_dest rfl (by decide) (by decide) (by decide) (fun _ => rfl)
    | exact fun h => absurd (show false = true from h) Bool.false_ne_true

theorem atCas (rem : BitVec 1) (ord : BitVec 2) (size : BitVec 1) (m : MoveF) : Statement (.atCas rem ord size m) := by
  obtain ⟨nrem, hrem, rfl⟩ := ofNat_form rem
  obtain ⟨nord, hord, rfl⟩ := ofNat_form ord
  obtain ⟨nsize, hsize, rfl⟩ := ofNat_form size
  interval_cases nrem <;> interval_cases nord <;> interval_cases nsize <;>
    first
    | exact of_dest rfl (by decide) (by decide) (by decide) (fun _ => rfl)
    | exact fun h => absurd (show false = true from h) Bool.false_ne_true

theorem atFaddF32 (rem : BitVec 1) (ord : BitVec 2) (size : BitVec 1) (m : MoveF) : Statement (.atFaddF32 rem ord size m) := by
  obtain ⟨nrem, hrem, rfl⟩ := ofNat_form rem
  obtain ⟨nord, hord, rfl⟩ := ofNat_form ord
  obtain ⟨nsize, hsize, rfl⟩ := ofNat_form size
  interval_cases nrem <;> interval_cases nord <;> interval_cases nsize <;>
    first
    | exact of_dest rfl (by decide) (by decide) (by decide) (fun _ => rfl)
    | exact fun h => absurd (show false = true from h) Bool.false_ne_true

theorem atFaddBf16x2 (rem : BitVec 1) (ord : BitVec 2) (size : BitVec 1) (m : MoveF) : Statement (.atFaddBf16x2 rem ord size m) := by
  obtain ⟨nrem, hrem, rfl⟩ := ofNat_form rem
  obtain ⟨nord, hord, rfl⟩ := ofNat_form ord
  obtain ⟨nsize, hsize, rfl⟩ := ofNat_form size
  interval_cases nrem <;> interval_cases nord <;> interval_cases nsize <;>
    first
    | exact of_dest rfl (by decide) (by decide) (by decide) (fun _ => rfl)
    | exact fun h => absurd (show false = true from h) Bool.false_ne_true

theorem syBarArr (bar : BitVec 4) (m : MoveF) : Statement (.syBarArr bar m) := by
  obtain ⟨nbar, hbar, rfl⟩ := ofNat_form bar
  interval_cases nbar <;> exact of_dest rfl (by decide) (by decide) (by decide) (fun _ => rfl)

theorem syBarWait (bar : BitVec 4) (m : MoveF) : Statement (.syBarWait bar m) := by
  obtain ⟨nbar, hbar, rfl⟩ := ofNat_form bar
  interval_cases nbar <;> exact of_dest rfl (by decide) (by decide) (by decide) (fun _ => rfl)

theorem syBarSync (bar : BitVec 4) (m : MoveF) : Statement (.syBarSync bar m) := by
  obtain ⟨nbar, hbar, rfl⟩ := ofNat_form bar
  interval_cases nbar <;> exact of_dest rfl (by decide) (by decide) (by decide) (fun _ => rfl)

theorem syFence (m : MoveF) : Statement (.syFence m) := of_dest rfl (by decide) (by decide) (by decide) (fun _ => rfl)

theorem syFset (flag : BitVec 4) (m : MoveF) : Statement (.syFset flag m) := by
  obtain ⟨nflag, hflag, rfl⟩ := ofNat_form flag
  interval_cases nflag <;>
    first
    | exact of_dest rfl (by decide) (by decide) (by decide) (fun _ => rfl)
    | exact fun h => absurd (show false = true from h) Bool.false_ne_true

theorem syFclr (flag : BitVec 4) (m : MoveF) : Statement (.syFclr flag m) := by
  obtain ⟨nflag, hflag, rfl⟩ := ofNat_form flag
  interval_cases nflag <;>
    first
    | exact of_dest rfl (by decide) (by decide) (by decide) (fun _ => rfl)
    | exact fun h => absurd (show false = true from h) Bool.false_ne_true

theorem syYield (m : MoveF) : Statement (.syYield m) := of_dest rfl (by decide) (by decide) (by decide) (fun _ => rfl)

theorem syYieldc (flag : BitVec 4) (m : MoveF) : Statement (.syYieldc flag m) := by
  obtain ⟨nflag, hflag, rfl⟩ := ofNat_form flag
  interval_cases nflag <;>
    first
    | exact of_dest rfl (by decide) (by decide) (by decide) (fun _ => rfl)
    | exact fun h => absurd (show false = true from h) Bool.false_ne_true

theorem syRacq (ring : BitVec 3) (m : MoveF) : Statement (.syRacq ring m) := by
  obtain ⟨nring, hring, rfl⟩ := ofNat_form ring
  interval_cases nring <;> exact of_dest rfl (by decide) (by decide) (by decide) (fun _ => rfl)

theorem syRcom (ring : BitVec 3) (m : MoveF) : Statement (.syRcom ring m) := by
  obtain ⟨nring, hring, rfl⟩ := ofNat_form ring
  interval_cases nring <;> exact of_dest rfl (by decide) (by decide) (by decide) (fun _ => rfl)

theorem syRwait (ring : BitVec 3) (m : MoveF) : Statement (.syRwait ring m) := by
  obtain ⟨nring, hring, rfl⟩ := ofNat_form ring
  interval_cases nring <;> exact of_dest rfl (by decide) (by decide) (by decide) (fun _ => rfl)

theorem syRrel (ring : BitVec 3) (m : MoveF) : Statement (.syRrel ring m) := by
  obtain ⟨nring, hring, rfl⟩ := ofNat_form ring
  interval_cases nring <;> exact of_dest rfl (by decide) (by decide) (by decide) (fun _ => rfl)

theorem syRgrow (m : MoveF) : Statement (.syRgrow m) := of_dest rfl (by decide) (by decide) (by decide) (fun _ => rfl)

theorem syRshrink (m : MoveF) : Statement (.syRshrink m) := of_dest rfl (by decide) (by decide) (by decide) (fun _ => rfl)

theorem syClaim (m : MoveF) : Statement (.syClaim m) := of_dest rfl (by decide) (by decide) (by decide) (fun _ => rfl)

theorem syUnclaim (m : MoveF) : Statement (.syUnclaim m) := of_dest rfl (by decide) (by decide) (by decide) (fun _ => rfl)

theorem syRgn (m : MoveF) : Statement (.syRgn m) := of_dest rfl (by decide) (by decide) (by decide) (fun _ => rfl)

theorem mxBload (bank : BitVec 1) (m : MoveF) : Statement (.mxBload bank m) := by
  obtain ⟨nbank, hbank, rfl⟩ := ofNat_form bank
  interval_cases nbank <;> exact of_dest rfl (by decide) (by decide) (by decide) (fun _ => rfl)

theorem mxMma (bank : BitVec 1) (m : MoveF) : Statement (.mxMma bank m) := by
  obtain ⟨nbank, hbank, rfl⟩ := ofNat_form bank
  interval_cases nbank <;> exact of_dest rfl (by decide) (by decide) (by decide) (fun _ => rfl)

theorem mxMmap (bank : BitVec 1) (m : MoveF) : Statement (.mxMmap bank m) := by
  obtain ⟨nbank, hbank, rfl⟩ := ofNat_form bank
  interval_cases nbank <;> exact of_dest rfl (by decide) (by decide) (by decide) (fun _ => rfl)

theorem mxZero (m : MoveF) : Statement (.mxZero m) := of_dest rfl (by decide) (by decide) (by decide) (fun _ => rfl)

theorem mxDrain (m : MoveF) : Statement (.mxDrain m) := of_dest rfl (by decide) (by decide) (by decide) (fun _ => rfl)

theorem mxAload (m : MoveF) : Statement (.mxAload m) := of_dest rfl (by decide) (by decide) (by decide) (fun _ => rfl)

theorem mxFmt (m : MoveF) : Statement (.mxFmt m) := of_dest rfl (by decide) (by decide) (by decide) (fun _ => rfl)

theorem mxStat (m : MoveF) : Statement (.mxStat m) := of_dest rfl (by decide) (by decide) (by decide) (fun _ => rfl)

theorem cpCopy (m : MoveF) : Statement (.cpCopy m) := of_dest rfl (by decide) (by decide) (by decide) (fun _ => rfl)

theorem cpCopy2d (m : MoveF) : Statement (.cpCopy2d m) := of_dest rfl (by decide) (by decide) (by decide) (fun _ => rfl)

theorem cpCopy3d (m : MoveF) : Statement (.cpCopy3d m) := of_dest rfl (by decide) (by decide) (by decide) (fun _ => rfl)

theorem cpStage (m : MoveF) : Statement (.cpStage m) := of_dest rfl (by decide) (by decide) (by decide) (fun _ => rfl)

theorem cpGather (m : MoveF) : Statement (.cpGather m) := of_dest rfl (by decide) (by decide) (by decide) (fun _ => rfl)

theorem cpScatter (m : MoveF) : Statement (.cpScatter m) := of_dest rfl (by decide) (by decide) (by decide) (fun _ => rfl)

theorem cpFill (m : MoveF) : Statement (.cpFill m) := of_dest rfl (by decide) (by decide) (by decide) (fun _ => rfl)

theorem cpAccin (m : MoveF) : Statement (.cpAccin m) := of_dest rfl (by decide) (by decide) (by decide) (fun _ => rfl)

theorem cpAccout (m : MoveF) : Statement (.cpAccout m) := of_dest rfl (by decide) (by decide) (by decide) (fun _ => rfl)

theorem nxPut (m : MoveF) : Statement (.nxPut m) := of_dest rfl (by decide) (by decide) (by decide) (fun _ => rfl)

theorem nxGet (m : MoveF) : Statement (.nxGet m) := of_dest rfl (by decide) (by decide) (by decide) (fun _ => rfl)

theorem nxAtom (m : MoveF) : Statement (.nxAtom m) := of_dest rfl (by decide) (by decide) (by decide) (fun _ => rfl)

theorem nxSend (m : MoveF) : Statement (.nxSend m) := of_dest rfl (by decide) (by decide) (by decide) (fun _ => rfl)

theorem nxBind (m : MoveF) : Statement (.nxBind m) := of_dest rfl (by decide) (by decide) (by decide) (fun _ => rfl)

theorem nxCstate (m : MoveF) : Statement (.nxCstate m) := of_dest rfl (by decide) (by decide) (by decide) (fun _ => rfl)

theorem nxLkrate (m : MoveF) : Statement (.nxLkrate m) := of_dest rfl (by decide) (by decide) (by decide) (fun _ => rfl)

theorem nxLkwatch (m : MoveF) : Statement (.nxLkwatch m) := of_dest rfl (by decide) (by decide) (by decide) (fun _ => rfl)

theorem nxLkstat (m : MoveF) : Statement (.nxLkstat m) := of_dest rfl (by decide) (by decide) (by decide) (fun _ => rfl)

theorem svCsrr (m : MoveF) : Statement (.svCsrr m) := of_dest rfl (by decide) (by decide) (by decide) (fun _ => rfl)

theorem svCsrw (m : MoveF) : Statement (.svCsrw m) := of_dest rfl (by decide) (by decide) (by decide) (fun _ => rfl)

theorem svCsrs (m : MoveF) : Statement (.svCsrs m) := of_dest rfl (by decide) (by decide) (by decide) (fun _ => rfl)

theorem svCsrc (m : MoveF) : Statement (.svCsrc m) := of_dest rfl (by decide) (by decide) (by decide) (fun _ => rfl)

theorem svTrap (m : MoveF) : Statement (.svTrap m) := of_dest rfl (by decide) (by decide) (by decide) (fun _ => rfl)

theorem svEret (m : MoveF) : Statement (.svEret m) := of_dest rfl (by decide) (by decide) (by decide) (fun _ => rfl)

theorem svReplay (m : MoveF) : Statement (.svReplay m) := of_dest rfl (by decide) (by decide) (by decide) (fun _ => rfl)

theorem svBrk (m : MoveF) : Statement (.svBrk m) := of_dest rfl (by decide) (by decide) (by decide) (fun _ => rfl)

theorem svSnap (m : MoveF) : Statement (.svSnap m) := of_dest rfl (by decide) (by decide) (by decide) (fun _ => rfl)

theorem svCtxNextev (m : MoveF) : Statement (.svCtxNextev m) := of_dest rfl (by decide) (by decide) (by decide) (fun _ => rfl)

theorem svCtxRead (m : MoveF) : Statement (.svCtxRead m) := fun h => absurd (show false = true from h) Bool.false_ne_true

theorem svCtxWrite (m : MoveF) : Statement (.svCtxWrite m) := fun h => absurd (show false = true from h) Bool.false_ne_true

theorem svCtxFreeze (m : MoveF) : Statement (.svCtxFreeze m) := fun h => absurd (show false = true from h) Bool.false_ne_true

theorem svCtxSave (m : MoveF) : Statement (.svCtxSave m) := fun h => absurd (show false = true from h) Bool.false_ne_true

theorem svCtxRestore (m : MoveF) : Statement (.svCtxRestore m) := fun h => absurd (show false = true from h) Bool.false_ne_true

theorem svCtxKill (m : MoveF) : Statement (.svCtxKill m) := fun h => absurd (show false = true from h) Bool.false_ne_true


end Sys2Proof.Laws.Encoding
end

