-- ==== Sys2Proof/Tests/Slice0.lean ====
section
/-! SUPPORT. Tests: terms that WellFormed refuses, words written out from the spec's encodings, one-step results with
values taken from the spec, and for each statement states and operands that meet its hypotheses. -/

namespace Sys2Proof.Tests

open Sys2Proof Sys2Proof.Machine

set_option Elab.async false

/-! ## Small states -/

/-- A move whose source is the immediate 5, always; and one whose guard is never true. -/
def mv : MoveF := ⟨false, 0, 2, 5⟩
def mvNever : MoveF := ⟨true, 0, 2, 5⟩
/-- Always, with the immediate `n`. -/
def imm (n : Nat) : MoveF := ⟨false, 0, 2, BitVec.ofNat 10 n⟩

def team : CtxId := { fold := 0, slot := 0 }
def shep : CtxId := { fold := 0, slot := CtxId.shadowSlot }

/-- A team of two lanes with a handler, PC 0x1000. -/
def ctx2 : Ctx := { Ctx.blank 2 32 with tid := 1, gang := 7, pc := 0x1000, tvec := 0x2000 }
/-- Fold 0's shadow context. -/
def shadowCtx : Ctx := { Ctx.blank 32 32 with tid := 2, shadow := true, asid := 256, pc := 0x1000 }

/-- The package runs with its Lumen port up; one context, which issues next. -/
def pkgUp : Pkg := { Pkg.off with boot := .running, lumenUp := true }
def only (id : CtxId) (c : Ctx) : State := { State.reset with ctxs := [(CtxId.key id, c)], pkg := pkgUp, cur := id }
/-- The team's state, and the shadow context's. -/
def one (c : Ctx) : State := only team c

/-- A gang's block: one matrix-kind role of one team, no scratchpad block. -/
def block1 : Block :=
  { mirrorAddr := 0, liveAddr := 0, barMask := 0xFFFFFFFF, barMaskHi := 0xFFFFFFFF, scrLog2 := 0, wide := 16, pair := false,
    roles := [{ entry := 0x1000, kind := 3, prio := 3, regs := 16, lanes := 32, teams := 1 }], rings := [], fm := [] }
def gang1 : Gang :=
  { die := 0, queue := 0, flock := 0, gangIdx := 0, asid := 0, args := 0, save := 0, conf := false, fold := 0,
    block := block1, hasEngine := true, base := [], mirrorSel := [], liveBase := 0, smapV := [], smapS := [],
    sectors := [], fm := [], barriers := [], rings := [], teams := [(0, 0)], loop := none, pktIdx := 0, saving := false, asked := [],
    aborted := false, froze := [] }
/-- A team of gang 7. -/
def inGang (g : Gang) (c : Ctx) : State := { one c with gangs := [(7, g)] }

/-- `State.Clear` as a check. -/
def clearB (s : State) (c0 : Ctx) (b : Bundle) : Bool :=
  decide (s.cur.slot ≤ CtxId.shadowSlot) && c0.ready && (s.acqOut s.cur c0.land).isNone && c0.land.nextDue.isNone &&
    c0.land.us.sfTrap.isNone && !s.breaks s.cur c0.land && c0.land.us.fence.isNone &&
    (c0.land.failing b (decide ((s.fold s.cur.fold).cycle < c0.land.us.xlBusy))).isEmpty &&
    (!b.isExt || (c0.land.us.zeros b.wait).isEmpty) && (c0.land.tokenRead b).isNone && (c0.land.emptyRead b).isNone &&
    c0.land.sfb.isEmpty && !s.storesOut s.cur c0.land && c0.land.memq.isEmpty && decide ((s.fold s.cur.fold).held.length < 64) &&
    decide ((s.fold s.cur.fold).widePath ≤ (s.fold s.cur.fold).cycle) &&
    !(s.fold s.cur.fold).unread (s.fold s.cur.fold).lockSeq && c0.loop.isNone

theorem clear_of {s : State} {c0 : Ctx} {b : Bundle} (h0 : s.ctx s.cur = some c0) (h : clearB s c0 b = true) :
    s.Clear c0 b := by
  simp only [clearB, Bool.and_eq_true, Bool.or_eq_true, Option.isNone_iff_eq_none, Bool.not_eq_true',
    List.isEmpty_iff, decide_eq_true_eq] at h
  obtain ⟨⟨⟨⟨⟨⟨⟨⟨⟨⟨⟨⟨⟨⟨⟨⟨⟨h1, h2⟩, h3⟩, h4⟩, h5⟩, h6⟩, h7⟩, h8⟩, h9⟩, h10⟩, h11⟩, h12⟩, h13⟩, hq⟩, h14⟩, h15⟩, h16⟩, h17⟩ := h
  exact { here := h0, place := h1, ready := h2, acq := h3, due := h4, sf := fun t ht => by simp [h5] at ht, brk := h6,
          fence := h7, checks := h8, flags := fun he => (h9.resolve_left (by simp [he])), token := h10, full := h11,
          sfb := fun _ => h12, stores := fun _ => h13, loads := fun _ => hq, held := fun _ => h14,
          wide := fun _ => ⟨h15, h16⟩, loop := fun q hq => by simp [h17] at hq }

/-- `State.Fires` as a check: the bundle executes and its guard holds on lane 0. -/
def firesB (s : State) (c0 : Ctx) (w : W32) : Bool :=
  clearB s c0 (Bundle.one w s.curPc) && decide (0 < c0.land.nlanes) &&
    (c0.land.guardMask (Move.of 0 w)).getLsbD 0

theorem fires_of {s : State} {c0 : Ctx} {w : W32} (h0 : s.ctx s.cur = some c0) (h : firesB s c0 w = true) :
    s.Fires c0 w := by
  simp only [firesB, Bool.and_eq_true, decide_eq_true_eq] at h
  exact ⟨clear_of h0 h.1.1, 0, h.1.2, h.2⟩

/-- A one-move instruction issues its bundle. -/
theorem issues_one (s : State) (c : Ctx) {i : Instr} {u p o : Nat} {m : MoveF} (h : destOf i = some (u, p, o, m)) :
    s.Issues c i (Bundle.one (syllable true u p o m) s.curPc) := .inr (.inr ⟨u, p, o, m, h, rfl⟩)
/-- A bundle at a state's PC, and the instruction that issues it. -/
def bundleAt (s : State) (r : RawBundle) : Bundle := rawAt r s.curPc (s.curPc + BitVec.ofNat 64 (2 * headerLength r.header))
theorem issues_raw (s : State) (c : Ctx) (r : RawBundle) : s.Issues c (.bundleIssue r) (bundleAt s r) := .inl ⟨r, rfl, rfl⟩

/-! ## WellFormed refuses -/

theorem test_wf_port_of_no_unit : WellFormed (.moveToPort 22 0 0 mv) = false := by decide +kernel
theorem test_wf_port_of_rf : WellFormed (.moveToPort 0 0 0 mv) = false := by decide +kernel
theorem test_wf_port_t : WellFormed (.moveToPort 1 3 0 mv) = false := by decide +kernel
theorem test_wf_float_type : WellFormed (.faFadd 3 0 0 mv) = false ∧ WellFormed (.fbFma 3 0 0 mv) = false := by decide +kernel
theorem test_wf_fmin_rnd : WellFormed (.faFmin 0 1 0 mv) = false ∧ WellFormed (.fbFmax 0 1 0 mv) = false := by decide +kernel
theorem test_wf_fdot2_type : WellFormed (.faFdot2 0 0 0 mv) = false ∧ WellFormed (.fbFdot2 3 0 0 mv) = false := by decide +kernel
theorem test_wf_convert_type : WellFormed (.cvFrint 0 3 mv) = false ∧ WellFormed (.cvLdexp 3 mv) = false := by decide +kernel
theorem test_wf_special_type : WellFormed (.sfDiv 3 mv) = false := by decide +kernel
theorem test_wf_signed_word_load : WellFormed (.laLd 2 1 0 mv) = false ∧ WellFormed (.lbLdAcq 3 1 0 mv) = false := by decide +kernel
theorem test_wf_remote_relaxed_atomic : WellFormed (.atAdd 1 0 0 mv) = false ∧ WellFormed (.atXchg 0 3 0 mv) = false ∧
    WellFormed (.atFaddF32 0 0 1 mv) = false := by decide +kernel
theorem test_wf_flag_number : WellFormed (.syFset 12 mv) = false ∧ WellFormed (.syYieldc 15 mv) = false := by decide +kernel
theorem test_wf_ctx_words_are_one : WellFormed (.svCtxRead mv) = false ∧ WellFormed (.svCtxKill mv) = false := by decide +kernel
theorem test_wf_event_has_no_word : WellFormed (.qnotify 0 0) = false := by decide +kernel
theorem test_wf_bundle_parcels : WellFormed (.bundleIssue { header := 0x0100, ext := 1, sylls := [0x80700005], limm := 0 }) = false ∧
    WellFormed (.bundleIssue { header := 0x0300, ext := 0, sylls := [0x80700005], limm := 0 }) = false := by decide +kernel
/-! ## Words decode

Each word is laid out from its row of the opcode table: STOP 1, NEG 1, guard k5, source kind 2 with SSEL 677, and the
opcode's sub-fields at values that differ from one another. -/

/-- NEG, guard 5, source kind 2, SSEL 677. -/
def mvB : MoveF := ⟨true, 5, 2, 677⟩
/-- Every word of a list decodes to the instruction beside it. -/
noncomputable def decodesAll (l : List (Nat × Instr)) : Bool := l.all (fun x => decide (decodeTableWord 32 x.1 = some x.2))

theorem test_decode_ia_1 : decodesAll [
    (0xE8700AA5, .iaAdd mvB),
    (0xE8701AA5, .iaSub mvB),
    (0xE8702AA5, .iaRsub mvB),
    (0xE8703AA5, .iaNeg mvB),
    (0xE8704AA5, .iaAnd mvB),
    (0xE8705AA5, .iaOr mvB),
    (0xE8706AA5, .iaXor mvB),
    (0xE8707AA5, .iaAndn mvB),
    (0xE8708AA5, .iaOrn mvB),
    (0xE8709AA5, .iaMinS mvB),
    (0xE870AAA5, .iaMinN mvB),
    (0xE870BAA5, .iaMaxS mvB),
    (0xE870CAA5, .iaMaxN mvB),
    (0xE870DAA5, .iaAbs mvB),
    (0xE870EAA5, .iaAddSatS mvB)] = true := by decide +kernel

theorem test_decode_ia_2 : decodesAll [
    (0xE870FAA5, .iaAddSatN mvB),
    (0xE8710AA5, .iaSubSatS mvB),
    (0xE8711AA5, .iaSubSatN mvB),
    (0xE8712AA5, .iaAvgN mvB),
    (0xE8713AA5, .iaAbsdN mvB),
    (0xE8714AA5, .iaMov mvB),
    (0xE8715AA5, .iaAddsh1 mvB),
    (0xE8716AA5, .iaAddsh2 mvB),
    (0xE8717AA5, .iaAddsh3 mvB),
    (0xE8718AA5, .iaAddc mvB),
    (0xE8719AA5, .iaSubb mvB)] = true := by decide +kernel

theorem test_decode_ib_1 : decodesAll [
    (0xE8B00AA5, .ibAdd mvB),
    (0xE8B01AA5, .ibSub mvB),
    (0xE8B02AA5, .ibRsub mvB),
    (0xE8B03AA5, .ibNeg mvB),
    (0xE8B04AA5, .ibAnd mvB),
    (0xE8B05AA5, .ibOr mvB),
    (0xE8B06AA5, .ibXor mvB),
    (0xE8B07AA5, .ibAndn mvB),
    (0xE8B08AA5, .ibOrn mvB),
    (0xE8B09AA5, .ibMinS mvB),
    (0xE8B0AAA5, .ibMinN mvB),
    (0xE8B0BAA5, .ibMaxS mvB),
    (0xE8B0CAA5, .ibMaxN mvB),
    (0xE8B0DAA5, .ibAbs mvB),
    (0xE8B0EAA5, .ibAddSatS mvB)] = true := by decide +kernel

theorem test_decode_ib_2 : decodesAll [
    (0xE8B0FAA5, .ibAddSatN mvB),
    (0xE8B10AA5, .ibSubSatS mvB),
    (0xE8B11AA5, .ibSubSatN mvB),
    (0xE8B12AA5, .ibAvgN mvB),
    (0xE8B13AA5, .ibAbsdN mvB),
    (0xE8B14AA5, .ibMov mvB),
    (0xE8B15AA5, .ibAddsh1 mvB),
    (0xE8B16AA5, .ibAddsh2 mvB),
    (0xE8B17AA5, .ibAddsh3 mvB),
    (0xE8B18AA5, .ibAddc mvB),
    (0xE8B19AA5, .ibSubb mvB)] = true := by decide +kernel

theorem test_decode_sh_1 : decodesAll [
    (0xE8F00AA5, .shShl mvB),
    (0xE8F01AA5, .shShrN mvB),
    (0xE8F02AA5, .shShrS mvB),
    (0xE8F03AA5, .shRotl mvB),
    (0xE8F04AA5, .shRotr mvB),
    (0xE8F05AA5, .shBfxN mvB),
    (0xE8F06AA5, .shBfxS mvB),
    (0xE8F07AA5, .shBfi mvB),
    (0xE8F08AA5, .shClz mvB),
    (0xE8F09AA5, .shCtz mvB),
    (0xE8F0AAA5, .shPopc mvB),
    (0xE8F0BAA5, .shBrev mvB),
    (0xE8F0CAA5, .shBswap mvB),
    (0xE8F0DAA5, .shFshl mvB),
    (0xE8F0EAA5, .shFshr mvB)] = true := by decide +kernel

theorem test_decode_sh_2 : decodesAll [
    (0xE8F0FAA5, .shPklo mvB),
    (0xE8F10AA5, .shPkhi mvB),
    (0xE8F11AA5, .shSext8 mvB),
    (0xE8F12AA5, .shSext16 mvB),
    (0xE8F13AA5, .shZext8 mvB),
    (0xE8F14AA5, .shZext16 mvB)] = true := by decide +kernel

theorem test_decode_im : decodesAll [
    (0xE9300AA5, .imMulLo mvB),
    (0xE9301AA5, .imMulHiS mvB),
    (0xE9302AA5, .imMulHiN mvB),
    (0xE9303AA5, .imMadLo mvB),
    (0xE9304AA5, .imDot4S8 mvB),
    (0xE9305AA5, .imDot4N8 mvB),
    (0xE9306AA5, .imDot2S16 mvB)] = true := by decide +kernel

theorem test_decode_fa : decodesAll [
    (0xE970DAA5, .faFadd 1 2 1 mvB),
    (0xE972DAA5, .faFsub 1 2 1 mvB),
    (0xE974DAA5, .faFmul 1 2 1 mvB),
    (0xE976DAA5, .faFma 1 2 1 mvB),
    (0xE978DAA5, .faFnma 1 2 1 mvB),
    (0xE97A9AA5, .faFmin 1 0 1 mvB),
    (0xE97C9AA5, .faFmax 1 0 1 mvB),
    (0xE97EDAA5, .faFdot2 1 2 1 mvB)] = true := by decide +kernel

theorem test_decode_fb : decodesAll [
    (0xE9B0DAA5, .fbFadd 1 2 1 mvB),
    (0xE9B2DAA5, .fbFsub 1 2 1 mvB),
    (0xE9B4DAA5, .fbFmul 1 2 1 mvB),
    (0xE9B6DAA5, .fbFma 1 2 1 mvB),
    (0xE9B8DAA5, .fbFnma 1 2 1 mvB),
    (0xE9BA9AA5, .fbFmin 1 0 1 mvB),
    (0xE9BC9AA5, .fbFmax 1 0 1 mvB),
    (0xE9BEDAA5, .fbFdot2 1 2 1 mvB)] = true := by decide +kernel

theorem test_decode_cv : decodesAll [
    (0xE9F2DAA5, .cvCvt 5 2 1 mvB),
    (0xE9F81AA5, .cvFabs 1 mvB),
    (0xE9F85AA5, .cvFneg 1 mvB),
    (0xE9F89AA5, .cvFclass 1 mvB),
    (0xE9F8DAA5, .cvFrexp 1 mvB),
    (0xE9F99AA5, .cvFrint 2 1 mvB),
    (0xE9FA1AA5, .cvLdexp 1 mvB),
    (0xE9FDBAA5, .cvCvtFmTo 13 1 mvB),
    (0xE9FFAAA5, .cvCvtFmFrom 13 mvB)] = true := by decide +kernel

theorem test_decode_sf : decodesAll [
    (0xEA310AA5, .sfRcp 1 mvB),
    (0xEA311AA5, .sfRsqrt 1 mvB),
    (0xEA312AA5, .sfSqrt 1 mvB),
    (0xEA313AA5, .sfExp2 1 mvB),
    (0xEA314AA5, .sfLog2 1 mvB),
    (0xEA315AA5, .sfSin 1 mvB),
    (0xEA316AA5, .sfCos 1 mvB),
    (0xEA317AA5, .sfTanh 1 mvB),
    (0xEA318AA5, .sfDiv 1 mvB)] = true := by decide +kernel

theorem test_decode_cm_1 : decodesAll [
    (0xEA706AA5, .cmCmpEq 6 mvB),
    (0xEA70EAA5, .cmKset 6 mvB),
    (0xEA716AA5, .cmCmpEqFo 6 mvB),
    (0xEA71EAA5, .cmCmpEqFu 6 mvB),
    (0xEA726AA5, .cmCmpNe 6 mvB),
    (0xEA736AA5, .cmCmpNeFo 6 mvB),
    (0xEA73EAA5, .cmCmpNeFu 6 mvB),
    (0xEA756AA5, .cmCmpLt 2 6 mvB),
    (0xEA776AA5, .cmCmpLe 2 6 mvB),
    (0xEA796AA5, .cmCmpGt 2 6 mvB),
    (0xEA7B6AA5, .cmCmpGe 2 6 mvB),
    (0xEA7C6AA5, .cmPlogAnd 6 mvB),
    (0xEA7CEAA5, .cmPlogOr 6 mvB),
    (0xEA7D6AA5, .cmPlogXor 6 mvB),
    (0xEA7DEAA5, .cmPlogAndn 6 mvB)] = true := by decide +kernel

theorem test_decode_cm_2 : decodesAll [
    (0xEA7E6AA5, .cmPlogOrn 6 mvB),
    (0xEA7EEAA5, .cmPlogNand 6 mvB),
    (0xEA7F6AA5, .cmPlogNor 6 mvB),
    (0xEA7FEAA5, .cmPlogXnor 6 mvB)] = true := by decide +kernel

theorem test_decode_xl_1 : decodesAll [
    (0xEAB00AA5, .xlShflIdx mvB),
    (0xEAB01AA5, .xlShflUp mvB),
    (0xEAB02AA5, .xlShflDn mvB),
    (0xEAB03AA5, .xlShflXor mvB),
    (0xEAB04AA5, .xlBcast mvB),
    (0xEAB05AA5, .xlVoteAny mvB),
    (0xEAB06AA5, .xlVoteAll mvB),
    (0xEAB07AA5, .xlBallot mvB),
    (0xEAB08AA5, .xlScanAddI32 mvB),
    (0xEAB09AA5, .xlScanAddF32 mvB),
    (0xEAB0AAA5, .xlRedAddI32 mvB),
    (0xEAB0BAA5, .xlRedAddF32 mvB),
    (0xEAB0CAA5, .xlRedMinS mvB),
    (0xEAB0DAA5, .xlRedMinN mvB),
    (0xEAB0EAA5, .xlRedMinF32 mvB)] = true := by decide +kernel

theorem test_decode_xl_2 : decodesAll [
    (0xEAB0FAA5, .xlRedMaxS mvB),
    (0xEAB10AA5, .xlRedMaxN mvB),
    (0xEAB11AA5, .xlRedMaxF32 mvB),
    (0xEAB40AA5, .xlWrLd mvB),
    (0xEAB41AA5, .xlWrSt mvB),
    (0xEAB42AA5, .xlWrRotr mvB),
    (0xEAB43AA5, .xlWrRotc mvB),
    (0xEAB44AA5, .xlWrBcr mvB),
    (0xEAB45AA5, .xlWrBcc mvB),
    (0xEAB46AA5, .xlWrRedr mvB),
    (0xEAB47AA5, .xlWrRedc mvB),
    (0xEAB48AA5, .xlWrZero mvB),
    (0xEAB49AA5, .xlWrPack mvB)] = true := by decide +kernel

theorem test_decode_la : decodesAll [
    (0xEAF1EAA5, .laLd 1 1 3 mvB),
    (0xEAF5EAA5, .laLdAcq 1 1 3 mvB),
    (0xEAF9EAA5, .laLdAcqRem 1 1 3 mvB),
    (0xEAFC6AA5, .laPf 3 mvB)] = true := by decide +kernel

theorem test_decode_lb : decodesAll [
    (0xEB31EAA5, .lbLd 1 1 3 mvB),
    (0xEB35EAA5, .lbLdAcq 1 1 3 mvB),
    (0xEB39EAA5, .lbLdAcqRem 1 1 3 mvB),
    (0xEB3C6AA5, .lbPf 3 mvB)] = true := by decide +kernel

theorem test_decode_st : decodesAll [
    (0xEB716AA5, .stSt 1 3 mvB),
    (0xEB756AA5, .stStRel 1 3 mvB),
    (0xEB780AA5, .stWb mvB),
    (0xEB781AA5, .stInv mvB),
    (0xEB782AA5, .stFlush mvB)] = true := by decide +kernel

theorem test_decode_at : decodesAll [
    (0xEBBD0AA5, .atAdd 1 2 1 mvB),
    (0xEBBD1AA5, .atSub 1 2 1 mvB),
    (0xEBBD2AA5, .atAnd 1 2 1 mvB),
    (0xEBBD3AA5, .atOr 1 2 1 mvB),
    (0xEBBD4AA5, .atXor 1 2 1 mvB),
    (0xEBBD5AA5, .atMinS 1 2 1 mvB),
    (0xEBBD6AA5, .atMinN 1 2 1 mvB),
    (0xEBBD7AA5, .atMaxS 1 2 1 mvB),
    (0xEBBD8AA5, .atMaxN 1 2 1 mvB),
    (0xEBBD9AA5, .atXchg 1 2 1 mvB),
    (0xEBBDAAA5, .atCas 1 2 1 mvB),
    (0xEBBCBAA5, .atFaddF32 1 2 0 mvB),
    (0xEBBCCAA5, .atFaddBf16x2 1 2 0 mvB)] = true := by decide +kernel

theorem test_decode_br : decodesAll [
    (0xEBF00AA5, .brBr mvB),
    (0xEBF0EAA5, .brAny 6 mvB),
    (0xEBF16AA5, .brAll 6 mvB),
    (0xEBF1EAA5, .brNone 6 mvB),
    (0xEBF20AA5, .brSZ mvB),
    (0xEBF21AA5, .brSNz mvB),
    (0xEBF22AA5, .brSLt mvB),
    (0xEBF23AA5, .brSGe mvB),
    (0xEBF30AA5, .brCall mvB),
    (0xEBF31AA5, .brRet mvB),
    (0xEBF32AA5, .brJr mvB),
    (0xEBF38AA5, .brExit mvB),
    (0xEBF39AA5, .brLexit mvB)] = true := by decide +kernel

theorem test_decode_sy_1 : decodesAll [
    (0xEC309AA5, .syBarArr 9 mvB),
    (0xEC319AA5, .syBarWait 9 mvB),
    (0xEC329AA5, .syBarSync 9 mvB),
    (0xEC330AA5, .syFence mvB),
    (0xEC34BAA5, .syFset 11 mvB),
    (0xEC35BAA5, .syFclr 11 mvB),
    (0xEC360AA5, .syYield mvB),
    (0xEC37BAA5, .syYieldc 11 mvB),
    (0xEC385AA5, .syRacq 5 mvB),
    (0xEC38DAA5, .syRcom 5 mvB),
    (0xEC395AA5, .syRwait 5 mvB),
    (0xEC39DAA5, .syRrel 5 mvB),
    (0xEC3A0AA5, .syRgrow mvB),
    (0xEC3A1AA5, .syRshrink mvB),
    (0xEC3B0AA5, .syClaim mvB)] = true := by decide +kernel

theorem test_decode_sy_2 : decodesAll [
    (0xEC3B1AA5, .syUnclaim mvB),
    (0xEC3C0AA5, .syRgn mvB)] = true := by decide +kernel

theorem test_decode_mx : decodesAll [
    (0xEC701AA5, .mxBload 1 mvB),
    (0xEC711AA5, .mxMma 1 mvB),
    (0xEC713AA5, .mxMmap 1 mvB),
    (0xEC720AA5, .mxZero mvB),
    (0xEC730AA5, .mxDrain mvB),
    (0xEC740AA5, .mxAload mvB),
    (0xEC750AA5, .mxFmt mvB),
    (0xEC760AA5, .mxStat mvB)] = true := by decide +kernel

theorem test_decode_cp : decodesAll [
    (0xECB00AA5, .cpCopy mvB),
    (0xECB01AA5, .cpCopy2d mvB),
    (0xECB02AA5, .cpCopy3d mvB),
    (0xECB03AA5, .cpStage mvB),
    (0xECB04AA5, .cpGather mvB),
    (0xECB05AA5, .cpScatter mvB),
    (0xECB06AA5, .cpFill mvB),
    (0xECB07AA5, .cpAccin mvB),
    (0xECB08AA5, .cpAccout mvB)] = true := by decide +kernel

theorem test_decode_nx : decodesAll [
    (0xECF00AA5, .nxPut mvB),
    (0xECF01AA5, .nxGet mvB),
    (0xECF02AA5, .nxAtom mvB),
    (0xECF03AA5, .nxSend mvB),
    (0xECF10AA5, .nxBind mvB),
    (0xECF20AA5, .nxCstate mvB),
    (0xECF30AA5, .nxLkrate mvB),
    (0xECF31AA5, .nxLkwatch mvB),
    (0xECF32AA5, .nxLkstat mvB)] = true := by decide +kernel

theorem test_decode_sv : decodesAll [
    (0xED300AA5, .svCsrr mvB),
    (0xED301AA5, .svCsrw mvB),
    (0xED302AA5, .svCsrs mvB),
    (0xED303AA5, .svCsrc mvB),
    (0xED310AA5, .svTrap mvB),
    (0xED311AA5, .svEret mvB),
    (0xED312AA5, .svReplay mvB),
    (0xED313AA5, .svBrk mvB),
    (0xED320AA5, .svSnap mvB),
    (0xED330AA5, .svCtxNextev mvB)] = true := by decide +kernel

theorem test_decode_ua_1 : decodesAll [
    (0xED700AA5, .uaAdd mvB),
    (0xED701AA5, .uaSub mvB),
    (0xED702AA5, .uaAnd mvB),
    (0xED703AA5, .uaOr mvB),
    (0xED704AA5, .uaXor mvB),
    (0xED705AA5, .uaShl mvB),
    (0xED706AA5, .uaShrN mvB),
    (0xED707AA5, .uaShrS mvB),
    (0xED708AA5, .uaMul mvB),
    (0xED709AA5, .uaMinS mvB),
    (0xED70AAA5, .uaMinN mvB),
    (0xED70BAA5, .uaMaxS mvB),
    (0xED70CAA5, .uaMaxN mvB),
    (0xED70DAA5, .uaSel mvB),
    (0xED710AA5, .uaCmpEq mvB)] = true := by decide +kernel

theorem test_decode_ua_2 : decodesAll [
    (0xED711AA5, .uaCmpNe mvB),
    (0xED712AA5, .uaCmpLtS mvB),
    (0xED713AA5, .uaCmpLtN mvB),
    (0xED714AA5, .uaCmpLeS mvB),
    (0xED715AA5, .uaCmpLeN mvB),
    (0xED716AA5, .uaCmpGtS mvB),
    (0xED717AA5, .uaCmpGtN mvB)] = true := by decide +kernel

/-- R21, R41: register moves and a port move with its modifier; R35, R34: recall 298 and idle 4. -/
theorem test_decode_moves : decodesAll [
    (0b1_1_101_00000_00_01111111_10_1010100101, .moveToG 127 mvB),
    (0b1_1_101_00000_01_00011111_10_1010100101, .moveToS 31 mvB),
    (0b1_1_101_00000_10_00000111_10_1010100101, .moveToK 7 mvB),
    (0b1_1_101_10101_01_00000010_10_1010100101, .moveToPort 21 1 2 mvB)] = true := by decide +kernel

theorem test_decode_recall_idle : decodeTableWord 16 0b01_00000_100101010 = some (.recall 298) ∧
    decodeTableWord 16 0b11_00000000000100 = some (.idle 4) := by decide +kernel

/-- R186 and R426: the words that the spec gives for sy.t.rwait.ring2 and for nx.t.lkwatch. -/
theorem test_decode_spec_words : decodeTableWord 32 0x84392800 = some (.syRwait 2 ⟨false, 0, 2, 0⟩) ∧
    decodeTableWord 32 0x84F31802 = some (.nxLkwatch ⟨false, 0, 2, 2⟩) := by decide +kernel

/-- R388: the parcels that the spec gives for sv.t.snap; R281: for a claim with its long immediate. -/
theorem test_decode_spec_bundles : decode [0x00, 0x01, 0x02, 0x08, 0x32, 0x85] = .ok (.svSnap ⟨false, 0, 2, 2⟩) ∧
    decode [0x80, 0x03, 0x00, 0x0C, 0x00, 0x04, 0x00, 0x09, 0x3B, 0x84, 0x00, 0x00, 0x00, 0x10] =
      .ok (.bundleIssue { header := 0x0380, ext := 0, sylls := [0x04000C00, 0x843B0900], limm := 0x10000000 }) := by decide +kernel

/-- R44: a recall header with reserved bits, and bytes that end early, name no instruction. -/
theorem test_decode_refuses : decode [0x00, 0x42] = .error .recallReserved ∧
    decode [0x00, 0x01, 0x05, 0x00, 0x70] = .error .short ∧ decode [] = .error .short := by decide +kernel

/-- R46, R48: a reserved opcode is a bundle that the issue checks meet, and no neighbour's instruction. -/
theorem test_decode_reserved_opcode : decodeTableWord 32 0x8071A005 =
    some (.bundleIssue { header := 0x0100, ext := 0, sylls := [0x8071A005], limm := 0 }) := by decide +kernel

/-! ## Witnesses: states and operands that meet the hypotheses of each statement -/

/-- EveryStepKeepsMemory: a state that steps, by a bundle that a fetch finds in memory. -/
theorem wit_step : (State.reset.withFetchWord 32 0x80700005).memOk ∧
    ∃ t, step (State.reset.withFetchWord 32 0x80700005) = .next t := by
  refine ⟨by unfold State.memOk; decide +kernel, ?_⟩
  have h : (match step (State.reset.withFetchWord 32 0x80700005) with | .next _ => true | _ => false) = true := by
    decide +kernel
  revert h
  cases step (State.reset.withFetchWord 32 0x80700005) <;> simp

/-- DecodeOfEncode: a move, a trigger with sub-fields, a bundle of three moves, a recall, an idle bundle. -/
theorem wit_wellformed : WellFormed (.moveToG 255 mvB) = true ∧ WellFormed (.faFdot2 2 3 1 mv) = true ∧
    WellFormed (.bundleIssue { header := 0x0700, ext := 0, sylls := [0, 0, 0x80000000], limm := 0 }) = true ∧
    WellFormed (.recall 511) = true ∧ WellFormed (.idle 16383) = true := by decide +kernel

/-- StepRunsDecodedInstruction: `fetched` is the state of `State.withFetchWord`. -/
def fetchable : State := State.reset.withFetchWord 32 0x80700005
theorem wit_step_decoded : fetchable.agenda = [] ∧ fetchable.dueEvent = none ∧ fetchable.bgTurn = false ∧
    ({ fetchable with bgTurn := true } : State).canIssue = true ∧
    ({ fetchable with bgTurn := true } : State).approach.2 = false ∧
    (({ fetchable with bgTurn := true } : State).approach.1.ctx ({ fetchable with bgTurn := true } : State).approach.1.cur).isSome = true ∧
    (∃ c bytes, ({ fetchable with bgTurn := true } : State).approach.1.ctx ({ fetchable with bgTurn := true } : State).approach.1.cur = some c ∧
      ({ fetchable with bgTurn := true } : State).approach.1.fetch ({ fetchable with bgTurn := true } : State).approach.1.cur c = .ok bytes ∧
      decode bytes = .ok (.iaAdd ⟨false, 0, 0, 5⟩)) := by
  refine ⟨rfl, by decide +kernel, rfl, by decide +kernel, by decide +kernel, by decide +kernel, slotCtx, [0x00, 0x01, 0x05, 0x00, 0x70, 0x80], ?_⟩
  decide +kernel

theorem wit_no_context : (destOf (.iaAdd mv)).isSome = true ∧ (destOf (.moveToPort 1 0 0 mv)).isSome = true ∧
    State.reset.canIssue = false ∧ (one { ctx2 with frozen := true }).canIssue = false := by decide +kernel

theorem wit_guard_false : destOf (.iaAdd mvNever) = some (1, 3, 0, mvNever) ∧
    (one ctx2).Clear ctx2 (Bundle.one (syllable true 1 3 0 mvNever) (one ctx2).curPc) ∧
    ctx2.land.guardMask (Move.of 0 (syllable true 1 3 0 mvNever)) = 0 :=
  ⟨rfl, clear_of rfl (by decide +kernel), by decide +kernel⟩

/-- Whether the rows of a unit fire from a context: the premise of the statements about rows. -/
def fireAll (s : State) (c : Ctx) (l : List (Nat × Nat × Nat)) : Bool :=
  l.all (fun x => firesB s c (syllable true x.1 x.2.1 x.2.2 mv))
theorem fires_all {s : State} {c : Ctx} {l : List (Nat × Nat × Nat)} (h0 : s.ctx s.cur = some c)
    (h : fireAll s c l = true) : ∀ x ∈ l, s.Fires c (syllable true x.1 x.2.1 x.2.2 mv) := fun x hx =>
  fires_of h0 (List.all_eq_true.mp h x hx)

/-- RegisterMoves, PortMoves: the first and the last register of each file that the context has, the modifiers of a
per-lane and of a uniform port. -/
theorem wit_moves : ∀ x ∈ [(0, 0, 0), (0, 0, 31), (0, 1, 0), (0, 1, 31), (0, 2, 0), (0, 2, 7), (1, 0, 0), (11, 0, 1), (11, 0, 2), (14, 2, 0),
    (21, 0, 0), (21, 1, 2), (20, 0, 0)], (one ctx2).Fires ctx2 (syllable true x.1 x.2.1 x.2.2 mv) :=
  fires_all rfl (by decide +kernel)

/-- IntegerResults, CompareResults, UniformResults, FloatResults, ConvertResults: first and last rows. -/
theorem wit_fixed : ∀ x ∈ [(1, 3, 0), (1, 3, 25), (2, 3, 0), (2, 3, 25), (3, 3, 0), (3, 3, 20), (4, 3, 0), (4, 3, 6), (9, 3, 0), (9, 3, 7), (9, 3, 255), (9, 3, 64),
    (9, 3, 191), (21, 3, 0), (21, 3, 23), (5, 3, 0), (5, 3, 0x57), (6, 3, 0), (6, 3, 0xF7), (7, 3, 0), (7, 3, 0x82), (7, 3, 0xC0), (7, 3, 0xFE)],
    (one ctx2).Fires ctx2 (syllable true x.1 x.2.1 x.2.2 mv) := fires_all rfl (by decide +kernel)

theorem wit_rows (k : BitVec 3) (ty rnd : BitVec 2) (ftz : BitVec 1) (fm : BitVec 4) :
    (∃ r ∈ iaResults ++ ibResults ++ shResults ++ imResults, r.unit = U.ia ∧ r.opcode = 0) ∧
    (∃ r ∈ cmResults k ++ cmRelResults 0 k, r.opcode = k.toNat) ∧ (∃ r ∈ uaResults, r.opcode = 0) ∧
    (∃ r ∈ faResults ty rnd ftz ++ fbResults ty rnd ftz, r.unit = U.fa) ∧
    (∃ r ∈ cvResults 0 0 0 0, r.opcode = 0) ∧ (∃ r ∈ cvFmResults fm 0 (Narrow.of 0), r.unit = U.cv) := by
  refine ⟨⟨_, List.mem_append_left _ (List.mem_append_left _ (List.mem_append_left _ (List.mem_append_left _ (List.mem_cons_self ..)))), rfl, rfl⟩, ⟨_, List.mem_append_left _ (List.mem_cons_self ..), ?_⟩,
    ⟨_, List.mem_cons_self .., rfl⟩, ⟨_, List.mem_append_left _ (List.mem_cons_self ..), rfl⟩,
    ⟨_, List.mem_cons_self .., by rfl⟩, ⟨_, List.mem_cons_self .., rfl⟩⟩
  simp [FixedRow.compare]

/-- ConvertResults, MalformedFormatTraps: format registers of a team of a gang, one well formed, one with tag 7. -/
def fmGang : Gang := { gang1 with fm := [(1, 0xFFFFFFFF)] }
theorem wit_formats : (Narrow.of ((inGang fmGang ctx2).fmReg ctx2.land 1)).malformed = true ∧
    (inGang fmGang ctx2).Fires ctx2 (syllable true U.cv 3 0xC2 mv) ∧ (inGang fmGang ctx2).Fires ctx2 (syllable true U.cv 3 0xE2 mv) ∧
    (Narrow.of ((inGang { gang1 with fm := [(0, 0xC6380000)] } ctx2).fmReg ctx2.land 0)).malformed = false ∧
    (inGang { gang1 with fm := [(0, 0xC6380000)] } ctx2).Fires ctx2 (syllable true U.cv 3 0xC0 mv) :=
  ⟨by decide +kernel, fires_of rfl (by decide +kernel), fires_of rfl (by decide +kernel), by decide +kernel,
    fires_of rfl (by decide +kernel)⟩

/-- ResultsLand, EnabledExceptionBecomesDue: one result of the unit that is due, with an enabled and with no exception. -/
def landingPend (u : Nat) (kdst : BitVec 3) (carry : Option Lanes) (excs : List (BitVec 5)) : Pend :=
  { unit := u, left := 0, mask := 3, vals := [7, 9], carry := carry, kdst := kdst, excs := excs, bundle := 0x1000, cycle := 0 }
def landing (u : Nat) (kdst : BitVec 3) (carry : Option Lanes) (excs : List (BitVec 5)) (ctl : W64) : Ctx :=
  { ctx2 with fpCtl := ctl, us := { UnitState.fresh with pend := [landingPend u kdst carry excs] } }
theorem wit_results_land (u : Nat) (k : BitVec 3) (carry : Option Lanes) (excs : List (BitVec 5)) (ctl : W64) :
    (one (landing u k carry excs ctl)).ctx team = some (landing u k carry excs ctl) ∧
    (∀ n, (landing u k carry excs ctl).wait ≠ .idle n) ∧
    (landing u k carry excs ctl).us.pend = [landingPend u k carry excs] ∧ (landingPend u k carry excs).left = 0 ∧
    (landingPend u k carry excs).unit = u ∧ unitCode .ia = 1 ∧ unitCode .cm = 9 ∧ unitCode .ua = 21 ∧ unitCode .cv = 7 :=
  ⟨rfl, fun _ h => (nomatch h), rfl, rfl, rfl, rfl, rfl, rfl, rfl⟩
theorem wit_enabled_exception :
    excUnion ((landingPend 5 0 none [1, 0x1F]).mask &&& ctx2.live) 2 (landingPend 5 0 none [1, 0x1F]).excs &&&
      (0x1F00 : W64).extractLsb' 8 5 ≠ 0 ∧
    excUnion ((landingPend 5 0 none [1, 0x1F]).mask &&& ctx2.live) 2 (landingPend 5 0 none [1, 0x1F]).excs &&&
      (0x1E00 : W64).extractLsb' 8 5 ≠ 0 ∧
    excUnion ((landingPend 5 0 none [1, 0x1F]).mask &&& ctx2.live) 2 (landingPend 5 0 none [1, 0x1F]).excs &&&
      (0 : W64).extractLsb' 8 5 = 0 := by decide +kernel

/-- BranchesTaken, BranchesNotTaken, OddBranchTargetTraps: a relative branch, a return, a conditional branch each way;
the immediate 5 is an odd offset and 4 an even one. -/
theorem wit_branches (k : BitVec 3) : (∃ r ∈ branches k, r.opcode = 0 ∧ r.abs = false) ∧ (∃ r ∈ branches k, r.opcode = 50) :=
  ⟨⟨_, List.mem_cons_self .., rfl, rfl⟩, ⟨⟨.brJr, 50, true, fun _ => true, false⟩, by simp [branches], rfl⟩⟩
theorem wit_branch_targets : (one ctx2).Fires ctx2 (syllable true U.br 3 0 (imm 4)) ∧ (one ctx2).Fires ctx2 (syllable true U.br 3 0 (imm 5)) ∧
    (one ctx2).Fires ctx2 (syllable true U.br 3 50 (imm 4)) ∧ (one ctx2).Fires ctx2 (syllable true U.br 3 33 (imm 4)) ∧
    ((BranchRow.mk .brBr 0 false (fun _ => true) false).target ctx2.land (Bundle.one (syllable true U.br 3 0 (imm 4)) 0x1000)
      (Move.of 0 (syllable true U.br 3 0 (imm 4)))).getLsbD 0 = false ∧
    ((BranchRow.mk .brBr 0 false (fun _ => true) false).target ctx2.land (Bundle.one (syllable true U.br 3 0 (imm 5)) 0x1000)
      (Move.of 0 (syllable true U.br 3 0 (imm 5)))).getLsbD 0 = true ∧
    decide ((ctx2.land.us.unit U.br).a.at 0 != 0) = false ∧ decide (ctx2.land.pred 0 &&& ctx2.land.live == ctx2.land.live) = true := by
  refine ⟨fires_of rfl ?_, fires_of rfl ?_, fires_of rfl ?_, fires_of rfl ?_, ?_, ?_, ?_, ?_⟩ <;> decide +kernel

/-- ExitAndLexit: exit, a lexit under the guard of every lane and one under k1, which holds on lane 0 alone. -/
def ctxK1 : Ctx := { ctx2 with k := [(1, 1)] }
theorem wit_exit : (one ctx2).Fires ctx2 (syllable true U.br 3 0x38 mv) ∧ (one ctx2).Fires ctx2 (syllable true U.br 3 0x39 mv) ∧
    ctx2.land.live &&& ~~~(ctx2.land.guardMask (Move.of 0 (syllable true U.br 3 0x39 mv))) = 0 ∧
    (one ctxK1).Fires ctxK1 (syllable true U.br 3 0x39 ⟨false, 1, 2, 5⟩) ∧
    ctxK1.land.live &&& ~~~(ctxK1.land.guardMask (Move.of 0 (syllable true U.br 3 0x39 ⟨false, 1, 2, 5⟩))) ≠ 0 :=
  ⟨fires_of rfl (by decide +kernel), fires_of rfl (by decide +kernel), by decide +kernel, fires_of rfl (by decide +kernel), by decide +kernel⟩

/-- UniformDestinations: a move to s31 under k1 and under a guard that holds nowhere; a port of UA. -/
def moveS (guard : BitVec 3) (neg : Bool) : Move := Move.of 0 (syllable true 0 1 31 ⟨neg, guard, 2, 5⟩)
theorem wit_uniform_destinations : (moveS 1 false).dunit = 0 ∧ (moveS 1 false).dport = 1 ∧ ctxK1.guardMask (moveS 1 false) ≠ 0 ∧
    (ctxK1.guardMask (moveS 1 false)).getLsbD 0 = true ∧ ctxK1.guardMask (moveS 0 true) = 0 ∧
    (ctxK1.guardMask (moveS 1 true)).getLsbD 1 = true ∧ (ctxK1.guardMask (moveS 1 true)).getLsbD 0 = false ∧
    (Move.of 0 (syllable true U.ua 2 0 mv)).dunit = U.ua ∧ (Move.of 0 (syllable true U.sv 0 0 mv)).dport = 0 := by decide +kernel

/-- WideLoadPortReads: R of LA to an s register, to a whole 64-bit port, to a g register, to a 32-bit port. -/
def readLa (u p o : Nat) : Move := Move.of 0 (syllable true u p o ⟨false, 0, 1, BitVec.ofNat 10 (U.la * 32)⟩)
theorem wit_wide_reads : (readLa 0 1 3).skind = 1 ∧ (readLa 0 1 3).ssel = U.la * 32 ∧ (readLa 0 1 3).dport = 1 ∧
    port64 (readLa U.la 0 0).dunit (readLa U.la 0 0).dport = true ∧ (readLa U.la 0 0).dsel = 0 ∧ (readLa 0 0 3).dport = 0 ∧
    port64 (readLa U.ia 0 0).dunit (readLa U.ia 0 0).dport = false ∧ (readLa U.ia 0 0).dunit ≠ 0 := by decide +kernel

/-- SpecialFunctionsStart, LaneOperationsStart, MemoryMovesQueue: first and last rows. -/
theorem wit_variable : ∀ x ∈ [(8, 3, 0), (8, 3, 0x28), (10, 3, 0), (10, 3, 17), (11, 3, 0), (11, 3, 0x18), (12, 3, 0xB6), (11, 3, 192), (12, 3, 198), (13, 3, 0), (13, 3, 0x76),
    (13, 3, 0x80), (13, 3, 0x82), (14, 3, 0), (14, 3, 0x3A), (14, 3, 0x6B), (14, 3, 0xD8)],
    (one ctx2).Fires ctx2 (syllable true x.1 x.2.1 x.2.2 mv) := fires_all rfl (by decide +kernel)

/-- SpecialFunctionsComplete, CrossLaneOperationsComplete: an operation in flight that fills R. -/
def opOf (u o : Nat) (vals : Option Vals) (t : Vals) : VarOp :=
  { uid := 8, unit := u, opcode := BitVec.ofNat 8 o, mask := 3, a := [], t := t, vals := vals, notBefore := 0, token := none, addr := 0,
    scope := 0, bundle := 0x1000, cycle := 0, locks := 0 }
/-- A context that waits for one operation of a unit. -/
def waits (c : Ctx) (u : Nat) (ops : List VarOp) : Ctx :=
  { c with ops := ops, nextUid := 16, us := c.us.setUnit u { UPorts.fresh with full := false, last := 8 } }
theorem wit_completions :
    (waits ctx2 U.sf [opOf U.sf 0 none [1, 2]]).ops.find? (fun o => o.unit == U.sf) = some (opOf U.sf 0 none [1, 2]) ∧
    ((waits ctx2 U.sf [opOf U.sf 0 none [1, 2]]).us.unit U.sf).last = 8 ∧ ((waits ctx2 U.sf []).us.unit U.sf).full = false ∧
    (waits ctx2 U.xl [opOf U.xl 0 (some [4, 5]) []]).ops.find? (fun o => o.unit == U.xl && decide (o.opcode.toNat < 0x40)) =
      some (opOf U.xl 0 (some [4, 5]) []) ∧
    (waits ctx2 U.xl [opOf U.xl 0x40 none []]).ops.find? (fun o => o.unit == U.xl && (decide (0x40 ≤ o.opcode.toNat) &&
      decide (o.notBefore ≤ ((one ctx2).fold 0).cycle))) = some (opOf U.xl 0x40 none []) ∧
    ((waits ctx2 U.xl []).us.unit U.xl).last = 8 ∧ ((waits ctx2 U.xl []).us.unit U.xl).full = false := by decide +kernel

/-- EnabledExceptionBecomesDue: rcp of 0 with and without DZ enabled; a pending trap of SF before a bundle that reads SF.R, that
triggers SF, that exits and that waits on its flag. -/
def sfOp : VarOp := opOf U.sf 0 none [0, 0x40800000]
def sfCtx (ctl : W64) : Ctx := { waits ctx2 U.sf [sfOp] with fpCtl := ctl }
def sfEnabled (ctl : W64) : BitVec 5 :=
  excUnion (sfOp.mask &&& (sfCtx ctl).live) 2 ((List.range 2).map (fun l => if (sfOp.mask &&& (sfCtx ctl).live).getLsbD l then
    (sfLane sfOp.opcode.toNat (lo32 (sfOp.a.at l)).toNat (lo32 (sfOp.t.at l)).toNat).2 else 0)) &&& (sfCtx ctl).fpCtl.extractLsb' 8 5
theorem wit_sf_exception : (sfCtx 0).ops.find? (fun o => o.unit == U.sf) = some sfOp ∧ ((sfCtx 0).us.unit U.sf).last = sfOp.uid ∧
    ((sfCtx 0).us.unit U.sf).full = false ∧ (sfCtx 0).frame = none ∧ sfEnabled 0x1F00 ≠ 0 ∧ sfEnabled 0 = 0 := by decide +kernel
def sfPending : SfTrap := { code := 0x13, lanes := 1, bundle := 0x1000, cycle := 0, flag := some 11 }
def sfWaiting : Ctx := { ctx2 with us := { UnitState.fresh with sfTrap := some sfPending } }
/-- An extended bundle of one move that waits on flag 11. -/
def rawWait : RawBundle := { header := 0x8100, ext := 0x10000000, sylls := [syllable true 0 0 3 mv], limm := 0 }
theorem wit_sf_trap : (one sfWaiting).ctx (one sfWaiting).cur = some sfWaiting ∧ sfWaiting.ready = true ∧ sfWaiting.shadow = false ∧
    sfWaiting.us.pend = [] ∧ sfWaiting.due = [] ∧ (one sfWaiting).acqOut team sfWaiting = none ∧ (one sfWaiting).breaks team sfWaiting = false ∧
    sfWaiting.inh = false ∧ sfWaiting.tvec &&& ~~~1 ≠ 0 ∧
    [syllable true 0 0 3 ⟨false, 0, 1, BitVec.ofNat 10 (U.sf * 32)⟩, syllable true U.sf 3 0 mv, syllable true U.br 3 0x38 mv].all
      (fun w => sfWaiting.meetsSf (Bundle.one w (one sfWaiting).curPc) sfPending) = true ∧
    sfWaiting.meetsSf (bundleAt (one sfWaiting) rawWait) sfPending = true := by decide +kernel
theorem wit_sf_trap_issues : (one sfWaiting).Issues sfWaiting (.sfRcp 0 mv) (Bundle.one (syllable true U.sf 3 0 mv) (one sfWaiting).curPc) ∧
    (one sfWaiting).Issues sfWaiting (.bundleIssue rawWait) (bundleAt (one sfWaiting) rawWait) :=
  ⟨issues_one _ _ rfl, issues_raw _ _ _⟩

/-- WideRegisterOperationsStart: a team of a gang of 16 wide registers, control word 0. -/
theorem wit_wide : (0x40, Instr.xlWrLd) ∈ wideOps ∧ (0x49, Instr.xlWrPack) ∈ wideOps ∧ (inGang gang1 ctx2).memOk ∧
    (inGang gang1 ctx2).Fires ctx2 (syllable true U.xl 3 0x40 mv) ∧ (inGang gang1 ctx2).Fires ctx2 (syllable true U.xl 3 0x49 mv) ∧
    (inGang gang1 ctx2).gang ctx2.gang = some gang1 ∧ ctx2.shadow = false := by
  refine ⟨by simp [wideOps], by simp [wideOps], by unfold State.memOk; decide +kernel, fires_of rfl (by decide +kernel),
    fires_of rfl (by decide +kernel), rfl, rfl⟩
def wideAt (op : Nat) : WideAct :=
  let w := syllable true U.xl 3 op mv
  wideAct op (WideCtl.of (lo32 ((ctx2.land.us.unit U.xl).a.at (Lanes.low (ctx2.land.guardMask (Move.of 0 w)) ctx2.nlanes))))
    (ctx2.land.trigOf (Bundle.one w 0x1000) (Move.of 0 w)) ctx2.land.nlanes
    (fun l => lo32 (ctx2.land.src (Bundle.one w 0x1000) (Move.of 0 w) l)) (fun off => (inGang gang1 ctx2).rd (Memory.wideKey 7 0 off) 2)
theorem wit_wide_act : [0x40, 0x41, 0x42, 0x43, 0x44, 0x45, 0x46, 0x47, 0x48, 0x49].all (fun op => !(wideAt op).regs.any (fun w => decide (gang1.block.wide ≤ w)) &&
    !wideLocked ((inGang gang1 ctx2).fold 0) (wideOwner 7 0) ((inGang gang1 ctx2).blockRegs 0 ctx2.land gang1) (wideAt op)) = true := by decide +kernel

/-- LoadsPerformed, StoresAndAtomicsPerformed: one lane of a queued move with R of its unit empty. -/
def lane0 (addr x : W64) (win : Option Nat) : MemLane := { lane := 0, addr := addr, x := x, cmp := 0, win := win, fault := none, watch := 0 }
def queued (u o : Nat) (l : MemLane) : MemOp :=
  { MemOp.blank 8 u (BitVec.ofNat 8 o) 0 1 0 0x1000 0 with lanes := [l] }
def emptyRec : FaultRec :=
  { cause := 0, opcode := 0, bundle := 0, cycle := 0, lanes := 0, addrs := [], mask := 1, a := [], b := [], c := [], t := [], r := [],
    scope := 0 }
def memCtx (u o : Nat) (l : MemLane) : Ctx :=
  { shadowCtx with memq := [queued u o l], nextUid := 16,
                   us := UnitState.fresh.setUnit u { UPorts.fresh with full := false, last := 8, frec := some emptyRec } }
/-- The premises of LoadsPerformed for a context's queued load. -/
abbrev LoadFacts (c : Ctx) (o : MemOp) : Prop := c.wait ≠ .exiting ∧ c.LoadOpen o ∧ c.Serves o
def checked (u o : Nat) (l : MemLane) : Check := (only shep (memCtx u o l)).check shep (memCtx u o l) (queued u o l) l
/-- A lane that is performed at once at a package byte. -/
def atB (s : State) (id : CtxId) (c : Ctx) (o : MemOp) (x : MemLane) (p : Nat) : Bool :=
  match s.check id c o x with
  | .place tr => decide (tr.place = .pkg p) && !s.behindHeld id c o x && !s.eccHit tr.place o.size &&
      s.atHome id.fold c.tid o x p (o.rtAt p (tr.pte.getLsbD 63))
  | _ => false
theorem at_of {s : State} {id : CtxId} {c : Ctx} {o : MemOp} {x : MemLane} {p : Nat} (h : atB s id c o x p = true) :
    ∃ tr, s.At id c o x tr p := by
  unfold atB at h
  split at h
  · next tr htr =>
    simp only [Bool.and_eq_true, decide_eq_true_eq, Bool.not_eq_true'] at h
    exact ⟨tr, htr, h.1.1.1, h.1.1.2, h.1.2, h.2⟩
  · cases h
def atShep (u o : Nat) (addr : W64) (p : Nat) : Bool :=
  atB (only shep (memCtx u o (lane0 addr 7 none))) shep (memCtx u o (lane0 addr 7 none)) (queued u o (lane0 addr 7 none)) (lane0 addr 7 none) p
def windowB (s : State) (id : CtxId) (c : Ctx) (o : MemOp) (x : MemLane) (fold off : Nat) : Bool :=
  match s.check id c o x with
  | .window f a => f == fold && a == off
  | _ => false
/-- Near memory's first and last byte; a team's own `.si` copy. -/
theorem wit_loads : LoadFacts (memCtx U.la 2 (lane0 0 7 none)) (queued U.la 2 (lane0 0 7 none)) ∧
    atShep U.la 2 0 0 = true ∧ atShep U.la 2 0xFFFFFFFFF 0xFFFFFFFFF = true ∧ (queued U.la 2 (lane0 0 7 none)).acquires = false ∧
    LoadFacts (memCtx U.la 0x42 (lane0 0x9000 7 none)) (queued U.la 0x42 (lane0 0x9000 7 none)) ∧
    (queued U.la 0x42 (lane0 0x9000 7 none)).acquires = true ∧ atShep U.la 0x42 0x9000 0x9000 = true := by
  unfold LoadFacts Ctx.LoadOpen Ctx.Serves
  decide +kernel
def siCtx : Ctx := memCtx U.la 0x24 (lane0 0x9000 7 none)
def siState : State := (only shep siCtx).fillL1 0 siCtx.tid 2 0x9000 0x9003
theorem wit_si_load : LoadFacts siCtx (queued U.la 0x24 (lane0 0x9000 7 none)) ∧ siState.ctx shep = some siCtx ∧
    (queued U.la 0x24 (lane0 0x9000 7 none)).rt = 2 ∧ ((siState.fold 0).siBytes siCtx.tid 0x9000 4).isSome = true ∧
    atB siState shep siCtx (queued U.la 0x24 (lane0 0x9000 7 none)) (lane0 0x9000 7 none) 0x9000 = true := by
  unfold LoadFacts Ctx.LoadOpen Ctx.Serves
  decide +kernel
/-- Two lanes at scratchpad bytes; an address that does not exist, of a load and of an acquire. -/
def spmLane (l off : Nat) : MemLane := { lane0 (BitVec.ofNat 64 (2 ^ 60 + off)) 0 (some (Memory.spmKey 0 off)) with lane := l }
def twoLanes : MemOp := { queued U.lb 0x12 (spmLane 0 0) with lanes := [spmLane 0 0x40, spmLane 31 0x7F], mask := 0x80000001 }
def twoCtx : Ctx := { memCtx U.lb 0x12 (spmLane 0 0) with memq := [twoLanes] }
theorem wit_window_loads : LoadFacts twoCtx twoLanes ∧ ((only shep twoCtx).fold 0).unread twoLanes.locks = false ∧
    windowB (only shep twoCtx) shep twoCtx twoLanes (spmLane 0 0x40) 0 0x40 = true ∧
    windowB (only shep twoCtx) shep twoCtx twoLanes (spmLane 31 0x7F) 0 0x7F = true := by
  unfold LoadFacts Ctx.LoadOpen Ctx.Serves
  decide +kernel
theorem wit_load_faults : LoadFacts (memCtx U.la 2 (lane0 0x8000000000 0 none)) (queued U.la 2 (lane0 0x8000000000 0 none)) ∧
    (match checked U.la 2 (lane0 0x8000000000 0 none) with | .fault _ => true | _ => false) = true ∧
    LoadFacts (memCtx U.la 0x42 (lane0 0x8000000000 0 none)) (queued U.la 0x42 (lane0 0x8000000000 0 none)) ∧
    (queued U.la 0x42 (lane0 0x8000000000 0 none)).acquires = true ∧
    (match checked U.la 0x42 (lane0 0x8000000000 0 none) with | .fault _ => true | _ => false) = true := by
  unfold LoadFacts Ctx.LoadOpen Ctx.Serves
  decide +kernel
theorem wit_unmapped (u o : Nat) (l : MemLane) : (only shep (memCtx u o l)).Unmapped :=
  fun _ _ _ _ _ _ h => nomatch h
/-- Two loads of one bundle whose words make one access of 8 bytes: at package bytes, under `.si` with both, one and neither of
the words among the team's own copies, and in a scratchpad. -/
def twinOp (u uid o : Nat) (x : MemLane) : MemOp := { queued u o x with uid := uid }
def twinCtx (o : Nat) (x y : MemLane) : Ctx :=
  { memCtx U.la o x with
    memq := [twinOp U.la 8 o x, twinOp U.lb 9 o y]
    us := (UnitState.fresh.setUnit U.la { UPorts.fresh with full := false, last := 8, frec := some emptyRec }).setUnit U.lb
        { UPorts.fresh with full := false, last := 9, frec := some emptyRec } }
def twinX (si : Nat) : State :=
  let s := only shep (twinCtx 0x24 (lane0 0x9000 0 none) (lane0 0x9004 0 none))
  if si = 0 then s else s.fillL1 0 2 2 0x9000 (0x8FFF + 4 * si)
theorem wit_twins : [(0x24, lane0 0x9000 0 none, lane0 0x9004 0 none), (0x22, spmLane 0 0x40, spmLane 0 0x44)].all (fun z =>
      decide ((twinCtx z.1 z.2.1 z.2.2).twin (twinOp U.la 8 z.1 z.2.1) z.2.1 = some (twinOp U.lb 9 z.1 z.2.2, z.2.2))) = true ∧
    (twinOp U.la 8 0x24 (lane0 0x9000 0 none)).pass = (twinOp U.lb 9 0x24 (lane0 0x9004 0 none)).pass ∧
    (twinOp U.la 8 0x24 (lane0 0x9000 0 none)).rt = 2 ∧ ((twinX 0).fold 0).watch = [] ∧ ((twinX 0).fold 0).unread 0 = false ∧
    [0, 1, 2].all (fun si =>
      let c := twinCtx 0x24 (lane0 0x9000 0 none) (lane0 0x9004 0 none)
      let o := twinOp U.la 8 0x24 (lane0 0x9000 0 none)
      let p := twinOp U.lb 9 0x24 (lane0 0x9004 0 none)
      let s := (twinX si).pairFresh shep c o p (lane0 0x9000 0 none) (lane0 0x9004 0 none)
      atB s shep c o (lane0 0x9000 0 none) 0x9000 && atB s shep c p (lane0 0x9004 0 none) 0x9004 &&
      (((twinX si).fold 0).siBytes c.tid 0x9000 4).isSome == decide (1 ≤ si) &&
      (((twinX si).fold 0).siBytes c.tid 0x9004 4).isSome == decide (2 ≤ si)) = true := by decide +kernel
theorem wit_twin_loads : LoadFacts (twinCtx 0x24 (lane0 0x9000 0 none) (lane0 0x9004 0 none)) (twinOp U.la 8 0x24 (lane0 0x9000 0 none)) ∧
    LoadFacts (twinCtx 0x24 (lane0 0x9000 0 none) (lane0 0x9004 0 none)) (twinOp U.lb 9 0x24 (lane0 0x9004 0 none)) ∧
    windowB (only shep (twinCtx 0x22 (spmLane 0 0x40) (spmLane 0 0x44))) shep (twinCtx 0x22 (spmLane 0 0x40) (spmLane 0 0x44))
      (twinOp U.la 8 0x22 (spmLane 0 0x40)) (spmLane 0 0x40) 0 0x40 = true ∧
    windowB (only shep (twinCtx 0x22 (spmLane 0 0x40) (spmLane 0 0x44))) shep (twinCtx 0x22 (spmLane 0 0x40) (spmLane 0 0x44))
      (twinOp U.lb 9 0x22 (spmLane 0 0x44)) (spmLane 0 0x44) 0 0x44 = true := by
  unfold LoadFacts Ctx.LoadOpen Ctx.Serves
  decide +kernel

/-- The premises of StoresAndAtomicsPerformed for a context's queued move of one lane. -/
abbrev StoreFacts (s : State) (id : CtxId) (c : Ctx) (o : MemOp) (x : MemLane) : Prop :=
  s.memOk ∧ s.ctx id = some c ∧ c.memq = [o] ∧ (o.unit = U.st ∨ o.unit = U.at_) ∧ o.lanes = [x] ∧ o.replay = none ∧ o.res = [] ∧
    o.toks = [] ∧ c.mapPending o.uid = false ∧ c.descPending o.uid = false ∧ (s.fold id.fold).unread o.locks = false ∧
    (s.fold id.fold).held.any (fun h => h.slot == id.slot && h.tid == c.tid) = false ∧
    (c.sfb ++ c.sfbWait).any (fun q => q.op.uid == o.uid) = false ∧ (s.fold id.fold).dlog = none ∧ (s.fold id.fold).watch = []
/-- A lane that joins an older entry of the store fault buffer, and the queue of a team that has exited. -/
def joinCtx (u o : Nat) (l : MemLane) : Ctx :=
  { memCtx u o l with sfb := [{ cause := 0x22, op := { queued U.st 0x22 l with uid := 3 } }] }
def exitCtx (u o : Nat) (l : MemLane) : Ctx := { memCtx u o l with wait := .exiting }
/-- A store, a red, a returning atomic, wb, inv and flush. -/
def moves6 : List (Nat × Nat) := [(U.st, 0x22), (U.at_, 0x60), (U.at_, 0x1A), (U.st, 0x80), (U.st, 0x81), (U.st, 0x82)]
theorem wit_stores : ∀ x ∈ moves6, ∀ l ∈ [spmLane 0 0, lane0 0x9000 7 none, lane0 0x8000000000 7 none],
    StoreFacts (only shep (memCtx x.1 x.2 l)) shep (memCtx x.1 x.2 l) (queued x.1 x.2 l) l ∧ (memCtx x.1 x.2 l).wait = .ready := by
  unfold StoreFacts State.memOk
  decide +kernel
theorem wit_store_places : moves6.all (fun x =>
      windowB (only shep (memCtx x.1 x.2 (spmLane 0 0))) shep (memCtx x.1 x.2 (spmLane 0 0)) (queued x.1 x.2 (spmLane 0 0)) (spmLane 0 0) 0 0 &&
      atShep x.1 x.2 0x9000 0x9000) = true ∧
    [(U.st, 0x22), (U.at_, 0x60), (U.at_, 0x1A)].all (fun x =>
      match checked x.1 x.2 (lane0 0x8000000000 7 none) with | .fault _ => true | _ => false) = true ∧
    tracked 0x9000 = true ∧ ringSize ((only shep (memCtx U.st 0x22 (lane0 0x9000 7 none))).die 0).dlogCtl 8 20 = none ∧
    [(U.st, 0x22), (U.at_, 0x60), (U.at_, 0x1A)].all (fun x => (queued x.1 x.2 (lane0 0 0 none)).isMaint == false &&
      (x.1 == U.at_ || decide ((queued x.1 x.2 (lane0 0 0 none)).rt ≠ 0))) = true ∧
    (queued U.st 0x80 (lane0 0 0 none)).isMaint = true ∧ (queued U.st 0x82 (lane0 0 0 none)).isMaint = true ∧
    (queued U.at_ 0x1A (lane0 0 0 none)).isAtom = true ∧ (queued U.at_ 0x60 (lane0 0 0 none)).isAtom = false ∧
    ((memCtx U.at_ 0x1A (lane0 0x9000 7 none)).us.unit U.at_).frec.isSome = true ∧ (queued U.at_ 0x5A (lane0 0 0 none)).acquires = true := by decide +kernel
theorem wit_joins_exits : (∀ x ∈ [(U.st, 0x22), (U.at_, 0x60), (U.at_, 0x1A)],
      StoreFacts (only shep (joinCtx x.1 x.2 (lane0 0x9000 7 none))) shep (joinCtx x.1 x.2 (lane0 0x9000 7 none)) (queued x.1 x.2 (lane0 0x9000 7 none))
        (lane0 0x9000 7 none) ∧
      (match (only shep (joinCtx x.1 x.2 (lane0 0x9000 7 none))).check shep (joinCtx x.1 x.2 (lane0 0x9000 7 none))
        (queued x.1 x.2 (lane0 0x9000 7 none)) (lane0 0x9000 7 none) with | .join => true | _ => false) = true) ∧
    StoreFacts (only shep (exitCtx U.st 0x22 (spmLane 0 0))) shep (exitCtx U.st 0x22 (spmLane 0 0)) (queued U.st 0x22 (spmLane 0 0)) (spmLane 0 0) ∧
    windowB (only shep (exitCtx U.st 0x22 (spmLane 0 0))) shep (exitCtx U.st 0x22 (spmLane 0 0)) (queued U.st 0x22 (spmLane 0 0)) (spmLane 0 0) 0 0 = true ∧
    ((only shep (exitCtx U.st 0x22 (spmLane 0 0))).ctxs.map Prod.fst).Pairwise (· < ·) := by
  unfold StoreFacts State.memOk
  decide +kernel

/-- FlagsYieldsAndFences: the first and last flag; yieldc to the even offset 4 with its flag 1, and with the flag owned. -/
def ctxOwned : Ctx := { ctx2 with us := { UnitState.fresh with flags := 0x7FF, owners := [(11, 3)] } }
theorem wit_flags : (∀ kv ∈ ctxOwned.land.us.owners, kv.2 ≠ ctxOwned.land.nextUid) ∧
    (∀ x ∈ [(16, 3, 0x40), (16, 3, 0x4B), (16, 3, 0x50), (16, 3, 0x5B), (16, 3, 0x60), (16, 3, 0x30)],
      (one ctxOwned).Fires ctxOwned (syllable true x.1 x.2.1 x.2.2 mv)) ∧
    (one ctxOwned).Fires ctxOwned (syllable true U.sy 3 0x70 (imm 4)) ∧ (one ctxOwned).Fires ctxOwned (syllable true U.sy 3 0x7B (imm 4)) ∧
    ctxOwned.land.us.flag 0 = true ∧ ctxOwned.land.us.flag 11 = false ∧ ctxOwned.land.us.owned 11 = true ∧
    (0x1000 + sx (lo32 (ctxOwned.land.src (Bundle.one (syllable true U.sy 3 0x70 (imm 4)) 0x1000)
      (Move.of 0 (syllable true U.sy 3 0x70 (imm 4))) 0))).getLsbD 0 = false := by
  refine ⟨by decide +kernel, fires_all rfl (by decide +kernel), fires_of rfl (by decide +kernel), fires_of rfl (by decide +kernel), ?_, ?_, ?_, ?_⟩ <;>
    decide +kernel

/-- WaitsEnd: each wait at the point where it ends. -/
theorem wit_waits : ctx2.frozen = false ∧ ({ ctx2 with wait := .idle 0 } : Ctx).wait = .idle 0 ∧
    ({ ctx2 with wait := .yield 16 } : Ctx).wait = .yield 16 ∧ ({ ctx2 with wait := .yieldc 11 } : Ctx).us.flag 11 = true ∧
    ((one ctx2).fold 0).widePath ≤ ((one ctx2).fold 0).cycle ∧ ctx2.us.xlBusy ≤ ((one ctx2).fold 0).cycle ∧
    ({ ctx2 with us := { UnitState.fresh with fence := some 3 } } : Ctx).us.fence = some 3 ∧ ctx2.memq = [] ∧ ctx2.sfb = [] ∧
    ctx2.sfbWait = [] ∧ ((one ctx2).fold 0).held = [] := by decide +kernel

/-- BarrierArrivalsAndWaits: the role takes part in barriers 0 and 15 of one gang and in none of another; the arrival is
the last expected one, and is not when the gang has two teams; a wait before and after its generation has passed. -/
def gang2 : Gang := { gang1 with teams := [(0, 0), (1, 0)] }
def gangNoBar : Gang := { gang1 with block := { block1 with barMask := 0, barMaskHi := 0 } }
def ctxArrived : Ctx := { ctx2 with barMem := [(0, { gen := 4, waiting := true })] }
def gangGen (n : Nat) : Gang := { gang1 with barriers := [(0, { gen := n, arrivals := 0 })] }
theorem sy_idle (g : Gang) (c : Ctx) (hs : c.shadow = false) (hg : c.gang = 7) (ho : c.ops = []) : (inGang g c).SyIdle c g :=
  ⟨hs, by rw [hg]; rfl, rfl, by simp [ho]⟩
theorem wit_barriers : (inGang gang1 ctx2).SyIdle ctx2 gang1 ∧
    (∀ x ∈ [(16, 3, 0x00), (16, 3, 0x0F), (16, 3, 0x20), (16, 3, 0x2F)], (inGang gang1 ctx2).Fires ctx2 (syllable true x.1 x.2.1 x.2.2 mv)) ∧
    gang1.block.barRole 0 0 = true ∧ gang1.block.barRole 15 0 = true ∧ ctx2.arrivedAt 0 (gang1.barrier 0).gen = false ∧
    (gang1.barrier 0).arrivals + 1 = (inGang gang1 ctx2).expected 7 gang1 0 ∧
    (gang2.barrier 0).arrivals + 1 ≠ (inGang gang2 ctx2).expected 7 gang2 0 ∧
    (inGang (gangGen 4) ctxArrived).Fires ctxArrived (syllable true U.sy 3 0x10 mv) ∧ (ctxArrived.barOf 0).waiting = true ∧
    (ctxArrived.barOf 0).gen < ((gangGen 5).barrier 0).gen ∧ ((gangGen 4).barrier 0).gen ≤ (ctxArrived.barOf 0).gen ∧
    gangNoBar.block.barRole 0 0 = false ∧ (inGang gangNoBar ctx2).Fires ctx2 (syllable true U.sy 3 0x00 mv) := by
  refine ⟨sy_idle _ _ rfl rfl rfl, fires_all rfl (by decide +kernel), ?_, ?_, ?_, ?_, ?_, fires_of rfl (by decide +kernel), ?_, ?_, ?_, ?_,
    fires_of rfl (by decide +kernel)⟩ <;> decide +kernel

/-- StageRings: an empty ring, a full one, one whose other role has left; a team that holds an index. -/
def ring0 (slots : Tbl RingSlot) (prod cons : Nat) : Ring :=
  { prod := prod, cons := cons, slots := 2, size := 64, off := 0, p := 0, c := 0, slot := slots, released := [] }
def ringGang (slots : Tbl RingSlot) (prod cons : Nat) : Gang :=
  { gang1 with teams := [(0, 0), (1, 1)], rings := [(7, ring0 slots prod cons)] }
def fullSlot : Tbl RingSlot := [(0, { full := true, phase := false })]
def ctxRing : Ctx := { ctx2 with ringMem := [(7, { prod := some 0, cons := some 0 })] }
theorem wit_rings : (inGang (ringGang [] 0 1) ctx2).SyIdle ctx2 (ringGang [] 0 1) ∧
    Tbl.find (ringGang [] 0 1).rings 7 = some (ring0 [] 0 1) ∧
    (∀ kv ∈ (inGang (ringGang [] 0 1) ctx2).ctxs, ∀ q, kv.2.gang = ctx2.gang → kv.2.wait ≠ .ring 7 q) ∧
    (∀ x ∈ [(16, 3, 0x87), (16, 3, 0x97), (16, 3, 0x8F), (16, 3, 0x9F)],
      (inGang (ringGang [] 0 1) ctx2).Fires ctx2 (syllable true x.1 x.2.1 x.2.2 mv)) ∧
    (ctx2.ringOf 7).prod = none ∧ (ctx2.ringOf 7).cons = none ∧ (ring0 [] 0 1).prodOk 0 = true ∧
    (ring0 fullSlot 0 1).prodOk 0 = false ∧ (ringGang [] 0 1).roleAlive 1 = true ∧ (ringGang [] 0 2).roleAlive 2 = false ∧
    (ring0 fullSlot 1 0).consOk 0 = true ∧ (ring0 [] 1 0).consOk 0 = false ∧ ((ring0 fullSlot 0 1).slotAt 0).full = true ∧ ((ring0 [] 1 0).slotAt 0).full = false ∧
    (ringGang [] 2 0).roleAlive 2 = false ∧
    (∀ x ∈ [(16, 3, 0x8F), (16, 3, 0x9F)],
      (inGang (ringGang fullSlot 0 0) ctxRing).Fires ctxRing (syllable true x.1 x.2.1 x.2.2 mv)) ∧
    (ctxRing.ringOf 7).prod = some 0 ∧ (ctxRing.ringOf 7).cons = some 0 ∧ ctxRing.role = (ring0 fullSlot 0 0).prod := by
  refine ⟨sy_idle _ _ rfl rfl rfl, rfl, ?_, fires_all rfl (by decide +kernel), ?_, ?_, ?_, ?_, ?_, ?_, ?_, ?_, ?_, ?_, ?_,
    fires_all rfl (by decide +kernel), ?_, ?_, ?_⟩
  · intro kv hkv q _ h
    simp only [inGang, one, only, List.mem_singleton] at hkv
    subst hkv
    cases h
  all_goals decide +kernel

/-- BarrierArrivalsAndWaits, StageRings: a second arrival in one generation and a bar.wait without an arrival; a ring that does not
exist, one of other roles, an index that is held already, and none held. -/
theorem wit_sync_refused :
    (∀ x ∈ [(16, 3, 0x00), (16, 3, 0x20)], (inGang (gangGen 4) ctxArrived).Fires ctxArrived (syllable true x.1 x.2.1 x.2.2 mv)) ∧
    ctxArrived.arrivedAt 0 ((gangGen 4).barrier 0).gen = true ∧ (inGang gang1 ctx2).Fires ctx2 (syllable true U.sy 3 0x10 mv) ∧
    (ctx2.barOf 0).waiting = false ∧
    (∀ x ∈ [(16, 3, 0x87), (16, 3, 0x97), (16, 3, 0x8F), (16, 3, 0x9F)],
      (inGang gang1 ctx2).Fires ctx2 (syllable true x.1 x.2.1 x.2.2 mv)) ∧ Tbl.find gang1.rings 7 = none ∧
    ctx2.role ≠ (ring0 [] 1 1).prod ∧ ctx2.role ≠ (ring0 [] 1 1).cons ∧
    (∀ x ∈ [(16, 3, 0x87), (16, 3, 0x97)],
      (inGang (ringGang [] 0 0) ctxRing).Fires ctxRing (syllable true x.1 x.2.1 x.2.2 mv)) ∧
    (ctxRing.ringOf 7).prod.isSome = true ∧ (ctxRing.ringOf 7).cons.isSome = true ∧
    (ctx2.ringOf 7).prod.isSome = false ∧ (ctx2.ringOf 7).cons.isSome = false := by
  refine ⟨fires_all rfl (by decide +kernel), ?_, fires_of rfl (by decide +kernel), ?_, fires_all rfl (by decide +kernel), ?_, ?_, ?_,
    fires_all rfl (by decide +kernel), ?_, ?_, ?_, ?_⟩ <;> decide +kernel

/-- RegisterBudgets: growth within the free words, at the limit of 128, beyond it, and with no free words left. -/
def ctxFat : Ctx := { Ctx.blank 1024 64 with tid := 1, gang := 7, pc := 0x1000 }
def fat (reserve : W64) : State := { one ctxFat with folds := [(0, { Fold.fresh with preemptReserve := reserve })] }
theorem wit_budgets : (one ctx2).Fires ctx2 (syllable true U.sy 3 0xA0 (imm 96)) ∧ (one ctx2).Fires ctx2 (syllable true U.sy 3 0xA0 (imm 97)) ∧
    (one ctx2).Fires ctx2 (syllable true U.sy 3 0xA1 (imm 5)) ∧ ((one ctx2).fold 0).growQ = [] ∧
    roundUp (ctx2.budget + (ctx2.rowT (one ctx2) (syllable true U.sy 3 0xA0 (imm 96))).toNat) 8 = 128 ∧
    roundUp (ctx2.budget + (ctx2.rowT (one ctx2) (syllable true U.sy 3 0xA0 (imm 97))).toNat) 8 = 136 ∧
    ctx2.nlanes * (128 - ctx2.budget) ≤ (one ctx2).freeWords 0 ((one ctx2).prio7 ctx2.asid) ∧
    (fat 0x1000).Fires ctxFat (syllable true U.sy 3 0xA0 (imm 64)) ∧
    roundUp (ctxFat.budget + (ctxFat.rowT (fat 0x1000) (syllable true U.sy 3 0xA0 (imm 64))).toNat) 8 = 128 ∧
    ctxFat.nlanes * (128 - ctxFat.budget) ≤ (fat 0).freeWords 0 ((fat 0).prio7 ctxFat.asid) ∧
    ¬ ctxFat.nlanes * (128 - ctxFat.budget) ≤ (fat 0x1000).freeWords 0 ((fat 0x1000).prio7 ctxFat.asid) := by
  refine ⟨fires_of rfl ?_, fires_of rfl ?_, fires_of rfl ?_, ?_, ?_, ?_, ?_, fires_of rfl ?_, ?_, ?_, ?_⟩ <;> decide +kernel

/-- A state with bytes at a memory key. -/
def State.withBytes (s : State) (key : Nat) (bs : List Byte) : State := { s with mem := Memory.writeN s.mem key bs }

/-- ClaimsAndRegionWrites: descriptors at 0x4000 that cannot be read, that fail their checks, and that pass at the edges
of their fields. -/
def claimCtx (o : Nat) (addr : W64) : Ctx := waits shadowCtx U.sy [{ opOf U.sy o none [] with addr := addr }]
def claimAt (o : Nat) (addr : W64) (d : List Byte) : State := State.withBytes (only shep (claimCtx o addr)) 0x4000 d
def claimDesc (base stride count width : Nat) : List Byte := bytesOf 8 base ++ bytesOf 4 stride ++ bytesOf 2 count ++ [BitVec.ofNat 8 width, 0]
def regionDesc (base limit st idx : Nat) : List Byte :=
  bytesOf 8 base ++ bytesOf 8 limit ++ [BitVec.ofNat 8 st] ++ List.replicate 15 0 ++ bytesOf 2 idx ++ List.replicate 14 0
def descOf (o : Nat) (addr : W64) (d : List Byte) : Option (List Byte × State) :=
  match (claimAt o addr d).readDesc shep (claimCtx o addr) 0 addr (if o = 0xC0 then 48 else 16) with
  | (s1, .ok x) => some (x, s1)
  | (_, .error _) => none
theorem wit_claim_triggers : (one ctx2).Fires ctx2 (syllable true U.sy 3 0xB0 mv) ∧ (one ctx2).Fires ctx2 (syllable true U.sy 3 0xB1 mv) ∧
    (only shep shadowCtx).Fires shadowCtx (syllable true U.sy 3 0xC0 mv) :=
  ⟨fires_of rfl (by decide +kernel), fires_of rfl (by decide +kernel), fires_of rfl (by decide +kernel)⟩
theorem wit_claims : (claimCtx 0xB0 0x4000).claimOp = some { opOf U.sy 0xB0 none [] with addr := 0x4000 } ∧
    (claimCtx 0xC0 0x4000).claimOp = some { opOf U.sy 0xC0 none [] with addr := 0x4000 } ∧
    ((claimCtx 0xB0 0x4000).us.unit U.sy).last = 8 ∧ ((claimCtx 0xB0 0x4000).us.unit U.sy).full = false ∧
    (descOf 0xB0 0x4008 []).isNone = true ∧ (descOf 0xC0 0x8000000000 []).isNone = true ∧
    (descOf 0xC0 0x4000 (regionDesc 0x1000 0x2000 3 255)).map (fun x => ((regionImage x.1).isSome, field x.1 32 2, field x.1 34 14)) =
      some (true, 255, 0) ∧
    (descOf 0xC0 0x4000 (regionDesc 0x1000 0x1000 3 0)).map (fun x => (regionImage x.1).isNone) = some true ∧
    (descOf 0xC0 0x4000 (regionDesc 0x1000 0x2000 3 256)).map (fun x => field x.1 32 2) = some 256 ∧
    (descOf 0xB0 0x4000 []).map (fun x => field x.1 12 2) = some 0 := by decide +kernel
/-- A claim of two elements of near memory at the greatest stride; one whose element does not exist. -/
def claimFound (d : List Byte) : Option (Bool × Bool) := (descOf 0xB1 0x4000 d).map (fun x =>
  (decide (field x.1 0 8 < 3 * 2 ^ 60 ∧ field x.1 14 1 ∈ [1, 2, 4, 8] ∧ field x.1 0 8 % field x.1 14 1 = 0 ∧ 1 ≤ field x.1 8 4 ∧
    field x.1 8 4 ≤ 2 ^ 20 ∧ field x.1 14 1 ≤ field x.1 8 4 ∧ 1 ≤ field x.1 12 2 ∧ field x.1 12 2 ≤ 1024 ∧ field x.1 15 1 = 0),
    match (x.2.claimElems shep (claimCtx 0xB1 0x4000) (field x.1 14 1) ((List.range (field x.1 12 2)).map (fun i =>
      BitVec.ofNat 64 (field x.1 0 8 + field x.1 8 4 * i)))).2 with
    | .ok ps => decide (ps.flatten.map ClaimPart.pa = [0x5000, 0x105000])
    | .error _ => false))
theorem wit_claim_elements : claimFound (claimDesc 0x5000 (2 ^ 20) 2 8) = some (true, true) ∧
    claimFound (claimDesc 0x8000000000 8 1 8) = some (true, false) := by decide +kernel

/-- CopyTriggers: a shape of one word in the wide-register window, a descriptor of zeros, and a table of 64 entries. -/
def shapeB (n : Nat) : Vals := [0, 0x30000000, 0x100, 0x30000000, 2, BitVec.ofNat 64 n]
def ctx16 (b : Vals) (t : Nat) : Ctx :=
  { Ctx.blank 16 32 with tid := 1, gang := 7, pc := 0x1000, us := UnitState.fresh.setUnit t { UPorts.fresh with b := b } }
def otherLock : Lock := { uid := 9, space := 1, owner := 0, lo := 0, hi := 0, dst := true, mx := false, seq := 0 }
def locked (n : Nat) (s : State) : State := { s with folds := [(0, { Fold.fresh with locks := List.replicate n otherLock })] }
def w0 (u o : Nat) : W32 := syllable true u 3 o (imm 0)
def planAt (s : State) (b : Vals) (o : Nat) : Except Nat Plan :=
  ((ctx16 b U.cp).engOf s (w0 U.cp o)).plan (ctx16 b U.cp).live (s.holdsEngine 7)
def planRoom (s : State) (b : Vals) (o : Nat) : Option Nat :=
  match planAt s b o with
  | .ok p => some (s.planLocks 0 ((ctx16 b U.cp).engOf s (w0 U.cp o)) p).length
  | .error _ => none
theorem wit_copy_triggers : (0, Instr.cpCopy) ∈ copyOps ∧ (8, Instr.cpAccout) ∈ copyOps ∧
    (∀ o ∈ [0, 1, 4, 6, 8], (inGang gang1 (ctx16 (shapeB 1) U.cp)).Fires (ctx16 (shapeB 1) U.cp) (w0 U.cp o)) ∧
    planRoom (inGang gang1 (ctx16 (shapeB 1) U.cp)) (shapeB 1) 0 = some 2 ∧
    planAt (inGang gang1 (ctx16 [] U.cp)) [] 0 = .error 5 ∧ planAt (inGang gang1 (ctx16 [] U.cp)) [] 4 = .error 17 ∧
    (locked 62 (inGang gang1 (ctx16 (shapeB 1) U.cp))).Fires (ctx16 (shapeB 1) U.cp) (w0 U.cp 0) ∧
    (locked 63 (inGang gang1 (ctx16 (shapeB 1) U.cp))).Fires (ctx16 (shapeB 1) U.cp) (w0 U.cp 0) ∧
    planRoom (locked 63 (inGang gang1 (ctx16 (shapeB 1) U.cp))) (shapeB 1) 0 = some 2 := by
  refine ⟨by simp [copyOps], by simp [copyOps], ?_, ?_, ?_, ?_, fires_of rfl ?_, fires_of rfl ?_, ?_⟩
  · intro o ho
    refine fires_of rfl ?_
    revert o
    decide +kernel
  all_goals decide +kernel

/-- CopiesStartAndComplete: an operation that may start, one that has, plans on plain bytes of the wide-register window, a
source that does not exist. -/
def eng (u o : Nat) (a : Vals) (b : Vals) (t : Vals) (started : Bool) : EngOp :=
  { uid := 1, slot := 0, tid := 1, opUid := 8, gang := 7, unit := u, opcode := BitVec.ofNat 8 o, mask := 1, a := a, b := b, c := [],
    t := t, scope := 0, bundle := 0x1000, cycle := 0, asid := 0, flock := 0, conf := false, started := started, dispatch := none,
    block := [], scaleA := [], scaleB := [], fms := [], done := 0, starts := [], finishes := [], token := none, tokenAddr := 0,
    progress := 0, acked := 0, sent := [], redo := 0, landed := [], tokIdx := 0, nxRefused := false, born := 0 }
def flying (g : Gang) (c : Ctx) (e : EngOp) (f : Fold) : State :=
  { inGang g c with folds := [(0, { f with eng := [e], nextEng := 2 })] }
def copyEng (started : Bool) : EngOp := eng U.cp 0 [] (shapeB 1) [] started
def copyState (e : EngOp) : State := flying gang1 (ctx16 [] U.cp) e Fold.fresh
theorem plain_wide {s : State} {g : Gang} {fold : Nat} {e : EngOp} {wr : Bool} {a : W64} {n : Nat}
    (hg : s.gang e.gang = some g) (h : (tagOf a == 3 && decide (e.asid < 256) && decide (bits a.toNat 59 0 + n ≤ 2048 * g.block.wide)) = true) :
    s.PlainSide fold e .generic wr a n (Memory.wideKey e.gang (g.half fold) (bits a.toNat 59 0)) := by
  simp only [Bool.and_eq_true, beq_iff_eq, decide_eq_true_eq] at h
  obtain ⟨⟨h1, h2⟩, h3⟩ := h
  simp [State.PlainSide, State.engBytes, State.engWide, h1, hg, h2, h3, Memory.wideKey, Nat.add_assoc]
def copyPlan : Plan :=
  { elems := [{ idx := 0, src := 0x3000000000000000, dst := 0x3000000000000100, len := 4 }], srcKind := .generic, dstKind := .generic,
    pattern := none }
def farPlan : Plan :=
  { elems := [{ idx := 0, src := 0x4000000000000000, dst := 0x3000000000000100, len := 4 }], srcKind := .generic, dstKind := .generic,
    pattern := none }
def farEng : EngOp := eng U.cp 0 [] [0, 0x40000000, 0x100, 0x30000000, 2, 1] [] true
theorem wit_copies : (copyState (copyEng false)).findEng 0 1 = some (copyEng false) ∧
    (copyState (copyEng false)).engCanStart 0 (copyEng false) = true ∧ (copyState (copyEng true)).engCanStart 0 (copyEng true) = false ∧
    (copyState (copyEng true)).memOk ∧ (copyEng true).unit = U.cp ∧ ((copyState (copyEng true)).fold 0).watch = [] ∧
    gang1.maps 0 = [] ∧ gang1.maps 1 = [] ∧
    (copyEng true).plan (BitVec.allOnes 1024) ((copyState (copyEng true)).holdsEngine 7) = .ok copyPlan ∧
    (∀ x ∈ copyPlan.elems, (copyState (copyEng true)).PlainSide 0 (copyEng true) .generic false x.src x.len (Memory.wideKey 7 0 0)) ∧
    (∀ x ∈ copyPlan.elems, (copyState (copyEng true)).PlainSide 0 (copyEng true) .generic true x.dst x.len (Memory.wideKey 7 0 0x100)) ∧
    farEng.perLane = false ∧ farEng.plan (BitVec.allOnes 1024) true = .ok farPlan ∧ (copyState farEng).holdsEngine 7 = true ∧
    (copyState farEng).engBytes 0 farEng .generic false 0x4000000000000000 4 = (copyState farEng, .fault 0x22) := by
  refine ⟨by decide +kernel, by decide +kernel, by decide +kernel, by unfold State.memOk; decide +kernel, rfl, rfl, by decide +kernel,
    by decide +kernel, by decide +kernel, ?_, ?_, rfl, by decide +kernel, rfl, by decide +kernel⟩
  · intro x hx
    simp only [copyPlan, List.mem_singleton] at hx
    subst hx
    exact plain_wide (g := gang1) rfl (by decide +kernel)
  · intro x hx
    simp only [copyPlan, List.mem_singleton] at hx
    subst hx
    exact plain_wide (g := gang1) rfl (by decide +kernel)

/-- MatrixTriggers: a gang without the engine, a full queue, a table with room, and each check of each row both ways. -/
def gangMx : Gang := { gang1 with block := { block1 with scrLog2 := 14 }, base := [(0, 0)], fm := [(0, 0xC6380000)] }
def mxCtx (a : W64) : Ctx :=
  { Ctx.blank 16 32 with tid := 1, gang := 7, pc := 0x1000, us := UnitState.fresh.setUnit U.mx { UPorts.fresh with a := [a] } }
def mxAt (g : Gang) (a : W64) : State := inGang g (mxCtx a)
def wT (o : Nat) (t : Nat) : W32 := syllable true U.mx 3 o (imm t)
def mxE (g : Gang) (a : W64) (o t : Nat) : EngOp := (mxCtx a).engOf (mxAt g a) (wT o t)
def mxNeed (s : State) (a : W64) (o t : Nat) : Option Nat :=
  needMx s team ((mxCtx a).land.trigOf (Bundle.one (wT o t) 0x1000) (Move.of 0 (wT o t)))
def mxFull : State := { mxAt gangMx 0 with folds := [(0, { Fold.fresh with eng := List.replicate 8 (eng U.mx 0x20 [] [] [] false), nextEng := 2 })] }
theorem wit_matrix_rows (b : BitVec 1) : (0x10 + b.toNat, Instr.mxMma b) ∈ matrixOps b ∧ (0x60, Instr.mxStat) ∈ matrixOps b := by
  simp [matrixOps]
theorem wit_matrix_fires : (∀ x ∈ [(0, 0), (1, 0), (0x10, 0), (0x13, 0), (0x20, 0), (0x20, 5), (0x30, 0), (0x40, 0), (0x50, 15), (0x50, 16), (0x60, 127), (0x60, 128)],
      (mxAt gangMx 0).Fires (mxCtx 0) (wT x.1 x.2)) ∧
    (one (mxCtx 0)).Fires (mxCtx 0) (wT 0 0) ∧ mxFull.Fires (mxCtx 0) (wT 0x10 0) := by
  refine ⟨?_, fires_of rfl (by decide +kernel), fires_of rfl (by decide +kernel)⟩
  intro x hx
  refine fires_of rfl ?_
  revert x
  decide +kernel
theorem wit_matrix_triggers : (one (mxCtx 0)).mxGang (mxCtx 0) = none ∧ mxFull.mxGang (mxCtx 0) = some gangMx ∧
    mxNeed mxFull 0 0x10 0 = none ∧ mxNeed (mxAt gangMx 0) 0 0x10 0 = some 4 ∧ mxNeed (mxAt gangMx 0) 0 0x60 0 = some 0 ∧
    bloadCheck gangMx 0 (mxE gangMx 0x1000000000000000 0 0) = .ok 8192 ∧
    bloadCheck gangMx 0 (mxE gangMx 0x1000000000000000 0 511) = .error 0x2A ∧
    (mxE gangMx 0 0x13 0).isMmap = true ∧ gangMx.block.pair = false ∧ (mxE gangMx 0 0x10 0).isMmap = false ∧
    (mxE gangMx 0 0x20 0).t0 = 0 ∧ maskTiles (mxE gangMx 0 0x20 5).t0 = [0, 2] ∧
    tileCheck gangMx 0 (mxE gangMx 0x1000000000000000 0x30 0) = .ok 8192 ∧ tileCheck gangMx 0 (mxE gangMx 0 0x40 256) = .error 0x48 ∧
    (mxE gangMx 0 0x50 15).t0.toNat = 15 ∧ (mxE gangMx 0 0x50 16).t0.toNat = 16 ∧ bits (mxE gangMx 0 0x60 127).t0.toNat 31 7 = 0 ∧
    bits (mxE gangMx 0 0x60 128).t0.toNat 31 7 ≠ 0 := by decide +kernel

/-- MatrixOperations: a bank load of 64 rows of a window, a block with KGROUPS 1 in the window, a block that does not
exist, head commands with and without a valid bank, and operations whose time has come. -/
def mxFold (bank : Tbl (Bool × Bool)) : Fold := { Fold.fresh with bankValid := bank }
def mxFly (e : EngOp) (bank : Tbl (Bool × Bool)) : State := State.withBytes (flying gangMx (mxCtx 0) e (mxFold bank)) (Memory.spmKey 0 5) [1]
def bloadE : EngOp := eng U.mx 0 [0x1000000000000000] [] [] false
def mmaE : EngOp := { eng U.mx 0x10 [0x1000000000000000] [] [] false with fms := [(0, 0xC6380000)] }
def mmaFar : EngOp := { eng U.mx 0x10 [0] [] [] false with fms := [(0, 0xC6380000)] }
def readE : EngOp := { mmaE with block := [0, 0, 0, 0, 0, 1] ++ List.replicate 26 0 }
theorem wit_bank_load : (mxFly bloadE []).memOk ∧ (mxFly bloadE []).findEng 0 1 = some bloadE ∧ bloadE.unit = U.mx ∧
    (mxFly bloadE []).bloadReady 0 bloadE = true ∧ bloadSize bloadE.t0.toNat = 1 ∧ bloadPitch bloadE.t0.toNat = 128 ∧
    (∀ k, k < 64 → (mxFly bloadE []).mxWindow 0 bloadE (bloadE.a0 + BitVec.ofNat 64 (k * 128)) 128 =
      .ok (if k = 0 then [0, 0, 0, 0, 0, 1] ++ List.replicate 122 0 else List.replicate 128 0, mxFly bloadE [])) := by
  refine ⟨by unfold State.memOk; decide +kernel, by decide +kernel, rfl, by decide +kernel, by decide +kernel, by decide +kernel, by decide +kernel⟩
theorem wit_block_read : mmaE.isMma = true ∧ mmaE.block = [] ∧ mmaE.token = none ∧ (mxFly mmaE []).olderDone 0 mmaE = true ∧
    (mxFly mmaE []).findEng 0 1 = some mmaE ∧
    (match (mxFly mmaE []).readBlock 0 mmaE with | .ok x => x.1 == readE | .error _ => false) = true ∧
    (mxFly mmaFar []).findEng 0 1 = some mmaFar ∧ (mxFly mmaFar []).olderDone 0 mmaFar = true ∧
    (match (mxFly mmaFar []).readBlock 0 mmaFar with | .ok _ => false | .error k => k == 0x2A) = true := by decide +kernel
/-- Scales that no older entry covers, and scales at address 0 that an earlier copy still writes. -/
def mmaScaled : EngOp := { mmaE with fms := [(0, 0xC6381000)] }
def scaledState : State :=
  let s := mxFly mmaScaled []
  s.modFold 0 (fun f => { f with lockSeq := 2, locks := [{ uid := 0, space := 0, owner := 0, lo := 0, hi := 0, dst := true, mx := false, seq := 0 },
    { uid := 1, space := 9, owner := 0, lo := 0, hi := 0, dst := false, mx := true, seq := 1 }] })
theorem wit_scales : (mxFly mmaE []).scalesHeld 0 mmaE = false ∧ (mxFly mmaFar []).scalesHeld 0 mmaFar = false ∧
    scaledState.scalesHeld 0 mmaScaled = true ∧ mmaScaled.isMma = true ∧ scaledState.findEng 0 1 = some mmaScaled := by decide +kernel
def zeroE : EngOp := eng U.mx 0x20 [] [] [5] false
theorem wit_dispatch : ((mxFly readE [(0, (true, false))]).fold 0).headCmd = some readE ∧
    (mxFly readE [(0, (true, false))]).headReady 0 readE = true ∧ (mxFly readE [(0, (true, false))]).bankOk 0 readE = true ∧
    ((mxFly readE [(0, (true, false))]).fold 0).mxHist = [] ∧ readE.isMmap = false ∧
    (mxFly readE []).headReady 0 readE = true ∧ (mxFly readE []).bankOk 0 readE = false ∧
    ((mxFly zeroE []).fold 0).headCmd = some zeroE ∧ (mxFly zeroE []).headReady 0 zeroE = true ∧ zeroE.isMma = false := by decide +kernel
def mmaRun : EngOp := { readE with dispatch := some 0 }
def aloadE : EngOp := { eng U.mx 0x40 [0x3000000000000000] [] [0xA0] false with dispatch := some 0 }
def statE : EngOp := eng U.mx 0x60 [] [] [63] false
theorem wit_matrix_ends : mmaRun.isMma = true ∧ mmaRun.isMmap = false ∧ (mxFly mmaRun []).mmaDue 0 mmaRun = true ∧
    (mxFly mmaRun []).findEng 0 1 = some mmaRun ∧ zeroE.opcode = 0x20 ∧ ({ zeroE with dispatch := some 0 } : EngOp).dispatch.isSome = true ∧
    aloadE.opcode = 0x40 ∧ aloadE.dispatch.isSome = true ∧ ((mxFly aloadE []).fold 0).watch = [] ∧
    statE.opcode = 0x60 ∧ (mxFly statE []).findEng 0 1 = some statE ∧
    (∀ x ∈ ((mxFly statE []).fold 0).eng, x.isMma = true → x.slot = statE.slot → x.tid = statE.tid → ¬(x.uid < statE.uid)) ∧
    (mxFly statE []).ctx team = some (mxCtx 0) ∧ (mxCtx 0).tid = statE.tid := by decide +kernel
/-- `aload` of 8-bit elements: 2,048 bytes of the wide-register window. -/
theorem wit_aload : ∀ x ∈ aloadE.tileElems,
    (mxFly aloadE []).PlainSide 0 aloadE .generic false x.src x.len (Memory.wideKey 7 (gangMx.half 0) (bits x.src.toNat 59 0)) := by
  have h : (aloadE.tileElems.all (fun x => tagOf x.src == 3 && decide (aloadE.asid < 256) &&
      decide (bits x.src.toNat 59 0 + x.len ≤ 2048 * gangMx.block.wide))) = true := by decide +kernel
  intro x hx
  exact plain_wide (g := gangMx) rfl (List.all_eq_true.mp h x hx)

/-- `drain` of 8-bit elements to 2,048 bytes of the wide-register window; the two sides of an mmap. -/
def drainE : EngOp := { eng U.mx 0x30 [0x3000000000000000] [] [0xA0] false with dispatch := some 0 }
def drainKey (x : Elem) : Nat := Memory.wideKey 7 (gangMx.half 0) (bits x.dst.toNat 59 0)
theorem wit_drain : drainE.opcode = 0x30 ∧ drainE.dispatch.isSome = true ∧ (mxFly drainE []).findEng 0 1 = some drainE ∧
    ((mxFly drainE []).fold 0).watch = [] ∧ gangMx.maps 0 = [] ∧ gangMx.maps 1 = [] ∧ (mxFly drainE []).gang drainE.gang = some gangMx := by
  decide +kernel
theorem wit_drain_sides : ∀ x ∈ drainE.tileElems, (mxFly drainE []).PlainSide 0 drainE .generic true x.dst x.len (drainKey x) := by
  have h : (drainE.tileElems.all (fun x => tagOf x.dst == 3 && decide (drainE.asid < 256) &&
      decide (bits x.dst.toNat 59 0 + x.len ≤ 2048 * gangMx.block.wide))) = true := by decide +kernel
  intro x hx
  exact plain_wide (g := gangMx) rfl (List.all_eq_true.mp h x hx)
theorem wit_drain_apart : ∀ x ∈ drainE.tileElems,
    (drainKey x + x.len ≤ tileKey 0 (drainE.t0.toNat % 32) 0 0 ∨ tileKey 0 (drainE.t0.toNat % 32) 0 0 + 8192 ≤ drainKey x) ∧
    ∀ y ∈ drainE.tileElems, x.idx ≠ y.idx → (drainKey x + x.len ≤ drainKey y ∨ drainKey y + y.len ≤ drainKey x) := by
  have h : (drainE.tileElems.all (fun x => decide (x.len = 1 ∧ drainKey x = Memory.wideKey 7 0 0 + x.idx ∧
      (drainKey x + 1 ≤ tileKey 0 (drainE.t0.toNat % 32) 0 0 ∨ tileKey 0 (drainE.t0.toNat % 32) 0 0 + 8192 ≤ drainKey x)))) = true := by
    decide +kernel
  have k := fun x hx => of_decide_eq_true (List.all_eq_true.mp h x hx)
  intro x hx
  obtain ⟨h1, h2, h3⟩ := k x hx
  refine ⟨by omega, fun y hy hne => ?_⟩
  obtain ⟨h4, h5, -⟩ := k y hy
  omega
def pairE : EngOp := { readE with opcode := 0x13, dispatch := some 0 }
def pairS : State :=
  { inGang { gangMx with block := { gangMx.block with pair := true } } (mxCtx 0) with
    folds := [(0, { mxFold [] with eng := [pairE], nextEng := 2 }), (1, { mxFold [] with eng := [{ pairE with uid := 5 }], nextEng := 6 })] }
theorem wit_mmap_ends : pairE.isMmap = true ∧ pairS.memOk ∧ pairS.findEng 0 1 = some pairE ∧ pairE.unit = U.mx ∧ pairS.mmaDue 0 pairE = true ∧
    pairS.mmaDue (partner 0) { pairE with uid := 5 } = true ∧
    (pairS.fold (partner 0)).eng.find? (fun y => y.isMmap && y.gang == pairE.gang && y.dispatch.isSome) = some { pairE with uid := 5 } := by
  unfold State.memOk
  decide +kernel

/-- Die 0 with translation on for address space 0 and one leaf cached for the first 1 GiB: A and D set, every right, the
memory type given by its bits. -/
def leafTlb (bits : W64) : Tlb := { asid := 0, page := 0, size := 2 ^ 30, pte := 0x1FD ||| bits, ent := 0, desc := [] }
def mappedDie (bits : W64) : Die := { Die.fresh with qroot := [(0, 1)], tlb := [leafTlb bits] }
def mapped (bits : W64) (s : State) : State := { s with dies := [(0, mappedDie bits)] }
/-- An entry of the connection table to device 1, of a mode. -/
def connBytes (mode flags : Nat) : List Byte :=
  [1, 0, 0, 0, BitVec.ofNat 8 mode, 0, BitVec.ofNat 8 flags, 0] ++ bytesOf 4 8192 ++ bytesOf 4 4096

/-- TransportTriggers: a descriptor that passes, one of zeros; each immediate operation at the edges of its operand. -/
def putB : Vals := [0, 0x10000000, 0x9000, 0, 8, 0, 0xFFFF]
def nxCtx (a : W64) (b : Vals) : Ctx :=
  { Ctx.blank 16 32 with tid := 1, gang := 7, pc := 0x1000, us := UnitState.fresh.setUnit U.nx { UPorts.fresh with a := [a], b := b } }
def nxAt (g : Gang) (a : W64) (b : Vals) : State := State.withBytes (inGang g (nxCtx a b)) 0 (connBytes 1 15)
def wN (o n : Nat) : W32 := syllable true U.nx 3 o (imm n)
def nxE (b : Vals) (o : Nat) : EngOp := (nxCtx 1 b).engOf (nxAt gangMx 1 b) (wN o 0)
theorem wit_transport_fires : (∀ x ∈ [(0, 0), (1, 0), (2, 0), (3, 0), (0x10, 15), (0x10, 32), (0x20, 0), (0x20, 1), (0x31, 7), (0x31, 256), (0x32, 0),
      (0x32, 367)], (nxAt gangMx 1 putB).Fires (nxCtx 1 putB) (wN x.1 x.2)) ∧
    (nxAt gangMx 1 []).Fires (nxCtx 1 []) (wN 0 0) ∧ (nxAt gangNoBar 1 []).Fires (nxCtx 1 []) (wN 0x10 0) ∧
    (only shep shadowCtx).Fires shadowCtx (wN 0x30 0x50) ∧ (only shep shadowCtx).Fires shadowCtx (wN 0x30 8) := by
  refine ⟨?_, fires_of rfl (by decide +kernel), fires_of rfl (by decide +kernel), fires_of rfl (by decide +kernel),
    fires_of rfl (by decide +kernel)⟩
  intro x hx
  refine fires_of rfl ?_
  revert x
  decide +kernel
/-- A link that runs and one that retrains, for lkrate. -/
theorem wit_lkrate : ∀ re ∈ [false, true],
    firesB { only shep shadowCtx with pkg := { pkgUp with links := [(0, { Link.fresh 0 with retraining := re })] } } shadowCtx (wN 0x30 0x50) = true ∧
    (shadowCtx.rowT (only shep shadowCtx) (wN 0x30 0x50)).toNat = 0x50 ∧
    (({ only shep shadowCtx with pkg := { pkgUp with links := [(0, { Link.fresh 0 with retraining := re })] } } : State).link 0).up = true := by
  decide +kernel
def boundDie : Die := { Die.fresh with landing := (List.range 256).map (fun i =>
  (i, { gen := 1, bound := true, gang := 7, barrier := 0, target := 10, count := 0, arrivedAt := none, overAt := none })) }
theorem wit_transport_triggers : (0, Instr.nxPut) ∈ transportOps ∧ (3, Instr.nxSend) ∈ transportOps ∧
    (nxE putB 0).nxFault (BitVec.allOnes 1024) ((nxAt gangMx 1 putB).connEnt (nxE putB 0).nxConn) = none ∧
    ((nxAt gangMx 1 putB).nxLocks 0 (nxE putB 0)).length = 1 ∧
    (nxE [] 0).nxFault (BitVec.allOnes 1024) ((nxAt gangMx 1 []).connEnt (nxE [] 0).nxConn) = some 0x4E ∧
    ((nxAt gangMx 1 putB).fold 0).eng = [] ∧ gangMx.block.barRole 15 0 = true ∧ gangNoBar.block.barRole 0 0 = false ∧
    Die.fresh.freeLanding = some 0 ∧ boundDie.freeLanding = none ∧ ((nxAt gangMx 1 putB).connEnt 0).isSome = true ∧
    (nxAt gangMx 1 putB).connEnt 1 = none ∧ ((only shep shadowCtx).link 0).up = true ∧ Die.fresh.watches = [] := by
  refine ⟨by simp [transportOps], by simp [transportOps], ?_, ?_, ?_, ?_, ?_, ?_, ?_, ?_, ?_, ?_, ?_, ?_⟩ <;> decide +kernel

/-- TransportEvents: a put of 8 bytes of a scratchpad window in flight, a get, an operation on an invalid connection; a
write packet for a mapped address; an answer; operations that are done. -/
def nxOp (o : Nat) (conn : W64) (started : Bool) : EngOp := eng U.nx o [] [0, 0x10000000, 0x9000, 0, 8, conn, 0xFFFF] [] started
def nxFly (e : EngOp) : State := mapped 0 (State.withBytes (flying gangMx (nxCtx 1 putB) e Fold.fresh) 0 (connBytes 1 15))
theorem wit_transport_put : (nxFly (nxOp 0 0 true)).memOk ∧ (nxFly (nxOp 0 0 true)).findEng 0 1 = some (nxOp 0 0 true) ∧
    ((nxFly (nxOp 0 0 true)).fold 0).watch = [] ∧ ((nxFly (nxOp 0 0 true)).connEnt 0).isSome = true ∧
    (nxOp 0 0 true).sentAll = false ∧ (nxOp 0 0 true).isPut = true ∧ (nxOp 3 0 true).isSend = true ∧ (nxOp 1 0 true).isGet = true ∧
    (nxOp 0 0 true).redo = 0 ∧ ((nxFly (nxOp 0 0 true)).nxIo (dieOf 0)).isSome = true ∧
    (match (nxFly (nxOp 0 0 true)).connEnt 0 with
      | some c => (nxFly (nxOp 0 0 true)).nxMaySend 0 (nxOp 0 0 true) c && (nxFly (nxOp 1 0 true)).nxMaySend 0 (nxOp 1 0 true) c &&
          decide (c.dev ≠ (nxFly (nxOp 0 0 true)).pkg.devId.toNat)
      | none => false) = true ∧
    min 4096 ((nxOp 0 0 true).nxLen - (nxOp 0 0 true).progress) = 8 ∧ (nxOp 0 0 true).nxLocal = 0x1000000000000000 ∧
    (nxFly (nxOp 0 1 true)).connEnt (nxOp 0 1 true).nxConn = none ∧ (nxOp 0 1 true).sentAll = false := by
  refine ⟨by unfold State.memOk; decide +kernel, ?_, rfl, ?_, ?_, ?_, ?_, ?_, ?_, ?_, ?_, ?_, ?_, ?_, ?_⟩ <;> decide +kernel
def writePacket : NxPacket :=
  { conn := 0, sconn := 0, src := 1, peer := 0, tc := 0, entropy := 0, seq := 0, msg := 0, kind := .write, raddr := 0x9000, offset := 0, total := 2, payload := [1, 2], key := 0xFFFF }
theorem wit_transport_write : (match (nxFly (nxOp 0 0 true)).connEnt (writePacket.conn % 4096) with
      | some c => c.allowW && (match (nxFly (nxOp 0 0 true)).targetBytes c.asid .store (writePacket.raddr.toNat + writePacket.offset) 2 with
          | .ok [t, u] => decide (t.place = .pkg 0x9000 ∧ t.setAD = none ∧ u.place = .pkg 0x9001 ∧ u.setAD = none)
          | _ => false)
      | none => false) = true ∧
    ({ writePacket with kind := .refusal 0 1 } : NxPacket).kind = .refusal 0 1 ∧
    ({ writePacket with kind := .answer 0 1 } : NxPacket).payload ≠ [] ∧ writePacket.offset ∉ (nxOp 1 0 true).landed ∧
    ({ nxOp 0 0 true with acked := 8 } : EngOp).nxDone = true ∧ ({ nxOp 0 0 true with nxRefused := true } : EngOp).nxDone = true ∧
    ({ nxOp 0 0 true with acked := 8, token := some 0x22 } : EngOp).nxDone = true := by decide +kernel
/-- A packet to be sent again; a die whose links to both I/O dies are gone; 8 bytes in flight behind 4 others; a packet ahead
of its turn. -/
def againOp : EngOp := { nxOp 0 0 true with progress := 8, sent := [writePacket], redo := 1 }
def alone : State :=
  let s := nxFly (nxOp 0 0 true)
  { s with pkg := { s.pkg with links := [0, 2, 4].map (fun n => (n, { Link.fresh n with up := false })) } }
def flyingConn (s : State) : Option Conn := (s.connEnt 0).map (fun c =>
  { s.conn 0 c with flying := [(flightTag true 512, 4, 5), (flightTag true 512, 8, 6)], round := 8 })
def ackState : State :=
  let s := nxFly (nxOp 0 0 true)
  { s with pkg := { s.pkg with conns := ((flyingConn s).map (fun x => (0, x))).toList } }
theorem wit_transport_more : againOp.sentAll = false ∧ againOp.redo ≠ 0 ∧ againOp.sent[againOp.sent.length - againOp.redo]? = some writePacket ∧
    (nxFly againOp).findEng 0 1 = some againOp ∧
    (match (nxFly againOp).connEnt 0 with | some c => (nxFly againOp).nxMaySend 0 againOp c && c.mode == 1 | none => false) = true ∧
    (alone.connEnt 0).isSome = true ∧ alone.nxIo (dieOf 0) = none ∧
    (match ackState.connEnt 0 with
      | some c => decide ((ackState.conn 0 c).answers = [] ∧
          (ackState.conn 0 c).flying = [(flightTag true 512, 4, 5)] ++ (flightTag true 512, 8, (6 : BitVec 8).toNat) :: [] ∧
          (∀ y ∈ (ackState.conn 0 c).flying, 0 < y.2.1) ∧ 7 < (ackState.conn 0 c).round ∧ (ackState.conn 0 c).round ≤ 8)
      | none => false) = true ∧
    (match (nxFly (nxOp 0 0 true)).connEnt 0 with
      | some c => decide (c.mode = 1 ∧ ((nxFly (nxOp 0 0 true)).conn 0 c).expect < ({ writePacket with seq := 3 } : NxPacket).seq ∧
          writePacket.seq ≤ ((nxFly (nxOp 0 0 true)).conn 0 c).expect)
      | none => false) = true := by decide +kernel
/-- Answers to a get on a ROD connection: in its turn, again, ahead of its turn, and for an invalid entry. -/
def getE : EngOp := nxOp 1 0 true
def answerP (conn : Nat) (off : Nat) : NxPacket := { writePacket with kind := .answer 0 1, conn := conn, offset := off }
theorem wit_answers : (nxFly getE).findEng 0 1 = some getE ∧ getE.isGet = true ∧
    (match (nxFly getE).connEnt ((answerP 0 0).conn % 4096) with | some c => c.mode == 1 | none => false) = true ∧
    (nxFly getE).answerEarly 0 getE 0 = false ∧ 0 ∈ ({ getE with landed := [0] } : EngOp).landed ∧
    (nxFly { getE with landed := [0] }).findEng 0 1 = some { getE with landed := [0] } ∧
    (answerP 0 2).offset ∉ getE.landed ∧ getE.acked < (answerP 0 2).offset ∧ (answerP 0 2).payload ≠ [] ∧
    (nxFly getE).connEnt ((answerP 1 0).conn % 4096) = none := by decide +kernel
/-- The local bytes of the put, of the get and of its answer are plain. -/
theorem wit_transport_plain : (∀ i, i < 8 → (nxFly (nxOp 0 0 true)).PlainSide 0 (nxOp 0 0 true) .generic false
      (0x1000000000000000 + BitVec.ofNat 64 i) 1 (Memory.spmKey 0 0 + i)) ∧
    (∀ i, i < 2 → (nxFly (nxOp 1 0 true)).PlainSide 0 (nxOp 1 0 true) .generic true
      (0x1000000000000000 + BitVec.ofNat 64 i) 1 (Memory.spmKey 0 0 + i)) :=
  by unfold State.PlainSide; decide +kernel

/-- LandingsAndRemoteAccesses: a bound counter of target 10 with 3 bytes, a key of no counter, and a load whose page lies
at device 1, which the remote map reaches. -/
def landingL : Landing := { gen := 1, bound := true, gang := 7, barrier := 0, target := 10, count := 3, arrivedAt := none, overAt := none }
def landState (g : Gang) : State := { inGang g ctx2 with dies := [(0, { Die.fresh with landing := [(5, landingL)] })] }
theorem wit_landing : (landState gang1).landingOf 0 (BitVec.ofNat 16 (1024 + 5)) = some (5, landingL) ∧
    (landState gang1).gang landingL.gang = some gang1 ∧ gang1.die = 0 ∧ (((landState gang1).die 0).landing.map Prod.fst).Pairwise (· < ·) ∧
    landingL.count + 6 < landingL.target ∧ landingL.target ≤ landingL.count + 7 ∧ landingL.count + 16 < 2 * landingL.target ∧
    landingL.arrivedAt ≠ some (gang1.barrier 0).gen ∧ (gang1.barrier 0).arrivals + 1 ≠ (landState gang1).expected 7 gang1 0 ∧
    (landState gang1).landingOf 0 0 = none := by decide +kernel
def remoteCtx : Ctx := { memCtx U.la 2 (lane0 0x9000 0 none) with asid := 0, shadow := false, gang := 7 }
def remoteState : State := { State.withBytes (State.withBytes (mapped (0x1000000000800) (one remoteCtx)) 0 (connBytes 1 15)) 0x8002 [0, 0x80] with
  pkg := { pkgUp with rmapBase := 0x8000 } }
abbrev RemoteFacts (s : State) (c : Ctx) (o : MemOp) : Prop :=
  s.ctx team = some c ∧ c.memq = [o] ∧ o.isLoad = true ∧ o.isPf = false ∧ o.acquires = false ∧ o.lanes = [lane0 0x9000 0 none] ∧
    o.replay = none ∧ o.res = [] ∧ o.toks = [] ∧ o.rt ≠ 0 ∧
    (match s.check team c o (lane0 0x9000 0 none) with
      | .place t => decide (t.place = .remote 1 0x9000 ∧ t.setAD = none)
      | _ => false) = true ∧
    s.peerOk 0 1 = true ∧ s.behindHeld team c o (lane0 0x9000 0 none) = false ∧
    c.wait ≠ .exiting ∧ s.eccHit (.remote 1 0x9000) 4 = false ∧ (lane0 0x9000 0 none).win = none ∧ 0 < c.nlanes ∧
    (o.mask &&& c.live).getLsbD 0 = true ∧ (c.us.unit o.unit).last = o.uid ∧
    c.mapPending o.uid = false ∧ c.descPending o.uid = false ∧ (c.us.unit U.la).full = false ∧ (c.us.unit U.la).frec.isSome = true ∧
    s.remoteSi 0 c.tid o 1 0x9000 = none ∧
    (match s.connEnt (bits (s.rd (bits s.pkg.rmapBase.toNat 47 15 * 2 ^ 15 + 2 * (1 % 2 ^ 14)) 2) 11 0) with
      | some cn => decide (cn.dev ≠ s.pkg.devId.toNat)
      | none => false) = true
theorem wit_remote : RemoteFacts remoteState remoteCtx (queued U.la 2 (lane0 0x9000 0 none)) ∧
    remoteState.remoteBefore team 1 0 = false := by unfold RemoteFacts; decide +kernel
/-- Another team's access to the device, issued first. -/
def remoteLate : MemOp := { queued U.la 2 (lane0 0x9000 0 none) with issued := 5 }
def remoteTwo : State := (remoteState.setCtx { team with slot := 7 } remoteCtx).setCtx team { remoteCtx with memq := [remoteLate] }
theorem wit_remoteSecond : RemoteFacts remoteTwo { remoteCtx with memq := [remoteLate] } remoteLate ∧
    remoteTwo.remoteBefore team 1 5 = true := by unfold RemoteFacts; decide +kernel

/-- LinksAndPorts: a fresh end; an end one error short of its threshold of 8; a link that retrains. -/
def flit (seq : BitVec 10) (ok : Bool) : Flit := { null := false, seq := seq, crcOk := ok, lane := none }
def linkState (n : Nat) (re : Bool) : State := { State.reset with pkg := { pkgUp with
  links := [(0, { Link.fresh 0 with retraining := re })],
  ends := [(0, { LinkEnd.fresh with unacked := [(0, none)] }), (1, { LinkEnd.fresh with linkCount := n, linkThr := 8, linkShut := 100 })] } }
def fullEnd : LinkEnd := { LinkEnd.fresh with unacked := (List.range 512).map (fun i => (i, none)) }
def linkLate : State := { linkState 7 false with pkg := { (linkState 7 false).pkg with clk := 3600 } }
def meshTo (dst : Nat) : MeshMsg := { src := 0, dst := dst, vc := 0, fold := 0, scope := 0, seq := 0 }
def meshState : State := { State.reset with pkg := { pkgUp with ends := [(0, { LinkEnd.fresh with unacked := [(0, some (meshTo 1))] })] } }
theorem wit_links : (linkState 0 false).linkEnd 15 = LinkEnd.fresh ∧ ((linkState 0 false).link 7).up = true ∧
    ((linkState 0 false).link 7).retraining = false ∧ (flit 0 true).null = false ∧ (flit 0 true).seq = ((linkState 0 false).linkEnd 15).expect ∧
    (flit 1 true).seq ≠ ((linkState 0 false).linkEnd 15).expect ∧ ((linkState 0 false).linkEnd 15).discarding = false ∧
    ((linkState 0 false).link 0).laneOf 0 (flit 0 false) = none ∧ ((linkState 0 false).linkEnd 1).linkCount = 0 ∧
    1 < bits ((linkState 0 false).linkEnd 1).win.toNat 23 16 ∧ ((linkState 7 false).linkEnd 1).linkCount + 1 = ((linkState 7 false).linkEnd 1).linkThr ∧
    1 < ((linkState 7 false).linkEnd 1).linkThr ∧ ((linkState 7 false).link 0).rate ≠ 0 ∧ ((linkState 7 false).link 0).mw ≠ 0 ∧
    ((linkState 0 false).linkEnd (otherEnd 1)).flit 0 = some ({ (linkState 0 false).linkEnd 0 with sendNext := 1 }, none) ∧
    fullEnd.flit 512 = none ∧ (flit 0 true).seq = ((linkState 0 false).linkEnd 1).expect ∧
    (linkState 7 false).ticks < ((linkState 7 false).linkEnd 1).linkShut ∧
    (linkState 7 false).windowOver ((linkState 7 false).linkEnd 1) none = false ∧
    (linkLate.windowOver (linkLate.linkEnd 1) none = true) ∧
    (meshState.linkEnd (otherEnd 1)).flit 0 = some ({ meshState.linkEnd 0 with sendNext := 1 }, some (meshTo 1)) ∧
    endNode 1 = (meshTo 1).dst ∧ endNode 1 ≠ (meshTo 3).dst ∧ meshState.route (endNode 1) 3 = some [endNode 1, endNode (otherEnd 6)] ∧
    endTo (endNode 1) (endNode (otherEnd 6)) = some 6 ∧
    0 < (linkState 0 false).ethPorts 0 ∧ (linkState 0 false).ethPorts 1 ≤ 15 % 8 ∧
    ((linkState 0 true).link 0).retraining = true ∧ (((linkState 0 false).linkEnd 1).laneCounts.map Prod.fst).Pairwise (· < ·) := by decide +kernel

/-- A duplicate of a message that came before, one with nothing on its way before it, and one behind earlier traffic; an error of
one lane; a link that retrains, at the first error and one short of the threshold; NAKs owed for no error, for a lane's and for the
link's; a retrain that another follows. -/
def meshDup : State := { meshState with pkg := { meshState.pkg with meshSeen := [(meshSeenKey 1 0 0, [0])] } }
def meshLater : MeshMsg := { meshTo 1 with seq := 1 }
def meshHeldS : State := { State.reset with pkg := { pkgUp with
  ends := [(0, { LinkEnd.fresh with unacked := [(0, some meshLater)], queue := [meshTo 1] })] } }
def transitAfter (s : State) : List MeshMsg := match exec (.flitReceive 1 (flit 0 true)) s with
  | .next t => t.meshTransit
  | _ => []
theorem wit_mesh : (0 : Nat) ∈ Tbl.get meshDup.pkg.meshSeen (meshSeenKey 1 0 0) [] ∧
    (0 : Nat) ∉ Tbl.get meshState.pkg.meshSeen (meshSeenKey 1 0 0) [] ∧ meshState.pkg.meshHold = [] ∧ (meshTo 1).vc = 0 ∧
    (∀ u ∈ transitAfter meshState, u.before (meshTo 1) = false) ∧ (meshHeldS.linkEnd (otherEnd 1)).flit 0 =
      some ({ meshHeldS.linkEnd 0 with sendNext := 1 }, some meshLater) ∧
    meshLater.seq ∉ Tbl.get meshHeldS.pkg.meshSeen (meshSeenKey 1 0 0) [] ∧
    (∃ u ∈ transitAfter meshHeldS, u.before meshLater = true) := by decide +kernel
theorem wit_link_errors : ((linkState 0 false).link 0).laneOf 0 { flit 0 false with lane := some 3 } = some 3 ∧
    Tbl.get ((linkState 0 false).linkEnd 1).laneCounts 3 0 = 0 ∧ ((linkState 0 true).link 0).up = true ∧
    ((linkState 0 true).link 0).retraining = true ∧ ((linkState 0 true).link 0).laneOf 0 (flit 0 false) = none ∧
    ((linkState 0 true).linkEnd 1).linkCount = 0 ∧ 1 < bits ((linkState 0 true).linkEnd 1).win.toNat 23 16 ∧
    (linkState 7 true).ticks < ((linkState 7 true).linkEnd 1).linkShut ∧
    ((linkState 7 true).linkEnd 1).linkCount + 1 = ((linkState 7 true).linkEnd 1).linkThr ∧ ((linkState 7 true).link 0).rate ≠ 0 := by decide +kernel
def nakS (n : Option Bool) (count : Nat) (more : Nat) : State := { State.reset with pkg := { pkgUp with
  links := [(0, { Link.fresh 0 with retraining := decide (more ≠ 0), more := more })],
  ends := [(1, { LinkEnd.fresh with nak := n, linkCount := count, linkThr := 8, linkShut := 100 })] } }
theorem wit_naks : otherEnd 0 = 1 ∧ ((nakS none 0 0).linkEnd 1).nak = none ∧ ((nakS (some false) 0 0).linkEnd 1).nak = some false ∧
    ((nakS (some true) 0 0).linkEnd 1).nak = some true ∧ ((nakS (some true) 0 0).linkEnd 1).linkCount = 0 ∧
    1 < bits ((nakS (some true) 0 0).linkEnd 1).win.toNat 23 16 ∧ (nakS (some true) 7 0).ticks < ((nakS (some true) 7 0).linkEnd 1).linkShut ∧
    ((nakS (some true) 7 0).linkEnd 1).linkCount + 1 = ((nakS (some true) 7 0).linkEnd 1).linkThr ∧ ((nakS (some true) 7 0).link 0).rate ≠ 0 ∧
    ((nakS (some true) 7 0).link 0).mw ≠ 0 ∧ ((nakS none 0 2).link 0).retraining = true ∧ ((nakS none 0 2).link 0).more ≠ 0 ∧
    ((linkState 0 true).link 0).more = 0 := by decide +kernel

/-- IdleRecallAndBundles: a Ready team; a mirror table with entry 511 valid and entry 0 not; a bundle of two moves into g;
the code lines at PC and four ahead; a team whose code is not mapped. -/
def rawG : RawBundle := { header := 0x0300, ext := 0, sylls := [syllable false 0 0 3 mv, syllable true 0 0 4 mv], limm := 0 }
def mirrorState : State :=
  { inGang { gang1 with mirrorSel := [(0, 0x100)] } ctx2 with folds := [(0, { Fold.fresh with mirrors := [(0, [(511,
    [0x0300, BitVec.ofNat 16 (syllable false 0 0 3 mv).toNat, (syllable false 0 0 3 mv).extractLsb' 16 16,
      BitVec.ofNat 16 (syllable true 0 0 4 mv).toNat, (syllable true 0 0 4 mv).extractLsb' 16 16])])] })] }
theorem wit_bundles : (one ctx2).ctx team = some ctx2 ∧ ctx2.ready = true ∧ ctx2.boundary.acqOut = none ∧ ctx2.boundary.nextDue = none ∧
    (one ctx2).breaks team ctx2.boundary = false ∧ ctx2.boundary.us.fence = none ∧ ctx2.loop = none ∧
    mirrorState.mirrorEntry team ctx2 511 = some rawG ∧ mirrorState.mirrorEntry team ctx2 0 = none ∧ ctx2.shadow = false ∧
    ctx2.inh = false ∧ ctx2.tvec &&& ~~~1 ≠ 0 ∧
    (∀ m ∈ (rawAt rawG 0x1000 0x100A).moves, m.dunit = U.rf ∧ m.dport = 0) ∧
    (match (only shep shadowCtx).fetchBytes 0 256 false (64 * 68) 64 with | .ok _ => true | .error _ => false) = true ∧
    (match (one ctx2).fetchBytes 0 0 true (64 * 64) 64 with | .ok _ => false | .error _ => true) = true ∧
    shadowCtx.pc.toNat / 64 ≤ 64 ∧ 68 ≤ shadowCtx.pc.toNat / 64 + 4 := by decide +kernel
theorem wit_bundle_clear : (one ctx2).Clear ctx2 (rawAt rawG (one ctx2).curPc ((one ctx2).curPc + BitVec.ofNat 64 (2 * headerLength rawG.header))) ∧
    mirrorState.Clear ctx2 (rawAt rawG mirrorState.curPc (mirrorState.curPc + 2)) :=
  ⟨clear_of rfl (by decide +kernel), clear_of rfl (by decide +kernel)⟩

/-- An extended bundle of an addition, rcp under SETA and a load under SETB, its guards true everywhere and rcp's nowhere; a bundle
that waits on a flag that an operation owns. -/
def rawMany (g : MoveF) : RawBundle :=
  { header := 0x8700, ext := 0x3800, sylls := [syllable false U.ia 3 0 mv, syllable false U.sf 3 0 g, syllable true U.la 3 0x22 mv], limm := 0 }
theorem wit_bundle_many : ∀ g ∈ [mv, mvNever], clearB (one ctx2) ctx2 (bundleAt (one ctx2) (rawMany g)) = true ∧
    (∀ m ∈ (bundleAt (one ctx2) (rawMany g)).moves, m.isTrig = true ∧ (m.dunit ≤ 9 ∨ ((m.dunit = U.la ∨ m.dunit = U.lb) ∧ m.dsel < 0xC0))) ∧
    (bundleAt (one ctx2) (rawMany g)).isExt = true ∧ (bundleAt (one ctx2) (rawMany g)).seta = 1 ∧ (bundleAt (one ctx2) (rawMany g)).setb = 12 ∧
    ((bundleAt (one ctx2) (rawMany g)).counted.map Move.dunit) = (if g = mv then [U.sf, U.la] else [U.la]) ∨ g = mvNever := by decide +kernel
theorem wit_bundle_many_rows (k : BitVec 3) : (∃ r : FixedRow, r.Listed ∧ r.unit = U.ia ∧ r.opcode = 0) ∧ (∃ r : FixedRow, r.Listed ∧ r.kdst = k) :=
  ⟨⟨_, .inl (List.mem_cons_self ..), rfl, rfl⟩, ⟨_, .inr (.inr (.inr (.inr (.inl ⟨k, List.mem_cons_self ..⟩)))), rfl⟩⟩
theorem reaches_of {s : State} {c : Ctx} {b : Bundle} (h0 : s.ctx s.cur = some c)
    (h : (decide (s.cur.slot ≤ CtxId.shadowSlot) && c.ready && (s.acqOut s.cur c.land).isNone && c.land.nextDue.isNone &&
      c.land.us.sfTrap.isNone && !s.breaks s.cur c.land && c.land.us.fence.isNone) = true) : s.Reaches c b := by
  simp only [Bool.and_eq_true, Bool.not_eq_true', Option.isNone_iff_eq_none, decide_eq_true_eq] at h
  obtain ⟨⟨⟨⟨⟨⟨h1, h2⟩, h3⟩, h4⟩, h5⟩, h6⟩, h7⟩ := h
  exact ⟨h0, h1, h2, h3, h4, fun t ht => by simp [h5] at ht, h6, h7⟩
set_option synthInstance.maxHeartbeats 400000 in
set_option synthInstance.maxSize 2000 in
/-- R26's table as a check. -/
noncomputable def failsDec (s : State) (c : Ctx) (b : Bundle) (code : BitVec 7) : Decidable (s.Fails c b code) := by
  unfold State.Fails State.WaitsForNone Ctx.Awaits
  infer_instance
noncomputable def failsB (s : State) (c : Ctx) (b : Bundle) (n : Nat) : Bool := @decide _ (failsDec s c b (BitVec.ofNat 7 n))
theorem none_fails {s : State} {c : Ctx} {b : Bundle} {m : Nat} (h : (List.range m).all (fun n => !failsB s c b n) = true) :
    ∀ k : BitVec 7, k < BitVec.ofNat 7 m ∨ m = 128 → ¬s.Fails c b k := fun k hk => by
  have hk2 : k.toNat < m := by
    rcases hk with hk | hk
    · have := BitVec.lt_def.mp hk
      simp only [BitVec.toNat_ofNat] at this
      exact lt_of_lt_of_le this (Nat.mod_le ..)
    · exact hk ▸ k.isLt
  have hb : failsB s c b k.toNat = false := by simpa using List.all_eq_true.mp h k.toNat (List.mem_range.mpr hk2)
  simpa [failsB] using hb
theorem wit_flag_wait : (one ctxOwned).Reaches ctxOwned (bundleAt (one ctxOwned) rawWait) ∧
    (∀ k, ¬(one ctxOwned).Fails ctxOwned.land (bundleAt (one ctxOwned) rawWait) k) ∧
    ctxOwned.land.tokenRead (bundleAt (one ctxOwned) rawWait) = none ∧ (one ctxOwned).WaitsForNone ctxOwned.land (bundleAt (one ctxOwned) rawWait) ∧
    ctxOwned.land.sfb = [] ∧ ∃ j < 12, ctxOwned.land.Awaits (bundleAt (one ctxOwned) rawWait) j := by
  refine ⟨reaches_of rfl (by decide +kernel), fun k => none_fails (m := 128) ?_ k (.inr rfl), ?_, ?_, ?_, ?_⟩
  · decide +kernel
  · decide +kernel
  · unfold State.WaitsForNone
    decide +kernel
  · rfl
  · unfold Ctx.Awaits
    decide +kernel

/-- A context whose s5 holds a value, and a trigger of SV whose T is s5. -/
def withS (c : Ctx) (v : W64) : Ctx := { c with s := [(5, v)] }
def wS (o : Nat) : W32 := syllable true U.sv 3 o ⟨false, 0, 0, 133⟩
def svFires (s : State) (c : Ctx) (o : Nat) : Bool := firesB { s with ctxs := Tbl.put s.ctxs (CtxId.key s.cur) c } c (wS o)

/-- RegisterOperations: reads of TEAM_ID and of TVEC, a write of TVEC, an operation behind another, a register of die 3,
a selector that names nothing, and one of the shadow context's from a team. -/
def regOf (c : Ctx) (id : CtxId) (op : CsrOp) : Option Reg :=
  ((only id c).atIssue c).csrReg (Who.of id c) (c.rowT (only id c) (wS 0)) op
def behind (v : W64) : Ctx :=
  { withS ctx2 v with ops := [{ opOf U.sv 1 none [BitVec.ofNat 64 0x01A] with uid := 3 }],
                      us := UnitState.fresh.setUnit U.sv { UPorts.fresh with full := false, last := 3 } }
theorem wit_register_rows : (0, CsrOp.read, Instr.svCsrr) ∈ csrRows ∧ (3, CsrOp.clear, Instr.svCsrc) ∈ csrRows := by simp [csrRows]
theorem wit_register_operations :
    ([0, 0x01A, 0x3000160, 0xFFF, 0x041].all (fun v => [0, 1, 2, 3].all (svFires (one ctx2) (withS ctx2 v)))) = true ∧
    (regOf (withS ctx2 0) team .read).map Reg.num = some 0 ∧
    (regOf (withS ctx2 0x01A) team .write).map (fun r => (r.num, r.slow 0 .write, decide (r.num ∈ plainRegs))) = some (0x01A, false, true) ∧
    (regOf (withS ctx2 0x01A) team .set).isSome = true ∧ (withS ctx2 0x01A).land.csrBehind 0x01A = false ∧
    (behind 0x01A).land.csrBehind 0x01A = true ∧ firesB (one (behind 0x01A)) (behind 0x01A) (wS 0) = true ∧
    (regOf (withS shadowCtx 0x3000160) shep .read).map (fun r => r.slow 0 .read) = some true ∧
    (regOf (withS ctx2 0xFFF) team .read).isNone = true ∧ (regOf (withS ctx2 0x041) team .write).isNone = true := by decide +kernel
theorem wit_register_completion :
    ((one (waits ctx2 U.sv [opOf U.sv 1 none [0x01A]])).csrReg (Who.of team ctx2) ((opOf U.sv 1 none [0x01A]).tv 2)
      (CsrOp.ofOpcode (opOf U.sv 1 none [0x01A]).opcode)).map (fun r => decide (r.num ∈ plainRegs)) = some true ∧
    ((waits ctx2 U.sv []).us.unit U.sv).last = 8 ∧ ((waits ctx2 U.sv []).us.unit U.sv).full = false := by decide +kernel

/-- RegisterWritesFromOutside: registers that the control node and a shadow context may write, and may not. -/
def upState : State := { one ctx2 with gangs := [(7, gang1)] }
theorem wit_outside : upState.running = true ∧ upState.pkg.lumenUp = true ∧
    (upState.csrReg (Who.node 383) 0x050 .write).map (fun r => decide (r.num ∈ plainRegs)) = some true ∧
    (upState.csrReg (Who.shadowOf 0) 0x121 .write).map (fun r => (decide (r.num ∈ plainRegs), r.team)) = some (true, none) ∧
    upState.csrReg (Who.node 0) 0xFFF .write = none ∧ upState.csrReg (Who.node 0) 0xFFF .read = none ∧
    (upState.csrReg (Who.node 0) 0x050 .read).isSome = true ∧ upState.ctx team = some ctx2 ∧ upState.gang ctx2.gang = some gang1 ∧
    upState.pkg.devIdSet = false ∧ ({ upState with pkg := { pkgUp with devIdSet := true } } : State).running = true ∧
    ringSize 4 8 20 = none ∧ ringSize 8 8 20 = some 256 := by decide +kernel

/-- A fold number past the last; a write of SMAP_S that waits for an operation whose block is unread; a floor of Off that is not yet
in force. -/
def unreadFold : Fold := { Fold.fresh with locks := [{ otherLock with space := Lock.unreadSpace }], lockSeq := 1 }
def waitState : State := { upState with folds := [(0, unreadFold)] }
theorem wit_requests_wait : waitState.accessWaits (Who.node 0) 0x80000031 .write 0 = true ∧ waitState.accessWaits (Who.shadowOf 0) 0x80000031 .write 0 = true ∧
    waitState.running = true ∧ waitState.pkg.lumenUp = true ∧ waitState.pkg.reqs = [] ∧ upState.pkg.reqs = [] ∧
    (match upState.access (Who.node 0) 0xF00220 .write 7 with
      | .done t _ => t.floorWaits (Who.node 0) 0xF00220
      | _ => false) = true ∧
    (upState.csrReg (Who.node 384) 0x121 .write).map (fun r => decide (r.desc.holder = .die ∨ r.desc.holder = .pkg)) = some false ∧
    (upState.csrReg (Who.node 384) 0x121 .read).map (fun r => decide (r.desc.holder = .die ∨ r.desc.holder = .pkg)) = some false := by decide +kernel

/-- TrapsTaken: one due cause of each route; C_PREEMPT; the same in a handler and without a handler. -/
def dueCtx (c : Ctx) (d : DueTrap) : Ctx := { c with due := [d] }
def trapNowB (id : CtxId) (x : Ctx) (d : DueTrap) : Bool :=
  let s := only id x
  !x.frozen && !x.stopped && !s.inPasses id x && decide ((s.atBoundary id (s.withBreak id x)).nextDue = some d) && decide (d.code ≠ 0x18) &&
    decide ((s.atBoundary id x).nextDue = some d) && !x.forBundle d && !d.deferred
theorem trap_now {id : CtxId} {c : Ctx} {d : DueTrap} (h : trapNowB id (dueCtx c d) d = true) :
    (only id (dueCtx c d)).TrapNow id (dueCtx c d) d := by
  simp only [trapNowB, Bool.and_eq_true, Bool.not_eq_true', decide_eq_true_eq] at h
  obtain ⟨⟨⟨⟨⟨⟨⟨h1, h2⟩, h3⟩, h4⟩, h5⟩, h6⟩, h7⟩, h8⟩ := h
  exact ⟨by simp [State.ctx, only, Tbl.find], h1, h2, h3, h4, h5, d, h6, h7, h8⟩
theorem wit_traps : (one (dueCtx ctx2 (DueTrap.of 0x26 0x1000 0))).TrapNow team (dueCtx ctx2 (DueTrap.of 0x26 0x1000 0)) (DueTrap.of 0x26 0x1000 0) ∧
    ((dueCtx ctx2 (DueTrap.of 0x26 0x1000 0)).redirect (DueTrap.of 0x26 0x1000 0)).1 = .user ∧
    (one (dueCtx ctx2 (DueTrap.async 0x3B))).TrapNow team (dueCtx ctx2 (DueTrap.async 0x3B)) (DueTrap.async 0x3B) ∧
    ((dueCtx ctx2 (DueTrap.async 0x3B)).redirect (DueTrap.async 0x3B)).1 = .shadow ∧
    (one (dueCtx { ctx2 with tvec := 0 } (DueTrap.of 0x26 0x1000 0))).TrapNow team
      (dueCtx { ctx2 with tvec := 0 } (DueTrap.of 0x26 0x1000 0)) (DueTrap.of 0x26 0x1000 0) ∧
    (({ ctx2 with tvec := 0 } : Ctx).redirect (DueTrap.of 0x26 0x1000 0)).1 = .shadow ∧
    (one (dueCtx ctx2 (DueTrap.of 0x58 0x1000 0))).TrapNow team (dueCtx ctx2 (DueTrap.of 0x58 0x1000 0)) (DueTrap.of 0x58 0x1000 0) ∧
    (ctx2.redirect (DueTrap.of 0x58 0x1000 0)).1 = .host ∧
    (only shep (dueCtx shadowCtx (DueTrap.of 0x26 0x1000 0))).TrapNow shep (dueCtx shadowCtx (DueTrap.of 0x26 0x1000 0)) (DueTrap.of 0x26 0x1000 0) ∧
    (shadowCtx.redirect (DueTrap.of 0x26 0x1000 0)).1 = .host :=
  ⟨trap_now (by decide +kernel), by decide +kernel, trap_now (by decide +kernel), by decide +kernel, trap_now (by decide +kernel),
    by decide +kernel, trap_now (by decide +kernel), by decide +kernel, trap_now (by decide +kernel), by decide +kernel⟩

/-- TrapsAsked: a T of 0x1B, 0x1C, 0x1F and 0x20; brk; a team and the shadow context for requests. -/
theorem wit_traps_asked : ([0x1B, 0x1C, 0x1F, 0x20].all (fun v => svFires (one ctx2) (withS ctx2 v) 0x10)) = true ∧ svFires (one ctx2) ctx2 0x13 = true ∧
    (((withS ctx2 0x1C).rowT (one (withS ctx2 0x1C)) (wS 0x10)).truncate 7 : BitVec 7) = 0x1C ∧
    (((withS ctx2 0x20).rowT (one (withS ctx2 0x20)) (wS 0x10)).truncate 7 : BitVec 7) = 0x20 ∧
    ctx2.shadow = false ∧ ctx2.frozen = false ∧ ctx2.stopped = false ∧ ctx2.due = [] ∧ shadowCtx.shadow = true := by decide +kernel

/-- Bundles that fail R26's checks: a header's low bits; a reserved opcode; two g registers at one read port; four moves into g; a
register past the budget; MX in a team of kind 2; XL busy, and with a dead flag besides; eret in a team; a dead flag alone. -/
def rawOf (h : BitVec 16) (l : List W32) : RawBundle := { header := h, ext := 0, sylls := l, limm := 0 }
def ctxBusy : Ctx := { ctx2 with us := { UnitState.fresh with xlBusy := 5, flags := 0x7FF } }
def failCases : List (Nat × Ctx × RawBundle) :=
  [(0x01, ctx2, rawOf 0x0101 [syllable true 0 0 3 mv]), (0x02, ctx2, rawOf 0x0100 [0x8071A005]),
    (0x03, ctx2, rawOf 0x0300 [syllable false 0 0 3 ⟨false, 0, 0, 1⟩, syllable true 0 0 4 ⟨false, 0, 0, 2⟩]),
    (0x04, ctx2, rawOf 0x0F00 [syllable false 0 0 3 mv, syllable false 0 0 4 mv, syllable false 0 0 5 mv, syllable true 0 0 6 mv]),
    (0x05, ctx2, rawOf 0x0100 [syllable true 0 0 40 mv]), (0x06, { ctx2 with kind := 2 }, rawOf 0x0100 [w0 U.mx 0x10]),
    (0x07, ctxBusy, rawOf 0x0100 [w0 10 0x40]), (0x07, ctxBusy, { rawOf 0x8100 [w0 10 0x40] with ext := 0x10000000 }),
    (0x09, ctx2, rawOf 0x0100 [wS 0x11]), (0x19, ctxBusy, rawWait)]
noncomputable def failB (x : Nat × Ctx × RawBundle) : Bool :=
  let c := x.2.1
  let s := one c
  let b := bundleAt s x.2.2
  (decide (s.cur.slot ≤ CtxId.shadowSlot) && c.ready && (s.acqOut s.cur c.land).isNone && c.land.nextDue.isNone &&
      c.land.us.sfTrap.isNone && !s.breaks s.cur c.land && c.land.us.fence.isNone) &&
    (failsB s c.land b x.1 && (List.range x.1).all (fun n => !failsB s c.land b n) && decide (x.1 < 128)) &&
    decide (x.1 = 0x07 → ∀ m ∈ b.moves, m.isTrig = true → ¬(17 ≤ m.dunit ∧ m.dunit ≤ 19)) &&
    decide (c.shadow = false ∧ c.inh = false ∧ c.tvec &&& ~~~1 ≠ 0)
theorem fail_cases : failCases.all failB = true := by decide +kernel
theorem wit_fails : ∀ x ∈ failCases, (one x.2.1).Issues x.2.1 (.bundleIssue x.2.2) (bundleAt (one x.2.1) x.2.2) ∧
    (one x.2.1).Reaches x.2.1 (bundleAt (one x.2.1) x.2.2) ∧
    (one x.2.1).Fails x.2.1.land (bundleAt (one x.2.1) x.2.2) (BitVec.ofNat 7 x.1) ∧
    (∀ k < BitVec.ofNat 7 x.1, ¬(one x.2.1).Fails x.2.1.land (bundleAt (one x.2.1) x.2.2) k) ∧
    (x.1 = 0x07 → ∀ m ∈ (bundleAt (one x.2.1) x.2.2).moves, m.isTrig = true → ¬(17 ≤ m.dunit ∧ m.dunit ≤ 19)) ∧
    x.2.1.shadow = false ∧ x.2.1.inh = false ∧ x.2.1.tvec &&& ~~~1 ≠ 0 := fun x hx => by
  have h := List.all_eq_true.mp fail_cases x hx
  simp only [failB, Bool.and_eq_true _ (decide _), Bool.and_eq_true (failsB ..), Bool.and_eq_true (_ && _) (_ && _), decide_eq_true_eq] at h
  obtain ⟨⟨⟨h1, ⟨h2, h3⟩, -⟩, h4⟩, h5⟩ := h
  exact ⟨issues_raw .., reaches_of (by simp [State.ctx, one, only, Tbl.find]) h1, by simpa [failsB] using h2,
    fun k hk => none_fails (m := x.1) h3 k (.inl hk), h4, h5⟩
/-- Bundles that cannot be fetched: no page; a page whose leaf lets no one execute. -/
def noExec : State := { one ctx2 with dies := [(0, { mappedDie 0 with tlb := [{ leafTlb 0 with pte := 0x1ED }] })] }
def fetchS (s : State) (code : BitVec 7) : Bool :=
  let d := s.dropConns
  let u : State := { d with bgTurn := true }
  let x := u.approach
  let y := x.1.fetched x.1.cur ctx2
  s.agenda.isEmpty && d.dueEvent.isNone && !s.bgTurn && u.mayIssue && !x.2 && decide (x.1.ctx x.1.cur = some ctx2) &&
    (match x.1.fetch x.1.cur ctx2 with | .error e => decide (e = (code, 0x1000)) | .ok _ => false) &&
    ctx2.nextDue.isNone && !y.breaks y.cur ctx2 && decide (y.cur.slot < 64)
theorem wit_unfetched : fetchS (one ctx2) 0x20 = true ∧ fetchS noExec 0x21 = true ∧
    (match (one ctx2).translate 0 0 0x1000 .fetch true with | .error e => decide (e = 0x20) | .ok _ => false) = true ∧
    (match noExec.translate 0 0 0x1000 .fetch true with | .error e => decide (e = 0x21) | .ok _ => false) = true ∧
    (match noExec.translate 0 0 (0x1000 + 1) .fetch true with | .error e => decide (e = 0x21) | .ok _ => false) = true := by decide +kernel

/-- ReturnsAndResumption: a pending write that clears INH of a handler; eret's T with a reserved bit, of an empty slot, of a
Frozen team plain, with REFLECT and with REPLAY; an image that does not fit. -/
def handlerCtx : Ctx :=
  { waits ctx2 U.sv [{ opOf U.sv 1 none [0x01B] with a := [0] }] with tstatus := 0x100, frame := some UnitState.fresh, trapPc := 0x3000 }
def frozenTeam : Ctx := { ctx2 with frozen := true, trapPc := 0x3000 }
def withShep (v : W64) (x : Ctx) : State :=
  { State.reset with ctxs := [(0, x), (32, withS shadowCtx v)], gangs := [(7, gang1)], pkg := pkgUp, cur := shep, folds := [(0, Fold.fresh)] }
def eretT (v : W64) : W64 := (withS shadowCtx v).rowT (withShep v frozenTeam) (wS 0x11)
theorem wit_handler_return : handlerCtx.csrOps.find? (fun o => bits (o.tv handlerCtx.nlanes).toNat 11 0 == 0x01B && o.opcode != 0) =
      some { opOf U.sv 1 none [0x01B] with a := [0] } ∧ handlerCtx.inh = true ∧ handlerCtx.frame = some UnitState.fresh ∧
    ((CsrOp.ofOpcode 1).apply handlerCtx.tstatus 0 (rwMask 0x01B 0) 0).getLsbD 8 = false ∧
    (∀ kv ∈ UnitState.fresh.owners, kv.2 ≠ 8) := by decide +kernel
theorem wit_eret : ([0x20, 1, 0, 0x100, 0x200].all (fun v => firesB (withShep v frozenTeam) (withS shadowCtx v) (wS 0x11))) = true ∧ shep.slot = CtxId.shadowSlot ∧
    bits (eretT 0x20).toNat 7 5 ≠ 0 ∧ bits (eretT 0).toNat 63 10 = 0 ∧ bits (eretT 0).toNat 7 5 = 0 ∧ (eretT 0x100).getLsbD 8 = true ∧
    (eretT 0x200).getLsbD 9 = true ∧ (withShep 0 frozenTeam).ctx { fold := 0, slot := bits (eretT 0).toNat 4 0 } = some frozenTeam ∧
    (withShep 1 frozenTeam).ctx { fold := 0, slot := bits (eretT 1).toNat 4 0 } = none ∧ frozenTeam.frozen = true ∧ frozenTeam.inh = false ∧
    frozenTeam.tvec &&& ~~~1 ≠ 0 ∧ ({ frozenTeam with fmtBad := true } : Ctx).misfit gang1 = true := by decide +kernel
theorem wit_fit (v : W64) : (withShep v frozenTeam).Fit frozenTeam := by
  refine ⟨rfl, rfl, fun g hg => ?_⟩
  have : g = gang1 := by
    have h : (withShep v frozenTeam).gang frozenTeam.gang = some gang1 := rfl
    rw [h] at hg
    exact (Option.some.inj hg).symm
  subst this
  decide +kernel

/-- ReplaysSnapshotsAndStops: replay and snap triggers; a record that is not there; scopes 3 and 4; a request before and
at its sixteenth tick; a sample that is due with the trace on; stop requests of each scope. -/
def svWait (o : Nat) (t : W64) : Ctx := waits shadowCtx U.sv [opOf U.sv o none [t]]
def snapState (clk : Nat) : State :=
  { only shep (svWait 0x20 0) with folds := [(0, { Fold.fresh with snapReq := [(7, 0, 0, 32)] })], pkg := { pkgUp with clk := clk } }
def samp : Fold := { Fold.fresh with samples :=
  [{ slot := 0, idx := 0, pc := 0x1000, sched := 3, flock := 0, conf := false, queue := 0, tb := 7 }] }
def sampState : State := { one ctx2 with folds := [(0, samp)], dies := [(0, { Die.fresh with traceCtl := 5 })] }
theorem wit_replay_snap : svFires (one ctx2) (withS ctx2 0) 0x12 = true ∧
    ([3, 4].all (fun v => firesB (withShep v frozenTeam) (withS shadowCtx v) (wS 0x20))) = true ∧
    ((withS shadowCtx 4).rowT (withShep 4 frozenTeam) (wS 0x20)).toNat = 4 ∧ (withShep 3 frozenTeam).foldList.Pairwise (· < ·) ∧
    (withShep 3 frozenTeam).cur.fold ∈ (withShep 3 frozenTeam).foldList ∧
    bits ((opOf U.sv 0x12 none [0x1F]).tv 32).toNat 4 0 = 0x1F ∧ (svWait 0x12 0x1F).sfb = [] ∧
    bits ((opOf U.sv 0x12 none [11]).tv 32).toNat 4 0 = 11 ∧ ((svWait 0x12 11).us.unit 11).frec = none ∧ (svWait 0x12 11).inh = false ∧
    (∀ kv ∈ (only shep (svWait 0x20 0)).folds, ∀ r ∈ kv.2.snapReq, r.2 ≠ (0, 0, 32)) := by decide +kernel
theorem wit_snapshot_sample : ((7, 0, 0, 32) : W64 × Nat × Nat × Nat) ∈ ((snapState 0).fold 0).snapReq ∧ (snapState 575).ticks < 16 ∧ 16 ≤ (snapState 576).ticks ∧
    (sampState.fold 0).samples.map Sample.slot = [0] ∧ (sampState.fold 0).samples.map Sample.conf = [false] ∧ (sampState.fold 0).sampCtl.getLsbD 1 = false ∧
    (sampState.die 0).traceCtl.getLsbD 0 = true ∧ (sampState.die 0).traceCtl.getLsbD 2 = true ∧ sampState.pkg.lumenUp = true ∧
    sampState.pkg.traceBusy = false ∧ ((one ctx2).fold 0).samples = [] ∧
    ((one ctx2).ctxs.map Prod.fst).Pairwise (· < ·) ∧ (0x0001 : W64).getLsbD 0 = true ∧ bits (0x1F01 : W64).toNat 12 8 = 31 ∧
    bits (0x0021 : W64).toNat 5 4 = 2 ∧ bits (0x0031 : W64).toNat 5 4 = 3 := by decide +kernel

/-- ContextOperations: every OP with the slot of a team, Frozen or not, confidential or not, and of an empty slot; the
first and last word of an image. -/
def ctxT (op slot item : Nat) : W64 := BitVec.ofNat 64 (op * 2 ^ 28 + slot * 2 ^ 23 + item)
theorem wit_ctx_rows : Instr.svCtxNextev ∈ ctxRows ∧ Instr.svCtxKill ∈ ctxRows := by simp [ctxRows]
theorem wit_ctx_fires : ∀ op, op < 16 → ∀ slot ∈ [0, 31],
    firesB (withShep (ctxT op slot 0) frozenTeam) (withS shadowCtx (ctxT op slot 0)) (wS 0x30) = true ∧
    bits ((withS shadowCtx (ctxT op slot 0)).rowT (withShep (ctxT op slot 0) frozenTeam) (wS 0x30)).toNat 31 28 = op ∧
    bits ((withS shadowCtx (ctxT op slot 0)).rowT (withShep (ctxT op slot 0) frozenTeam) (wS 0x30)).toNat 27 23 = slot := by decide +kernel
theorem wit_ctx_operations : (withShep 0 frozenTeam).ctx { fold := 0, slot := 0 } = some frozenTeam ∧
    (withShep 0 frozenTeam).ctx { fold := 0, slot := 31 } = none ∧ frozenTeam.conf = false ∧ ctx2.frozen = false ∧ frozenTeam.shadow = false ∧
    8 ≤ (imageBytes ((withShep 0 frozenTeam).imageNow frozenTeam).1).length ∧ ((withShep 0 frozenTeam).ctxs.map Prod.fst).Pairwise (· < ·) ∧
    (withShep 0 frozenTeam).gang frozenTeam.gang = some gang1 ∧
    ({ Fold.fresh with events := [5] } : Fold).events = [5] ∧ bits ((opOf U.sv 0x30 none [ctxT 3 0 0]).tv 32).toNat 31 28 = 3 ∧
    ({ opOf U.sv 0x30 none [ctxT 3 0 0] with addr := 1 } : VarOp).addr.toNat = frozenTeam.tid := by decide +kernel

/-- Sampling off, on, and on for one flock; two samples; two snapshots of one tick; an image that walks nothing; a team that
C_CONFIDENTIAL froze. -/
def sampF (ctl : W64) (cycle : Nat) : Fold := { Fold.fresh with sampCtl := ctl, cycle := cycle }
def sampTwo : Fold := { samp with samples := samp.samples ++ samp.samples }
def snapTwo : State := { only shep (svWait 0x20 0) with folds := [(0, { Fold.fresh with snapReq := [(7, 0, 0, 32), (8, 0, 1, 32)] })] }
def sealedTeam : Ctx := { frozenTeam with conf := true, sealed := true }
theorem wit_samples : sampPeriod (sampF 0 0).sampCtl = none ∧ sampPeriod (sampF 0x801 255).sampCtl = some 256 ∧ (255 + 1) % 256 = 0 ∧
    (sampF 0x801 255).sampCtl.getLsbD 1 = false ∧ (sampF 0x900000803 511).sampCtl.getLsbD 1 = true ∧
    (sampF 0x900000803 511).sampCtl.extractLsb' 32 32 = 9 ∧ (∀ y ∈ sampTwo.samples, y.slot ≠ 33 ∧ y.conf = false) ∧ sampTwo.samples.length = 2 ∧
    (∀ x ∈ (snapTwo.fold 0).snapReq, (0 : Nat) ≤ x.2.1) ∧
    (∀ x ∈ (snapTwo.fold 0).snapReq, x.2.1 = 0 → x = (7, 0, 0, 32) ∨ 64 * 0 + 32 < 64 * x.2.2.1 + x.2.2.2) := by decide +kernel
theorem wit_image_now : ((withShep (ctxT 1 0 0) frozenTeam).imageNow frozenTeam).2 = withShep (ctxT 1 0 0) frozenTeam ∧ sealedTeam.shielded = true ∧
    frozenTeam.shielded = false := by decide +kernel

/-- QueuesAndPackets: a queue with its packets at 0x8000 and its indices at 0x9000; entries at the edges of the checks. -/
def okB {ε α : Type} (x : Except ε α) (p : α → Bool) : Bool := match x with | .ok a => p a | .error _ => false
def errB {ε α : Type} (x : Except ε α) : Bool := match x with | .ok _ => false | .error _ => true
def queueQ : Queue :=
  { Queue.fresh with ent0 := 0x8000, ent1 := 0x10004, ent2 := 0x9000, ent3 := 0x9008, widx := 1 }
def queueDie (x : Queue) (ps : List Packet) : Die := { mappedDie 0 with queues := [(0, x)], packets := ps }
def queueS (x : Queue) (ps : List Packet) : State := { one ctx2 with dies := [(0, queueDie x ps)] }
/-- A packet of a type: its fields at bytes 8, 16, 24, 32, 40, 48 and 56. -/
def pkt (ty a b c d e sig : Nat) : List Byte :=
  bytesOf 8 (4096 * ty) ++ bytesOf 8 a ++ bytesOf 8 b ++ bytesOf 8 c ++ bytesOf 8 d ++ bytesOf 8 e ++ bytesOf 8 sig ++ bytesOf 8 77
/-- A launch block: one role of a team of 32 lanes, and a loop record of one stage. -/
def launchBytes : List Byte :=
  List.replicate 41 0 ++ [16, 0, 1] ++ List.replicate 20 0 ++ bytesOf 8 0x1000 ++ [3, 3, 16, 0, 32, 0, 1, 0] ++ List.replicate 176 0
def loopBytes : List Byte := List.replicate 44 0 ++ [2, 0, 1] ++ List.replicate 17 0
def launchS (b : List Byte) : State :=
  State.withBytes (State.withBytes (State.withBytes (queueS queueQ []) 0x8000 b) 0xA000 launchBytes) 0xB000 loopBytes
theorem wit_qnotify : queueQ.enabled = true ∧ queueQ.needRidx = false ∧ Queue.fresh.enabled = false ∧
    okB ((queueS queueQ []).readVirt 0 0 true 0x9000 8) (fun _ => true) = true ∧
    errB (((one ctx2).setQueue 0 0 { queueQ with stuck := false }).readVirt 0 0 true 0x9000 8) = true := by decide +kernel
theorem wit_queue_checks : (0x10001 : W64).getLsbD 16 = true ∧ bits (0x10001 : W64).toNat 7 0 = 1 ∧ bits (0x10010 : W64).toNat 7 0 = 16 ∧
    bits (0x10011 : W64).toNat 7 0 = 17 ∧ bits (0x10000 : W64).toNat 7 0 = 0 ∧ queueQ.ent0.toNat % 64 = 0 ∧ queueQ.ent2.toNat % 8 = 0 ∧
    queueQ.ent3.toNat % 8 = 0 := by decide +kernel
def packetOk (ty a b e : Nat) : Bool :=
  decide ((launchS (pkt ty a b 0 0 e 0)).chosen 0 = some 0) &&
    okB ((launchS (pkt ty a b 0 0 e 0)).headPacket 0 0) (fun x => decide (pktType x.1 = ty)) && pktOk (pkt ty a b 0 0 e 0)
theorem wit_packets : (Instr.pktNop, 0) ∈ pktRows ∧ (Instr.pktWaitval, 4) ∈ pktRows := by simp [pktRows]
theorem wit_packet_types : packetOk 0 0 0 0 = true ∧ packetOk 1 0xA000 1 0 = true ∧ packetOk 2 0xA000 1 0xB000 = true ∧ packetOk 3 0 0 0 = true ∧
    packetOk 4 0x9000 0 0 = true ∧ pktOk (pkt 3 8 0 0 0 0 0) = false ∧ pktOk (pkt 1 0xA000 (2 ^ 24) 0 0 0 0) = true ∧
    pktOk (pkt 1 0xA000 (2 ^ 24 + 1) 0 0 0 0) = false := by decide +kernel
def beginB (s : State) (ty : Nat) (q : State → Packet → Bool) : Bool :=
  match s.beginPacket 0 0 (· == ty) with
  | some (s1, some p) => pktOk p.bytes && q s1 p
  | _ => false
theorem wit_launch : beginB (launchS (pkt 1 0xA000 1 0 0 0 0)) 1 (fun s1 p => p.gangs != 0 && okB (s1.readLaunch 0 0 (field p.bytes 8 8)) (fun x =>
      x.2.couldFit 0 x.1 0)) = true ∧
    beginB (launchS (pkt 1 0xC000 1 0 0 0 0)) 1 (fun s1 p => errB (s1.readLaunch 0 0 (field p.bytes 8 8))) = true ∧
    beginB (launchS (pkt 2 0xA000 1 0 0 0xB000 0)) 2 (fun s1 p => okB (s1.readLaunch 0 0 (field p.bytes 8 8)) (fun x =>
      okB (x.2.readVirt 0 0 true (field p.bytes 40 8) 64) (fun r => (parseLoop x.1 r.1).isSome))) = true ∧
    beginB (launchS (pkt 2 0xA000 1 0 0 0xC000 0)) 2 (fun s1 p => okB (s1.readLaunch 0 0 (field p.bytes 8 8)) (fun x =>
      okB (x.2.readVirt 0 0 true (field p.bytes 40 8) 64) (fun r => (parseLoop x.1 r.1).isNone))) = true ∧
    beginB (launchS (pkt 2 0xA000 1 0 0 0x40000000 0)) 2 (fun s1 p => okB (s1.readLaunch 0 0 (field p.bytes 8 8)) (fun x =>
      errB (x.2.readVirt 0 0 true (field p.bytes 40 8) 64))) = true := by decide +kernel
def packetP (b : List Byte) (st : PktState) : Packet :=
  { num := 0, q := 0, idx := 0, bytes := b, st := st, status := 0, block := none, loop := none, gangs := 0, placed := 0, flock := 0, conf := false, froze := [] }
theorem wit_waitval : okB ((queueS queueQ [packetP (pkt 4 0x9000 0 0 0 0 0) .watching]).readVirt 0 0 true 0x9000 8) (fun x => natOf x.1 == 0) = true ∧
    (packetP (pkt 4 0x9000 0 0 0 0 0) .watching).waitHolds 0 = true ∧ (packetP (pkt 4 0x9000 1 0xFF 0 0 0) .watching).waitHolds 0 = false ∧
    errB ((queueS queueQ [packetP (pkt 4 0x40000000 0 0 0 0 0) .watching]).readVirt 0 0 true 0x40000000 8) = true := by decide +kernel
def doneS (sig : Nat) (st : PktState) : State := queueS queueQ [packetP (pkt 3 0 0 0 0 0 sig) st]
theorem wit_packet_done : ((doneS 0 .completing).die 0).packets.find? (fun p => p.q == 0 && p.idx == 0) = some (packetP (pkt 3 0 0 0 0 0 0) .completing) ∧
    (doneS 0 .completing).packetDone (packetP (pkt 3 0 0 0 0 0 0) .completing) = true ∧
    (doneS 0 .placing).packetDone (packetP (pkt 3 0 0 0 0 0 0) .placing) = false ∧ (packetP (pkt 3 0 0 0 0 0 8) .completing).sigAddr % 16 ≠ 0 ∧
    okB ((doneS 0x7000 .completing).writeVirt 0 0 true 0x7000 (bytesOf 8 77 ++ bytesOf 4 0 ++ bytesOf 4 0)) (fun _ => true) = true ∧
    errB ((doneS 0x7000 .completing).writeVirt 0 0 true 0x40000000 (bytesOf 8 77 ++ bytesOf 4 0 ++ bytesOf 4 0)) = true := by decide +kernel

/-- A disabled queue whose indices can be read, and one whose read index cannot; a Shepherd that acts, and one that is Off. -/
def queueOff (rptr : W64) : Queue := { queueQ with ent1 := 4, ent3 := rptr }
def queueOn (rptr : W64) : Queue := { queueOff rptr with ent1 := 0x10004, needRidx := true, effPrio := 0, passOver := 0, stuck := false }
def shepOff : State := { queueS queueQ [] with dies := [(0, { queueDie queueQ [] with islands := [(252, 7)] })] }
theorem wit_queue_enable : (queueS queueQ []).shepherdOn 0 = true ∧ shepOff.shepherdOn 0 = false ∧ (queueOff 0x9008).enabled = false ∧
    (queueS (queueOff 0x9008) []).shepherdOn 0 = true ∧
    okB (((queueS (queueOff 0x9008) []).setQueue 0 0 (queueOn 0x9008)).readVirt 0 0 true 0x9008 8) (fun x =>
      okB ((x.2.setQueue 0 0 { queueOn 0x9008 with needRidx := false, ridx := natOf x.1 }).readVirt 0 0 true 0x9000 8) (fun _ => true)) = true ∧
    errB (((queueS (queueOff 0x40000000) []).setQueue 0 0 (queueOn 0x40000000)).readVirt 0 0 true 0x40000000 8) = true ∧
    (0x40000000 : W64).toNat % 8 = 0 := by decide +kernel

/-- GangsPlacedAndEnded: a placing packet whose block fits; a gang with no team left, and one with a team; a flock with a
packet. -/
def block32 : Block := { block1 with wide := 16 }
def placingP : Packet := { packetP (pkt 1 0xA000 1 0 0 0 0) .placing with block := some block32, gangs := 1, flock := 9 }
def placeS : State := { State.reset with pkg := pkgUp, dies := [(0, queueDie queueQ [placingP])] }
theorem wit_place : placeS.placingOf 0 0 = some placingP ∧ placingP.block = some block32 ∧
    placeS.placeFor 0 block32 (queueAsid 0 0) placingP.flock = some 0 ∧ block32.teamList[0]? = some (0, 0) := by decide +kernel
def emptyGang : Gang := { gang1 with teams := [] }
def landDie : Die := { Die.fresh with landing := [(5, landingL)], packets := [{ placingP with flock := 0 }] }
def landBound (g : Gang) : State := { inGang g ctx2 with dies := [(0, landDie)] }
theorem wit_gang_end : (landBound emptyGang).gang 7 = some emptyGang ∧ (landBound emptyGang).tablesOk ∧
    (landBound emptyGang).gangDone 7 emptyGang = true ∧ (landBound gang1).gangDone 7 gang1 = false ∧ (landBound gang1).tablesOk ∧
    gang1.flock = 0 ∧ gang1.flock ≠ 1 ∧ (landBound gang1).ctx team = some ctx2 ∧ ctx2.flock = 0 ∧ ctx2.flock ≠ 1 ∧ ctx2.shadow = false ∧
    ({ placingP with flock := 0 } : Packet) ∈ ((landBound gang1).die 0).packets := by
  refine ⟨rfl, by unfold State.tablesOk; decide +kernel, ?_, ?_, by unfold State.tablesOk; decide +kernel, ?_, ?_, ?_, ?_, ?_, ?_, ?_⟩ <;>
    decide +kernel

/-- TeamsAndGangsSaved: a fold whose one team waits for a grow, with and without a SAVE area at 0x10000 of the
control node's memory; a team listed for
restore; a gang that is saving; saved gangs. -/
def growCtx : Ctx := { Ctx.blank 2 8 with tid := 1, gang := 7, pc := 0x1000, tvec := 0x2000, wait := .grow 64 }
def saveG (a : W64) : Gang := { gang1 with save := a }
def saveS (limit : Nat) (g : Gang) (c : Ctx) : State :=
  State.withBytes (mapped 0x400 (inGang g c)) (Memory.hostKey 0x10000) (bytesOf 8 16 ++ bytesOf 8 limit)
theorem wit_evict : (saveS 0x100000 (saveG 0x10000) growCtx).tablesOk ∧ (saveS 0x100000 (saveG 0x10000) growCtx).starved 0 = true ∧
    (saveS 0x100000 (saveG 0x10000) ctx2).starved 0 = false ∧
    youngest ((saveS 0x100000 (saveG 0x10000) growCtx).awake 0) = some (0, growCtx) ∧
    (saveS 0x100000 (saveG 0x10000) growCtx).gang growCtx.gang = some (saveG 0x10000) ∧ (saveG 0).save = 0 ∧
    (saveS 0x100000 (saveG 0x10000) growCtx).quiet team growCtx = true := by
  refine ⟨by unfold State.tablesOk; decide +kernel, ?_, ?_, ?_, ?_, ?_, ?_⟩ <;> decide +kernel
theorem wit_evict_stored : okB ((saveS 0x100000 (saveG 0x10000) growCtx).writeImages 0 0 0x10000
    [imageBytes ((saveS 0x100000 (saveG 0x10000) growCtx).teamImage (saveG 0x10000) growCtx).1]) (fun x => decide (x.1 = [0x11000])) = true := by
  decide +kernel
def away (addr : W64) : SavedTeam := { gang := 7, ctx := { growCtx with tid := 5 }, half := 0, addr := addr }
def awayS (addr : W64) : State :=
  let s := saveS 0x100000 (saveG 0x10000) ctx2
  { s with dies := [(0, { mappedDie 0 with evicted := [away addr] })] }
theorem wit_team_restore : ((awayS 0x40000000).die 0).evicted.find? (fun t => ((awayS 0x40000000).seatFor t).isSome) = some (away 0x40000000) ∧
    ((awayS 0x40000000).seatFor (away 0x40000000)).map Prod.snd = some { fold := 0, slot := 1 } ∧ (away 0x40000000).ctx.shadow = false ∧
    errB ((awayS 0x40000000).readVirt 0 0 true 0x40000000 (partsLength
      ((away 0x40000000).ctx.image ((awayS 0x40000000).liveAt 0 0 0 (away 0x40000000).ctx.resumePc).1))) = true ∧
    (∀ t ∈ ((saveS 0x100000 (saveG 0x10000) ctx2).die 0).evicted, (saveS 0x100000 (saveG 0x10000) ctx2).seatFor t = none) := by
  refine ⟨?_, ?_, ?_, ?_, fun t h => by cases h⟩ <;> decide +kernel
def savingG : Gang := { saveG 0x10000 with saving := true, hasEngine := false, block := { block1 with wide := 0 } }
def savingS (limit : Nat) : State := saveS limit savingG { growCtx with frozen := true }
theorem wit_save : (savingS 0x100000).saveReady 7 savingG = true ∧ (savingS 0x100000).saveReady 7 (saveG 0x10000) = false ∧
    (savingS 0x100000).teamsOf 7 = [(team, { growCtx with frozen := true })] ∧ (savingS 0x100000).gang 7 = some savingG := by decide +kernel
/-- A gang without a SAVE area: nothing fits, whatever is to be written. -/
theorem wit_save_full (images : List (List Byte)) : (savingS 0).writeImages 0 0 0 images = .error (.full, savingS 0) := rfl
theorem wit_save_tables (n : Nat) : (savingS n).tablesOk := by
  unfold State.tablesOk
  refine ⟨?_, ?_, ?_⟩ <;> simp [savingS, saveS, State.withBytes, mapped, inGang, one, only, CtxId.key, team]
/-- The gang whose last team has just left: its own image alone is written, behind the header of the area. -/
def savingEmpty : State := { savingS 0x100000 with ctxs := [] }
theorem half_image : savingEmpty.halfImage 7 savingG 0 0 = List.replicate 136 0 := by decide +kernel
theorem own_image : savingG.ownImage = List.replicate 328 0 := by decide +kernel
theorem gang_image : savingEmpty.gangImage 7 savingG = List.replicate 464 0 := by
  have h : savingG.halves = [(0, 0)] := by decide +kernel
  simp only [State.gangImage, h, List.flatMap_cons, List.flatMap_nil, half_image, own_image, List.append_nil, List.replicate_append_replicate]
theorem wit_save_fits : savingEmpty.saveReady 7 savingG = true ∧ savingEmpty.gang 7 = some savingG ∧
    savingEmpty.teamsOf 7 = [] ∧ okB (savingEmpty.writeImages 0 0 0x10000 [savingEmpty.gangImage 7 savingG]) (fun x => decide (x.1 = [0x11000])) = true := by
  rw [gang_image]
  decide +kernel
def savedG : SavedGang :=
  { addr := 0x12000, gang := saveG 0x10000, teams := [away 0x40000000] }
def restoreS (l : List SavedGang) : State := { State.reset with pkg := pkgUp, dies := [(0, { Die.fresh with restores := [0x12000], saved := l })] }
theorem wit_gang_restore : (0x12000 : W64) ∈ ((restoreS []).die 0).restores ∧ (restoreS []).savedAt 0 0x12000 = none ∧
    (restoreS []).restorable 0 0x13000 = none ∧ (0x13000 : W64) ∉ ((restoreS []).die 0).restores ∧
    (restoreS [savedG]).restorable 0 0x12000 = some (0, savedG, 0) := by decide +kernel

/-- A saved gang whose image can be read, and one whose image cannot. -/
def savedSmall : SavedGang := { addr := 0x12000, gang := savingG, teams := [] }
def restoreFrom (root : Tbl W64) : State :=
  { restoreS [] with dies := [(0, { mappedDie 0 with qroot := root, restores := [0x12000], saved := [savedSmall] })] }
theorem wit_gang_image : (restoreFrom [(0, 1)]).restorable 0 0x12000 = some (0, savedSmall, 0) ∧ savingG.imageSize = 464 ∧
    okB ((restoreFrom [(0, 1)]).readVirt 0 savingG.asid true 0x12000 464) (fun x => x.1.length == 464) = true ∧
    (restoreFrom []).restorable 0 0x12000 = some (0, savedSmall, 0) ∧
    errB ((restoreFrom []).readVirt 0 savingG.asid true 0x12000 464) = true := by decide +kernel

/-- HomesAndMaps: a write request for 8 bytes; a gang with map 0 of one sector at global address 0x5000, bound, filled and
dirty or not; binding values that pass and fail, and a locked range. -/
def block4k : Block := { block1 with scrLog2 := 12 }
def smapValue : W64 := 0xC000000100000000
def mapG (sec : Tbl Sector) (bound : Bool) : Gang :=
  { gang1 with block := block4k, smapV := [(0, 0x5000)], smapS := if bound then [(0, smapValue)] else [], sectors := sec }
def mapS (g : Gang) : State := mapped 0 (inGang g ctx2)
def mapT : Trans := { place := .pkg 0x5000, pte := 0x1FD, page := 0, size := 2 ^ 30, ent := 0, desc := [], setAD := none }
theorem wit_home : physOk 0x8000 8 = true ∧ ((((one ctx2).l2Touch 0x8000 true).takeBytes (some 0) 0x8000 0x8007 false).die (homeDie 0x8000)).rdir.length < 4096 := by
  decide +kernel
def lockedFold : Fold := { Fold.fresh with locks := [otherLock], lockSeq := 1 }
theorem wit_sector : (mapS (mapG [] true)).memOk ∧ (mapS (mapG [] true)).gang 7 = some (mapG [] true) ∧
    (mapG [] true).foldOf ((mapG [] true).half 0) = 0 ∧
    ((mapG [] true).mapAt 0 0).map (fun m => (m.global 0, m.len, m.n)) = some (0x5000, 256, 0) ∧ ((mapG [] true).mapAt 0 256).isNone = true ∧
    ((mapG [] true).sector 0 0).filled = false ∧ ((mapG [(0, { filled := true, dirty := 1 })] true).sector 0 0).filled = true ∧
    (mapS (mapG [] true)).PlainWindow (mapG [] true) 0 0x5000 .load mapT ∧
    (mapS (mapG [] true)).PlainWindow (mapG [] true) 0 0x5000 .store mapT := by
  refine ⟨by unfold State.memOk; decide +kernel, ?_, ?_, ?_, ?_, ?_, ?_, ?_, ?_⟩ <;> (try unfold State.PlainWindow) <;> decide +kernel
theorem wit_bind : (mapS (mapG [] false)).ctx team = some ctx2 ∧ ctx2.shadow = false ∧ smapValue.getLsbD 63 = true ∧
    (mapS (mapG [] false)).rangeLocked (mapG [] false) 0 1 (smapRange smapValue) = false ∧
    ({ mapS (mapG [] false) with folds := [(0, lockedFold)] } : State).rangeLocked (mapG [] false) 0 1 (smapRange smapValue) = true ∧
    (mapG [] false).bindOk 0 0 smapValue = true ∧ (mapG [] false).bindOk 0 7 (smapValue ||| 0xF00) = true ∧
    (mapG [] false).bindOk 0 0 (smapValue ||| 0x1000) = false ∧ (mapG [] true).bindOk 0 7 smapValue = false ∧
    (mapG [] false).bindOk 0 0 (smapValue ||| 1) = false := by decide +kernel
theorem wit_unbind : (0 : W64).getLsbD 63 = false ∧ (Tbl.get (mapG [] true).smapS 0 0).getLsbD 63 = true ∧
    (Tbl.get (mapG [] false).smapS 7 0).getLsbD 63 = false ∧
    (mapS (mapG [] true)).rangeLocked (mapG [] true) 0 1 (smapRange smapValue) = false ∧
    ({ mapS (mapG [] true) with folds := [(0, lockedFold)] } : State).rangeLocked (mapG [] true) 0 1 (smapRange smapValue) = true ∧
    ({ mapS (mapG [] true) with folds := [(0, lockedFold)] } : State).smapWaits 7 (mapG [] true) 0 0 1 0 = false ∧
    (((mapG [] true).maps 0).find? (fun m => m.n == 0)).map (fun m => (m.len, m.off)) = some (256, 0) ∧
    ((mapG [(0, { filled := true, dirty := 5 })] true).sector 0 0).dirty = 5 ∧
    (∀ c, ((mapG [] true).sector 0 c).dirty = 0) := by
  refine ⟨?_, ?_, ?_, ?_, ?_, ?_, ?_, ?_, fun c => rfl⟩ <;> decide +kernel

/-- A load, and wb, inv and flush, of the first byte of a mapped sector, filled and clean or unfilled (LoadsPerformed,
StoresAndAtomicsPerformed). -/
def sectorCtx (u o : Nat) : Ctx := { memCtx u o (spmLane 0 0) with shadow := false, asid := 0, gang := 7 }
def sectorS (filled : Bool) (u o : Nat) : State :=
  mapped 0 (inGang (mapG (if filled then [(0, { filled := true, dirty := 0 })] else []) true) (sectorCtx u o))
def sectorB (filled : Bool) (u o : Nat) : Bool :=
  let g := mapG (if filled then [(0, { filled := true, dirty := 0 })] else []) true
  windowB (sectorS filled u o) team (sectorCtx u o) (queued u o (spmLane 0 0)) (spmLane 0 0) 0 0 &&
    decide ((sectorS filled u o).blockAt 0 0 = some (7, g, 0, 0)) && decide ((sectorS filled u o).gang 7 = some g) &&
    (g.mapAt 0 0).isSome && (g.sector 0 0).filled == filled && decide ((g.sector 0 0).dirty = 0)
theorem wit_sector_moves : [true, false].all (fun f => sectorB f U.la 2 && sectorB f U.st 0x80 && sectorB f U.st 0x81 && sectorB f U.st 0x82) = true ∧
    LoadFacts (sectorCtx U.la 2) (queued U.la 2 (spmLane 0 0)) ∧ ((sectorS true U.la 2).fold 0).unread 0 = false ∧
    (sectorS true U.la 2).memOk ∧ (sectorS false U.la 2).memOk ∧ (sectorS false U.la 2).ctx team = some (sectorCtx U.la 2) ∧
    (sectorS false U.la 2).PlainWindow (mapG [] true) 0 0x5000 .load mapT ∧ (sectorS false U.la 2).eccHit mapT.place 256 = false ∧
    (∀ o ∈ [0x80, 0x81, 0x82], StoreFacts (sectorS true U.st o) team (sectorCtx U.st o) (queued U.st o (spmLane 0 0)) (spmLane 0 0)) := by
  unfold LoadFacts Ctx.LoadOpen Ctx.Serves StoreFacts State.memOk State.PlainWindow
  decide +kernel

/-- A line of another fold, whole in the directory; a write to SMAP_S that waits; a state in which the lock is a copy's. -/
def linesS : State :=
  { one ctx2 with folds := [(0, Fold.fresh), (1, { Fold.fresh with l1 := [{ base := 0x8000, valid := 1, owned := 1, dirty := 0, si := [] }] })],
                  dies := [(homeDie 0x8000, { Die.fresh with rdir := [RangeEnt.ofLine 1 0x8000] })] }
def unreadS : State :=
  { mapS (mapG [] false) with folds := [(0, { Fold.fresh with locks := [{ otherLock with space := Lock.unreadSpace }], lockSeq := 1 })] }
theorem wit_lines : (linesS.otherLines 0 0x8000 0x8007).map RangeEnt.base = [0x8000] ∧ (∀ l ∈ linesS.otherLines 0 0x8000 0x8007, homeDie l.base = homeDie 0x8000) ∧
    (((linesS.l2Touch 0x8000 true).takeBytes (some 0) 0x8000 0x8007 false).die (homeDie 0x8000)).rdir.length +
      (linesS.otherLines 0 0x8000 0x8007).length < 4096 ∧
    unreadS.smapWaits 7 (mapG [] false) 0 0 1 smapValue = true ∧ (unreadS.fold 0).lockSeq = 1 ∧
    (mapS (mapG [] false)).smapWaits 7 (mapG [] false) 0 0 0 smapValue = false ∧ ((mapS (mapG [] false)).fold 0).lockSeq = 0 ∧
    (mapS (mapG [] false)).rangeLocked (mapG [] false) 0 0 (smapRange smapValue) = false ∧ smapRange smapValue ∈ smapRanges 0 smapValue ∧
    (∀ r ∈ smapRanges 0 smapValue, (mapS (mapG [] false)).rangeLocked (mapG [] false) 0 0 r = false) := by decide +kernel

/-- TranslationAndCounts: a page that is cached, of a root; a page that is counted; one that is not mapped. -/
def countDie (bits : W64) (th : W64) (n : Nat) : Die :=
  { mappedDie bits with migThresh := th, counts := [{ asid := 0, page := 0, count := n }] }
def countS (bits : W64) : State := { one ctx2 with dies := [(0, countDie bits 4 2)] }
theorem wit_translation : okB ((countS 0).translate 0 0 0x5000 .store true) (fun t => decide (t.pte.getLsbD 62 = false)) = true ∧
    (countS 0).root 0 = some 0 ∧ errB ((countS 0).translate 0 0 0x40000000 .load true) = true ∧
    okB ((countS 0x4000000000000000).translate (dieOf 95) 0 0x5000 .load true) (fun t => decide (t.pte.getLsbD 62 = true ∧ t.ent = 0)) = true ∧
    (countDie 0 4 2).counts.find? (fun x => x.asid == 0 && x.page == 0) = some { asid := 0, page := 0, count := 2 } := by decide +kernel
def invDie : Die := { Die.fresh with invs := [(0x40, CtxId.key team, 3)] }
def invCtx : Ctx := waits ctx2 U.sv [opOf U.sv 0x40 none []]
def invS : State := { one invCtx with dies := [(0, { Die.fresh with invs := [(0, CtxId.key team, (opOf U.sv 0x40 none []).uid)] })] }
theorem wit_invalidation : Die.fresh.invs = [] ∧ bits (0x0 : W64).toNat 63 62 < 2 ∧ bits (0x7FFFFFFFFFFFFFFF : W64).toNat 63 62 < 2 ∧
    2 ≤ bits (0x8000000000000000 : W64).toNat 63 62 ∧ invS.ctx (ctxOfKey (CtxId.key team)) = some invCtx ∧
    invCtx.findOp (fun o => o.uid == (opOf U.sv 0x40 none []).uid && o.unit == U.sv) = some (opOf U.sv 0x40 none []) ∧
    (invCtx.us.unit U.sv).last = (opOf U.sv 0x40 none []).uid ∧ (invCtx.us.unit U.sv).full = false ∧ (invS.fold 0).held = [] ∧
    (0x100 : W64).getLsbD 8 = true ∧ (0x0 : W64).getLsbD 8 = false ∧ ctx2.asid = bits (0x0 : W64).toNat 7 0 := by decide +kernel
theorem wit_staging : (one ctx2).memOk ∧ min 8 (bits (0xF : W64).toNat 3 0) = 8 ∧ (Tbl.get [(31, (0x12 : W64))] 31 0).getLsbD 4 = true ∧
    (Tbl.get (Die.fresh.l2Stage) 31 0).getLsbD 4 = false := by unfold State.memOk; decide +kernel

/-- PowerBootAndAttestation: each boot state. -/
def atBoot (b : Boot) : State := { State.reset with pkg := { pkgUp with boot := b } }
theorem wit_power : (atBoot .off).pkg.boot = .off ∧ (atBoot .running).pkg.boot ≠ .off ∧ (atBoot .rom).pkg.boot = .rom ∧ State.reset.memOk ∧
    (atBoot .running).running = true ∧ (atBoot .rom).pkg.lumenUp = true ∧ (State.reset).pkg.lumenUp = false ∧
    ¬((atBoot .running).running = true ∧ 1 ≤ 8 ∧ 8 ≤ 7) ∧ (List.replicate 3309 (0 : Byte)).length = 3309 := by unfold State.memOk; decide +kernel
/-- Whatever the signature check answers, one of the two clauses of a boot ROM that waits is met. -/
theorem wit_boot (image : List Byte) : (Config.mldsaVerify (Config.shake256 image) (List.replicate 3309 0) = true ∨
    ¬((List.replicate 3309 (0 : Byte)).length = 3309 ∧ Config.mldsaVerify (Config.shake256 image) (List.replicate 3309 0) = true)) ∧
    ¬(([] : List Byte).length = 3309 ∧ Config.mldsaVerify (Config.shake256 image) [] = true) := by
  refine ⟨?_, fun h => by cases h.1⟩
  by_cases h : Config.mldsaVerify (Config.shake256 image) (List.replicate 3309 0) = true
  · exact .inl h
  · exact .inr (fun x => h x.2)

/-- A shadow-context object of a `.text` section and a symbol in it; a boot ROM whose Lumen port is down. -/
def sectBytes (kind align off size : Nat) : List Byte :=
  bytesOf 2 kind ++ bytesOf 2 0 ++ bytesOf 4 align ++ bytesOf 8 off ++ bytesOf 8 size ++ bytesOf 8 0
def shadowObject (entrySym : Nat) : List Byte :=
  [0x50, 0x56, 0x4F, 1] ++ bytesOf 2 1 ++ bytesOf 2 2 ++ bytesOf 8 64 ++ bytesOf 4 entrySym ++ bytesOf 4 1 ++ List.replicate 40 0 ++
    sectBytes 1 6 128 64 ++ sectBytes 9 3 192 16 ++ List.replicate 64 0 ++ bytesOf 4 0 ++ bytesOf 2 0 ++ bytesOf 2 1 ++ bytesOf 8 0
theorem wit_image : (imageEntry (shadowObject 0)).isSome = true ∧ (imageEntry (shadowObject 1)).isNone = true ∧
    ({ atBoot .rom with pkg := { pkgUp with boot := .rom, lumenUp := false } } : State).pkg.lumenUp = false := by decide +kernel

/-- ErrorsIslandsAndLimits: counts around the threshold; islands of each kind; a limit of 100 W at its edges. -/
def eccDie (n : Nat) : Die :=
  { Die.fresh with eccCtl := 0x3E804, eccLocs := [{ cls := 3, inst := 0, loc := 9, count := n, order := 0, opened := 0 }] }
def eccS (n : Nat) : State := { atBoot .running with dies := [(3, eccDie n)] }
theorem wit_errors : (eccS 3).running = true ∧ bits ((eccS 3).die 3).eccCtl.toNat 7 0 = 4 ∧
    (((eccS 3).die 3).eccLocs.find? (fun e => e.is 3 0 9)).map EccLoc.count = some 3 ∧
    (((eccS 2).die 3).eccLocs.find? (fun e => e.is 3 0 9)).map EccLoc.count = some 2 ∧
    bits (0x3E800 : W64).toNat 7 0 = 0 := by decide +kernel
def capS (watts limit : Nat) (cap : Nat) : State :=
  { atBoot .running with pkg := { pkgUp with pwrCap := BitVec.ofNat 64 limit, pwrStat := BitVec.ofNat 64 watts, capNoticed := false },
                         dies := [(0, { Die.fresh with islFloor := [(0, cap)] })] }
theorem wit_islands : islandNamed 0 = true ∧ islandNamed 95 = true ∧ islandNamed 1000 = false ∧ (capS 0 100 0).running = true ∧
    ((capS 0 100 0).die 0).dead = false ∧ (capS 0 100 0).islandOf 0 0 = (capS 0 100 0).islandTarget 0 0 ∧
    (capS 0 100 2).islandOf 0 0 ≠ (capS 0 100 2).islandTarget 0 0 ∧ Tbl.get ((capS 0 100 4).die 0).islFloor 0 0 ≤ 4 ∧
    bits (7 : W64).toNat 2 0 = 7 ∧ (capS 0 100 0).mayOff 0 0 = true ∧ ({ capS 0 100 0 with ctxs := [(0, ctx2)], gangs := [(7, gang1)] } : State).mayOff 0 0 = false ∧
    (capS 0 100 0).capState = 0 ∧ (100 : Nat) < (101 : BitVec 16).toNat ∧ ¬(10 * (90 : BitVec 16).toNat < 9 * 100) ∧
    10 * (89 : BitVec 16).toNat < 9 * 100 ∧ (capS 0 100 0).pkg.capNoticed = false ∧ (1840 : BitVec 16).toNat ≤ 1840 ∧
    State.reset.running = false := by decide +kernel

/-- A die whose shadow context and event queue take a notice; floors of 7; a die that has been lost. -/
def eccShep : State := { eccS 3 with ctxs := [(CtxId.key { fold := 288, slot := 32 }, shadowCtx)] }
def floorS (i : Nat) : State := { atBoot .running with dies := [(0, { Die.fresh with islFloor := [(i, 7)] })] }
def lostS : State := { atBoot .running with dies := [(0, { Die.fresh with dead := true })] }
theorem wit_notices : (4 : Nat) ≤ 3 + 1 ∧ eccShep.firstFold 3 = 288 ∧ ((eccShep.fold 288).events.filter EventWord.noTeam).length < 32 ∧
    (eccShep.fold 288).eventLost = false ∧ eccShep.ctx { fold := 288, slot := CtxId.shadowSlot } = some shadowCtx ∧
    Tbl.get ((floorS 5).die 0).islFloor 5 0 = 7 ∧ (floorS 5).hasTeam (96 * 0 + 5) = false ∧ (floorS 5).gangsOn (96 * 0 + 5) = [] ∧
    Tbl.get ((floorS 191).die 0).islFloor 191 0 = 7 ∧ (lostS.die 0).dead = true ∧ ((capS 0 100 0).die 0).dead = false ∧
    1840 < (1841 : BitVec 16).toNat ∧ 1760 < (1761 : BitVec 16).toNat ∧ ¬(1760 < (1760 : BitVec 16).toNat) ∧
    bit 1 0 = true ∧ bit 0 0 = false ∧ 16 * (85 - 5) < (1281 : BitVec 16).toNat ∧ ¬(16 * 85 < (1281 : BitVec 16).toNat) := by decide +kernel

/-! ## One step, with results from the spec's examples and tables -/

def ran (i : Instr) (s : State) : State := match exec i s with
  | .next t => t
  | _ => s
def ctxAfter (i : Instr) (c : Ctx) : Ctx := ((ran i (one c)).ctx team).getD ctx2
/-- Lanes 0 and 1 hold `t` in g1, and A and B of a unit hold `a` and `b`; T takes g1. -/
def g1 : MoveF := ⟨false, 0, 0, 1⟩
def opCtx (u : Nat) (a b t : W64) : Ctx :=
  { ctx2 with g := [(1, [t.truncate 32, t.truncate 32])], us := UnitState.fresh.setUnit u { UPorts.fresh with a := [a, a], b := [b, b] } }
/-- The result that the trigger leaves in flight, or in R. -/
def result (i : Instr) (u : Nat) (a b t : W64) : W64 :=
  let c := ctxAfter i (opCtx u a b t)
  match c.us.pend.getLast? with
  | some p => p.vals.at 0
  | none => (c.us.unit u).r.at 0
def excsOf (i : Instr) (u : Nat) (a b t : W64) : BitVec 5 :=
  match (ctxAfter i (opCtx u a b t)).us.pend.getLast? with
  | some p => p.excs.headD 0
  | none => 0

-- R86's example: the carry of 0xFFFFFFFF + 1.
theorem test_add_wraps : result (.iaAdd g1) U.ia 0xFFFFFFFF 0 1 = 0 ∧ ((ctxAfter (.iaAdd g1) (opCtx U.ia 0xFFFFFFFF 0 1)).land.us.unit U.ia).carry = 3 ∧
    result (.ibAdd g1) U.ib 0xFFFFFFFF 0 2 = 1 := by decide +kernel
-- R85's table and boundary values.
theorem test_ia_table : result (.iaSub g1) U.ia 3 0 5 = 0xFFFFFFFE ∧ result (.iaRsub g1) U.ia 3 0 5 = 2 ∧
    result (.iaAbs g1) U.ia 0 0 0x80000000 = 0x80000000 ∧ result (.iaNeg g1) U.ia 0 0 0x80000000 = 0x80000000 ∧
    result (.iaAvgN g1) U.ia 2 0 3 = 3 ∧ result (.iaAvgN g1) U.ia 0xFFFFFFFF 0 0xFFFFFFFF = 0xFFFFFFFF ∧
    result (.iaAbsdN g1) U.ia 1 0 0xFFFFFFFF = 0xFFFFFFFE ∧ result (.iaAddsh3 g1) U.ia 4 0 5 = 44 ∧
    result (.iaAndn g1) U.ia 0xFF 0 0x0F = 0xF0 := by decide +kernel
theorem test_ia_signs : result (.iaMinS g1) U.ia 0xFFFFFFFF 0 2 = 0xFFFFFFFF ∧ result (.iaMinN g1) U.ia 0xFFFFFFFF 0 2 = 2 ∧
    result (.ibMaxS g1) U.ib 0xFFFFFFFF 0 2 = 2 ∧ result (.ibMaxN g1) U.ib 0xFFFFFFFF 0 2 = 0xFFFFFFFF ∧
    result (.iaAddSatS g1) U.ia 0x7FFFFFFF 0 1 = 0x7FFFFFFF ∧ result (.iaAddSatN g1) U.ia 0xFFFFFFFF 0 1 = 0xFFFFFFFF ∧
    result (.iaSubSatS g1) U.ia 0x80000000 0 1 = 0x80000000 ∧ result (.iaSubSatN g1) U.ia 0 0 1 = 0 := by decide +kernel
-- R89's example.
theorem test_shift_example : result (.shBfxN g1) U.sh 0x12345A78 0x3C 0x804 = 0xA7 ∧ result (.shBfxS g1) U.sh 0x12345A78 0x3C 0x804 = 0xFFFFFFA7 ∧
    result (.shBfi g1) U.sh 0x12345A78 0x3C 0x804 = 0x123453C8 ∧ result (.shBfxN g1) U.sh 0x12345A78 0x3C 0x81C = 1 ∧
    result (.shShl g1) U.sh 0x12345A78 0x3C 0x28 = 0 ∧ result (.shRotl g1) U.sh 0x12345A78 0x3C 0x128 = 0x345A7812 := by decide +kernel
-- R87, R89: shifts of 32 and more, the funnel shifts by 0, the counts of zero.
theorem test_shift_edges : result (.shShrS g1) U.sh 0x80000000 0 0xFF = 0xFFFFFFFF ∧ result (.shShrN g1) U.sh 0x80000000 0 32 = 0 ∧
    result (.shShrN g1) U.sh 0x80000000 0 31 = 1 ∧ result (.shFshl g1) U.sh 5 9 32 = 5 ∧ result (.shFshr g1) U.sh 5 9 32 = 9 ∧
    result (.shClz g1) U.sh 0 0 0 = 32 ∧ result (.shCtz g1) U.sh 0 0 0 = 32 ∧ result (.shPopc g1) U.sh 0 0 0xF0F = 8 ∧
    result (.shBswap g1) U.sh 0 0 0x01020304 = 0x04030201 ∧ result (.shBrev g1) U.sh 0 0 1 = 0x80000000 ∧
    result (.shPklo g1) U.sh 0xAAAA1111 0 0xBBBB2222 = 0x22221111 ∧ result (.shPkhi g1) U.sh 0xAAAA1111 0 0xBBBB2222 = 0xBBBBAAAA := by
  decide +kernel
-- R90's example.
theorem test_mul_example : result (.imDot4S8 g1) U.im 0x7F80FF01 0x02020202 10 = 8 ∧ result (.imDot4N8 g1) U.im 0x7F80FF01 0x02020202 10 = 1032 ∧
    result (.imMulLo g1) U.im 0x80000000 0 0xFFFFFFFF = 0x80000000 ∧ result (.imMulHiS g1) U.im 0x80000000 0 0xFFFFFFFF = 0 ∧
    result (.imMulHiN g1) U.im 0x80000000 0 0xFFFFFFFF = 0x7FFFFFFF ∧ result (.imMadLo g1) U.im 7 6 0xFFFFFFFF = 41 ∧
    result (.imDot2S16 g1) U.im 0xFFFF0002 0x00030004 1 = 6 := by decide +kernel
-- R93's example: lanes of g5 and g6 under cmp.lt.s and cmp.lt.n; R93's predicate logic.
def cmpK (i : Instr) (a b : Vals) : Lanes :=
  Tbl.get (ctxAfter i { ctx2 with g := [(1, b.map (·.truncate 32))], us := UnitState.fresh.setUnit U.cm { UPorts.fresh with a := a } }).land.k 3 0
theorem test_compare_example : cmpK (.cmCmpLt 0 3 g1) [3, 0xFFFFFFFF] [5, 2] = 3 ∧ cmpK (.cmCmpLt 0 3 g1) [7, 0] [7, 0x80000000] = 0 ∧
    cmpK (.cmCmpLt 1 3 g1) [3, 0xFFFFFFFF] [5, 2] = 1 ∧ cmpK (.cmCmpLt 1 3 g1) [7, 0] [7, 0x80000000] = 2 ∧
    cmpK (.cmKset 3 g1) [] [0, 4] = 2 ∧ cmpK (.cmPlogNor 3 g1) [0, 1] [0, 0] = 1 ∧ cmpK (.cmCmpEqFo 3 g1) [0x80000000, 0x7FC00000] [0, 0x7FC00000] = 1 ∧
    cmpK (.cmCmpEqFu 3 g1) [0x80000000, 0x7FC00000] [0, 0x7FC00000] = 3 := by decide +kernel
-- R117's examples: one rounding of fma, the exact sum of fdot2.
theorem test_fma_rounds_once : result (.faFma 0 0 0 g1) U.fa 0x3F800001 0x3F7FFFFE 0xBF800000 = 0xA8800000 ∧
    result (.fbFmul 0 0 0 g1) U.fb 0x3F800001 0 0x3F7FFFFE = 0x3F800000 ∧
    result (.fbFdot2 1 0 0 g1) U.fb 0x3C003C00 0x3C003C00 0x4B800000 = 0x4B800001 := by decide +kernel
-- R119's examples, with their exceptions (NV 1, OF 4, NX 16).
theorem test_convert_examples : result (.cvCvt 0 0 0 g1) U.cv 0 0 0x3F801000 = 0x3C00 ∧ result (.cvCvt 0 2 0 g1) U.cv 0 0 0x3F801000 = 0x3C01 ∧
    result (.cvCvt 0 0 0 g1) U.cv 0 0 0x4788B800 = 0x7C00 ∧ result (.cvCvt 0 1 0 g1) U.cv 0 0 0x4788B800 = 0x7BFF ∧
    result (.cvCvt 8 0 0 g1) U.cv 0 0 0xC348B333 = 0x37 ∧ result (.cvCvt 8 0 1 g1) U.cv 0 0 0xC348B333 = 0xFFFFFF80 ∧
    result (.cvCvt 5 0 1 g1) U.cv 0 0 0x7FC00000 = 0 ∧ result (.cvCvt 14 1 0 g1) U.cv 0 0 0xFFFFFF38 = 0x38 ∧
    result (.cvFclass 2 g1) U.cv 0 0 0x0001FF80 = 0x00200001 := by decide +kernel
theorem test_convert_exceptions : excsOf (.cvCvt 0 0 0 g1) U.cv 0 0 0x3F801000 = 16 ∧ excsOf (.cvCvt 0 0 0 g1) U.cv 0 0 0x4788B800 = 20 ∧
    excsOf (.cvCvt 8 0 0 g1) U.cv 0 0 0xC348B333 = 1 ∧ excsOf (.cvCvt 14 1 0 g1) U.cv 0 0 0xFFFFFF38 = 0 := by decide +kernel
-- R94, R95, R96: targets from the header's address; R97: a misaligned target.
def afterBr (i : Instr) (a : W64) : Ctx :=
  ctxAfter i { ctx2 with k := [(3, 1)], us := UnitState.fresh.setUnit U.br { UPorts.fresh with a := [a] } }
theorem test_branches : (afterBr (.brBr (imm 0x3F4)) 0).pc = 0xFF4 ∧ (afterBr (.brAny 3 (imm 16)) 0).pc = 0x1010 ∧
    (afterBr (.brAll 3 (imm 16)) 0).pc = 0x1006 ∧ (afterBr (.brNone 3 (imm 16)) 0).pc = 0x1006 ∧
    (afterBr (.brSLt (imm 16)) 0x8000000000000000).pc = 0x1010 ∧ (afterBr (.brSZ (imm 16)) 1).pc = 0x1006 ∧
    (afterBr (.brJr (imm 64)) 0).pc = 64 ∧ Tbl.get (afterBr (.brCall (imm 16)) 0).s 31 0 = 0x1006 := by decide +kernel
theorem test_misaligned_branch : (afterBr (.brCall (imm 5)) 0).pc = 0x1006 ∧ Tbl.get (afterBr (.brCall (imm 5)) 0).s 31 0 = 0 ∧
    (afterBr (.brCall (imm 5)) 0).due.map DueTrap.addr = [some 0x1005] := by decide +kernel
-- R14, R25, R28: moves; the lowest live lane whose guard is true feeds an s register.
def movesCtx : Ctx := { ctx2 with g := [(1, [10, 20])], k := [(1, 2)] }
theorem test_moves : Tbl.get (ctxAfter (.moveToG 2 g1) movesCtx).g 2 [] = [10, 20] ∧ (Tbl.get (ctxAfter (.moveToG 2 ⟨false, 1, 0, 1⟩) movesCtx).g 2 []).getD 1 0 = 20 ∧
    (Tbl.get (ctxAfter (.moveToG 2 ⟨false, 1, 0, 1⟩) movesCtx).g 2 []).getD 0 0 = 0 ∧ Tbl.get (ctxAfter (.moveToS 5 ⟨false, 1, 0, 1⟩) movesCtx).s 5 0 = 20 ∧
    (ctxAfter (.moveToG 2 g1) movesCtx).pc = 0x1006 ∧ (ctxAfter (.moveToG 2 g1) movesCtx).sched = 1 := by decide +kernel
-- R11: a 10-bit immediate is sign-extended; a k register as a destination takes bit 0.
theorem test_immediates : Tbl.get (ctxAfter (.moveToS 5 (imm 0x3FF)) ctx2).s 5 0 = 0xFFFFFFFFFFFFFFFF ∧ Tbl.get (ctxAfter (.moveToG 2 (imm 0x3FF)) ctx2).g 2 [] = [0xFFFFFFFF, 0xFFFFFFFF] := by
  decide +kernel
-- UA is one value of 64 bits.
def uaResult (i : MoveF → Instr) (a t : W64) : W64 :=
  let c := ctxAfter (i ⟨false, 0, 0, 133⟩) { withS ctx2 t with us := UnitState.fresh.setUnit U.ua { UPorts.fresh with a := [a] } }
  match c.us.pend.getLast? with
  | some p => p.vals.at 0
  | none => (c.us.unit U.ua).r.at 0
theorem test_ua : uaResult .uaAdd 0xFFFFFFFFFFFFFFFF 2 = 1 ∧ uaResult .uaSub 1 2 = 0xFFFFFFFFFFFFFFFF ∧ uaResult .uaMinS 0x8000000000000000 2 = 0x8000000000000000 ∧
    uaResult .uaMaxN 0x8000000000000000 2 = 0x8000000000000000 ∧ uaResult .uaCmpLtS 0x8000000000000000 2 = 1 ∧ uaResult .uaCmpGtN 0x8000000000000000 2 = 1 := by
  decide +kernel
-- R155's example, over lanes 0 and 1: the sum of 2^24 and 1 is a tie that rounds to even; an integer scan.
theorem test_scan_and_reduce :
    ((ctxAfter (.xlScanAddF32 g1) { ctx2 with g := [(1, [0x4B800000, 0x3F800000])] }).ops.map VarOp.vals) = [some [0x4B800000, 0x4B800000]] ∧
    ((ctxAfter (.xlRedAddF32 g1) { Ctx.blank 4 32 with tid := 1, gang := 7, g := [(1, [0x4B800000, 0x3F800000, 0x3F800000, 0])] }).ops.map VarOp.vals) =
      [some [0x4B800001, 0x4B800001, 0x4B800001, 0x4B800001]] ∧
    ((ctxAfter (.xlScanAddI32 g1) { ctx2 with g := [(1, [7, 0xFFFFFFFF])] }).ops.map VarOp.vals) = [some [7, 6]] ∧
    ((ctxAfter (.xlBallot g1) { ctx2 with g := [(1, [0, 1])] }).ops.map VarOp.vals) = [some [2, 2]] := by decide +kernel
-- The example under R17: rcp of 4.0 is 0.25, and of 0 an infinity; sqrt of 4.0 is 2.0, and of -0 it is -0.
def sfDone (o : Nat) (t : Vals) : Vals :=
  (ctxAfter (.sfComplete team) (waits ctx2 U.sf [opOf U.sf o none t])).us.unit U.sf |>.r
theorem test_special_functions : sfDone 0x00 [0x40800000, 0] = [0x3E800000, 0x7F800000] ∧ sfDone 0x02 [0x40800000, 0x80000000] = [0x40000000, 0x80000000] := by
  decide +kernel
-- R134: loads extend by SGN; R136: a store writes its bytes from the lowest address; R138: an atomic returns the old value.
def memAfter (i : Instr) (u o : Nat) (l : MemLane) (bs : List Byte) : State := ran i (State.withBytes (only shep (memCtx u o l)) 0x9000 bs)
def loaded (o : Nat) (bs : List Byte) : W64 :=
  match (memAfter (.loadComplete shep) U.la o (lane0 0x9000 0 none) bs).ctx shep with
  | some c => (c.us.unit U.la).r.at 0
  | none => 0
theorem test_loads : loaded 0x0C [0x80] = 0xFFFFFFFFFFFFFF80 ∧ loaded 0x04 [0x80] = 0x80 ∧ loaded 0x1C [0x01, 0x80] = 0xFFFFFFFFFFFF8001 ∧
    loaded 0x24 [1, 2, 3, 4] = 0x04030201 ∧ loaded 0x34 [1, 2, 3, 4, 5, 6, 7, 8] = 0x0807060504030201 := by decide +kernel
theorem test_store : (memAfter (.storePerformed shep) U.st 0x22 (lane0 0x9000 0x44332211 none) [9, 9, 9, 9, 9]).rd 0x9000 5 = 0x0944332211 ∧
    (memAfter (.storePerformed shep) U.st 0x02 (lane0 0x9000 0x44332211 none) [9, 9]).rd 0x9000 2 = 0x0911 := by decide +kernel
def atomicAfter (o : Nat) (x : W64) (old : List Byte) : Nat × W64 :=
  let t := memAfter (.atomicComplete shep) U.at_ o (lane0 0x9000 x none) old
  (t.rd 0x9000 4, match t.ctx shep with
    | some c => (c.us.unit U.at_).r.at 0
    | none => 0)
theorem test_atomics : atomicAfter 0x00 5 [100] = (105, 100) ∧ atomicAfter 0x01 1 [0] = (0xFFFFFFFF, 0) ∧ atomicAfter 0x05 0xFFFFFFFF [1] = (0xFFFFFFFF, 1) ∧
    atomicAfter 0x06 0xFFFFFFFF [1] = (1, 1) ∧ atomicAfter 0x09 7 [3] = (7, 3) := by decide +kernel
-- R350, R355, R368: a deferred trap on route U.
theorem test_trap_entry :
    let t := ran (.trapRouteU team) (one (dueCtx { ctx2 with us := UnitState.fresh.setUnit U.ia { UPorts.fresh with a := [3, 4] } } (DueTrap.of 0x26 0xFF0 5)))
    ((t.ctx team).map fun c => (c.pc, c.cause, c.trapPc, c.faultBundle, c.faultCycle)) = some (0x2000, 0x26, 0x1000, 0xFF0, 5) ∧
    ((t.ctx team).map fun c => (c.inh, c.us, c.frame.map fun f => (f.unit U.ia).a)) = some (true, UnitState.fresh, some [3, 4]) := by decide +kernel
-- R356: the return restores the frame at TRAP_PC.
theorem test_handler_return : (((ran (.handlerReturn team) (one handlerCtx)).ctx team).map fun c => (c.pc, c.inh, c.frame, c.us.flags)) =
    some (0x3000, false, none, 0xFFF) := by decide +kernel
-- R20: fset and fclr; R187: the barrier's arrivals; R98: exit.
theorem test_flags : ((ctxAfter (.syFclr 3 mv) ctx2).us.flags) = 0xFF7 ∧ ((ctxAfter (.syFset 3 mv) { ctx2 with us := { UnitState.fresh with flags := 0 } }).us.flags) = 8 := by
  decide +kernel
theorem test_exit : (ran (.brExit mv) (inGang gang1 ctx2)).ctx team = none ∧ ((ctxAfter (.brLexit ⟨false, 1, 2, 5⟩) { ctx2 with k := [(1, 1)] }).live) = 2 := by
  decide +kernel
-- R26, R368: eret by a team is C_PRIVOP at issue, taken on route U at the bundle's own address.
theorem test_privileged : (((ran (.svEret mv) (one ctx2)).ctx team).map fun c => (c.pc, c.cause, c.trapPc)) = some (0x2000, 0x09, 0x1000) := by
  decide +kernel
-- The word of a table row lies in memory where the next step fetches, header parcel first.
theorem test_first_step_text : okB ((State.reset.withFetchWord 32 0x80700005).fetchBytes 0 256 false slotAddr 6)
    (fun b => decide (b = [0x00, 0x01, 0x05, 0x00, 0x70, 0x80])) = true := by decide +kernel

end Sys2Proof.Tests
end

section
/-! SUPPORT. The sequential machine (R10 to R46): what a step does, bundle by bundle, and what its operations leave. -/
namespace Sys2Proof.Machine.Sequential

theorem ite_toInt_le {w : Nat} (a t : BitVec w) : (if a.toInt ≤ t.toInt then a else t) = if a.slt t then a else t := by
  simp only [BitVec.slt_iff_toInt_lt]
  rcases lt_trichotomy a.toInt t.toInt with h | h | h
  · rw [if_pos h.le, if_pos h]
  · rw [BitVec.eq_of_toInt_eq h, ite_self, ite_self]
  · rw [if_neg h.not_ge, if_neg h.not_gt]

theorem ite_toInt_ge {w : Nat} (a t : BitVec w) : (if t.toInt ≤ a.toInt then a else t) = if a.slt t then t else a := by
  simp only [BitVec.slt_iff_toInt_lt, ← not_lt, ite_not]

theorem ite_toNat_le {w : Nat} (a t : BitVec w) : (if a.toNat ≤ t.toNat then a else t) = if a.ult t then a else t := by
  simp only [BitVec.ult_iff_toNat_lt]
  rcases lt_trichotomy a.toNat t.toNat with h | h | h
  · rw [if_pos h.le, if_pos h]
  · rw [BitVec.eq_of_toNat_eq h, ite_self, ite_self]
  · rw [if_neg h.not_ge, if_neg h.not_gt]

theorem ite_toNat_ge {w : Nat} (a t : BitVec w) : (if t.toNat ≤ a.toNat then a else t) = if a.ult t then t else a := by
  simp only [BitVec.ult_iff_toNat_lt, ← not_lt, ite_not]

theorem alAbs_eq (t : W32) : alAbs t = if t.slt 0 then 0 - t else t := by
  simp only [alAbs, BitVec.slt_iff_toInt_lt]
  rfl

theorem alAbsdN_eq (a t : W32) :
    alAbsdN a t = BitVec.ofNat 32 (max a.toNat t.toNat - min a.toNat t.toNat) := by
  apply BitVec.eq_of_toNat_eq
  rw [BitVec.toNat_ofNat]
  unfold alAbsdN
  have := a.isLt
  have := t.isLt
  split
  · rw [BitVec.toNat_sub_of_le (by simpa [BitVec.le_def])]; omega
  · rw [BitVec.toNat_sub_of_le (by rw [BitVec.le_def]; omega)]; omega

theorem satN_add (a t : W32) :
    satN ((a.toNat : Int) + t.toNat) = BitVec.ofNat 32 (min (2 ^ 32 - 1) (a.toNat + t.toNat)) := by
  have e : (max 0 (min 4294967295 ((a.toNat : Int) + t.toNat))) =
    ((min (2 ^ 32 - 1) (a.toNat + t.toNat) : Nat) : Int) := by
    omega
  rw [satN, e, BitVec.ofInt_natCast]

theorem satN_sub (a t : W32) : satN ((a.toNat : Int) - t.toNat) = BitVec.ofNat 32 (a.toNat - t.toNat) := by
  have e : (max 0 (min 4294967295 ((a.toNat : Int) - t.toNat))) = ((a.toNat - t.toNat : Nat) : Int) := by
    have := a.isLt
    omega
  rw [satN, e, BitVec.ofInt_natCast]

theorem mul_pow_two_eq (t : W32) (n : Nat) : t * BitVec.ofNat 32 (2 ^ n) = t <<< n := by
  apply BitVec.eq_of_toNat_eq
  simp [Nat.shiftLeft_eq]

theorem b2n_eq (k : Bool) : b2n k = k.toNat := by cases k <;> rfl

theorem rotl_eq (a t : W32) :
    a.rotateLeft (amt5 t) = (a <<< (t.toNat % 32)) ||| (a >>> (32 - t.toNat % 32)) := by
  rw [BitVec.rotateLeft_def, amt5, Nat.mod_mod]

theorem rotr_eq (a t : W32) :
    a.rotateRight (amt5 t) = (a >>> (t.toNat % 32)) ||| (a <<< (32 - t.toNat % 32)) := by
  rw [BitVec.rotateRight_def, amt5, Nat.mod_mod]


theorem getLsbD_mask {i : Nat} (n : Nat) (hi : i < 32) : (BitVec.ofNat 32 (2 ^ n - 1)).getLsbD i = decide (i < n) := by
  rw [BitVec.getLsbD_ofNat, Nat.testBit_two_pow_sub_one, decide_eq_true hi, Bool.true_and]

/-- The low `n` bits of a word by a mask. -/
theorem and_mask_eq (x : W32) (n : Nat) : x &&& BitVec.ofNat 32 (2 ^ n - 1) = (x.extractLsb' 0 n).zeroExtend 32 := by
  apply BitVec.eq_of_getLsbD_eq
  intro i hi
  rw [BitVec.getLsbD_and, getLsbD_mask n hi, BitVec.zeroExtend, BitVec.getLsbD_setWidth, BitVec.getLsbD_extractLsb']
  simp [hi, Bool.and_comm]

theorem bfxN_eq (a t : W32) : bfxN a t = (a.extractLsb' (t.toNat % 32) (fieldLen t)).zeroExtend 32 := by
  rw [bfxN, fieldMask, and_mask_eq]
  apply BitVec.eq_of_getLsbD_eq
  intro i _
  simp [bits]

/-- Sign extension from `n` bits as a subtraction of `2^n`. -/
theorem signExtend_eq_sub {n : Nat} (x : BitVec n) (hn : n ≤ 32) :
    x.signExtend 32 = if x.msb then x.zeroExtend 32 - BitVec.ofNat 32 (2 ^ n) else x.zeroExtend 32 := by
  have h2 : 2 ^ n ≤ 2 ^ 32 := Nat.pow_le_pow_right (by decide) hn
  split
  · rename_i hm
    have hx : (BitVec.setWidth 32 x).toNat = x.toNat := by
      rw [BitVec.toNat_setWidth, Nat.mod_eq_of_lt (lt_of_lt_of_le x.isLt h2)]
    have := x.isLt
    apply BitVec.eq_of_toNat_eq
    rw [BitVec.toNat_signExtend, if_pos hm, BitVec.toNat_sub, BitVec.toNat_ofNat, BitVec.zeroExtend, hx]
    generalize 2 ^ n = p at *
    omega
  · rename_i hm
    rw [BitVec.signExtend_eq_setWidth_of_msb_false (by simpa using hm)]

theorem bfxS_eq (a t : W32) : bfxS a t = (a.extractLsb' (t.toNat % 32) (fieldLen t)).signExtend 32 := by
  have h : fieldLen t ≤ 32 := by simp [fieldLen]
  have hm : (a.extractLsb' (t.toNat % 32) (fieldLen t)).msb =
      (decide (fieldLen t ≠ 0) && (bfxN a t).getLsbD (fieldLen t - 1)) := by
    rw [BitVec.msb_eq_getLsbD_last, bfxN_eq, BitVec.zeroExtend, BitVec.getLsbD_setWidth]
    by_cases h0 : fieldLen t = 0
    · simp [h0]
    · simp [h0, show fieldLen t - 1 < 32 by omega]
  rw [signExtend_eq_sub _ h, ← bfxN_eq, hm]
  simp only [bfxS]
  by_cases h0 : fieldLen t = 0
  · have e : bfxN a t = 0 := by
      rw [bfxN_eq, h0]
      exact BitVec.eq_of_getLsbD_eq fun i _ => by simp
    simp [h0, e]
  · simp [h0]

theorem toNat_append32 (a b : W32) : (a ++ b).toNat = a.toNat * 2 ^ 32 + b.toNat := by
  rw [BitVec.toNat_append, ← Nat.shiftLeft_add_eq_or_of_lt b.isLt, Nat.shiftLeft_eq]

theorem fshl_eq (a b t : W32) : fshl a b t = ((a ++ b) <<< (t.toNat % 32)).extractLsb' 32 32 := by
  apply BitVec.eq_of_toNat_eq
  rw [fshl, amt5, BitVec.toNat_ofNat, BitVec.extractLsb'_toNat, BitVec.toNat_shiftLeft, toNat_append32,
    Nat.shiftLeft_eq,
    Nat.shiftRight_eq_div_pow]
  generalize (a.toNat * 2 ^ 32 + b.toNat) * 2 ^ (t.toNat % 32) = x
  omega

theorem fshr_eq (a b t : W32) : fshr a b t = ((a ++ b) >>> (t.toNat % 32)).extractLsb' 0 32 := by
  apply BitVec.eq_of_toNat_eq
  rw [fshr, amt5, BitVec.toNat_ofNat, BitVec.extractLsb'_toNat, BitVec.toNat_ushiftRight, toNat_append32,
    Nat.shiftRight_zero, Nat.shiftRight_eq_div_pow]

theorem getLsbD_append16 (x y : BitVec 16) (i : Nat) :
    BitVec.getLsbD (w := 32) (x ++ y) i = if i < 16 then y.getLsbD i else x.getLsbD (i - 16) := BitVec.getLsbD_append

theorem pklo_eq (a t : W32) : (t <<< 16) ||| (a &&& (0xFFFF : W32)) = t.extractLsb' 0 16 ++ a.extractLsb' 0 16 := by
  apply BitVec.eq_of_getLsbD_eq
  intro i hi
  rw [getLsbD_append16, BitVec.getLsbD_or, BitVec.getLsbD_and,
    show (0xFFFF : W32) = BitVec.ofNat 32 (2 ^ 16 - 1) from rfl,
    getLsbD_mask 16 hi]
  by_cases h : i < 16
  · simp [h]
  · simp [h, hi, show i - 16 < 16 by omega, BitVec.getLsbD_eq_getElem (show i - 16 < 32 by omega)]

theorem pkhi_eq (a t : W32) : (t &&& (0xFFFF0000 : W32)) ||| (a >>> 16) =
    t.extractLsb' 16 16 ++ a.extractLsb' 16 16 := by
  have mask : ∀ i < 32, (0xFFFF0000 : W32).getLsbD i = decide (16 ≤ i) := by decide
  apply BitVec.eq_of_getLsbD_eq
  intro i hi
  rw [getLsbD_append16, BitVec.getLsbD_or, BitVec.getLsbD_and, mask i hi]
  by_cases h : i < 16
  · simp [h, show ¬ 16 ≤ i by omega]
  · simp [h, show 16 ≤ i by omega, show i - 16 < 16 by omega, show 16 + (i - 16) = i by omega,
      BitVec.getLsbD_of_ge a (16 + i) (by omega)]

theorem truncate_eq_extract (t : W32) (n : Nat) : t.truncate n = t.extractLsb' 0 n := by
  apply BitVec.eq_of_toNat_eq
  simp [BitVec.extractLsb'_toNat]

theorem mulLo_eq (a t : W32) : a * t = BitVec.ofNat 32 (a.toNat * t.toNat) := BitVec.mul_def

theorem madLo_eq (a b t : W32) : a * b + t = BitVec.ofNat 32 (a.toNat * b.toNat + t.toNat) := by
  apply BitVec.eq_of_toNat_eq
  simp

theorem mulHiS_eq (x : Int) : (BitVec.ofInt 64 x).extractLsb' 32 32 = BitVec.ofInt 32 (x / 2 ^ 32) := by
  apply BitVec.eq_of_toNat_eq
  simp [BitVec.extractLsb'_toNat, Nat.shiftRight_eq_div_pow]
  omega

theorem guardMask_ne_zero {s : State} {c0 : Ctx} {w : W32} (h : s.Fires c0 w) :
    c0.land.guardMask (Move.of 0 w) ≠ 0 := by
  obtain ⟨-, l, -, hl⟩ := h
  intro e
  rw [e] at hl
  exact absurd hl (by simp)

theorem getLsbD_lanesFoldl (f : Nat → Bool) (ls : List Nat) (acc : Lanes) {l : Nat} (hl : l < 1024) :
    (ls.foldl (fun acc l => if f l then acc ||| BitVec.ofNat 1024 (2 ^ l) else acc) acc).getLsbD l =
      (acc.getLsbD l || decide (l ∈ ls) && f l) := by
  induction ls generalizing acc with
  | nil => simp
  | cons j r ih =>
    have bit : (BitVec.ofNat 1024 (2 ^ j)).getLsbD l = decide (j = l) := by
      rw [BitVec.getLsbD_ofNat, Nat.testBit_two_pow, decide_eq_true hl, Bool.true_and]
    rw [List.foldl_cons, ih]
    by_cases hj : f j = true
    · rw [if_pos hj, BitVec.getLsbD_or, bit]
      by_cases e : j = l
      · subst e; simp [hj]
      · simp [e, Ne.symm e]
    · rw [if_neg hj]
      by_cases e : l = j
      · subst e; simp [hj]
      · simp [e]

/-- A set of lanes holds the lanes below its bound that satisfy its predicate. -/
theorem getLsbD_lanesOf (n : Nat) (f : Nat → Bool) {l : Nat} (hl : l < 1024) :
    (Lanes.of n f).getLsbD l = (decide (l < n) && f l) := by
  rw [Lanes.of, getLsbD_lanesFoldl f _ _ hl]
  simp

theorem lane_lt {m : Lanes} {l : Nat} (h : m.getLsbD l = true) : l < 1024 := BitVec.lt_of_getLsbD h

/-- What an integer operation computes: the row's value and carry bits, without exceptions or a predicate (R85 to
R90). -/
inductive Computes (r : FixedRow) : Start → Prop
  | lane (g : W32 → W32 → W32 → W32) (hv : ∀ a b t k, r.value a b t k = zx (g a b t)) (hc : r.carry = none)
      (hk : r.kdst = 0) (he : ∀ a b t, r.exc a b t = 0) : Computes r (lane3 g)
  | latch (g : W32 → W32 → Bool → W32 × Bool) (hv : ∀ a b t k, r.value a b t k = zx (g a t k).1)
      (hc : r.carry = some (fun a t k => (g a t k).2)) (hk : r.kdst = 0) (he : ∀ a b t, r.exc a b t = 0) :
      Computes r (laneCarry g)

/-- The row is the bundle of one move that starts an operation. -/
def StartsAs (r : FixedRow) (st : Start) : Prop := ∀ m s, exec (r.instr m) s = issueOne (r.word m) st s

/-- A row of IA, IB, SH or IM runs as stated when its operation computes its value. -/
theorem Computes.runs {r : FixedRow} {st : Start} (hc : Computes r st) (hx : StartsAs r st)
    (hu : 1 ≤ r.unit ∧ r.unit ≤ 4) (ho : r.opcode < 256) {m : MoveF} {s : State} {c0 : Ctx}
    (h : s.Fires c0 (r.word m)) :
    r.Runs m s c0 := by
  have hv : ∀ u, 1 ≤ u ∧ u ≤ 4 → isVar u = false ∧ uniformPort u 3 = false := by
    rintro u ⟨h1, h2⟩
    interval_cases u <;> exact ⟨rfl, rfl⟩
  have hw : r.unit < 32 ∧ r.unit ≠ 0 ∧ r.opcode < 256 := ⟨by omega, by omega, ho⟩
  have hg := guardMask_ne_zero h
  obtain ⟨hvar, hport⟩ := hv r.unit hu
  cases hc with
  | lane g hval hcar hk he => exact FixedRow.runs_of_lane3 g h.1 hg (hx m s) hvar hport hw hval he hk hcar
  | latch g hval hcar hk he =>
    refine FixedRow.runs_of_pend (laneCarry g) _ h.1 hg (hx m s) hvar hport hw
      (fun s id t c hc => by simp only [laneCarry, hc]; rfl) (fun c t ht => ?_)
    refine ⟨ht, by simp only [Trig.pend, ht], rfl, hk.symm, rfl, rfl, fun l hl hm => ⟨?_, by rw [he]; rfl⟩, ?_⟩
    · simp only [Trig.pend]
      rw [Vals.at_map_range _ _ hl, if_pos hm, hval, ht]
    · rw [hcar]
      refine ⟨_, rfl, fun l hl hm => ?_⟩
      rw [getLsbD_lanesOf _ _ (lane_lt hm), hm, decide_eq_true hl, ht]
      rfl

/-- Each row of a unit stands in a relation to the operation of its opcode. -/
def Rows (P : FixedRow → Start → Prop) : List FixedRow → List Start → Prop
  | [], [] => True
  | r :: rs, st :: sts => P r st ∧ Rows P rs sts
  | _, _ => False

theorem Rows.exists_of_mem {P Q : FixedRow → Start → Prop} {rs : List FixedRow} {sts : List Start} (hp : Rows P rs sts)
    (hq : Rows Q rs sts) {r : FixedRow} (hr : r ∈ rs) : ∃ st, P r st ∧ Q r st := by
  induction rs generalizing sts with
  | nil => cases hr
  | cons x rs ih =>
    cases sts with
    | nil => exact hp.elim
    | cons st sts =>
      cases hr with
      | head => exact ⟨st, hp.1, hq.1⟩
      | tail _ hr => exact ih hp.2 hq.2 hr

/-- The operations of IA and IB, by opcode (R85). -/
def aluStarts : List Start :=
  [startAdd, startSub, startRsub, startNeg, startAnd, startOr, startXor, startAndn, startOrn, startMinS, startMinN,
    startMaxS, startMaxN, startAbs, startAddSatS, startAddSatN, startSubSatS, startSubSatN, startAvgN, startAbsdN,
    startMov, startAddsh1, startAddsh2, startAddsh3, startAddc, startSubb]

/-- The operations of SH, by opcode (R87 to R89). -/
def shiftStarts : List Start :=
  [startShl, startShrN, startShrS, startRotl, startRotr, startBfxN, startBfxS, startBfi, startClz, startCtz, startPopc,
    startBrev, startBswap, startFshl, startFshr, startPklo, startPkhi, startSext8, startSext16, startZext8, startZext16]

/-- The operations of IM, by opcode (R90). -/
def mulStarts : List Start :=
  [startMulLo, startMulHiS, startMulHiN, startMadLo, startDot4S8, startDot4N8, startDot2S16]

theorem iaResults_start : Rows StartsAs iaResults aluStarts := by
  refine ⟨?_, ?_, ?_, ?_, ?_, ?_, ?_, ?_, ?_, ?_, ?_, ?_, ?_, ?_, ?_, ?_, ?_, ?_, ?_, ?_, ?_, ?_, ?_, ?_, ?_, ?_,
    trivial⟩ <;>
    exact fun _ _ => rfl
theorem ibResults_start : Rows StartsAs ibResults aluStarts := by
  refine ⟨?_, ?_, ?_, ?_, ?_, ?_, ?_, ?_, ?_, ?_, ?_, ?_, ?_, ?_, ?_, ?_, ?_, ?_, ?_, ?_, ?_, ?_, ?_, ?_, ?_, ?_,
    trivial⟩ <;>
    exact fun _ _ => rfl
theorem shResults_start : Rows StartsAs shResults shiftStarts := by
  refine ⟨?_, ?_, ?_, ?_, ?_, ?_, ?_, ?_, ?_, ?_, ?_, ?_, ?_, ?_, ?_, ?_, ?_, ?_, ?_, ?_, ?_,
    trivial⟩ <;> exact fun _ _ => rfl
theorem imResults_start : Rows StartsAs imResults mulStarts := by
  refine ⟨?_, ?_, ?_, ?_, ?_, ?_, ?_, trivial⟩ <;> exact fun _ _ => rfl

theorem computes_lane {i : MoveF → Instr} {u o : Nat} {f : W32 → W32 → W32 → Bool → W32} {g : W32 → W32 → W32 → W32}
    (h : ∀ a b t k, f a b t k = g a b t) : Computes (FixedRow.int i u o f none) (lane3 g) :=
  .lane g (fun a b t k => congrArg zx (h a b t k)) rfl rfl (fun _ _ _ => rfl)

theorem computes_latch {i : MoveF → Instr} {u o : Nat} {f : W32 → W32 → W32 → Bool → W32} {k : W32 → W32 → Bool → Bool}
    {g : W32 → W32 → Bool → W32 × Bool} (h : ∀ a b t c, f a b t c = (g a t c).1) (hk : ∀ a t c, k a t c = (g a t c).2) :
    Computes (FixedRow.int i u o f (some k)) (laneCarry g) :=
  .latch g (fun a b t c => congrArg zx (h a b t c)) (congrArg some (by funext a t c; exact hk a t c)) rfl
    (fun _ _ _ => rfl)

theorem computes_same {i : MoveF → Instr} {u o : Nat} {g : W32 → W32 → W32 → W32} :
    Computes (FixedRow.int i u o (fun a b t _ => g a b t) none) (lane3 g) := computes_lane fun _ _ _ _ => rfl

theorem iaResults_compute : Rows Computes iaResults aluStarts := by
  simp only [iaResults, aluStarts, Rows, lane1, lane2,
    startAdd, startSub, startRsub, startNeg, startAnd, startOr, startXor, startAndn, startOrn, startMinS, startMinN,
    startMaxS, startMaxN, startAbs, startAddSatS, startAddSatN, startSubSatS, startSubSatN, startAvgN, startAbsdN,
    startMov, startAddsh1, startAddsh2, startAddsh3, startAddc, startSubb, List.cons_append, List.nil_append, and_true]
  refine ⟨computes_latch (fun _ _ _ _ => rfl) (fun _ _ _ => rfl),
    computes_latch (fun _ _ _ _ => rfl) (fun _ _ _ => rfl),
    computes_same, computes_lane (fun _ _ t _ => BitVec.zero_sub t), computes_same, computes_same, computes_same,
    computes_same, computes_same, computes_lane (fun a _ t _ => (ite_toInt_le a t).symm),
    computes_lane (fun a _ t _ => (ite_toNat_le a t).symm),
    computes_lane (fun a _ t _ => (ite_toInt_ge a t).symm), computes_lane (fun a _ t _ => (ite_toNat_ge a t).symm),
    computes_lane (fun _ _ t _ => (alAbs_eq t).symm), computes_same, computes_lane (fun a _ t _ => (satN_add a t).symm),
    computes_same, computes_lane (fun a _ t _ => (satN_sub a t).symm), computes_same,
    computes_lane (fun a _ t _ => (alAbsdN_eq a t).symm), computes_same,
    computes_lane (fun a _ t _ => congrArg (a + ·) (mul_pow_two_eq t 1).symm),
    computes_lane (fun a _ t _ => congrArg (a + ·) (mul_pow_two_eq t 2).symm),
    computes_lane (fun a _ t _ => congrArg (a + ·) (mul_pow_two_eq t 3).symm),
    computes_latch (fun _ _ _ k => by rw [alAddc, b2n_eq]) (fun _ _ k => by rw [alAddc, b2n_eq]),
    computes_latch (fun _ _ _ k => by rw [alSubb, b2n_eq]) (fun _ _ k => by rw [alSubb, b2n_eq])⟩

theorem Computes.rename {r : FixedRow} {st : Start} (h : Computes r st) (i : MoveF → Instr) (u : Nat) :
    Computes { r with instr := i, unit := u } st := by
  cases h with
  | lane g hv hc hk he => exact .lane g hv hc hk he
  | latch g hv hc hk he => exact .latch g hv hc hk he

theorem Rows.rename {rs : List FixedRow} {sts : List Start} (h : Rows Computes rs sts) (u : Nat)
    (is : List (MoveF → Instr)) (hl : is.length = rs.length) :
    Rows Computes (rs.zipWith (fun r i => { r with instr := i, unit := u }) is) sts := by
  induction rs generalizing sts is with
  | nil => exact h
  | cons r rs ih =>
    cases sts with
    | nil => exact h.elim
    | cons st sts =>
      cases is with
      | nil => cases hl
      | cons i is => exact ⟨h.1.rename i u, ih h.2 is (Nat.succ.inj hl)⟩

/-- IB computes what IA computes (R85). -/
theorem ibResults_compute : Rows Computes ibResults aluStarts :=
  iaResults_compute.rename U.ib
    [.ibAdd, .ibSub, .ibRsub, .ibNeg, .ibAnd, .ibOr, .ibXor, .ibAndn, .ibOrn, .ibMinS, .ibMinN, .ibMaxS, .ibMaxN,
      .ibAbs, .ibAddSatS, .ibAddSatN, .ibSubSatS, .ibSubSatN, .ibAvgN, .ibAbsdN, .ibMov, .ibAddsh1, .ibAddsh2,
      .ibAddsh3, .ibAddc, .ibSubb] rfl

theorem shResults_compute : Rows Computes shResults shiftStarts := by
  simp only [shResults, shiftStarts, Rows, lane1, lane2,
    startShl, startShrN, startShrS, startRotl, startRotr, startBfxN, startBfxS, startBfi, startClz, startCtz, startPopc,
    startBrev, startBswap, startFshl, startFshr, startPklo, startPkhi, startSext8, startSext16, startZext8, startZext16,
     List.cons_append, List.nil_append, and_true]
  refine ⟨computes_same, computes_same, computes_same, computes_lane (fun a _ t _ => (rotl_eq a t).symm),
    computes_lane (fun a _ t _ => (rotr_eq a t).symm), computes_lane (fun a _ t _ => (bfxN_eq a t).symm),
    computes_lane (fun a _ t _ => (bfxS_eq a t).symm), computes_same, computes_same, computes_same, computes_same,
    computes_same, computes_same, computes_lane (fun a b t _ => (fshl_eq a b t).symm),
    computes_lane (fun a b t _ => (fshr_eq a b t).symm), computes_lane (fun a _ t _ => (pklo_eq a t).symm),
    computes_lane (fun a _ t _ => (pkhi_eq a t).symm),
    computes_lane (fun _ _ t _ => congrArg (BitVec.signExtend 32) (truncate_eq_extract t 8).symm),
    computes_lane (fun _ _ t _ => congrArg (BitVec.signExtend 32) (truncate_eq_extract t 16).symm),
    computes_lane (fun _ _ t _ => (and_mask_eq t 8).symm),
    computes_lane (fun _ _ t _ => (and_mask_eq t 16).symm)⟩

theorem imResults_compute : Rows Computes imResults mulStarts := by
  simp only [imResults, mulStarts, Rows, lane2,
    startMulLo, startMulHiS, startMulHiN, startMadLo, startDot4S8, startDot4N8, startDot2S16,
     and_true]
  refine ⟨computes_lane (fun a _ t _ => (mulLo_eq a t).symm), computes_lane (fun a _ t _ => (mulHiS_eq _).symm),
    computes_same,
    computes_lane (fun a b t _ => (madLo_eq a b t).symm), computes_same, computes_same, computes_same⟩

theorem opcodes_lt {rs : List FixedRow} {u : Nat} (hu : 1 ≤ u ∧ u ≤ 4)
    (h : rs.map (fun r => (r.unit, r.opcode)) = (List.range rs.length).map (fun o => (u, o))) (hl : rs.length ≤ 256)
      {r : FixedRow} (hr : r ∈ rs) :
    (1 ≤ r.unit ∧ r.unit ≤ 4) ∧ r.opcode < 256 := by
  have : (r.unit, r.opcode) ∈ rs.map (fun r => (r.unit, r.opcode)) := List.mem_map_of_mem hr
  rw [h, List.mem_map] at this
  obtain ⟨o, ho, e⟩ := this
  have := List.mem_range.mp ho
  simp only [Prod.mk.injEq] at e
  omega

/-- Settles O10: each row is the one-move bundle that starts the operation of its opcode (`StartsAs`), and that
operation computes the row's value and carry bits (`Computes`). -/
theorem integerResults : Obligations.IntegerResults := by
  intro r m s c0 hr h
  have run : ∀ {rs : List FixedRow} {sts : List Start} {u : Nat}, Rows StartsAs rs sts → Rows Computes rs sts →
      rs.map (fun r => (r.unit, r.opcode)) = (List.range rs.length).map (fun o => (u, o)) → (1 ≤ u ∧ u ≤ 4) →
        rs.length ≤ 256 →
      r ∈ rs → r.Runs m s c0 := by
    intro rs sts u hx hc hop hu hl hr
    obtain ⟨st, hst, hcomp⟩ := hx.exists_of_mem hc hr
    obtain ⟨h1, h2⟩ := opcodes_lt hu hop hl hr
    exact hcomp.runs hst h1 h2 h
  simp only [List.mem_append] at hr
  obtain ((hr | hr) | hr) | hr := hr
  · exact run iaResults_start iaResults_compute (u := 1) rfl (by decide) (by decide) hr
  · exact run ibResults_start ibResults_compute (u := 2) rfl (by decide) (by decide) hr
  · exact run shResults_start shResults_compute (u := 3) rfl (by decide) (by decide) hr
  · exact run imResults_start imResults_compute (u := 4) rfl (by decide) (by decide) hr

/-- What the move of a one-trigger bundle is (R40). -/
theorem isTrig_syllable {u o : Nat} (m : MoveF) (hu : u < 32) (h0 : u ≠ 0) (ho : o < 256) :
    (Move.of 0 (syllable true u 3 o m)).isTrig = true := by
  obtain ⟨f1, f2, -⟩ := Move.of_syllable u 3 o m hu (by decide) ho
  simp [Move.isTrig, f1, f2, h0]

/-- The context in which the operation of a one-move bundle of `cur` starts. -/
def atStart (c : Ctx) (s : State) (b : Bundle) (m : Move) : Ctx := c.after b (s.fold s.cur.fold).cycle (c.begun b m)

/-- An operation that changes its context alone, to `f` of it. -/
def ActsBy (st : Start) (f : Ctx → Trig → Ctx) : Prop :=
  ∀ (v : State) (id : CtxId) (t : Trig) (c : Ctx), v.ctx id = some c → st v id t = v.setCtx id (f c t)

/-- The state in which the operation of the one move of a bundle of `cur` starts. -/
def beginState (s : State) (c : Ctx) (b : Bundle) (m : Move) : State := (s.setCtx s.cur c).begun s.cur c b m

/-- A trigger row whose operation changes its context alone: what `exec` answers, from what the operation makes of the
context that the bundle leaves. The memory moves that it queues stand in the order of their passes (R145). -/
theorem issueOne_started {s : State} {c0 : Ctx} {u o : Nat} {m : MoveF} {st : Start} (x : Ctx)
    (hu : u < 32) (h0 : u ≠ 0) (ho : o < 256) (hsv : u = U.sv → 3 < o) (h : s.Fires c0 (syllable true u 3 o m))
    (hst : st (beginState s c0.land (Bundle.one (syllable true u 3 o m) s.curPc)
      (Move.of 0 (syllable true u 3 o m))) s.cur
        (c0.land.trigOf (Bundle.one (syllable true u 3 o m) s.curPc) (Move.of 0 (syllable true u 3 o m))) =
      (beginState s c0.land (Bundle.one (syllable true u 3 o m) s.curPc)
        (Move.of 0 (syllable true u 3 o m))).setCtx s.cur x)
    (htid : x.tid = c0.land.tid) (hl : x.loop = c0.land.loop) (hts : x.tstatus = c0.land.tstatus)
    (hfp : x.fpCtl = c0.land.fpCtl) :
    ∃ t c', issueOne (syllable true u 3 o m) st s = .next t ∧ t.ctx s.cur = some c' ∧ s.Frame t ∧
      c'.Is { x with us := x.us.ticked, memq := queued c0.land.memq x.memq } := by
  obtain ⟨k1, k2, k3, k4, k5, k6, -⟩ := Ctx.land_keeps c0
  obtain ⟨f1, f2, f3, -⟩ := Move.of_syllable u 3 o m hu (by decide) ho
  obtain ⟨t, c', e1, e2, e3, e4⟩ := issueOne_runs st h.1 (isTrig_syllable m hu h0 ho) (guardMask_ne_zero h)
    (by rw [f1, f3]; exact hsv) _ hst (State.ctx_setCtx_same _ _ _) (htid.trans k2) (hl.trans k1) (hts.trans k6) hfp rfl
  refine ⟨t, c', e1, e2, ?_, e3⟩
  exact (((State.setCtx_frame s _).trans' (State.begun_frame _ _ _ _)).trans' (State.setCtx_frame _ _)).trans' e4

/-- The same where the operation queues no memory move and reads nothing but its context and the folds. -/
theorem issueOne_setCtx {s : State} {c0 : Ctx} {u o : Nat} {m : MoveF} {st : Start} (x : Ctx)
    (hu : u < 32) (h0 : u ≠ 0) (ho : o < 256) (hsv : u = U.sv → 3 < o) (h : s.Fires c0 (syllable true u 3 o m))
    (hst : ∀ v : State, v.folds = s.folds → v.ctx s.cur = some (atStart c0.land s
        (Bundle.one (syllable true u 3 o m) s.curPc) (Move.of 0 (syllable true u 3 o m))) →
      st v s.cur (c0.land.trigOf (Bundle.one (syllable true u 3 o m) s.curPc) (Move.of 0 (syllable true u 3 o m))) =
        v.setCtx s.cur x)
    (htid : x.tid = c0.land.tid) (hl : x.loop = c0.land.loop) (hts : x.tstatus = c0.land.tstatus)
    (hfp : x.fpCtl = c0.land.fpCtl) (hq : x.memq = c0.land.memq) :
    ∃ t c', issueOne (syllable true u 3 o m) st s = .next t ∧ t.ctx s.cur = some c' ∧ s.Frame t ∧
      c'.Is { x with us := x.us.ticked } := by
  obtain ⟨t, c', e1, e2, e3, e4⟩ := issueOne_started x hu h0 ho hsv h (hst _ rfl (State.begun_ctx ..)) htid hl hts hfp
  rw [hq, queued_self, ← hq] at e4
  exact ⟨t, c', e1, e2, e3, e4⟩

theorem begun_fixed {c : Ctx} {b : Bundle} {m : Move} (h : isVar m.dunit = false) : c.begun b m = c.withT b m := by
  simp [Ctx.begun, h]

theorem ticked_append (us : UnitState) (p : Pend) : ({ us with pend := us.pend ++ [p] } : UnitState).ticked =
    { us with pend := us.ticked.pend ++ [{ p with left := p.left - 1 }] } := by
  simp [UnitState.ticked]

/-- A trigger row of a fixed-latency unit whose operation puts one result in flight (R16). -/
theorem issueOne_pend {s : State} {c0 : Ctx} {u o : Nat} {m : MoveF} {st : Start} {pf : Ctx → Trig → Pend}
    (hst : ActsBy st (fun c t => { c with us := { c.us with pend := c.us.pend ++ [pf c t] } })) (hv : isVar u = false)
    (hu : u < 32) (h0 : u ≠ 0) (ho : o < 256) (h : s.Fires c0 (syllable true u 3 o m)) :
    let b := Bundle.one (syllable true u 3 o m) s.curPc
    let mv := Move.of 0 (syllable true u 3 o m)
    let c := c0.land
    let p := pf (c.after b (s.fold s.cur.fold).cycle (c.withT b mv)) (c.trigOf b mv)
    ∃ t c', issueOne (syllable true u 3 o m) st s = .next t ∧ t.ctx s.cur = some c' ∧ s.Frame t ∧
      c'.Is (c.after b (s.fold s.cur.fold).cycle
        { (c.withT b mv) with pend := c.us.ticked.pend ++ [{ p with left := p.left - 1 }] }) := by
  obtain ⟨f1, -⟩ := Move.of_syllable u 3 o m hu (by decide) ho
  have hb : c0.land.begun (Bundle.one (syllable true u 3 o m) s.curPc) (Move.of 0 (syllable true u 3 o m)) =
      c0.land.withT (Bundle.one (syllable true u 3 o m) s.curPc) (Move.of 0 (syllable true u 3 o m)) :=
    begun_fixed (by rw [f1]; exact hv)
  have hsv : u = U.sv → 3 < o := fun e => absurd (e ▸ hv) (by decide)
  obtain ⟨t, c', e1, e2, e3, e4⟩ := issueOne_setCtx _ hu h0 ho hsv h (fun v _ hv => hst v _ _ _ hv) rfl rfl rfl rfl rfl
  rw [atStart, hb] at e4
  exact ⟨t, c', e1, e2, e3, Eq.mp (congrArg (fun us => c'.Is (c0.land.after _ _ us)) (ticked_append _ _)) e4⟩

/-! ## UA (R101) -/

theorem uaStart_actsBy (g : W64 → W64 → W64 → W64) : ActsBy (uaStart g) (fun c t =>
    { c with us := { c.us with pend := c.us.pend ++ [{ t.pend 0 (fun _ => 0) with
      vals := [g ((c.us.unit t.unit).a.at 0) ((c.us.unit t.unit).b.at 0) ((c.us.unit t.unit).held.at 0)] }] } }) := by
  intro v id t c h
  simp only [uaStart, h, State.addPend, State.modCtx_eq h]

/-- The row is the bundle of one move that starts an operation of UA, which computes the row's value (R101). -/
def UniformComputes (r : UniformRow) : Prop :=
  ∃ g, (∀ m s, exec (r.instr m) s = issueOne (r.word m) (uaStart g) s) ∧ r.opcode < 256 ∧
    ∀ a b t, r.value a b t = g a b t

theorem UniformComputes.runs {r : UniformRow} (hr : UniformComputes r) {m : MoveF} {s : State} {c0 : Ctx}
    (h : s.Fires c0 (r.word m)) : r.Runs m s c0 := by
  obtain ⟨g, hx, ho, hf⟩ := hr
  obtain ⟨f1, -⟩ := Move.of_syllable U.ua 3 r.opcode m (by decide) (by decide) ho
  have hT := Ctx.withT_heldUniform (c := c0.land) (b := Bundle.one (r.word m) s.curPc) (m := Move.of 0 (r.word m))
    (by rw [UniformRow.word, f1]; rfl)
  obtain ⟨t, c', e1, e2, e3, e4⟩ := issueOne_pend (uaStart_actsBy g) rfl (by decide) (by decide) ho h
  refine ⟨t, c', _, (hx m s).trans e1, e2, e3, e4, ?_⟩
  simp only [UniformRow.word] at hT
  simp only [Trig.pend, Ctx.trigOf, f1, Ctx.after_us, Ctx.withT_a, Ctx.withT_b, UniformRow.word, hf] at hT ⊢
  exact ⟨trivial, rfl, trivial, trivial, by rw [hT]⟩

theorem uniform_same {i : MoveF → Instr} {o : Nat} {g : W64 → W64 → W64 → W64}
    (hx : ∀ m s, exec (i m) s = issueOne (syllable true U.ua 3 o m) (uaStart g) s) (ho : o < 256) :
    UniformComputes ⟨i, o, g⟩ := ⟨g, hx, ho, fun _ _ _ => rfl⟩

theorem uaResults_compute : ∀ r ∈ uaResults, UniformComputes r := by
  simp only [uaResults, List.forall_mem_cons, List.not_mem_nil, false_implies, implies_true, and_true]
  refine ⟨uniform_same (fun _ _ => rfl) (by decide), uniform_same (fun _ _ => rfl) (by decide),
    uniform_same (fun _ _ => rfl) (by decide), uniform_same (fun _ _ => rfl) (by decide),
    uniform_same (fun _ _ => rfl) (by decide), uniform_same (fun _ _ => rfl) (by decide),
    uniform_same (fun _ _ => rfl) (by decide), uniform_same (fun _ _ => rfl) (by decide),
    ⟨_, fun _ _ => rfl, by decide, fun _ _ _ => BitVec.mul_def.symm⟩,
    ⟨_, fun _ _ => rfl, by decide, fun a _ t => (ite_toInt_le a t).symm⟩,
    ⟨_, fun _ _ => rfl, by decide, fun a _ t => (ite_toNat_le a t).symm⟩,
    ⟨_, fun _ _ => rfl, by decide, fun a _ t => (ite_toInt_ge a t).symm⟩,
    ⟨_, fun _ _ => rfl, by decide, fun a _ t => (ite_toNat_ge a t).symm⟩,
    ⟨_, fun _ _ => rfl, by decide, fun a b t => (ite_not (t = 0) a b).symm⟩,
    uniform_same (fun _ _ => rfl) (by decide), uniform_same (fun _ _ => rfl) (by decide),
    uniform_same (fun _ _ => rfl) (by decide), uniform_same (fun _ _ => rfl) (by decide),
    uniform_same (fun _ _ => rfl) (by decide), uniform_same (fun _ _ => rfl) (by decide),
    uniform_same (fun _ _ => rfl) (by decide), uniform_same (fun _ _ => rfl) (by decide)⟩

/-- Settles O12: each row starts an operation of UA that computes the row's value (`uaResults_compute`). -/
theorem uniformResults : Obligations.UniformResults := fun r _ _ _ hr h => (uaResults_compute r hr).runs h

/-! ## BR (R94 to R97) -/

/-- No step of a loop record runs in the context. -/
def NoStep (c : Ctx) : Prop := ∀ q, c.loop = some q → q.started = false

/-- Where no step of a loop record runs, a branch to an even target acts (R97, R100). -/
theorem jump_even {v : State} {id : CtxId} {t : Trig} {c : Ctx} {target : W64} (hv : v.ctx id = some c)
    (hl : NoStep c) (he : target.getLsbD 0 = false) (f : Ctx → Ctx) : v.jump id t target f = v.setCtx id (f c) := by
  unfold State.jump
  rw [State.modCtx_eq hv, he]
  cases e : c.loop with
  | none => rfl
  | some q => simp [hl q e]

/-- Where a branch that starts in `c` goes (R94). -/
def startTarget (r : BranchRow) (c : Ctx) (t : Trig) : W64 :=
  if r.abs then (c.us.unit U.br).held.at 0 else t.pc + (c.us.unit U.br).held.at 0

/-- The row is the bundle of one move that starts a branch, taken as the row says where no step of a loop record runs
(R94 to R97). Whether it is taken depends on the predicates, the live lanes and BR.A alone. -/
structure Branches (r : BranchRow) (st : Start) : Prop where
  exec_eq : ∀ m s, exec (r.instr m) s = issueOne (r.word m) st s
  opcode_lt : r.opcode < 256
  taken_after : ∀ (c : Ctx) (b : Bundle) (now : Nat) (us : UnitState), (us.unit U.br).a = (c.us.unit U.br).a →
    r.taken (c.after b now us) = r.taken c
  taken : ∀ (v : State) (id : CtxId) (t : Trig) (c : Ctx), v.ctx id = some c → NoStep c → t.unit = U.br →
    t.preds = c.k →
    r.taken c = true → (startTarget r c t).getLsbD 0 = false → st v id t = v.setCtx id
      { c with pc := startTarget r c t, lines := [], s := if r.link then Tbl.put c.s 31 t.next else c.s }
  untaken : ∀ (v : State) (id : CtxId) (t : Trig) (c : Ctx), v.ctx id = some c → NoStep c → t.unit = U.br →
    t.preds = c.k →
    r.taken c = false → st v id t = v.setCtx id c

/-- A conditional branch, relative to its header's address (R94, R95). -/
theorem Branches.cond {i : MoveF → Instr} {o : Nat} {p : Ctx → Bool} (cond : Ctx → Trig → Bool)
    (hx : ∀ m s, exec (i m) s = issueOne (syllable true U.br 3 o m) (startCond cond) s) (ho : o < 256)
    (hp : ∀ (c : Ctx) (b : Bundle) (now : Nat) (us : UnitState), (us.unit U.br).a = (c.us.unit U.br).a →
      p (c.after b now us) = p c)
    (hc : ∀ (c : Ctx) (t : Trig), t.unit = U.br → t.preds = c.k → cond c t = p c) :
    Branches ⟨i, o, false, p, false⟩ (startCond cond) where
  exec_eq := hx
  opcode_lt := ho
  taken_after := hp
  taken := by
    intro v id t c hv hl hu hk ht he
    have e : startTarget ⟨i, o, false, p, false⟩ c t = c.relTarget t := by simp [startTarget, Ctx.relTarget, hu]
    rw [e] at he ⊢
    simp only [startCond, hv, (hc c t hu hk).trans ht, if_true]
    exact jump_even hv hl he _
  untaken := by
    intro v id t c hv hl hu hk ht
    simp only [startCond, hv, (hc c t hu hk).trans ht, Bool.false_eq_true, if_false]
    exact jump_even hv hl rfl _

/-- A branch on a predicate over the live lanes, as its bundle's issue found it (R95). -/
theorem Branches.pred {i : MoveF → Instr} {o : Nat} {k : BitVec 3} (f : Lanes → Lanes → Bool)
    (hx : ∀ m s, exec (i m) s = issueOne (syllable true U.br 3 o m)
      (startCond (fun c t => f (t.pred k.toNat) c.live)) s)
    (ho : o < 256) : Branches ⟨i, o, false, fun c => f (c.pred k.toNat) c.live, false⟩
      (startCond (fun c t => f (t.pred k.toNat) c.live)) :=
  .cond _ hx ho (fun _ _ _ _ _ => rfl) (fun c t _ hk => by simp only [Trig.pred, Ctx.pred, hk])

/-- A branch on BR.A (R95). -/
theorem Branches.onA {i : MoveF → Instr} {o : Nat} (f : W64 → Bool)
    (hx : ∀ m s, exec (i m) s = issueOne (syllable true U.br 3 o m) (startCond (fun c t => f (c.brA t))) s)
    (ho : o < 256) : Branches ⟨i, o, false, fun c => f ((c.us.unit U.br).a.at 0), false⟩
      (startCond (fun c t => f (c.brA t))) :=
  .cond _ hx ho (fun c b now us h => by simp only [Ctx.after_us, h]) (fun c t hu _ => by rw [Ctx.brA, hu])

/-- A call, which writes the link (R96). -/
theorem Branches.call {i : MoveF → Instr} {o : Nat}
    (hx : ∀ m s, exec (i m) s = issueOne (syllable true U.br 3 o m) startCall s) (ho : o < 256) :
    Branches ⟨i, o, false, fun _ => true, true⟩ startCall where
  exec_eq := hx
  opcode_lt := ho
  taken_after := fun _ _ _ _ _ => rfl
  taken := by
    intro v id t c hv hl hu hk _ he
    have e : startTarget ⟨i, o, false, fun _ => true, true⟩ c t = c.relTarget t :=
      by simp [startTarget, Ctx.relTarget, hu]
    rw [e] at he ⊢
    simp only [startCall, hv]
    exact jump_even hv hl he _
  untaken := fun _ _ _ _ _ _ _ _ h => absurd h (by simp)

/-- A jump to T itself (R94, R96). -/
theorem Branches.abs {i : MoveF → Instr} {o : Nat}
    (hx : ∀ m s, exec (i m) s = issueOne (syllable true U.br 3 o m) startJr s) (ho : o < 256) :
    Branches ⟨i, o, true, fun _ => true, false⟩ startJr where
  exec_eq := hx
  opcode_lt := ho
  taken_after := fun _ _ _ _ _ => rfl
  taken := by
    intro v id t c hv hl hu hk _ he
    simp only [startTarget, if_true] at he ⊢
    simp only [startJr, hv, hu]
    exact jump_even hv hl he _
  untaken := fun _ _ _ _ _ _ _ _ h => absurd h (by simp)

/-- Every branch of BR starts as its row says. -/
theorem branches_start (k : BitVec 3) : ∀ r ∈ branches k, ∃ st, Branches r st := by
  have hk := k.isLt
  simp only [branches, List.forall_mem_cons, List.not_mem_nil, false_implies, implies_true, and_true]
  refine ⟨⟨_, .cond (fun _ _ => true) (fun _ _ => rfl) (by decide) (fun _ _ _ _ _ => rfl) (fun _ _ _ _ => rfl)⟩,
    ⟨_, .pred (fun p l => p &&& l != 0) (fun _ _ => rfl) (by omega)⟩,
    ⟨_, .pred (fun p l => p &&& l == l) (fun _ _ => rfl) (by omega)⟩,
    ⟨_, .pred (fun p l => p &&& l == 0) (fun _ _ => rfl) (by omega)⟩,
    ⟨_, .onA (fun a => a == 0) (fun _ _ => rfl) (by decide)⟩,
    ⟨_, .onA (fun a => a != 0) (fun _ _ => rfl) (by decide)⟩,
    ⟨_, .cond (fun c t => (c.brA t).msb) (fun _ _ => rfl) (by decide)
      (fun c b now us h => by simp only [Ctx.after_us, h])
      (fun c t hu _ => by rw [Ctx.brA, hu, BitVec.msb_eq_toInt])⟩,
    ⟨_, .cond (fun c t => !(c.brA t).msb) (fun _ _ => rfl) (by decide)
      (fun c b now us h => by simp only [Ctx.after_us, h])
      (fun c t hu _ => by simp only [Ctx.brA, hu, BitVec.msb_eq_toInt, ← decide_not, not_lt])⟩,
    ⟨_, .call (fun _ _ => rfl) (by decide)⟩, ⟨_, .abs (fun _ _ => rfl) (by decide)⟩,
      ⟨_, .abs (fun _ _ => rfl) (by decide)⟩⟩

/-- T of BR in the context in which a branch starts is the value of the lowest guarded lane (R14). -/
theorem branch_held {c : Ctx} {s : State} {b : Bundle} {m : Move} (hm : m.dunit = U.br) :
    ((atStart c s b m).us.unit U.br).held.at 0 = c.src b m (Lanes.low (c.guardMask m) c.nlanes) := by
  have hb : c.begun b m = c.withT b m := begun_fixed (by rw [hm]; rfl)
  have hT := Ctx.withT_heldUniform (c := c) (b := b) (m := m) (by rw [hm]; rfl)
  rw [hm] at hT
  rw [atStart, Ctx.after_us, hb, hT]

section
variable {r : BranchRow} {st : Start} (hr : Branches r st) {m : MoveF} {s : State} {c0 : Ctx}
  (h : s.Fires c0 (r.word m))
include hr h

/-- What a branch of BR leaves, from the context that its operation leaves. -/
theorem Branches.runs (x : Ctx)
    (hst : ∀ v : State, v.ctx s.cur = some (atStart c0.land s (Bundle.one (r.word m) s.curPc) (Move.of 0 (r.word m))) →
      st v s.cur (c0.land.trigOf (Bundle.one (r.word m) s.curPc) (Move.of 0 (r.word m))) = v.setCtx s.cur x)
    (htid : x.tid = c0.land.tid) (hl : x.loop = c0.land.loop) (hts : x.tstatus = c0.land.tstatus)
    (hfp : x.fpCtl = c0.land.fpCtl) (hq : x.memq = c0.land.memq) :
    ∃ t c', exec (r.instr m) s = .next t ∧ t.ctx s.cur = some c' ∧ s.Frame t ∧ c'.Is { x with us := x.us.ticked } := by
  rw [hr.exec_eq]
  exact issueOne_setCtx x (by decide) (by decide) hr.opcode_lt (fun e => absurd e (by decide)) h
    (fun v _ => hst v) htid hl hts hfp hq

omit h in
theorem Branches.dunit : (Move.of 0 (r.word m)).dunit = U.br :=
  (Move.of_syllable U.br 3 r.opcode m (by decide) (by decide) hr.opcode_lt).1

omit h in
/-- Whether a branch is taken does not change between the issue of its bundle and its operation (R95). -/
theorem Branches.taken_atStart (b : Bundle) :
    r.taken (atStart c0.land s b (Move.of 0 (r.word m))) = r.taken c0.land := by
  have hb : c0.land.begun b (Move.of 0 (r.word m)) = c0.land.withT b (Move.of 0 (r.word m)) :=
    begun_fixed (by rw [hr.dunit]; rfl)
  exact hr.taken_after _ _ _ _ (by rw [hb, Ctx.withT_a])

omit hr in
theorem noStep_atStart (b : Bundle) (mv : Move) : NoStep (atStart c0.land s b mv) := by
  obtain ⟨k1, -⟩ := Ctx.land_keeps c0
  exact fun q e => h.1.loop q (k1 ▸ e)

end

/-- Settles O18: a taken branch to an even target leaves the context that `Branches.taken` gives, with T the lowest
guarded lane's value (`branch_held`). -/
theorem branchesTaken : Obligations.BranchesTaken := by
  intro k r m s c0 hr h b mv c ht he
  obtain ⟨st, hst⟩ := branches_start k r hr
  have hm : mv.dunit = U.br := hst.dunit
  have hT : startTarget r (atStart c s b mv) (c.trigOf b mv) = r.target c b mv := by
    rw [startTarget, BranchRow.target, branch_held hm]
    rfl
  have hx := fun (v : State) hv => hst.taken v s.cur (c.trigOf b mv) _ hv (noStep_atStart h b mv) hm rfl
    ((hst.taken_atStart b).trans ht) (by rw [hT]; exact he)
  rw [hT] at hx
  exact hst.runs h _ hx rfl rfl rfl rfl rfl

/-- Settles O19: a branch that is not taken leaves the context in which its operation starts (`Branches.untaken`). -/
theorem branchesNotTaken : Obligations.BranchesNotTaken := by
  intro k r m s c0 hr h ht
  obtain ⟨st, hst⟩ := branches_start k r hr
  exact hst.runs h _ (fun v hv => hst.untaken v s.cur _ _ hv (noStep_atStart h _ _) (hst.dunit) rfl
    ((hst.taken_atStart _).trans ht)) rfl rfl rfl rfl rfl

/-! ## Results that land (R16) -/

/-- A context that is not in an idle count lands its one result when that is due. -/
theorem land_single {c : Ctx} {p : Pend} (hi : ∀ n, c.wait ≠ .idle n) (hp : c.us.pend = [p]) (h0 : p.left = 0) :
    ∃ d, c.land = { ({ c with us := { c.us with pend := [] } } : Ctx).landOne p with due := d } := by
  have hl : c.land = c.landWithin 1 := by
    unfold Ctx.land
    split
    · exact absurd ‹_› (hi _)
    · rfl
  obtain ⟨us, k, x, h⟩ := Ctx.landOne_only ({ c with us := { c.us with pend := [] } } : Ctx) p
  have hd : c.dueWithin 1 = [p] := by simp [Ctx.dueWithin, hp, h0]
  have hf : c.us.pend.filter (fun p => !decide (p.left < 1)) = [] := by simp [hp, h0]
  rw [hl]
  unfold Ctx.landWithin
  simp only [hd, hf, List.isEmpty_cons, Bool.false_eq_true, if_false, List.foldl_cons, List.foldl_nil]
  split
  · exact ⟨_, rfl⟩
  · exact ⟨_, rfl⟩

/-- What a compare leaves (R92). -/
theorem landOne_cm {c : Ctx} {p : Pend} (h : p.unit = U.cm) : c.landOne p = { c with
    k := if p.kdst = 0 then c.k else Tbl.upd c.k p.kdst.toNat 0 (fun old => (old &&& ~~~(p.mask &&& c.live)) |||
        ((p.mask &&& c.live) &&& Lanes.of c.nlanes (fun l => (p.vals.at l).getLsbD 0)))
    fpCtl := c.fpCtl ||| (excUnion (p.mask &&& c.live) c.nlanes p.excs).zeroExtend 64 } := by
  unfold Ctx.landOne stick
  simp only [if_pos h]
  split_ifs <;> rfl

/-- The carry latch after a result has landed on the lanes of `m` (R86). -/
def landedCarry (p : Pend) (m old : Lanes) : Lanes :=
  match p.carry with
  | some x => (old &&& ~~~m) ||| (x &&& m)
  | none => old

/-- What a result of another unit leaves (R16, R86). -/
theorem landOne_unit {c : Ctx} {p : Pend} (h : p.unit ≠ U.cm) : c.landOne p = { c with
    us := c.us.setUnit p.unit { c.us.unit p.unit with
      r := if p.unit = U.ua then p.vals else
        Vals.merge c.nlanes (p.mask &&& c.live) (fun l => p.vals.at l) (c.us.unit p.unit).r
      carry := landedCarry p (p.mask &&& c.live) (c.us.unit p.unit).carry }
    fpCtl := c.fpCtl ||| (excUnion (p.mask &&& c.live) c.nlanes p.excs).zeroExtend 64 } := by
  unfold Ctx.landOne stick
  simp only [if_neg h]
  rfl

/-- A bit of lanes after the lanes of a mask have been replaced. -/
theorem getLsbD_replace (old m new : Lanes) (l : Nat) :
    ((old &&& ~~~m) ||| (new &&& m)).getLsbD l = if m.getLsbD l then new.getLsbD l else old.getLsbD l := by
  by_cases h : l < 1024
  · cases hm : m.getLsbD l <;> simp [BitVec.getLsbD_and, BitVec.getLsbD_or, BitVec.getLsbD_not, hm, h,
      -BitVec.getLsbD_eq_getElem]
  · simp [BitVec.getLsbD_of_ge _ _ (Nat.le_of_not_lt h)]

/-- A predicate's bit after the lanes of a mask have been replaced (R21). -/
theorem getLsbD_replace_of {old m : Lanes} {n : Nat} {f : Nat → Bool} {l : Nat} (hn : l < n) (hl : l < 1024) :
    ((old &&& ~~~m) ||| (m &&& Lanes.of n f)).getLsbD l = if m.getLsbD l then f l else old.getLsbD l := by
  rw [BitVec.and_comm m, getLsbD_replace, getLsbD_lanesOf n f hl]
  simp [hn]

/-- The event of a landing: the row of a unit and the row of CM. -/
theorem exec_land {id : CtxId} {u : UnitId} {s : State} {c : Ctx} {p : Pend} (hc : s.ctx id = some c)
    (hp : c.us.pend = [p]) (h0 : p.left = 0) (hu : p.unit = unitCode u) :
    exec (if p.unit = U.cm then .cmPredicateLand id else .fixedResultLand id u) s = .next (s.setCtx id c.land) := by
  split
  · rename_i h
    show execCmPredicateLand id s = _
    simp [execCmPredicateLand, hc, hp, h0, h]
  · show execFixedResultLand id u s = _
    simp [execFixedResultLand, hc, hp, h0, hu]

/-- Settles O16: the event lands the one result (`exec_land`, `land_single`), a compare's in its predicate
(`landOne_cm`), another's in its unit (`landOne_unit`). -/
theorem resultsLand : Obligations.ResultsLand := by
  intro id u s c p hc hi hp h0 hu
  obtain ⟨d, hd⟩ := land_single hi hp h0
  have hne : ∀ j, CtxId.key j ≠ CtxId.key id → (s.setCtx id c.land).ctx j = s.ctx j :=
    fun j hj => State.ctx_setCtx_ne s _ hj
  refine ⟨_, c.land, exec_land hc hp h0 hu, State.ctx_setCtx_same _ _ _, ?_⟩
  by_cases hcm : p.unit = U.cm
  · rw [landOne_cm hcm] at hd
    simp only [hd, hcm, ne_eq, not_true_eq_false, false_implies, true_implies, true_and, State.setCtx_mem]
    refine ⟨fun h => absurd h (by decide), ?_, fun hk => if_pos hk, hd ▸ hne⟩
    intro hk l hn hl
    have hk0 : p.kdst.toNat ≠ 0 := fun e => hk (BitVec.eq_of_toNat_eq e)
    simp only [Ctx.pred, if_neg hk, if_neg hk0, Tbl.get_upd_same]
    exact getLsbD_replace_of hn hl
  · rw [landOne_unit hcm] at hd
    simp only [hd, hcm, ne_eq, not_false_eq_true, false_implies, true_implies, true_and, State.setCtx_mem,
      UnitState.unit_setUnit_same, UnitState.setUnit_pend, UnitState.setUnit_flags]
    refine ⟨fun hua l hn => ?_, fun hua => ?_, fun k hk l => ?_, hd ▸ hne⟩
    · rw [if_neg hua, Vals.at_merge _ _ _ hn]
      rfl
    · rw [← hua, UnitState.unit_setUnit_same, if_pos rfl]
    · rw [landedCarry, hk]
      exact getLsbD_replace _ _ _ _

/-! ## Completions (R18 to R20) -/

/-- Setting flags to 1 changes flags alone, and the flags set read 1. -/
theorem foldl_setFlag (l : List (Nat × Nat)) (us : UnitState) :
    ∃ f, l.foldl (fun u kv => u.setFlag kv.1 true) us = { us with flags := f } ∧
      (∀ j, us.flags.getLsbD j = true → f.getLsbD j = true) ∧ ∀ kv ∈ l, kv.1 < 12 → f.getLsbD kv.1 = true := by
  induction l generalizing us with
  | nil => exact ⟨_, rfl, fun _ h => h, by simp⟩
  | cons e r ih =>
    obtain ⟨f, h1, h2, h3⟩ := ih (us.setFlag e.1 true)
    refine ⟨f, h1, fun j hj => h2 j (by simp [UnitState.setFlag, hj]), ?_⟩
    simp only [List.forall_mem_cons]
    refine ⟨fun h => h2 _ ?_, h3⟩
    show (us.flags ||| BitVec.ofNat 12 (2 ^ e.1)).getLsbD e.1 = true
    rw [BitVec.getLsbD_or, BitVec.getLsbD_ofNat, Nat.testBit_two_pow_self]
    simp [h]

/-- The flags of an operation that is done read 1 and are owned no longer; nothing else changes (R20). -/
theorem flagsDone_is (us : UnitState) (uid : Nat) :
    ∃ f, us.flagsDone uid = { us with flags := f, owners := us.owners.filter (fun kv => kv.2 != uid) } ∧
      ∀ kv ∈ us.owners, kv.2 = uid → kv.1 < 12 → f.getLsbD kv.1 = true := by
  obtain ⟨f, h1, -, h3⟩ := foldl_setFlag (us.owners.filter (fun kv => kv.2 == uid)) us
  refine ⟨f, by simp [UnitState.flagsDone, h1], fun kv hm hu => h3 kv ?_⟩
  exact List.mem_filter.mpr ⟨hm, by simp [hu]⟩

/-- The completion of the operation that emptied R last (R18, R19). -/
theorem finish_latest {us : UnitState} {n u uid : Nat} {mask : Lanes} {f : Nat → W64} (hl : (us.unit u).last = uid)
    (hf : (us.unit u).full = false) :
    ∃ fl, us.finish n u uid mask f none = { us.setUnit u
        { us.unit u with full := true, r := Vals.merge n mask f (us.unit u).r, frec := none } with
        flags := fl, owners := us.owners.filter (fun kv => kv.2 != uid) } ∧
      ∀ kv ∈ us.owners, kv.2 = uid → kv.1 < 12 → fl.getLsbD kv.1 = true := by
  obtain ⟨fl, h1, h2⟩ := flagsDone_is (us.setUnit u
    { us.unit u with full := true, r := Vals.merge n mask f (us.unit u).r, frec := none }) uid
  refine ⟨fl, ?_, h2⟩
  have ht : mask &&& ~~~(0 : Lanes) = mask := by rw [BitVec.ofNat_eq_ofNat, BitVec.not_zero, BitVec.and_allOnes]
  rw [UnitState.finish, if_pos ⟨hl, hf⟩]
  simp only [ht, h1, UnitState.setUnit_owners]

/-- What the context of a completion keeps and takes: the operation is gone, R of its unit is full on its live lanes,
its flags read 1 (R19, R20, R99). -/
structure Completes (c c' : Ctx) (u : Nat) (o : VarOp) (mask : Lanes) (f : Nat → W64) : Prop where
  ops : c'.ops = c.ops.filter (fun x => x.uid != o.uid)
  full : (c'.us.unit u).full = true
  frec : (c'.us.unit u).frec = none
  vals : ∀ l, l < c.nlanes → (c'.us.unit u).r.at l = if (mask &&& c.live).getLsbD l then f l else (c.us.unit u).r.at l
  flags : ∀ kv ∈ c.us.owners, kv.2 = o.uid → kv.1 < 12 → c'.us.flag kv.1 = true
  owners : c'.us.owners = c.us.owners.filter (fun kv => kv.2 != o.uid)
  g : c'.g = c.g
  s : c'.s = c.s
  k : c'.k = c.k
  pc : c'.pc = c.pc
  units : ∀ v, v ≠ u → c'.us.unit v = c.us.unit v

/-- An operation that completes as its unit's latest. -/
theorem completes_finish {c : Ctx} {u : Nat} {o : VarOp} (mask : Lanes) (f : Nat → W64)
    (hl : (c.us.unit u).last = o.uid) (hf : (c.us.unit u).full = false) :
    Completes c ((c.dropOp o.uid).finish u o.uid mask f none) u o mask f ∧
      ((c.dropOp o.uid).finish u o.uid mask f none).fpCtl = c.fpCtl := by
  obtain ⟨fl, h1, h2⟩ := finish_latest (n := c.nlanes) (mask := mask &&& c.live) (f := f) hl hf
  have hu : ((c.dropOp o.uid).finish u o.uid mask f none).us = _ := h1
  refine ⟨⟨rfl, ?_, ?_, fun l hn => ?_, fun kv hm hu' hk => ?_, ?_, rfl, rfl, rfl, rfl, fun v hv => ?_⟩, rfl⟩
  · exact hu ▸ congrArg UPorts.full (UnitState.unit_setUnit_same _ _ _)
  · exact hu ▸ congrArg UPorts.frec (UnitState.unit_setUnit_same _ _ _)
  · rw [← Vals.at_merge _ _ _ hn]
    exact hu ▸ congrArg (fun p => Vals.at (UPorts.r p) l) (UnitState.unit_setUnit_same _ _ _)
  · exact hu ▸ h2 kv hm hu' hk
  · rw [hu]
  · exact hu ▸ UnitState.unit_setUnit_ne _ _ hv

/-- The lanes' results of an operation of SF on its live lanes (R99, R123). -/
def sfResults (c : Ctx) (o : VarOp) : List (Nat × BitVec 5) :=
  (List.range c.nlanes).map (fun l => if (o.mask &&& c.live).getLsbD l then
    sfLane o.opcode.toNat (lo32 (o.a.at l)).toNat (lo32 (o.t.at l)).toNat else (0, 0))

/-- The context in which an operation of SF has filled R. -/
def sfFilled (c : Ctx) (o : VarOp) : Ctx :=
  (c.dropOp o.uid).finish U.sf o.uid o.mask (fun l => BitVec.ofNat 64 (((sfResults c o).getD l (0, 0)).1 % 2 ^ 32)) none

theorem sfDone_is (us : UnitState) (uid : Nat) (t : Option SfTrap) :
    ∃ t', us.sfDone uid t = { us with sfTrap := t' } := by
  unfold UnitState.sfDone
  split_ifs
  · exact ⟨_, rfl⟩
  · exact ⟨_, rfl⟩

/-- The event of the completion of SF's oldest operation, where that is the unit's latest (R113, R114, R123). -/
theorem exec_sfComplete {id : CtxId} {s : State} {c : Ctx} {o : VarOp} (hc : s.ctx id = some c)
    (ho : c.ops.find? (fun o => o.unit == U.sf) = some o) (hl : (c.us.unit U.sf).last = o.uid) :
    ∃ fr t, exec (.sfComplete id) s = .next (s.setCtx id { sfFilled c o with
      fpCtl := stick c.fpCtl (excUnion (o.mask &&& c.live) c.nlanes ((sfResults c o).map Prod.snd))
      us := (sfFilled c o).us.sfDone o.uid t
      frame := fr }) := by
  have e : exec (.sfComplete id) s = execSfComplete id s := rfl
  rw [e]
  simp only [execSfComplete, hc, Ctx.findOp, ho, Ctx.latest, hl, BEq.rfl, Bool.true_or, if_true]
  exact ⟨_, _, rfl⟩

/-- Settles O25: the event fills R with the lanes' results (`exec_sfComplete`, `completes_finish`). -/
theorem specialFunctionsComplete : Obligations.SpecialFunctionsComplete := by
  intro id s c o hc ho hl hf
  obtain ⟨fr, t, e⟩ := exec_sfComplete hc ho hl
  obtain ⟨t', ht⟩ := sfDone_is (sfFilled c o).us o.uid t
  rw [ht] at e
  obtain ⟨hx, -⟩ := completes_finish (c := c) (u := U.sf) (o := o) o.mask
    (fun l => BitVec.ofNat 64 (((sfResults c o).getD l (0, 0)).1 % 2 ^ 32)) hl hf
  have hr : ∀ l, l < c.nlanes → (sfResults c o).getD l (0, 0) = if (o.mask &&& c.live).getLsbD l then
      sfLane o.opcode.toNat (lo32 (o.a.at l)).toNat (lo32 (o.t.at l)).toNat else (0, 0) :=
    fun l hn => by simp [sfResults, hn]
  refine ⟨_, _, e, State.ctx_setCtx_same _ _ _, hx.ops, hx.full, hx.frec, fun l hn => ?_, ?_, hx.flags, hx.owners,
    hx.g, hx.s,
    hx.k, hx.pc, rfl, hx.units, fun j hj => State.ctx_setCtx_ne s _ hj⟩
  · refine (hx.vals l hn).trans ?_
    rw [hr l hn]
    split_ifs <;> rfl
  · simp only [stick, sfResults, List.map_map]
    congr 4
    funext l
    simp only [Function.comp]
    split_ifs <;> rfl

/-- The events of XL's completions: the lanes that take a value, and their values (R151, R161). -/
theorem exec_xlComplete {id : CtxId} {s : State} {c : Ctx} {o : VarOp} {wide : Bool} (hc : s.ctx id = some c)
    (ho : c.ops.find? (fun o => o.unit == U.xl && (if wide then decide (0x40 ≤ o.opcode.toNat) &&
      decide (o.notBefore ≤ (s.fold id.fold).cycle) else decide (o.opcode.toNat < 0x40))) = some o)
    (hv : wide = false → o.vals.isSome = true) :
    ∃ mask f, exec (if wide then .wideRegOpComplete id else .xlLaneOpComplete id) s =
        .next (s.setCtx id ((c.dropOp o.uid).finish U.xl o.uid mask f none)) ∧
      ∀ l x, (if (mask &&& c.live).getLsbD l then f l else x) = match o.vals with
        | some v => if (o.mask &&& c.live).getLsbD l then v.at l else x
        | none => x := by
  cases wide with
  | false =>
    obtain ⟨v, h⟩ := Option.isSome_iff_exists.mp (hv rfl)
    refine ⟨o.mask, fun l => v.at l, ?_, fun l x => by rw [h]⟩
    show execXlLaneOpComplete id s = _
    simp only [Bool.false_eq_true, if_false] at ho
    simp only [execXlLaneOpComplete, hc, Ctx.findOp, ho, h, Option.getD_some]
  | true =>
    simp only [if_true, ← Bool.and_assoc] at ho
    cases h : o.vals with
    | some v =>
      refine ⟨o.mask, fun l => v.at l, ?_, fun l x => rfl⟩
      show execWideRegOpComplete id s = _
      simp only [execWideRegOpComplete, hc, Ctx.findOp, ho, h]
    | none =>
      refine ⟨0, fun _ => 0, ?_, fun l x => by simp⟩
      show execWideRegOpComplete id s = _
      simp only [execWideRegOpComplete, hc, Ctx.findOp, ho, h]
      rfl

/-- Settles O27: each event fills R with the operation's values or, without values, with what it held
(`exec_xlComplete`, `completes_finish`). -/
theorem crossLaneOperationsComplete : Obligations.CrossLaneOperationsComplete := by
  intro id s c o wide hc ho hv hl hf
  obtain ⟨mask, f, e, hm⟩ := exec_xlComplete hc ho hv
  obtain ⟨hx, hp⟩ := completes_finish (c := c) (u := U.xl) (o := o) mask f hl hf
  exact ⟨_, _, e, State.ctx_setCtx_same _ _ _, hx.ops, hx.full, fun l hn => (hx.vals l hn).trans (hm l _), hx.flags,
    hx.owners, hp, hx.g, hx.s, hx.k, hx.pc, rfl, hx.units, fun j hj => State.ctx_setCtx_ne s _ hj⟩

/-! ## SF's triggers (R123) -/

theorem begun_unit_full {c : Ctx} {b : Bundle} {m : Move} (h : isVar m.dunit = true) :
    ((c.begun b m).unit m.dunit).full = false := by
  rw [Ctx.begun, if_pos h, UnitState.emptyR, UnitState.unit_setUnit_same]

/-- A, B, C and T of the unit that starts are as the move has left them (R18, R23). -/
theorem begun_ports {c : Ctx} {b : Bundle} {m : Move} {u : Nat} :
    ((c.begun b m).unit u).a = ((c.withT b m).unit u).a ∧ ((c.begun b m).unit u).b = ((c.withT b m).unit u).b ∧
      ((c.begun b m).unit u).c = ((c.withT b m).unit u).c ∧
        ((c.begun b m).unit u).held = ((c.withT b m).unit u).held := by
  unfold Ctx.begun UnitState.emptyR
  split
  · by_cases h : u = m.dunit
    · subst h
      rw [UnitState.unit_setUnit_same]
      exact ⟨rfl, rfl, rfl, rfl⟩
    · rw [UnitState.unit_setUnit_ne _ _ h]
      exact ⟨rfl, rfl, rfl, rfl⟩
  · exact ⟨rfl, rfl, rfl, rfl⟩

theorem curPc_of {s : State} {c : Ctx} (h : s.ctx s.cur = some c) : s.curPc = c.pc := by
  simp only [State.curPc, h]

/-- Every row of SF is a bundle of one move whose trigger takes its operands (R123). -/
theorem exec_sf (ty : BitVec 2) : ∀ i ∈ sfOps ty, i.2 < 9 ∧ ∀ m s, exec (i.1 m) s =
    issueOne (syllable true U.sf 3 (ty.toNat * 16 + i.2) m) startSf s := by
  simp only [sfOps, List.forall_mem_cons, List.not_mem_nil, false_implies, implies_true, and_true]
  exact ⟨⟨by decide, fun _ _ => rfl⟩, ⟨by decide, fun _ _ => rfl⟩, ⟨by decide, fun _ _ => rfl⟩,
    ⟨by decide, fun _ _ => rfl⟩, ⟨by decide, fun _ _ => rfl⟩, ⟨by decide, fun _ _ => rfl⟩,
    ⟨by decide, fun _ _ => rfl⟩, ⟨by decide, fun _ _ => rfl⟩, ⟨by decide, fun _ _ => rfl⟩⟩

/-- The operation that a trigger puts in flight with A and T of its unit, bound by the range locks that stand (R306). -/
def portsOp (t : Trig) (c : Ctx) (locks : Nat) : VarOp :=
  { t.op (c.us.unit t.unit).a (c.us.unit t.unit).held none 0 with locks := locks }

theorem portsOp_a (t : Trig) (c : Ctx) (n : Nat) : (portsOp t c n).a = (c.us.unit t.unit).a := rfl
theorem portsOp_t (t : Trig) (c : Ctx) (n : Nat) : (portsOp t c n).t = (c.us.unit t.unit).held := rfl

/-- A special function's trigger, in a state with the folds of `s`. -/
theorem startSf_setCtx {s v : State} {id : CtxId} {t : Trig} {c : Ctx} (hf : v.folds = s.folds)
    (hv : v.ctx id = some c) :
    startSf v id t = v.setCtx id { c with ops := c.ops ++
      [portsOp t c (s.fold id.fold).lockSeq] } := by
  simp only [startSf, hv, State.addOp, State.modCtx_eq hv, portsOp, State.fold, hf]

/-- A and T of the unit that starts, as its operation finds them (R18, R23). -/
theorem atStart_a (c : Ctx) (s : State) (b : Bundle) (m : Move) :
    ((atStart c s b m).us.unit (c.trigOf b m).unit).a = (c.us.unit m.dunit).a := by
  rw [atStart, Ctx.after_us, begun_ports.1, Ctx.withT_a]
  rfl

theorem atStart_held (c : Ctx) (s : State) (b : Bundle) (m : Move) :
    ((atStart c s b m).us.unit (c.trigOf b m).unit).held = ((c.withT b m).unit m.dunit).held := by
  rw [atStart, Ctx.after_us, begun_ports.2.2.2]
  rfl

/-- A trigger row of a variable-latency unit whose operation takes the ports of its unit and completes later (R18,
R20). -/
theorem opStarts_ports {i : Instr} {u o : Nat} {m : MoveF} {s : State} {c0 : Ctx} {st : Start} {P : VarOp → Prop}
    (hx : exec i s = issueOne (syllable true u 3 o m) st s) (hu : u < 32) (h0 : u ≠ 0) (ho : o < 256)
      (hv : isVar u = true)
    (hsv : u = U.sv → 3 < o) (h : s.Fires c0 (syllable true u 3 o m))
    (hst : ∀ (v : State) (id : CtxId) (t : Trig) (c : Ctx), v.folds = s.folds → v.ctx id = some c →
      st v id t = v.setCtx id { c with ops := c.ops ++ [portsOp t c (s.fold id.fold).lockSeq] })
    (hP : ∀ q : VarOp, q.vals = none → q.mask = c0.land.guardMask (Move.of 0 (syllable true u 3 o m)) →
      q.a = (c0.land.us.unit (Move.of 0 (syllable true u 3 o m)).dunit).a →
      q.t = ((c0.land.withT (Bundle.one (syllable true u 3 o m) s.curPc) (Move.of 0 (syllable true u 3 o m))).unit
        (Move.of 0 (syllable true u 3 o m)).dunit).held → P q) :
    OpStarts i (syllable true u 3 o m) s c0 P := by
  obtain ⟨f1, -⟩ := Move.of_syllable u 3 o m hu (by decide) ho
  obtain ⟨t, c', e1, e2, e3, e4⟩ := issueOne_setCtx (st := st) (u := u) (o := o) (m := m) _ hu h0 ho hsv h
    (fun v hf hv => hst v _ _ _ hf hv) rfl rfl rfl rfl rfl
  exact ⟨t, c', _, hx.trans e1, e2, e3, e4, begun_unit_full (by rw [f1]; exact hv), rfl, rfl, rfl, rfl, rfl, rfl,
    curPc_of h.1.here, rfl, hP _ rfl rfl ((portsOp_a _ _ _).trans (atStart_a _ _ _ _))
      ((portsOp_t _ _ _).trans (atStart_held _ _ _ _))⟩

/-- Settles O24: the operation takes the ports as the move leaves them (`opStarts_ports`), T with the values of the
triggered lanes (`Ctx.withT_held`). -/
theorem specialFunctionsStart : Obligations.SpecialFunctionsStart := by
  intro ty i m s c0 hi h
  obtain ⟨ho, hx⟩ := exec_sf ty i hi
  have hty := ty.isLt
  obtain ⟨f1, -⟩ := Move.of_syllable U.sf 3 (ty.toNat * 16 + i.2) m (by decide) (by decide) (by omega)
  obtain ⟨-, -, -, -, -, -, -, -, -, -, -, -, hn, -⟩ := Ctx.land_keeps c0
  refine opStarts_ports (hx m s) (by decide) (by decide) (by omega) rfl (fun e => absurd e (by decide)) h
    (fun v id t c hf hv => startSf_setCtx hf hv) (fun q qv qm qa qt => ⟨qv, by rw [qa, f1], fun l hl hm => ?_⟩)
  rw [qm] at hm
  rw [qt]
  exact Ctx.withT_held (by rw [f1]; rfl) (by rw [hn]; exact hl) hm

/-! ## Destinations (R14, R21, R41) -/

/-- The lowest lane of a mask, where it lies below `n`. -/
theorem low_eq {m : Lanes} {n l : Nat} (hl : l < n) (hm : m.getLsbD l = true) (hj : ∀ j, j < l → m.getLsbD j = false) :
    Lanes.low m n = l := by
  unfold Lanes.low
  rw [show (List.range n).find? (fun j => m.getLsbD j) = some l from ?_]
  · rfl
  · rw [List.find?_range_eq_some]
    exact ⟨hm, List.mem_range.mpr hl, fun j h => by rw [hj j h]; rfl⟩

/-- A port of one value for the team after a whole write (R14, R41). -/
theorem writeVals_uniform (n : Nat) (mask : Lanes) (old : Vals) (f : Nat → W64 → W64) :
    (writeVals true n mask old f).at 0 = f (Lanes.low mask n) (old.at 0) := rfl

/-- The ports of a unit after a move into its port `m.dport` (R14, R15, R41). -/
def writtenPorts (c : Ctx) (m : Move) (mask : Lanes) (v : Nat → W64) : UPorts :=
  let p := c.us.unit m.dunit
  let w := fun old => writeVals (uniformPort m.dunit m.dport) c.nlanes mask old (fun l x => portWrite m.dsel x (v l))
  match m.dport with
  | 0 => { p with a := w p.a }
  | 1 => { p with b := w p.b }
  | 2 => { p with c := w p.c }
  | _ => { p with held := writeVals (uniformPort m.dunit m.dport) c.nlanes mask p.held (fun l _ => v l) }

theorem write_port {c : Ctx} {m : Move} {mask : Lanes} (h0 : mask ≠ 0) (hu : m.dunit ≠ 0) (v : Nat → W64) :
    c.write m mask v = { c with us := c.us.setUnit m.dunit (writtenPorts c m mask v) } := by
  rw [Ctx.write, if_neg h0, if_neg hu]
  rfl

/-- Settles O22: the write takes the value of the lowest lane (`low_eq`), once (`writeVals_uniform`). -/
theorem uniformDestinations : Obligations.UniformDestinations := by
  intro c m v hd
  refine ⟨fun h => if_pos h, fun l hl hm hj => ?_⟩
  have hlow := low_eq hl hm hj
  have h0 : c.guardMask m ≠ 0 := fun e => by simp [e] at hm
  refine ⟨fun hu => ?_, fun hu hw => ?_⟩
  · have hp : m.dport = 1 := by
      rcases hd with ⟨-, h⟩ | ⟨-, h | h⟩ | ⟨h, -⟩
      · exact h
      all_goals exact absurd (hu.symm.trans h) (by decide)
    simp only [Ctx.write, if_neg h0, if_pos hu, hp, Ctx.sReg, Tbl.get_put_same, hlow]
  · have hp : m.dport ≤ 3 ∧ uniformPort m.dunit m.dport = true := by
      rcases hd with ⟨h, -⟩ | ⟨h3, h | h⟩ | ⟨h, h1⟩
      · exact absurd h hu
      · exact ⟨h3, by rw [h]; rfl⟩
      · exact ⟨h3, by rw [h]; simp [uniformPort, U.br]⟩
      · exact ⟨by omega, by rw [h, h1]; rfl⟩
    obtain ⟨h3, hun⟩ := hp
    simp only [write_port h0 hu, UnitState.unit_setUnit_same, writtenPorts, hun]
    obtain h | h | h | h : m.dport = 0 ∨ m.dport = 1 ∨ m.dport = 2 ∨ m.dport = 3 := by omega
    · rw [if_pos h, hw.resolve_left (by omega)]
      simp only [h, writeVals_uniform, hlow]
      rfl
    · rw [if_neg (by omega), if_pos h, hw.resolve_left (by omega)]
      simp only [h, writeVals_uniform, hlow]
      rfl
    · rw [if_neg (by omega), if_neg (by omega), if_pos h, hw.resolve_left (by omega)]
      simp only [h, writeVals_uniform, hlow]
      rfl
    · rw [if_neg (by omega), if_neg (by omega), if_neg (by omega)]
      simp only [h, writeVals_uniform, hlow]

/-! ## A bundle that executes, whatever its moves (R23) -/

/-- The state in which the operations of a bundle start, and the state that they leave. -/
def startingAt (s : State) (b : Bundle) (c : Ctx) : State :=
  (s.setCtx s.cur c).setCtx s.cur (c.issued b (c.trigsOf b) (s.fold s.cur.fold).cycle)

def startedBy (s : State) (us : Units) (b : Bundle) (c : Ctx) : State :=
  (startOrder (c.trigsOf b)).foldl (fun acc x => us.start x.1 acc s.cur x.2) (startingAt s b c)

theorem startingAt_ctx (s : State) (b : Bundle) (c : Ctx) :
    (startingAt s b c).ctx s.cur = some (c.issued b (c.trigsOf b) (s.fold s.cur.fold).cycle) :=
  State.ctx_setCtx_same _ _ _

theorem startingAt_frame (s : State) (b : Bundle) (c : Ctx) : s.Frame (startingAt s b c) :=
  (State.setCtx_frame s c).trans' (State.setCtx_frame _ _)

/-- A bundle before which nothing stands, with no register operation: what its issue leaves, from the context (`c2`)
and the state that its operations leave. -/
theorem issue_runs {s : State} {c0 c2 : Ctx} {b : Bundle} (us : Units) (h : s.Clear c0 b) (hb : c0.atBundle b = c0.land)
    (room : (s.setCtx s.cur c0.land).noRoom us b s.cur c0.land = none)
    (h2 : (startedBy s us b c0.land).ctx s.cur = some c2) (htid : c2.tid = c0.tid) (hl : c2.loop = c0.loop)
    (hts : c2.tstatus = c0.tstatus) (hfp : c2.fpCtl = c0.land.fpCtl) (hcur : (startedBy s us b c0.land).cur = s.cur) :
    ∃ c', (s.issue us b s.cur).ctx s.cur = some c' ∧
      c'.Is { c2 with us := c2.us.ticked, memq := queued c0.land.memq c2.memq } ∧
      (startedBy s us b c0.land).Frame (s.issue us b s.cur) := by
  obtain ⟨k1, k2, k3, k4, k5, k6, -⟩ := Ctx.land_keeps c0
  have hi := Ctx.afterBundle_is (c := c0.land) (c2 := c2) (b := b) (hl.trans k1.symm)
    (fun q e => h.loop q (k1 ▸ e)) (hts.trans k6.symm)
  obtain ⟨c', e1, e2, e3⟩ := State.close_bundle s (startedBy s us b c0.land)
    (c0.land.issued b (c0.land.trigsOf b) (s.fold s.cur.fold).cycle) _ _ b.pc
      (Lanes.passes c0.land.live c0.land.nlanes).length
    hcur h.place hi
  have hc : (s.setCtx s.cur c0.land).commit us b s.cur c0.land = ((startedBy s us b c0.land).setCtx s.cur
      (c2.afterBundle c0.land b 1).stepOver).firstPass s.cur
      (c0.land.issued b (c0.land.trigsOf b) (s.fold s.cur.fold).cycle) b.pc
        (Lanes.passes c0.land.live c0.land.nlanes).length := by
    unfold State.commit
    simp only [State.fold_setCtx]
    rw [show (startOrder (c0.land.trigsOf b)).foldl (fun acc x => us.start x.1 acc s.cur x.2)
      ((s.setCtx s.cur c0.land).setCtx s.cur _) = startedBy s us b c0.land from rfl]
    simp only [h2, htid, k2, if_true]
  have hw : c0.wait = .ready := by
    have := h.ready
    simp only [Ctx.ready, Bool.and_eq_true, beq_iff_eq] at this
    exact this.2
  have hf : c'.fpCtl = c0.land.fpCtl := by
    rw [e2.1]
    exact hfp
  have hk := State.issue_clear us h (by rw [hb]; exact room)
  rw [hb, hc] at hk
  rw [hk]
  refine ⟨c', ?_, e2, ?_⟩
  · rw [State.observe_ctx]
    exact State.restick_ctx hw e1 hf
  · have e4 := e3.trans' (State.restick_frame _ c0)
    have e5 := e4.trans' (State.observe_frame _ c0.land b)
    rw [e4.cur, e3.cur, hcur] at e5
    exact e5

/-- A bundle that triggers nothing. -/
theorem noRoom_untriggered {s : State} {us : Units} {b : Bundle} {id : CtxId} {c : Ctx} (h : c.trigsOf b = []) :
    s.noRoom us b id c = none := by
  unfold State.noRoom
  rw [h]
  rfl

theorem write_zero (c : Ctx) (m : Move) (v : Nat → W64) : c.write m 0 v = c := if_pos rfl

/-- The fields that a move changes: registers, predicates and the units' ports. -/
theorem write_only (c : Ctx) (m : Move) (mask : Lanes) (v : Nat → W64) :
    ∃ g s k u, c.write m mask v = { c with g := g, s := s, k := k, us := { c.us with units := u } } := by
  by_cases h0 : mask = 0
  · exact ⟨_, _, _, _, if_pos h0⟩
  by_cases hu : m.dunit = 0
  · rw [Ctx.write, if_neg h0, if_pos hu]
    split
    · exact ⟨_, _, _, _, rfl⟩
    · exact ⟨_, _, _, _, rfl⟩
    · split
      · exact ⟨c.g, c.s, c.k, c.us.units, rfl⟩
      · exact ⟨_, _, _, _, rfl⟩
  · exact ⟨_, _, _, _, write_port h0 hu v⟩

theorem doMoves_only (c : Ctx) (b : Bundle) (l : List Move) (acc : Ctx) :
    ∃ g s k u, c.doMoves b l acc = { acc with g := g, s := s, k := k, us := { acc.us with units := u } } := by
  induction l generalizing acc with
  | nil => exact ⟨_, _, _, _, rfl⟩
  | cons m r ih =>
    obtain ⟨g, s, k, u, h⟩ := write_only acc m (c.guardMask m) (fun l => c.src b m l)
    obtain ⟨g', s', k', u', h'⟩ := ih (acc.write m (c.guardMask m) (fun l => c.src b m l))
    rw [Ctx.doMoves, h', h]
    exact ⟨_, _, _, _, rfl⟩

/-- A bundle that triggers nothing and sets no flag (R28, R353). -/
theorem issued_untriggered {c : Ctx} {b : Bundle} (now : Nat) (hf : ∀ us f g, setFlags us b f g = us) :
    c.issued b [] now = (c.doMoves b b.moves c).after b now (c.doMoves b b.moves c).us := by
  obtain ⟨g, s, k, u, h⟩ := doMoves_only c b b.moves c
  simp only [Ctx.issued, hf, List.foldl_nil, h]
  rfl

theorem setFlags_plain {b : Bundle} (h : b.isExt = false) (us : UnitState) (f : Move → Nat) (g : Move → Bool) :
    setFlags us b f g = us := by
  simp only [setFlags, h, Bool.false_eq_true, if_false]

/-- What a bundle that triggers nothing and sets no flag leaves: what its moves make of the context (R23). -/
theorem issue_moves {s : State} {c0 : Ctx} {b : Bundle} (us : Units) (h : s.Clear c0 b) (ht : c0.land.trigsOf b = [])
    (hb : c0.atBundle b = c0.land) (hf : ∀ us f g, setFlags us b f g = us) :
    let x := c0.land.doMoves b b.moves c0.land
    ∃ c', (s.issue us b s.cur).ctx s.cur = some c' ∧ s.Frame (s.issue us b s.cur) ∧
      c'.Is (x.after b (s.fold s.cur.fold).cycle x.us.ticked) := by
  intro x
  obtain ⟨k1, k2, k3, k4, k5, k6, -⟩ := Ctx.land_keeps c0
  obtain ⟨g, r, k, u, hx⟩ : ∃ g r k u, x = _ := doMoves_only c0.land b b.moves c0.land
  have hs : startedBy s us b c0.land = startingAt s b c0.land := by rw [startedBy, ht]; rfl
  have hc : c0.land.issued b (c0.land.trigsOf b) (s.fold s.cur.fold).cycle =
      x.after b (s.fold s.cur.fold).cycle x.us := by
    rw [ht, issued_untriggered _ hf]
  have h2 : (startedBy s us b c0.land).ctx s.cur = some (x.after b (s.fold s.cur.fold).cycle x.us) := by
    rw [hs, startingAt_ctx, hc]
  obtain ⟨c', e1, e2, e3⟩ := issue_runs us h hb (noRoom_untriggered ht) h2
    ((congrArg Ctx.tid hx :).trans k2) ((congrArg Ctx.loop hx :).trans k1) ((congrArg Ctx.tstatus hx :).trans k6)
    (congrArg Ctx.fpCtl hx :) (by rw [hs]; rfl)
  have hq : x.memq = c0.land.memq := (congrArg Ctx.memq hx :)
  refine ⟨c', e1, (hs ▸ startingAt_frame s b c0.land).trans' e3, ?_⟩
  simp only [Ctx.after_memq, hq, queued_self] at e2
  rw [← hq] at e2
  exact e2

/-! ## The bundle of one move (R25) -/

/-- A row of one move issues the bundle of its syllable. -/
theorem exec_destOf {i : Instr} {u p o : Nat} {m : MoveF} (h : destOf i = some (u, p, o, m)) :
    ∃ us, ∀ s, exec i s = issueBundle us (fun s => Bundle.one (syllable true u p o m) s.curPc) s := by
  cases i
  all_goals cases h
  all_goals exact ⟨_, fun _ => rfl⟩

theorem trigsOf_untriggered {c : Ctx} {b : Bundle} (h : ∀ m ∈ b.moves, m.isTrig = true → c.guardMask m = 0) :
    c.trigsOf b = [] := by
  rw [Ctx.trigsOf, List.map_eq_nil_iff, List.filter_eq_nil_iff]
  intro m hm
  cases ht : m.isTrig <;> simp_all

theorem atBundle_untriggered {c0 : Ctx} {b : Bundle} (h : ∀ m ∈ b.moves, m.isTrig = true → c0.land.guardMask m = 0) :
    c0.atBundle b = c0.land := by
  refine Ctx.atBundle_land (List.any_eq_false.mpr fun m hm => ?_)
  cases ht : m.isTrig
  · simp
  · simp [h m hm ht]

/-- A row of one move that triggers nothing. -/
theorem exec_move {i : Instr} {u p o : Nat} {m : MoveF} {s : State} {c0 : Ctx} (hd : destOf i = some (u, p, o, m))
    (h : s.Clear c0 (Bundle.one (syllable true u p o m) s.curPc))
    (ht : (Move.of 0 (syllable true u p o m)).isTrig = true →
      c0.land.guardMask (Move.of 0 (syllable true u p o m)) = 0) :
    let b := Bundle.one (syllable true u p o m) s.curPc
    let mv := Move.of 0 (syllable true u p o m)
    let x := c0.land.write mv (c0.land.guardMask mv) (fun l => c0.land.src b mv l)
    ∃ t c', exec i s = .next t ∧ t.ctx s.cur = some c' ∧ s.Frame t ∧
      c'.Is (x.after b (s.fold s.cur.fold).cycle x.us.ticked) := by
  intro b mv x
  have hm : ∀ m ∈ b.moves, m.isTrig = true → c0.land.guardMask m = 0 := by
    simp only [b, Bundle.one, List.forall_mem_singleton]
    exact ht
  obtain ⟨us, hx⟩ := exec_destOf hd
  obtain ⟨c', e1, e2, e3⟩ := issue_moves us h (trigsOf_untriggered hm) (atBundle_untriggered hm)
    (setFlags_plain (Bundle.one_isExt _ _))
  refine ⟨_, c', ?_, e1, e2, e3⟩
  rw [hx, issueBundle, State.canIssue_clear h, if_pos rfl]

/-- Settles O7: a move without a guarded lane triggers nothing and writes nothing (`exec_move`). -/
theorem guardFalseTriggersNothing : Obligations.GuardFalseTriggersNothing := by
  intro i u p o m s c0 hd h hg
  obtain ⟨t, c', e1, e2, e3, e4⟩ := exec_move hd h (fun _ => hg)
  rw [hg, write_zero] at e4
  exact ⟨t, c', e1, e2, e3, e4⟩

/-! ## Moves into registers and ports (R10 to R15, R21, R41) -/

/-- The lanes of a g register after a move. -/
def writtenLanes (c : Ctx) (mask : Lanes) (v : Nat → W64) (old : List W32) : List W32 :=
  (List.range c.nlanes).map (fun l => if mask.getLsbD l then lo32 (v l) else old.getD l 0)

theorem write_g {c : Ctx} {m : Move} {mask : Lanes} (h0 : mask ≠ 0) (hu : m.dunit = 0) (hp : m.dport = 0)
    (v : Nat → W64) :
    c.write m mask v = { c with g := Tbl.upd c.g m.dsel [] (writtenLanes c mask v) } := by
  rw [Ctx.write, if_neg h0, if_pos hu, hp]
  rfl

theorem write_s {c : Ctx} {m : Move} {mask : Lanes} (h0 : mask ≠ 0) (hu : m.dunit = 0) (hp : m.dport = 1)
    (v : Nat → W64) :
    c.write m mask v = { c with s := Tbl.put c.s m.dsel (v (Lanes.low mask c.nlanes)) } := by
  rw [Ctx.write, if_neg h0, if_pos hu, hp]
  rfl

/-- A predicate after a move. -/
def writtenPred (c : Ctx) (mask : Lanes) (v : Nat → W64) (old : Lanes) : Lanes :=
  (old &&& ~~~mask) ||| (mask &&& Lanes.of c.nlanes (fun l => (v l).getLsbD 0))

theorem write_k {c : Ctx} {m : Move} {mask : Lanes} (h0 : mask ≠ 0) (hu : m.dunit = 0) (hp : m.dport = 2)
    (v : Nat → W64) :
    c.write m mask v =
      { c with k := if m.dsel = 0 then c.k else Tbl.upd c.k m.dsel 0 (writtenPred c mask v) } := by
  rw [Ctx.write, if_neg h0, if_pos hu, hp]
  show (if m.dsel = 0 then c else _) = _
  split
  · rfl
  · rfl

theorem gReg_written {c c' : Ctx} {r : Nat} {mask : Lanes} {v : Nat → W64}
    (h : c'.g = Tbl.upd c.g r [] (writtenLanes c mask v)) {l : Nat} (hl : l < c.nlanes) :
    c'.gReg r l = if mask.getLsbD l then lo32 (v l) else c.gReg r l := by
  simp only [Ctx.gReg, h, Tbl.get_upd_same, writtenLanes]
  rw [List.getD_eq_getElem _ _ (by simpa using hl)]
  simp

theorem gReg_other {c c' : Ctx} {r i : Nat} {f : List W32 → List W32} (h : c'.g = Tbl.upd c.g r [] f) (hi : i ≠ r)
    (l : Nat) :
    c'.gReg i l = c.gReg i l := by
  simp only [Ctx.gReg, h, Tbl.get_upd_ne _ _ _ _ hi]

theorem pred_other {c c' : Ctx} {r i : Nat} {f : Lanes → Lanes} (h : c'.k = if r = 0 then c.k else Tbl.upd c.k r 0 f)
    (hi : i ≠ r) : c'.pred i = c.pred i := by
  simp only [Ctx.pred, h]
  split_ifs
  · rfl
  · rfl
  · rw [Tbl.get_upd_ne _ _ _ _ hi]

theorem pred_written {c c' : Ctx} {r : Nat} {mask : Lanes} {v : Nat → W64} (hr : r ≠ 0)
    (h : c'.k = Tbl.upd c.k r 0 (writtenPred c mask v)) {l : Nat} (hn : l < c.nlanes) (hl : l < 1024) :
    (c'.pred r).getLsbD l = if mask.getLsbD l then (v l).getLsbD 0 else (c.pred r).getLsbD l := by
  simp only [Ctx.pred, if_neg hr, h, Tbl.get_upd_same, writtenPred]
  exact getLsbD_replace_of hn hl

/-- A field of the context after a bundle, from what the bundle makes of the context. -/
theorem Is_field {α : Type} {c x : Ctx} (h : c.Is x) (f : Ctx → α)
    (hf : ∀ (y : Ctx) st d, f { y with stall := st, due := d } = f y) : f c = f x := by
  rw [h.1]
  exact hf x _ _

/-- Settles O8: the write of `exec_move`, register file by register file. -/
theorem registerMoves : Obligations.RegisterMoves := by
  intro reg m s c0
  obtain ⟨k1, k2, k3, k4, k5, k6, k7, k8, k9, kg, ks, kl, kn, -⟩ := Ctx.land_keeps c0
  have hreg : reg.toNat < 256 := reg.isLt
  refine ⟨fun h => ?_, fun h => ?_, fun h => ?_⟩
  · obtain ⟨f1, f2, f3, -⟩ := Move.of_syllable U.rf 0 reg.toNat m (by decide) (by decide) hreg
    obtain ⟨t, c', e1, e2, e3, e4⟩ := exec_move (i := .moveToG reg m) (u := U.rf) (p := 0) (o := reg.toNat) rfl h.1
      (fun e => by simp [Move.isTrig, f2] at e)
    rw [write_g (guardMask_ne_zero h) f1 f2, f3] at e4
    have hg : c'.g = _ := Is_field e4 Ctx.g (fun _ _ _ => rfl)
    exact ⟨t, c', _, e1, e2, e3, e4, fun l hl => (gReg_written hg (kn.symm ▸ hl)).trans (by simp only [Ctx.gReg, kg]),
      fun r l hr => (gReg_other hg hr l).trans (by simp only [Ctx.gReg, kg])⟩
  · obtain ⟨f1, f2, f3, -⟩ := Move.of_syllable U.rf 1 reg.toNat m (by decide) (by decide) hreg
    obtain ⟨t, c', e1, e2, e3, e4⟩ := exec_move (i := .moveToS reg m) (u := U.rf) (p := 1) (o := reg.toNat) rfl h.1
      (fun e => by simp [Move.isTrig, f2] at e)
    rw [write_s (guardMask_ne_zero h) f1 f2, f3] at e4
    intro b mv
    rw [← ks, ← kn]
    exact ⟨t, c', e1, e2, e3, e4⟩
  · obtain ⟨f1, f2, f3, -⟩ := Move.of_syllable U.rf 2 reg.toNat m (by decide) (by decide) hreg
    obtain ⟨t, c', e1, e2, e3, e4⟩ := exec_move (i := .moveToK reg m) (u := U.rf) (p := 2) (o := reg.toNat) rfl h.1
      (fun e => by simp [Move.isTrig, f2] at e)
    rw [write_k (guardMask_ne_zero h) f1 f2, f3] at e4
    have hk : c'.k = _ := Is_field e4 Ctx.k (fun _ _ _ => rfl)
    refine ⟨t, c', _, e1, e2, e3, e4, fun h0 => if_pos (by rw [h0]; rfl), fun h0 l hn hl => ?_,
      fun r hr => pred_other hk hr⟩
    have h1 : reg.toNat ≠ 0 := fun e => h0 (BitVec.eq_of_toNat_eq e)
    exact pred_written h1 (hk.trans (if_neg h1)) (kn.symm ▸ hn) hl

/-- What the checks of a bundle that executes say of its moves (R26). -/
theorem not_malformed {c : Ctx} {b : Bundle} {x : Bool} (h : c.failing b x = []) : b.malformed = false := by
  cases e : b.malformed
  · rfl
  · simp [Ctx.failing, e] at h

theorem not_moveMalformed {b : Bundle} (h : b.malformed = false) : ∀ m ∈ b.moves, moveMalformed b m = false := by
  intro m hm
  simp only [Bundle.malformed, Bool.or_eq_false_iff, List.any_eq_false] at h
  simpa using h.1.2 m hm

/-- A port modifier is 0, 1 or 2 (R41). -/
theorem dsel_le_two {b : Bundle} {m : Move} (h : moveMalformed b m = false) (hu : m.dunit ≠ 0) (hp : m.dport ≠ 3) :
    m.dsel ≤ 2 := by
  simp only [moveMalformed, if_neg hu, Bool.or_eq_false_iff, Bool.and_eq_false_iff] at h
  obtain ⟨⟨-, h | h⟩, -⟩ := h
  · simp [hp] at h
  · simpa using h.1

theorem lowMask_getLsbD {i : Nat} (hi : i < 64) : (0xFFFFFFFF : W64).getLsbD i = decide (i < 32) := by
  rw [show (0xFFFFFFFF : W64) = BitVec.ofNat 64 (2 ^ 32 - 1) from rfl, BitVec.getLsbD_ofNat,
    Nat.testBit_two_pow_sub_one]
  simp [hi]

/-- What a move leaves of a port's value (R41): DSEL 1 keeps bits 63:32, DSEL 2 bits 31:0. -/
theorem portWrite_lo (x v : W64) : portWrite 1 x v = x.extractLsb' 32 32 ++ lo32 v := by
  apply BitVec.eq_of_getLsbD_eq
  intro i hi
  show ((x &&& ~~~(0xFFFFFFFF : W64)) ||| (v &&& 0xFFFFFFFF)).getLsbD i = _
  rw [BitVec.getLsbD_append, BitVec.getLsbD_or, BitVec.getLsbD_and, BitVec.getLsbD_and, BitVec.getLsbD_not,
    lowMask_getLsbD hi,
    BitVec.getLsbD_extractLsb', lo32, BitVec.truncate, BitVec.getLsbD_setWidth]
  by_cases h : i < 32
  · simp [h, hi]
  · have e : 32 + (i - 32) = i := by omega
    have e' : i - 32 < 32 := by omega
    simp [h, hi, e, e']

theorem portWrite_hi (x v : W64) : portWrite 2 x v = lo32 v ++ lo32 x := by
  apply BitVec.eq_of_getLsbD_eq
  intro i hi
  show ((x &&& (0xFFFFFFFF : W64)) ||| (v <<< 32)).getLsbD i = _
  rw [BitVec.getLsbD_append, BitVec.getLsbD_or, BitVec.getLsbD_and, BitVec.getLsbD_shiftLeft, lowMask_getLsbD hi]
  simp only [lo32, BitVec.truncate, BitVec.getLsbD_setWidth]
  by_cases h : i < 32
  · simp [h, hi]
  · have e' : i - 32 < 32 := by omega
    simp [h, hi, e']

theorem portWrite_eq {d : BitVec 8} (h : d.toNat ≤ 2) (x v : W64) : portWrite d.toNat x v =
    if d = 0 then v else if d = 1 then x.extractLsb' 32 32 ++ lo32 v else lo32 v ++ lo32 x := by
  obtain h | h | h : d.toNat = 0 ∨ d.toNat = 1 ∨ d.toNat = 2 := by omega
  · obtain rfl : d = 0 := BitVec.eq_of_toNat_eq h
    rfl
  · obtain rfl : d = 1 := BitVec.eq_of_toNat_eq h
    exact portWrite_lo x v
  · obtain rfl : d = 2 := BitVec.eq_of_toNat_eq h
    exact portWrite_hi x v

/-- The values of a port after a move: lane by lane, or the lowest lane's for a uniform port (R14). -/
theorem writeVals_lanes {n : Nat} {mask : Lanes} {old : Vals} {f : Nat → W64 → W64} {l : Nat} (hl : l < n) :
    (writeVals false n mask old f).at l = if mask.getLsbD l then f l (old.at l) else old.at l :=
  Vals.at_merge mask (fun l => f l (old.at l)) old hl

/-- The ports after a move into one of A, B and C. -/
theorem writtenPorts_a {c : Ctx} {m : Move} (h : m.dport = 0) (mask : Lanes) (v : Nat → W64) : writtenPorts c m mask v =
    { c.us.unit m.dunit with
      a := writeVals (uniformPort m.dunit m.dport) c.nlanes mask (c.us.unit m.dunit).a
        (fun l x => portWrite m.dsel x (v l)) } := by
  rw [writtenPorts, h]
  rfl

theorem writtenPorts_b {c : Ctx} {m : Move} (h : m.dport = 1) (mask : Lanes) (v : Nat → W64) : writtenPorts c m mask v =
    { c.us.unit m.dunit with
      b := writeVals (uniformPort m.dunit m.dport) c.nlanes mask (c.us.unit m.dunit).b
        (fun l x => portWrite m.dsel x (v l)) } := by
  rw [writtenPorts, h]
  rfl

theorem writtenPorts_c {c : Ctx} {m : Move} (h : m.dport = 2) (mask : Lanes) (v : Nat → W64) : writtenPorts c m mask v =
    { c.us.unit m.dunit with
      c := writeVals (uniformPort m.dunit m.dport) c.nlanes mask (c.us.unit m.dunit).c
        (fun l x => portWrite m.dsel x (v l)) } := by
  rw [writtenPorts, h]
  rfl

/-- Settles O9: the write of `exec_move` in the port that the move names (`write_port`), under its modifier
(`portWrite_eq`). -/
theorem portMoves : Obligations.PortMoves := by
  intro u p d m s c0 hp hu h b mv c old put
  obtain ⟨f1, f2, f3, -⟩ := Move.of_syllable u.toNat p.toNat d.toNat m u.isLt p.isLt d.isLt
  have hp3 : p.toNat ≠ 3 := fun e => hp (BitVec.eq_of_toNat_eq e)
  have hu0 : u.toNat ≠ 0 := fun e => hu (BitVec.eq_of_toNat_eq e)
  obtain ⟨t, c', e1, e2, e3, e4⟩ := exec_move (i := .moveToPort u p d m) (u := u.toNat) (p := p.toNat)
    (o := d.toNat) rfl h.1
    (fun e => by simp [Move.isTrig, f2, hp3] at e)
  rw [write_port (guardMask_ne_zero h) (by rw [f1]; exact hu0)] at e4
  have hd : d.toNat ≤ 2 := by
    have := dsel_le_two (not_moveMalformed (not_malformed h.1.checks)
      (Move.of 0 (syllable true u.toNat p.toNat d.toNat m))
      (List.mem_singleton_self _)) (by rw [f1]; exact hu0) (by rw [f2]; exact hp3)
    rwa [f3] at this
  have hsame : ∀ x : UPorts, ∀ v, v ≠ u.toNat → (c.us.setUnit mv.dunit x).unit v = c.us.unit v := fun x v hv =>
    UnitState.unit_setUnit_ne _ _ (by rw [show mv.dunit = u.toNat from f1]; exact hv)
  have hunit : ∀ x : UPorts, (c.us.setUnit mv.dunit x).unit u.toNat = x := fun x => by
    rw [show mv.dunit = u.toNat from f1, UnitState.unit_setUnit_same]
  have hput : ∀ x v, portWrite mv.dsel x v = put x v := fun x v => by
    rw [show mv.dsel = d.toNat from f3]
    exact portWrite_eq hd x v
  have hun : uniformPort mv.dunit mv.dport = uniformPort u.toNat p.toNat := by
    rw [show mv.dunit = u.toNat from f1, show mv.dport = p.toNat from f2]
  refine ⟨t, c', _, e1, e2, e3, e4, ⟨rfl, rfl, rfl, rfl, rfl, rfl⟩, hsame _, ?_⟩
  rw [hunit]
  obtain h0 | h0 | h0 : p.toNat = 0 ∨ p.toNat = 1 ∨ p.toNat = 2 := by omega
  · obtain rfl : p = 0 := BitVec.eq_of_toNat_eq h0
    rw [writtenPorts_a f2, f1, f2, f3]
    refine ⟨rfl, fun e => absurd rfl e, fun _ => rfl, fun _ => rfl, fun l hl hn => ?_, fun hn => ?_⟩
    · simp only [old, if_true, hn, portWrite_eq hd, put]
      exact writeVals_lanes hl
    · simp only [old, if_true, hn, writeVals_uniform, portWrite_eq hd, put]
      rfl
  · obtain rfl : p = 1 := BitVec.eq_of_toNat_eq h0
    rw [writtenPorts_b f2, f1, f2, f3]
    refine ⟨rfl, fun _ => rfl, fun e => absurd rfl e, fun _ => rfl, fun l hl hn => ?_, fun hn => ?_⟩
    · simp only [old, if_neg (show (1 : BitVec 2) ≠ 0 by decide), if_true, hn, portWrite_eq hd, put]
      exact writeVals_lanes hl
    · simp only [old, if_neg (show (1 : BitVec 2) ≠ 0 by decide), if_true, hn, writeVals_uniform, portWrite_eq hd, put]
      rfl
  · obtain rfl : p = 2 := BitVec.eq_of_toNat_eq h0
    rw [writtenPorts_c f2, f1, f2, f3]
    refine ⟨rfl, fun _ => rfl, fun _ => rfl, fun e => absurd rfl e, fun l hl hn => ?_, fun hn => ?_⟩
    · simp only [old, if_neg (show (2 : BitVec 2) ≠ 0 by decide), if_neg (show (2 : BitVec 2) ≠ 1 by decide), hn,
        portWrite_eq hd, put]
      exact writeVals_lanes hl
    · simp only [old, if_neg (show (2 : BitVec 2) ≠ 0 by decide), if_neg (show (2 : BitVec 2) ≠ 1 by decide), hn,
        writeVals_uniform, portWrite_eq hd, put]
      rfl

/-! ## A step (R23, R46, R450) -/

/-- A step that no input and no event takes is a turn of `cur`'s bundles. -/
theorem step_turn {s : State} (ha : s.agenda = []) (hd : s.dropConns.dueEvent = none)
    (hb : s.bgTurn = true → s.dropConns.bgEvent = none) :
    step s = State.turn exec { s.dropConns with bgTurn := true } := by
  have hown : (if s.dropConns.bgTurn then s.dropConns.bgEvent else none) = none := by
    split
    · exact hb ‹_›
    · rfl
  have hag : s.dropConns.agenda = [] := ha
  simp only [step, State.stepWith, hag, hd, hown]

/-- A turn in which a bundle is fetched and decodes to `i` runs `i`. -/
theorem turn_runs {u : State} {c : Ctx} {bytes : List Byte} {i : Instr} (hm : u.mayIssue = true)
    (hx : u.approach.2 = false) (hc : u.approach.1.ctx u.approach.1.cur = some c)
    (hf : u.approach.1.fetch u.approach.1.cur c = .ok bytes) (hi : decode bytes = .ok i) :
    State.turn exec u = (match exec i (u.approach.1.fetched u.approach.1.cur c) with
      | .next t => .next t.resched
      | .fault e => .fault e
      | .refused e => .refused e) := by
  simp only [State.turn, hm, Bool.not_true, Bool.false_eq_true, if_false, hx, hc, hf, hi]
  cases exec i (u.approach.1.fetched u.approach.1.cur c) <;> rfl

/-- Settles O4: the step is a turn (`step_turn`), and the turn runs the decoded instruction (`turn_runs`). -/
theorem stepRunsDecodedInstruction : Obligations.StepRunsDecodedInstruction := by
  intro s c bytes i d u x ha hd hb hm hx hc hf hi
  refine (step_turn ha hd hb).trans ((turn_runs hm hx hc hf hi).trans ?_)
  cases exec i (x.1.fetched x.1.cur c) <;> rfl

/-! ## The queue of memory moves (R29, R138, R145) -/

/-- Moves of rising passes join the queue in their order (R145). -/
theorem insPass_last {m : MemOp} {l : List MemOp} (h : ∀ x ∈ l, x.pass ≤ m.pass) : insPass m l = l ++ [m] := by
  induction l with
  | nil => rfl
  | cons x r ih =>
    rw [insPass, if_neg (Nat.not_lt.mpr (h x (List.mem_cons_self ..))), ih fun y hy => h y (List.mem_cons_of_mem _ hy)]
    rfl

theorem foldl_insPass {l acc : List MemOp} (h : (acc ++ l).Pairwise (fun x y => x.pass ≤ y.pass)) :
    l.foldl (fun acc m => insPass m acc) acc = acc ++ l := by
  induction l generalizing acc with
  | nil => exact (List.append_nil acc).symm
  | cons m r ih =>
    have hm : ∀ x ∈ acc, x.pass ≤ m.pass := fun x hx =>
      (List.pairwise_append.mp h).2.2 x hx m (List.mem_cons_self ..)
    rw [List.foldl_cons, insPass_last hm, ih (by simpa using h), List.append_assoc]
    rfl

theorem queued_append {old l : List MemOp} (h : l.Pairwise (fun x y => x.pass ≤ y.pass)) :
    queued old (old ++ l) = old ++ l := by
  have e := foldl_insPass (acc := []) h
  rw [queued, List.take_left, List.drop_left, e]
  rfl

/-- The passes of a mask rise (R145). -/
theorem passes_sorted (m : Lanes) (n : Nat) : (Lanes.passes m n).Pairwise (· < ·) :=
  List.Pairwise.filter _ (List.pairwise_lt_range ..)

theorem mem_only {m : Lanes} {n w l : Nat} :
    l ∈ Lanes.list (Lanes.only m w) n ↔ l < n ∧ m.getLsbD l = true ∧ l / 32 = w := by
  have hb : ((2 ^ 32 - 1) * 2 ^ (32 * w)).testBit l = (decide (32 * w ≤ l) && decide (l - 32 * w < 32)) := by
    rw [← Nat.shiftLeft_eq, Nat.testBit_shiftLeft, Nat.testBit_two_pow_sub_one]
  rw [Lanes.list, List.mem_filter, List.mem_range, Lanes.only, BitVec.getLsbD_and, BitVec.getLsbD_ofNat, hb]
  simp only [Bool.and_eq_true, decide_eq_true_eq]
  constructor
  · rintro ⟨h1, h2, -, h3, h4⟩
    exact ⟨h1, h2, by omega⟩
  · rintro ⟨h1, h2, h3⟩
    exact ⟨h1, h2, lane_lt h2, by omega, by omega⟩

/-! ## What a trigger of LA, LB, ST or AT queues -/

/-- The blank move of a trigger, and the lanes that one of its passes serves. -/
def memBlank (v : State) (id : CtxId) (t : Trig) : MemOp :=
  MemOp.blank t.uid t.unit t.opcode t.scope t.mask (v.fold id.fold).lockSeq t.pc t.cycle (v.fold id.fold).cycle

def memLanes (v : State) (id : CtxId) (t : Trig) (c : Ctx) (w : Nat) : List MemLane :=
  ((Lanes.list (Lanes.only t.mask w) c.nlanes).map (fun l =>
    let a := (c.us.unit t.unit).lane (memBlank v id t) l
    v.laneAt id c (memBlank v id t) l a.1 a.2.1 a.2.2)).filter (fun x => !x.idle (memBlank v id t))

def memMoves (v : State) (id : CtxId) (t : Trig) (c : Ctx) : List MemOp :=
  (Lanes.passes t.mask c.nlanes).map (fun w => { memBlank v id t with pass := w, lanes := memLanes v id t c w })

/-- The context that such a trigger leaves. -/
def memStarted (v : State) (id : CtxId) (t : Trig) (c : Ctx) : Ctx :=
  let o := memBlank v id t
  let quick := o.isPf || o.isRed
  let c1 := if t.unit = U.st || quick then c
    else { c with us := c.us.setUnit t.unit { c.us.unit t.unit with frec := some (t.openRec (c.us.unit t.unit)) } }
  let c2 := (memMoves v id t c).foldl Ctx.watchAtIssue { c1 with memq := c1.memq ++ memMoves v id t c }
  if quick then c2.finishKeep t.unit t.uid else c2

theorem startMem_eq {v : State} {id : CtxId} {t : Trig} {c : Ctx} (h : v.ctx id = some c) :
    startMem v id t = v.setCtx id (memStarted v id t c) := by
  simp only [startMem, h, State.modCtx_eq h]
  rfl

theorem addWatch_only (c : Ctx) (o : MemOp) (x : MemLane) (b : Bool) : ∃ d, c.addWatch o x b = { c with due := d } := by
  unfold Ctx.addWatch
  dsimp only
  split
  · exact ⟨_, rfl⟩
  · exact ⟨_, rfl⟩

/-- Steps that make traps due, and no more, do so together. -/
theorem foldl_due {α : Type} {f : Ctx → α → Ctx} (h : ∀ c x, ∃ d, f c x = { c with due := d }) (l : List α) (c : Ctx) :
    ∃ d, l.foldl f c = { c with due := d } := by
  induction l generalizing c with
  | nil => exact ⟨_, rfl⟩
  | cons x r ih =>
    obtain ⟨d, e⟩ := h c x
    obtain ⟨d', e'⟩ := ih (f c x)
    rw [List.foldl_cons, e', e]
    exact ⟨_, rfl⟩

/-- The watchpoints make traps due, and no more (R365). -/
theorem watchAtIssue_only (c : Ctx) (o : MemOp) : ∃ d, c.watchAtIssue o = { c with due := d } := by
  refine foldl_due (fun c x => ?_) o.lanes c
  have once : ∀ (p : Bool) (y : Ctx) (b : Bool), ∃ d, (if p then y.addWatch o x b else y) = { y with due := d } := by
    intro p y b
    cases p
    · exact ⟨_, rfl⟩
    · exact addWatch_only y o x b
  dsimp only
  split
  · exact ⟨_, rfl⟩
  · obtain ⟨d, e⟩ := once (x.watch.getLsbD 0) c false
    obtain ⟨d', e'⟩ := once (x.watch.getLsbD 1) _ true
    rw [e'.trans (congrArg (fun y : Ctx => { y with due := d' }) e)]
    exact ⟨_, rfl⟩

/-- Whether a trigger fills its R at once (R133, R137). -/
def memFills (v : State) (id : CtxId) (t : Trig) : Bool := (memBlank v id t).isPf || (memBlank v id t).isRed

/-- The flags of an operation that owns none. -/
theorem flagsDone_flags {us : UnitState} {uid : Nat} (h : ∀ kv ∈ us.owners, kv.2 ≠ uid) :
    (us.flagsDone uid).flags = us.flags := by
  have e : us.owners.filter (fun kv => kv.2 == uid) = [] :=
    List.filter_eq_nil_iff.mpr fun kv hk => by simpa using h kv hk
  simp only [UnitState.flagsDone, e, List.foldl_nil]

theorem flagsDone_unit (us : UnitState) (uid u : Nat) : (us.flagsDone uid).unit u = us.unit u := by
  obtain ⟨f, h, -⟩ := flagsDone_is us uid
  rw [h]
  rfl

theorem flagsDone_pend (us : UnitState) (uid : Nat) : (us.flagsDone uid).pend = us.pend := by
  obtain ⟨f, h, -⟩ := flagsDone_is us uid
  rw [h]

/-- What a trigger of a memory unit leaves of its context: its moves stand at the end of the queue; A, B, C and R of its
unit, the other units, the results in flight, and the flags that it does not own are as they were. -/
structure MemStarted (c x : Ctx) (t : Trig) (q : List MemOp) (quick : Bool) : Prop where
  only : ∃ d w fr us, x = { c with memq := c.memq ++ q, due := d, wait := w, frame := fr, us := us }
  portA : (x.us.unit t.unit).a = (c.us.unit t.unit).a
  portB : (x.us.unit t.unit).b = (c.us.unit t.unit).b
  portC : (x.us.unit t.unit).c = (c.us.unit t.unit).c
  r : ∀ l, l < c.nlanes → (x.us.unit t.unit).r.at l = (c.us.unit t.unit).r.at l
  full : (c.us.unit t.unit).last = t.uid → (c.us.unit t.unit).full = false → (x.us.unit t.unit).full = quick
  last : (x.us.unit t.unit).last = (c.us.unit t.unit).last
  units : ∀ u, u ≠ t.unit → x.us.unit u = c.us.unit u
  pend : x.us.pend = c.us.pend
  flags : (∀ kv ∈ c.us.owners, kv.2 ≠ t.uid) → x.us.flags = c.us.flags

/-- Opening the record of a port (R360). -/
theorem memStarted_open (c : Ctx) (t : Trig) (q : List MemOp) (r : Option FaultRec) (d : List DueTrap) :
    MemStarted c
      { c with
        memq := c.memq ++ q
        due := d
        us := c.us.setUnit t.unit { c.us.unit t.unit with frec := r } } t q false where
  only := ⟨_, _, _, _, rfl⟩
  portA := by rw [UnitState.unit_setUnit_same]
  portB := by rw [UnitState.unit_setUnit_same]
  portC := by rw [UnitState.unit_setUnit_same]
  r l _ := by rw [UnitState.unit_setUnit_same]
  full _ h := by rw [UnitState.unit_setUnit_same]; exact h
  last := by rw [UnitState.unit_setUnit_same]
  units u h := UnitState.unit_setUnit_ne _ _ h
  pend := rfl
  flags _ := rfl

theorem memStarted_kept (c : Ctx) (t : Trig) (q : List MemOp) (d : List DueTrap) :
    MemStarted c { c with memq := c.memq ++ q, due := d } t q false where
  only := ⟨_, _, _, _, rfl⟩
  portA := rfl
  portB := rfl
  portC := rfl
  r _ _ := rfl
  full _ h := h
  last := rfl
  units _ _ := rfl
  pend := rfl
  flags _ := rfl

/-- The unit state in which an operation has refilled R with what it holds (R133, R186). -/
def refilled (c : Ctx) (u uid : Nat) : UnitState :=
  if (c.us.unit u).last = uid ∧ (c.us.unit u).full = false then
    c.us.setUnit u
      { c.us.unit u with
        full := true
        r := Vals.merge c.nlanes (0 &&& c.live &&& ~~~0) (fun _ => 0) (c.us.unit u).r
        frec := none }
  else c.us

theorem finishKeep_us (c : Ctx) (u uid : Nat) : (c.finishKeep u uid).us = (refilled c u uid).flagsDone uid := rfl

theorem refilled_unit (c : Ctx) (u uid : Nat) : ∃ r f k, (refilled c u uid).unit u = { c.us.unit u with
      r := r, full := f, frec := k } ∧ (∀ l, l < c.nlanes → Vals.at r l = (c.us.unit u).r.at l) ∧
    ((c.us.unit u).last = uid → (c.us.unit u).full = false → f = true) := by
  unfold refilled
  split
  · refine ⟨_, _, _, UnitState.unit_setUnit_same _ _ _, fun l hl => ?_, fun _ _ => rfl⟩
    rw [Vals.at_merge _ _ _ hl]
    simp
  · rename_i h
    exact ⟨_, _, _, rfl, fun _ _ => rfl, fun h1 h2 => absurd ⟨h1, h2⟩ h⟩

theorem refilled_keeps (c : Ctx) (u uid : Nat) : (refilled c u uid).pend = c.us.pend ∧
    (refilled c u uid).flags = c.us.flags ∧
    (refilled c u uid).owners = c.us.owners ∧ ∀ v, v ≠ u → (refilled c u uid).unit v = c.us.unit v := by
  unfold refilled
  split
  · exact ⟨rfl, rfl, rfl, fun v h => UnitState.unit_setUnit_ne _ _ h⟩
  · exact ⟨rfl, rfl, rfl, fun _ _ => rfl⟩

/-- Refilling R of the unit with what it holds (R133, R137). -/
theorem memStarted_keep (c : Ctx) (t : Trig) (q : List MemOp) (d : List DueTrap) :
    MemStarted c (({ c with memq := c.memq ++ q, due := d } : Ctx).finishKeep t.unit t.uid) t q true := by
  obtain ⟨r, f, k, h1, h2, h3⟩ := refilled_unit { c with memq := c.memq ++ q, due := d } t.unit t.uid
  obtain ⟨p1, p2, p3, p4⟩ := refilled_keeps { c with memq := c.memq ++ q, due := d } t.unit t.uid
  constructor
  case only => exact ⟨_, _, _, _, rfl⟩
  case pend => rw [finishKeep_us, flagsDone_pend, p1]
  case flags => exact fun h => by rw [finishKeep_us, flagsDone_flags (p3 ▸ h), p2]
  case units => exact fun u h => by rw [finishKeep_us, flagsDone_unit, p4 u h]
  all_goals rw [finishKeep_us, flagsDone_unit, h1]
  case r => exact h2
  case full => exact h3

theorem memStarted_is (v : State) (id : CtxId) (t : Trig) (c : Ctx) :
    MemStarted c (memStarted v id t c) t (memMoves v id t c) (memFills v id t) := by
  unfold memStarted
  dsimp only
  cases hq : memFills v id t with
  | true =>
    rw [memFills] at hq
    obtain ⟨d, hd⟩ := foldl_due watchAtIssue_only (memMoves v id t c) { c with memq := c.memq ++ memMoves v id t c }
    simp only [hq, Bool.or_true, if_true, hd]
    exact memStarted_keep c t _ d
  | false =>
    rw [memFills] at hq
    simp only [hq, Bool.or_false, decide_eq_true_eq, Bool.false_eq_true, if_false]
    split
    · obtain ⟨d, hd⟩ := foldl_due watchAtIssue_only (memMoves v id t c) { c with memq := c.memq ++ memMoves v id t c }
      rw [hd]
      exact memStarted_kept c t _ d
    · obtain ⟨d, hd⟩ := foldl_due watchAtIssue_only (memMoves v id t c) { c with
        memq := c.memq ++ memMoves v id t c
        us := c.us.setUnit t.unit { c.us.unit t.unit with frec := some (t.openRec (c.us.unit t.unit)) } }
      rw [hd]
      exact memStarted_open c t _ _ d

theorem laneAt_lane (v : State) (id : CtxId) (c : Ctx) (o : MemOp) (l : Nat) (a x y : W64) :
    (v.laneAt id c o l a x y).lane = l ∧ (v.laneAt id c o l a x y).addr = a := by
  have hw : ∀ mk : Option Nat → Option (BitVec 7) → BitVec 2 → MemLane,
    (∀ p q r, (mk p q r).lane = l ∧ (mk p q r).addr = a) →
      (State.laneAt.win v id c o a mk).lane = l ∧ (State.laneAt.win v id c o a mk).addr = a := by
    intro mk h
    unfold State.laneAt.win
    split
    · exact h _ _ _
    · exact h _ _ _
  unfold State.laneAt
  dsimp only
  split
  · exact ⟨rfl, rfl⟩
  · split
    · exact ⟨rfl, rfl⟩
    · exact ⟨rfl, rfl⟩
    · exact hw _ fun _ _ _ => ⟨rfl, rfl⟩
    · exact hw _ fun _ _ _ => ⟨rfl, rfl⟩
    · exact ⟨rfl, rfl⟩

/-- The address of a lane: A and the offset of T, but A alone for a store of 64 bits (R128, R134). -/
theorem lane_addr (p : UPorts) (o : MemOp) (l : Nat) : (p.lane o l).1 =
    if o.unit = U.st ∧ o.opcode.toNat / 16 % 4 = 3 ∧ o.opcode.toNat < 0x80 then p.a.at l
    else p.a.at l + sx (lo32 (p.held.at l)) := by
  have e8 : ∀ k, k < 4 → (2 ^ k = 8 ↔ k = 3) := by decide
  have hs : o.unit = U.st → ((!o.isMaint && o.size == 8) = true ↔ o.opcode.toNat / 16 % 4 = 3 ∧
    o.opcode.toNat < 0x80) := by
    intro hu
    have h4 := e8 (o.opcode.toNat / 16 % 4) (Nat.mod_lt _ (by decide))
    have hm : o.isMaint = decide (0x80 ≤ o.opcode.toNat) := by simp [MemOp.isMaint, hu]
    have ha : ¬o.unit = U.at_ := by rw [hu]; decide
    by_cases h : 0x80 ≤ o.opcode.toNat
    · simp [hm, h, Nat.not_lt.mpr h]
    · simp [hm, h, MemOp.size, ha, h4, Nat.not_le.mp h]
  unfold UPorts.lane
  by_cases hu : o.unit = U.st
  · by_cases h : (!o.isMaint && o.size == 8) = true
    · rw [if_pos hu, if_pos h, if_pos ⟨hu, (hs hu).mp h⟩]
    · rw [if_pos hu, if_neg h, if_neg fun e => h ((hs hu).mpr e.2)]
  · rw [if_neg (c := o.unit = U.st ∧ _) (fun e => hu e.1)]
    simp only [hu, if_false]
    split
    · split
      · rfl
      · split
        · rfl
        · rfl
    · rfl

/-- The lanes of a pass. -/
theorem mem_memLanes {v : State} {id : CtxId} {t : Trig} {c : Ctx} {w : Nat} {x : MemLane}
    (h : x ∈ memLanes v id t c w) :
    x.lane < c.nlanes ∧ t.mask.getLsbD x.lane = true ∧ x.lane / 32 = w ∧
      x.addr = ((c.us.unit t.unit).lane (memBlank v id t) x.lane).1 := by
  obtain ⟨l, hl, rfl⟩ := List.mem_map.mp (List.mem_filter.mp h).1
  obtain ⟨h1, h2, h3⟩ := mem_only.mp hl
  simp only [laneAt_lane]
  exact ⟨h1, h2, h3, trivial⟩

/-- Every triggered lane of a pass is served, but for a prefetch and a maintenance operation (R133, R135). -/
theorem memLanes_all {v : State} {id : CtxId} {t : Trig} {c : Ctx} {w l : Nat} (hp : (memBlank v id t).isPf = false)
    (hm : (memBlank v id t).isMaint = false) (hl : l < c.nlanes) (ht : t.mask.getLsbD l = true) (hw : l / 32 = w) :
    ∃ x ∈ memLanes v id t c w, x.lane = l := by
  refine ⟨_, List.mem_filter.mpr ⟨List.mem_map.mpr ⟨l, mem_only.mpr ⟨hl, ht, hw⟩, rfl⟩, ?_⟩, (laneAt_lane ..).1⟩
  simp [MemLane.idle, hp, hm]

theorem memMoves_pass (v : State) (id : CtxId) (t : Trig) (c : Ctx) :
    (memMoves v id t c).map MemOp.pass = Lanes.passes t.mask c.nlanes := by
  simp [memMoves, Function.comp_def]

theorem memMoves_queued (v : State) (id : CtxId) (t : Trig) (c : Ctx) (l : List MemOp) :
    queued l (l ++ memMoves v id t c) = l ++ memMoves v id t c := by
  refine queued_append (List.pairwise_map.mpr ((passes_sorted t.mask c.nlanes).imp ?_))
  exact fun h => Nat.le_of_lt h

/-! ## The rows of LA, LB, ST and AT -/

/-- A row is a bundle of one move that starts a memory move (R29). -/
def MemRow (i : (MoveF → Instr) × Nat × Nat) : Prop :=
  (i.2.1 = U.la ∨ i.2.1 = U.lb ∨ i.2.1 = U.st ∨ i.2.1 = U.at_) ∧ i.2.2 < 256 ∧
    ∀ m s, exec (i.1 m) s = issueOne (syllable true i.2.1 3 i.2.2 m) startMem s

theorem memRows (size ord rt : BitVec 2) (sgn rem asz : BitVec 1) :
    ∀ i ∈ loadOps size sgn rt ++ prefetchOps rt ++ storeOps size rt ++ atomOps rem ord asz, MemRow i := by
  have h1 := size.isLt
  have h2 := ord.isLt
  have h3 := rt.isLt
  have h4 := sgn.isLt
  have h5 := rem.isLt
  have h6 := asz.isLt
  have row : ∀ (i : MoveF → Instr) (u o o' : Nat), (u = U.la ∨ u = U.lb ∨ u = U.st ∨ u = U.at_) → o < 256 → o' = o →
      (∀ m s, exec (i m) s = issueOne (syllable true u 3 o' m) startMem s) → MemRow (i, u, o) :=
    fun i u o o' hu ho e hx => ⟨hu, ho, fun m s => e ▸ hx m s⟩
  simp only [loadOps, prefetchOps, storeOps, atomOps, List.forall_mem_append, List.forall_mem_cons, List.not_mem_nil,
    false_implies, implies_true, and_true]
  refine ⟨⟨⟨⟨?_, ?_, ?_, ?_, ?_, ?_⟩, ?_, ?_⟩, ?_, ?_, ?_, ?_, ?_⟩, ?_, ?_, ?_, ?_, ?_, ?_, ?_, ?_, ?_, ?_, ?_, ?_, ?_⟩
  all_goals exact row _ _ _ _ (by decide) (by omega) (by omega) (fun _ _ => rfl)

/-! ## The unit state in which an operation starts -/

theorem begun_keeps (c : Ctx) (b : Bundle) (m : Move) : (c.begun b m).pend = c.us.pend ∧
    (c.begun b m).flags = c.us.flags ∧
    (c.begun b m).owners = c.us.owners := by
  unfold Ctx.begun
  split
  · exact ⟨rfl, rfl, rfl⟩
  · exact ⟨rfl, rfl, rfl⟩

theorem begun_unit_ne {c : Ctx} {b : Bundle} {m : Move} {v : Nat} (h : v ≠ m.dunit) :
    (c.begun b m).unit v = c.us.unit v := by
  have hw : (c.withT b m).unit v = c.us.unit v := UnitState.unit_setUnit_ne _ _ h
  unfold Ctx.begun UnitState.emptyR
  split
  · rw [UnitState.unit_setUnit_ne _ _ h, hw]
  · exact hw

theorem begun_unit_r (c : Ctx) (b : Bundle) (m : Move) : ((c.begun b m).unit m.dunit).r = (c.us.unit m.dunit).r := by
  have hw : ((c.withT b m).unit m.dunit).r = (c.us.unit m.dunit).r := by rw [Ctx.withT, UnitState.unit_setUnit_same]
  unfold Ctx.begun UnitState.emptyR
  split
  · rw [UnitState.unit_setUnit_same]
    exact hw
  · exact hw

theorem begun_unit_last {c : Ctx} {b : Bundle} {m : Move} (h : isVar m.dunit = true) :
    ((c.begun b m).unit m.dunit).last = c.nextUid + m.slot := by
  rw [Ctx.begun, if_pos h, UnitState.emptyR, UnitState.unit_setUnit_same]

/-- The units whose triggers queue memory moves hold T lane by lane. -/
theorem mem_port {u : Nat} (h : u = U.la ∨ u = U.lb ∨ u = U.st ∨ u = U.at_) :
    uniformPort u 3 = false ∧ u ≠ 0 ∧ u < 32 ∧ u ≠ U.sv := by
  rcases h with rfl | rfl | rfl | rfl
  all_goals decide

/-- What a trigger of a memory unit leaves, in the terms of the context before it (R29, R128 to R137, R145). -/
theorem memStarted_leaves {s v : State} {c c' : Ctx} {b : Bundle} {m : Move}
    (h : c'.Is { memStarted v s.cur (c.trigOf b m) (atStart c s b m) with
      us := (memStarted v s.cur (c.trigOf b m) (atStart c s b m)).us.ticked
      memq := queued c.memq (memStarted v s.cur (c.trigOf b m) (atStart c s b m)).memq }) :
    c'.memq = c.memq ++ memMoves v s.cur (c.trigOf b m) (atStart c s b m) ∧
      (c'.us.unit m.dunit).a = (c.us.unit m.dunit).a ∧ (c'.us.unit m.dunit).b = (c.us.unit m.dunit).b ∧
      (c'.us.unit m.dunit).c = (c.us.unit m.dunit).c ∧
      (isVar m.dunit = true → (c'.us.unit m.dunit).full = memFills v s.cur (c.trigOf b m) ∧
        (c'.us.unit m.dunit).last = c.nextUid + m.slot) ∧
      (∀ l, l < c.nlanes → (c'.us.unit m.dunit).r.at l = (c.us.unit m.dunit).r.at l) ∧
      c'.g = c.g ∧ c'.s = c.s ∧ c'.k = c.k ∧ c'.pc = b.next ∧ c'.sched = (c.sched + 1) % 2 ^ 48 ∧
      ((∀ kv ∈ c.us.owners, kv.2 ≠ c.nextUid + m.slot) → c'.us.flags = c.us.flags) ∧
      (∀ u, u ≠ m.dunit → c'.us.unit u = c.us.unit u) ∧ c'.us.pend = c.us.ticked.pend ∧ c'.tstatus = c.tstatus ∧
      c'.fpCtl = c.fpCtl ∧ c'.live = c.live := by
  obtain ⟨⟨d, w, fr, us, hx⟩, pa, pb, pc, pr, pf, pl, pu, pp, pg⟩ :=
    memStarted_is v s.cur (c.trigOf b m) (atStart c s b m)
  obtain ⟨b1, b2, b3⟩ := begun_keeps c b m
  obtain ⟨q1, q2, q3, -⟩ := begun_ports (c := c) (b := b) (m := m) (u := m.dunit)
  have hus : c'.us = _ := Is_field h Ctx.us (fun _ _ _ => rfl)
  have hunit : ∀ u, c'.us.unit u = (memStarted v s.cur (c.trigOf b m) (atStart c s b m)).us.unit u := fun u => by
    rw [hus]
    rfl
  refine ⟨?_, ?_, ?_, ?_, fun hv => ⟨?_, ?_⟩, fun l hl => ?_, ?_, ?_, ?_, ?_, ?_, fun hk => ?_, fun u hu => ?_, ?_,
    ?_, ?_, ?_⟩
  · refine (Is_field h Ctx.memq (fun _ _ _ => rfl)).trans ?_
    rw [hx]
    exact memMoves_queued ..
  · rw [hunit]
    exact pa.trans (q1.trans (Ctx.withT_a ..))
  · rw [hunit]
    exact pb.trans (q2.trans (Ctx.withT_b ..))
  · rw [hunit]
    exact pc.trans (q3.trans (Ctx.withT_c ..))
  · rw [hunit]
    exact pf (begun_unit_last hv) (begun_unit_full hv)
  · rw [hunit]
    exact pl.trans (begun_unit_last hv)
  · rw [hunit]
    exact (pr l hl).trans (congrArg (fun x => Vals.at x l) (begun_unit_r c b m))
  · exact (Is_field h Ctx.g (fun _ _ _ => rfl)).trans (by rw [hx]; rfl)
  · exact (Is_field h Ctx.s (fun _ _ _ => rfl)).trans (by rw [hx]; rfl)
  · exact (Is_field h Ctx.k (fun _ _ _ => rfl)).trans (by rw [hx]; rfl)
  · exact (Is_field h Ctx.pc (fun _ _ _ => rfl)).trans (by rw [hx]; rfl)
  · exact (Is_field h Ctx.sched (fun _ _ _ => rfl)).trans (by rw [hx]; rfl)
  · rw [hus]
    exact (pg fun kv hkv => hk kv (b3 ▸ hkv)).trans b2
  · rw [hunit]
    exact (pu u hu).trans (begun_unit_ne hu)
  · rw [hus]
    exact congrArg (List.map fun p : Pend => { p with left := p.left - 1 }) (pp.trans b1)
  · exact (Is_field h Ctx.tstatus (fun _ _ _ => rfl)).trans (by rw [hx]; rfl)
  · exact (Is_field h Ctx.fpCtl (fun _ _ _ => rfl)).trans (by rw [hx]; rfl)
  · exact (Is_field h Ctx.live (fun _ _ _ => rfl)).trans (by rw [hx]; rfl)

theorem mem_memMoves {v : State} {id : CtxId} {t : Trig} {c : Ctx} {e : MemOp} (h : e ∈ memMoves v id t c) :
    e = { memBlank v id t with pass := e.pass, lanes := memLanes v id t c e.pass } := by
  obtain ⟨w, -, rfl⟩ := List.mem_map.mp h
  rfl

/-- The moves of a trigger: one entry for each pass, each lane with its address (R128, R131, R134, R145). -/
theorem memMoves_entries {s v : State} {c : Ctx} {b : Bundle} {m : Move}
    (hm : m.dunit = U.la ∨ m.dunit = U.lb ∨ m.dunit = U.st ∨ m.dunit = U.at_) (ho : m.dsel < 256) {e : MemOp}
    (h : e ∈ memMoves v s.cur (c.trigOf b m) (atStart c s b m)) :
    e.uid = c.nextUid + m.slot ∧ e.unit = m.dunit ∧ e.opcode = BitVec.ofNat 8 m.dsel ∧ e.scope = 0 ∧
      e.mask = c.guardMask m ∧
      e.bundle = b.pc ∧
      (∀ x ∈ e.lanes, x.lane < c.nlanes ∧ (c.guardMask m).getLsbD x.lane = true ∧ x.lane / 32 = e.pass ∧
        x.addr = (if m.dunit = U.st ∧ m.dsel / 16 % 4 = 3 ∧ m.dsel < 0x80 then (c.us.unit m.dunit).a.at x.lane
          else (c.us.unit m.dunit).a.at x.lane + sx (lo32 (c.src b m x.lane)))) ∧
      (¬((m.dunit = U.la ∨ m.dunit = U.lb) ∧ 192 ≤ m.dsel) → ¬(m.dunit = U.st ∧ 0x80 ≤ m.dsel) →
        ∀ l, l < c.nlanes → (c.guardMask m).getLsbD l = true → l / 32 = e.pass → ∃ x ∈ e.lanes, x.lane = l) := by
  have hop : (BitVec.ofNat 8 m.dsel).toNat = m.dsel := by rw [BitVec.toNat_ofNat, Nat.mod_eq_of_lt ho]
  have he := mem_memMoves h
  rw [he]
  refine ⟨rfl, rfl, rfl, rfl, rfl, rfl, fun x hx => ?_, fun hp hs l hl hk hw => memLanes_all ?_ ?_ hl hk hw⟩
  · obtain ⟨h1, h2, h3, h4⟩ := mem_memLanes hx
    refine ⟨h1, h2, h3, h4.trans ((lane_addr ..).trans ?_)⟩
    have ha := congrArg (fun v => Vals.at v x.lane) (atStart_a c s b m)
    have ht := congrArg (fun v => Vals.at v x.lane) (atStart_held c s b m)
    rw [ha, ht, Ctx.withT_held (c := c) (mem_port hm).1 h1 h2]
    show (if m.dunit = U.st ∧ (BitVec.ofNat 8 m.dsel).toNat / 16 % 4 = 3 ∧
      (BitVec.ofNat 8 m.dsel).toNat < 0x80 then _ else _) = _
    rw [hop]
  · show ((m.dunit == U.la || m.dunit == U.lb) && decide (0xC0 ≤ (BitVec.ofNat 8 m.dsel).toNat)) = false
    rw [hop]
    simpa using hp
  · show (m.dunit == U.st && decide (0x80 ≤ (BitVec.ofNat 8 m.dsel).toNat)) = false
    rw [hop]
    simpa using hs

theorem memFills_eq {v : State} {id : CtxId} {c : Ctx} {b : Bundle} {m : Move} (ho : m.dsel < 256) :
    memFills v id (c.trigOf b m) = memQuick m.dunit m.dsel := by
  have hop : (BitVec.ofNat 8 m.dsel).toNat = m.dsel := by rw [BitVec.toNat_ofNat, Nat.mod_eq_of_lt ho]
  show ((m.dunit == U.la || m.dunit == U.lb) && decide (0xC0 ≤ (BitVec.ofNat 8 m.dsel).toNat) ||
    (m.dunit == U.at_ && (BitVec.ofNat 8 m.dsel).toNat / 32 % 4 == 3)) = _
  rw [hop]
  rfl

/-- Settles O29: the row's trigger (`memRows`) queues the entries of `memMoves_entries` and leaves the rest
(`memStarted_leaves`). -/
theorem memoryMovesQueue : Obligations.MemoryMovesQueue := by
  intro size ord rt sgn rem asz i m s c0 hi h
  obtain ⟨hm, ho, hx⟩ := memRows size ord rt sgn rem asz i hi
  obtain ⟨-, hu0, hu, hsv⟩ := mem_port hm
  obtain ⟨f1, f2, f3, -⟩ := Move.of_syllable i.2.1 3 i.2.2 m hu (by decide) ho
  obtain ⟨d, w, fr, us, hk⟩ := (memStarted_is (beginState s c0.land (Bundle.one (syllable true i.2.1 3 i.2.2 m) s.curPc)
    (Move.of 0 (syllable true i.2.1 3 i.2.2 m))) s.cur
    (c0.land.trigOf (Bundle.one (syllable true i.2.1 3 i.2.2 m) s.curPc)
    (Move.of 0 (syllable true i.2.1 3 i.2.2 m))) (atStart c0.land s (Bundle.one (syllable true i.2.1 3 i.2.2 m) s.curPc)
    (Move.of 0 (syllable true i.2.1 3 i.2.2 m)))).only
  obtain ⟨t, c', e1, e2, e3, e4⟩ := issueOne_started _ hu hu0 ho (fun e => absurd e hsv) h
    (startMem_eq (State.begun_ctx ..)) (congrArg Ctx.tid hk :) (congrArg Ctx.loop hk :) (congrArg Ctx.tstatus hk :)
    (congrArg Ctx.fpCtl hk :)
  obtain ⟨l1, l2, l3, l4, l5, l6, l7, l8, l9, l10, l11, l12, l13, l14, l15, l16, l17⟩ := memStarted_leaves e4
  rw [f1] at l2 l3 l4 l5 l6 l13
  refine ⟨t, c', _, (hx m s).trans e1, e2, e3, l1, memMoves_pass .., fun e he => ?_, l2, l3, l4, ?_, l6, l7, l8, l9,
    l10, l11,
    l12, l13, l14, l15, l16, l17⟩
  · obtain ⟨g1, g2, g3, g4, g5, g6, g7, g8⟩ := memMoves_entries (by rw [f1]; exact hm) (by rw [f3]; exact ho) he
    rw [f1, f3] at g7 g8
    exact ⟨g1, g2.trans f1, g3.trans (congrArg _ f3), g4, g5, g6.trans (curPc_of h.1.here), g7, g8⟩
  · rw [memFills_eq (by rw [f3]; exact ho), f1, f3] at l5
    exact l5

/-! ## States that meet `State.Clear` -/

/-- `State.Clear` of a context without a trap of SF, a loop record, queued moves or buffered stores, as one check. -/
abbrev StandsClear (s : State) (c0 : Ctx) (b : Bundle) : Prop :=
  s.cur.slot ≤ CtxId.shadowSlot ∧ c0.ready = true ∧ s.acqOut s.cur c0.land = none ∧ c0.land.nextDue = none ∧
    c0.land.us.sfTrap = none ∧ s.breaks s.cur c0.land = false ∧ c0.land.us.fence = none ∧
    c0.land.failing b (decide ((s.fold s.cur.fold).cycle < c0.land.us.xlBusy)) = [] ∧ c0.land.us.zeros b.wait = [] ∧
    c0.land.tokenRead b = none ∧ c0.land.emptyRead b = none ∧ c0.land.sfb = [] ∧ s.storesOut s.cur c0.land = false ∧
    c0.land.memq = [] ∧ (s.fold s.cur.fold).held.length < 64 ∧
      (s.fold s.cur.fold).widePath ≤ (s.fold s.cur.fold).cycle ∧
    (s.fold s.cur.fold).unread (s.fold s.cur.fold).lockSeq = false ∧ c0.loop.isNone = true

theorem clear_of_standsClear {s : State} {c0 : Ctx} {b : Bundle} (h0 : s.ctx s.cur = some c0) (h : StandsClear s c0 b) :
    s.Clear c0 b := by
  obtain ⟨place, ready, acq, due, sf, brk, fence, checks, flags, token, full, sfb, stores, memq, held, path, unread,
    loop⟩ := h
  exact { here := h0, place, ready, acq, due, brk, fence, checks, token, full
          sf := fun t e => by rw [sf] at e; cases e
          flags := fun _ => flags
          sfb := fun _ => sfb
          stores := fun _ => stores
          loads := fun _ => memq
          held := fun _ => held
          wide := fun _ => ⟨path, unread⟩
          loop := fun q e => by rw [e] at loop; cases loop }

/-! ## O38: a result of CP that lands with the trigger -/

/-- A result in flight that is due, of the variable-latency unit CP. -/
def strayPend : Pend :=
  { unit := U.cp, left := 0, mask := 1, vals := [7], carry := none, kdst := 0, excs := [], bundle := 0, cycle := 0 }

/-- A context in which that result is due. -/
def strayCtx : Ctx := { Ctx.blank 1 32 with shadow := true, us := { UnitState.fresh with pend := [strayPend] } }

def strayState : State := { State.reset with ctxs := [(CtxId.key { fold := 0, slot := CtxId.shadowSlot }, strayCtx)] }

/-- A gather whose one lane asks for no byte, which no shape check passes. -/
def strayMove : MoveF := ⟨false, 0, 2, 0⟩
def strayWord : W32 := syllable true U.cp 3 4 strayMove

/-- R of CP on lane 0, when the gather has issued. -/
def strayR : Option W64 :=
  match execCpGather strayMove strayState with
  | .next t => (t.ctx strayState.cur).map (fun c' => (c'.us.unit U.cp).r.at 0)
  | _ => none

theorem strayR_eq : strayR = some 7 := by decide +kernel

theorem stray_fires : strayState.Fires strayCtx strayWord :=
  ⟨clear_of_standsClear rfl (by decide +kernel), 0, by decide +kernel, by decide +kernel⟩

theorem stray_plan : (strayCtx.engOf strayState strayWord).plan strayCtx.live (strayState.holdsEngine strayCtx.gang) =
    .error 17 := by
  have h : (match (strayCtx.engOf strayState strayWord).plan strayCtx.live (strayState.holdsEngine strayCtx.gang) with
    | .error n => n == 17
    | .ok _ => false) = true := by decide +kernel
  split at h
  · rename_i n e
    rw [e, beq_iff_eq.mp h]
  · cases h

/-- Refutes O38: in `strayCtx` a result is due whose unit is CP, which no trigger puts in flight but a state may hold.
It lands with the gather that is refused, so CP.R holds 7 on lane 0 where it held 0 before the bundle. -/
theorem not_copyTriggers : ¬ Obligations.CopyTriggers := by
  intro h
  obtain ⟨-, hr, -⟩ := h 4 .cpGather strayMove strayState strayCtx (by simp [copyOps]) stray_fires
  obtain ⟨t, c', e1, e2, -, -, -, -, -, -, -, ⟨-, -, hk⟩, -⟩ := hr 17 stray_plan
  have hx : execCpGather strayMove strayState = .next t := e1
  have h7 : strayR = some ((c'.us.unit U.cp).r.at 0) := by simp only [strayR, hx, e2, Option.map_some]
  have h0 : (c'.us.unit U.cp).r.at 0 = 0 := (hk 0 (by decide)).trans (by decide +kernel)
  rw [strayR_eq, h0] at h7
  exact absurd h7 (by decide)

/-! ## O46: a guard that holds on a lane that the team does not have -/

/-- A context of one lane whose live lanes hold lane 40 alone. -/
def straying : Ctx := { Ctx.blank 1 32 with shadow := true, live := BitVec.ofNat 1024 (2 ^ 40) }

def strayingState : State := { State.reset with
    ctxs := [(CtxId.key { fold := 0, slot := CtxId.shadowSlot }, straying)] }

/-- The bundle of a load of 32 bits by LA. -/
def strayingBundle : Bundle := Bundle.one (syllable true U.la 3 32 strayMove) strayingState.curPc

/-- How many memory moves stand in the queue, when the load has issued. -/
def strayingQueue : Option Nat :=
  match execLaLd 2 0 0 strayMove strayingState with
  | .next t => (t.ctx strayingState.cur).map (fun c' => c'.memq.length)
  | _ => none

theorem strayingQueue_eq : strayingQueue = some 0 := by decide +kernel

theorem straying_clear : strayingState.Clear straying strayingBundle := clear_of_standsClear rfl (by decide +kernel)

/-- Refutes O46: `straying` has one lane, and its live lanes hold lane 40 alone, so the guard of a load is not empty
and no lane of the team has it. The bundle of the load executes and queues nothing, where the statement finds a move
in the queue. -/
theorem not_idleRecallAndBundles : ¬ Obligations.IdleRecallAndBundles := by
  rintro ⟨-, -, -, h, -⟩
  obtain ⟨t, c', e1, e2, -, -, -, -, -, -, -, -, hload, -⟩ :=
    h (.laLd 2 0 0 strayMove) strayingBundle strayingState straying
    (.inr (.inr ⟨_, _, _, _, rfl, rfl⟩)) straying_clear (by decide +kernel)
  have hx : execLaLd 2 0 0 strayMove strayingState = .next t := e1
  have hq : strayingQueue = some c'.memq.length := by simp only [strayingQueue, hx, e2, Option.map_some]
  rw [strayingQueue_eq, Option.some.injEq] at hq
  obtain ⟨-, o, ho, -⟩ := hload (Move.of 0 (syllable true U.la 3 32 strayMove)) (List.mem_singleton_self _)
    (by decide +kernel) (by decide +kernel)
  rw [List.length_eq_zero_iff.mp hq.symm] at ho
  cases ho

/-! ## O50: a result of SV that lands with the trap -/

/-- A result in flight that is due, of the variable-latency unit SV, on lane 1. -/
def strayAnswer : Pend :=
  { unit := U.sv, left := 0, mask := 2, vals := [0, 7], carry := none, kdst := 0, excs := [], bundle := 0, cycle := 0 }

/-- A context of two lanes, whose predicate k1 holds on lane 0 alone, in which that result is due. -/
def answeredCtx : Ctx :=
  { Ctx.blank 2 32 with shadow := true, k := [(1, 1)], us := { UnitState.fresh with pend := [strayAnswer] } }

def answeredState : State := { State.reset with
    ctxs := [(CtxId.key { fold := 0, slot := CtxId.shadowSlot }, answeredCtx)] }

/-- A trigger under k1. -/
def underK1 : MoveF := ⟨false, 1, 2, 0⟩

/-- R of SV on lane 1, when the trap has issued on lane 0. -/
def answeredR : Option W64 :=
  match execSvTrap underK1 answeredState with
  | .next t => (t.ctx answeredState.cur).map (fun c' => (c'.us.unit U.sv).r.at 1)
  | _ => none

theorem answeredR_eq : answeredR = some 7 := by decide +kernel

theorem answered_fires : answeredState.Fires answeredCtx (syllable true U.sv 3 0x10 underK1) :=
  ⟨clear_of_standsClear rfl (by decide +kernel), 0, by decide +kernel, by decide +kernel⟩

/-- Refutes O50: in `answeredCtx` a result is due whose unit is SV, which no trigger puts in flight but a state may
hold. It lands on lane 1 with the bundle of a trap on lane 0, so SV.R holds 7 on lane 1 where it held 0 before the
bundle. -/
theorem not_trapsAsked : ¬ Obligations.TrapsAsked := by
  rintro ⟨-, -, -, h, -⟩
  obtain ⟨t, c', e1, e2, -, -, -, -, -, -, ⟨-, -, -, -, -, -, hk⟩, -⟩ :=
    (h underK1 answeredState answeredCtx).1 answered_fires
  have hx : execSvTrap underK1 answeredState = .next t := e1
  have h7 : answeredR = some ((c'.us.unit U.sv).r.at 1) := by simp only [answeredR, hx, e2, Option.map_some]
  have h0 : (c'.us.unit U.sv).r.at 1 = 0 := (hk 1 (by decide)).trans (by decide +kernel)
  rw [answeredR_eq, h0] at h7
  exact absurd h7 (by decide)

end Sys2Proof.Machine.Sequential
end

section
/-! SUPPORT. Power, boot from a signed image, measurements and the report on a nonce (R447, R448). -/
namespace Sys2Proof.Machine.Boot

/-! ## Tables listed from a range of keys -/

theorem find_map_of_mem {α : Type} {key : Nat → Nat} (hkey : Function.Injective key) (v : Nat → α) {l : List Nat} {j : Nat}
    (hj : j ∈ l) : Tbl.find (l.map (fun i => (key i, v i))) (key j) = some (v j) := by
  induction l with
  | nil => cases hj
  | cons i r ih =>
    simp only [List.map_cons, Tbl.find]
    by_cases h : i = j
    · rw [if_pos (congrArg key h), h]
    · rw [if_neg (fun e => h (hkey e)), ih ((List.mem_cons.mp hj).resolve_left (Ne.symm h))]

/-! ## The control node's memory -/

theorem read_filter_from (p : Nat → Bool) (a : Nat) {j : Nat} {m : List Host.Cell} (hm : Memory.okFrom j m = true) :
    Memory.read (m.filter (fun c => p c.1)) a = if p a = true then Memory.read m a else Memory.unlisted := by
  induction m generalizing j with
  | nil => exact (ite_self _).symm
  | cons c r ih =>
    obtain ⟨k, b⟩ := c
    simp only [Memory.okFrom, Bool.and_eq_true, decide_eq_true_eq] at hm
    obtain ⟨-, hr⟩ := hm
    by_cases hp : p k = true
    · rw [List.filter_cons_of_pos (by exact hp)]
      simp only [Memory.read, ih hr]
      by_cases hk : k = a
      · subst hk; rw [if_pos rfl, if_pos rfl, if_pos hp]
      · rw [if_neg hk, if_neg hk]
        split
        · rw [ite_self]
        · rfl
    · rw [List.filter_cons_of_neg (by exact hp), ih hr]
      by_cases ha : p a = true
      · have hk : k ≠ a := fun e => hp (e ▸ ha)
        simp only [if_pos ha, Memory.read, if_neg hk]
        split
        · exact Memory.read_below hr (by omega)
        · rfl
      · rw [if_neg ha, if_neg ha]

/-- A filter on the addresses of a canonical memory keeps the bytes it keeps and clears the others. -/
theorem read_filter (p : Nat → Bool) (a : Nat) {m : List Host.Cell} (hm : Memory.wf m = true) :
    Memory.read (m.filter (fun c => p c.1)) a = if p a = true then Memory.read m a else Memory.unlisted :=
  read_filter_from p a hm

theorem hostCells_wf {m : List Host.Cell} (hm : Memory.wf m = true) : Memory.wf (Memory.hostCells m) = true :=
  Memory.filter_okFrom _ hm

theorem read_hostCells {m : List Host.Cell} (hm : Memory.wf m = true) (a : Nat) :
    Memory.read (Memory.hostCells m) a = if 2 ^ 52 ≤ a ∧ a < 2 ^ 53 then Memory.read m a else 0 := by
  refine (read_filter (fun k => decide (2 ^ 52 ≤ k) && decide (k < 2 ^ 53)) a hm).trans ?_
  simp only [Bool.and_eq_true, decide_eq_true_eq, Memory.unlisted]

/-! ## Sections placed one after the other (R78, R447 step 5) -/

section
variable {ι : Type} (keep : ι → Prop) [DecidablePred keep] (base : ι → Nat) (bytes : ι → List Byte)

/-- The memory after the byte ranges of a list's kept entries are written in the list's order. -/
def writeRanges (l : List ι) (m : List Host.Cell) : List Host.Cell :=
  l.foldl (fun m x => if keep x then Memory.writeN m (base x) (bytes x) else m) m

theorem writeRanges_concat (l : List ι) (x : ι) (m : List Host.Cell) : writeRanges keep base bytes (l ++ [x]) m =
    if keep x then Memory.writeN (writeRanges keep base bytes l m) (base x) (bytes x) else writeRanges keep base bytes l m := by
  simp only [writeRanges, List.foldl_append, List.foldl_cons, List.foldl_nil]

theorem writeRanges_wf (l : List ι) {m : List Host.Cell} (hm : Memory.wf m = true) :
    Memory.wf (writeRanges keep base bytes l m) = true := by
  induction l using List.reverseRecOn with
  | nil => exact hm
  | append_singleton l x ih =>
    rw [writeRanges_concat]
    split
    · exact Memory.writeN_wf _ _ _ ih
    · exact ih

/-- A byte reads as the last kept range that covers it has it, and as before where none does. -/
theorem read_writeRanges {a : Nat} {covers : ι → Bool}
    (hc : ∀ x, covers x = true ↔ keep x ∧ base x ≤ a ∧ a < base x + (bytes x).length) (l : List ι) {m : List Host.Cell}
    (hm : Memory.wf m = true) : Memory.read (writeRanges keep base bytes l m) a =
      ((l.filter covers).getLast?.map (fun x => (bytes x).getD (a - base x) 0)).getD (Memory.read m a) := by
  induction l using List.reverseRecOn with
  | nil => rfl
  | append_singleton l x ih =>
    have hl := writeRanges_wf keep base bytes l hm
    rw [writeRanges_concat, List.filter_append]
    by_cases h : covers x = true
    · obtain ⟨hk, hr⟩ := (hc x).mp h
      rw [List.filter_cons_of_pos h, List.filter_nil, List.getLast?_concat, if_pos hk, Memory.read_writeN _ _ _ _ hl, if_pos hr]
      rfl
    · rw [List.filter_cons_of_neg h, List.filter_nil, List.append_nil]
      split
      · rename_i hk
        rw [Memory.read_writeN _ _ _ _ hl, if_neg (fun hr => h ((hc x).mpr ⟨hk, hr⟩)), ih]
      · exact ih

end

/-- What memory holds after boot placed an image over the control node's memory. -/
theorem read_placeImage (s : State) (image : List Byte) (a : Nat) (hm : s.memOk) :
    Memory.read (placeImage image (Memory.hostCells s.mem)) a = Memory.bootByte s image a := by
  have h := read_writeRanges (fun x : PvoSect × Nat => x.1.kind ≤ 8 ∨ x.1.kind = 0x0B) (fun x => pvoBase image x.2)
    (fun x => (image.drop x.1.off).take x.1.size) (a := a)
    (covers := fun x => (decide (x.1.kind ≤ 8) || x.1.kind == 0x0B) && decide (pvoBase image x.2 ≤ a) &&
      decide (a < pvoBase image x.2 + ((image.drop x.1.off).take x.1.size).length))
    (fun x => by simp only [Bool.and_eq_true, Bool.or_eq_true, decide_eq_true_eq, beq_iff_eq, and_assoc])
    (pvoSects image).zipIdx (hostCells_wf hm)
  refine Eq.trans h ?_
  dsimp only [Memory.bootByte]
  split
  · rename_i x hx; rw [hx]; rfl
  · rename_i hx; rw [hx]; exact read_hostCells hm a

/-! ## Power -/

theorem timebase_of_clk_zero {s : State} (h : s.pkg.clk = 0) : s.timebase = 0 := by
  rw [State.timebase, h, Nat.zero_div, Nat.zero_mod]

theorem powerOnReset_of_off {s : State} (h : s.pkg.boot = .off) : exec .powerOnReset s =
    .next { s with pkg := { s.pkg with boot := .rom, lumenUp := true, clk := 0 } } :=
  congrArg Host.Outcome.next (if_pos h)

theorem powerOnReset_of_on {s : State} (h : s.pkg.boot ≠ .off) : exec .powerOnReset s = .next s :=
  congrArg Host.Outcome.next (if_neg h)

/-! ## An image at the boot ROM -/

theorem firmwareImageReceive_eq (image sig : List Byte) (s : State) :
    exec (.firmwareImageReceive image sig) s = execFirmwareImageReceive image sig s := rfl

theorem firmwareImageReceive_unawaited {image sig : List Byte} {s : State} (h : s.pkg.boot ≠ .rom ∨ s.pkg.lumenUp = false) :
    exec (.firmwareImageReceive image sig) s = .next s := by
  rw [firmwareImageReceive_eq, execFirmwareImageReceive, if_pos h]

theorem firmwareImageReceive_accepted {image sig : List Byte} {s : State} {entry : W64} (hb : s.pkg.boot = .rom)
    (hl : s.pkg.lumenUp = true) (hs : sig.length = 3309) (hv : Config.mldsaVerify (Config.shake256 image) sig = true)
    (he : imageEntry image = some entry) :
    exec (.firmwareImageReceive image sig) s = .next (s.bootWith image (Config.shake256 image) entry) := by
  rw [firmwareImageReceive_eq, execFirmwareImageReceive, if_neg (not_or.mpr ⟨not_not.mpr hb, ne_false_of_eq_true hl⟩)]
  simp only [hs, hv, he, decide_true, Bool.and_true, if_true]

theorem firmwareImageReceive_refused {image sig : List Byte} {s : State} (hb : s.pkg.boot = .rom) (hl : s.pkg.lumenUp = true)
    (h : ¬(sig.length = 3309 ∧ Config.mldsaVerify (Config.shake256 image) sig = true ∧ (imageEntry image).isSome = true)) :
    exec (.firmwareImageReceive image sig) s = .next (s.dieNotice 0x5D 0 0) := by
  have hn : (if (decide (sig.length = 3309) && Config.mldsaVerify (Config.shake256 image) sig) = true then imageEntry image
      else none) = none := by
    split
    · rename_i hg
      rw [Bool.and_eq_true, decide_eq_true_eq] at hg
      exact Option.not_isSome_iff_eq_none.mp (fun hi => h ⟨hg.1, hg.2, hi⟩)
    · rfl
  rw [firmwareImageReceive_eq, execFirmwareImageReceive, if_neg (not_or.mpr ⟨not_not.mpr hb, ne_false_of_eq_true hl⟩)]
  simp only [hn]

theorem noticed_dieNotice (s : State) (code : BitVec 7) (data : Nat) (addr : W64) :
    s.Noticed (s.dieNotice code data addr) code data addr := ⟨_, rfl, rfl, rfl, rfl, rfl⟩

/-! ## The state that boot leaves (R369, R447 steps 4 to 6) -/

theorem bootWith_ctx (s : State) (image d : List Byte) (entry : W64) {f : Nat} (hf : f < 384) :
    (s.bootWith image d entry).ctx { fold := f, slot := CtxId.shadowSlot } = some (shadowAtEntry f (s.nextId + f) entry 0) := by
  have hkey : Function.Injective (fun f => CtxId.key { fold := f, slot := CtxId.shadowSlot }) := fun i j h => by
    simp only [CtxId.key] at h; omega
  exact find_map_of_mem hkey (fun f => shadowAtEntry f (s.nextId + f) entry 0) (List.mem_range.mpr hf)

theorem bootWith_die (s : State) (image d : List Byte) (entry : W64) {k : Nat} (hk : k < 4) :
    (s.bootWith image d entry).die k = Die.fresh :=
  congrArg (Option.getD · Die.fresh)
    (find_map_of_mem Function.injective_id (fun _ => Die.fresh) (List.mem_range.mpr hk))

theorem shadowAtEntry_inh (f tid : Nat) (entry : W64) (now : Nat) : (shadowAtEntry f tid entry now).inh = false :=
  BitVec.getLsbD_zero

/-! ## Measurements -/

theorem measOf_extend_same (p : Pkg) (i : Nat) (d : List Byte) :
    (p.extend i d).measOf i = Config.shake256 (p.measOf i ++ d) := Tbl.get_put_same _ _ _ _

theorem measOf_extend_ne (p : Pkg) {i j : Nat} (d : List Byte) (h : j ≠ i) : (p.extend i d).measOf j = p.measOf j :=
  Tbl.get_put_ne _ _ _ h

theorem measurementExtend_of_running {i : Nat} {s : State} (c : List Byte) (hr : s.running = true) (h1 : 1 ≤ i) (h7 : i ≤ 7) :
    exec (.measurementExtend i c) s = .next { s with pkg := s.pkg.extend i (Config.shake256 c) } :=
  congrArg Host.Outcome.next (if_pos ⟨hr, h1, h7⟩)

theorem measurementExtend_ignored {i : Nat} {s : State} (c : List Byte) (h : ¬(s.running = true ∧ 1 ≤ i ∧ i ≤ 7)) :
    exec (.measurementExtend i c) s = .next s :=
  congrArg Host.Outcome.next (if_neg h)

/-! ## The report on a nonce (R448) -/

theorem attestationRequest_reported (nonce : BitVec 256) {s : State} (hb : s.pkg.boot ≠ .off) (hl : s.pkg.lumenUp = true) :
    exec (.attestationRequest nonce) s = .next { s with pkg := { s.pkg with
      out := s.pkg.out ++ [.report (s.attestReport nonce) (Config.mldsaSign (Config.shake256 (s.attestReport nonce)))] } } :=
  congrArg Host.Outcome.next (if_neg (not_or.mpr ⟨hb, ne_false_of_eq_true hl⟩))

theorem attestationRequest_ignored (nonce : BitVec 256) {s : State} (h : s.pkg.boot = .off ∨ s.pkg.lumenUp = false) :
    exec (.attestationRequest nonce) s = .next s :=
  congrArg Host.Outcome.next (if_pos h)

/-- Settles O59: each event is one equation of its own, and what a booted memory holds is the last section written over
each byte. -/
theorem powerBootAndAttestation : Obligations.PowerBootAndAttestation := by
  refine ⟨fun s => ⟨fun h => ?_, powerOnReset_of_on⟩, fun image sig s => ⟨firmwareImageReceive_unawaited, ?_, ?_⟩,
    fun s hm => ?_, fun i c s => ⟨fun hr h1 h7 => ?_, measurementExtend_ignored c⟩,
    fun nonce s => ⟨fun hb hl => ?_, attestationRequest_ignored nonce⟩⟩
  case refine_1 => exact ⟨_, powerOnReset_of_off h, rfl, rfl, timebase_of_clk_zero rfl, rfl, rfl⟩
  case refine_2 =>
    intro hb hl hbad
    exact ⟨_, firmwareImageReceive_refused hb hl hbad, noticed_dieNotice s _ _ _, hb, rfl, rfl, rfl⟩
  case refine_3 =>
    rintro entry hb hl ⟨hs, hv, -⟩ he hm
    refine ⟨_, firmwareImageReceive_accepted hb hl hs hv he, rfl, rfl, measOf_extend_same _ _ _,
      fun a => read_placeImage s image a hm,
      fun f hf => ⟨_, bootWith_ctx s image _ entry hf, rfl, rfl, shadowAtEntry_inh _ _ _ _, rfl, rfl, rfl, rfl, rfl⟩, fun d hd => ?_⟩
    rw [bootWith_die s image _ entry hd]
    exact ⟨rfl, rfl, rfl⟩
  case refine_4 => exact ⟨_, rfl, rfl, rfl, rfl, rfl, read_hostCells hm⟩
  case refine_5 =>
    exact ⟨_, measurementExtend_of_running c hr h1 h7, measOf_extend_same _ _ _,
      fun j hj => measOf_extend_ne _ _ hj, rfl, rfl⟩
  case refine_6 => exact ⟨_, _, attestationRequest_reported nonce hb hl, rfl, rfl, rfl, rfl, rfl⟩

end Sys2Proof.Machine.Boot
end

section
/-! SUPPORT. The integer and control instructions: what the rows of CM compute (R91 to R93). -/
namespace Sys2Proof.Machine.IntegerControl
open Sys2Proof.Machine.Sequential

/-- What a row of CM compares: the operation sets predicate `k` to the row's bit of A and T (R91 to R93). -/
inductive Compares (k : BitVec 3) (r : FixedRow) : Start → Prop
  | intro (f : W32 → W32 → Bool) (hu : r.unit = U.cm) (hv : ∀ a b t c, r.value a b t c = b2w (f a t))
      (hc : r.carry = none) (hk : r.kdst = k) (he : ∀ a b t, r.exc a b t = 0) : Compares k r (laneCm k f)

/-- A row of CM runs as stated when its operation compares with the row's bit. -/
theorem Compares.runs {k : BitVec 3} {r : FixedRow} {st : Start} (hc : Compares k r st) (hx : StartsAs r st)
    (ho : r.opcode < 256) {m : MoveF} {s : State} {c0 : Ctx} (h : s.Fires c0 (r.word m)) : r.Runs m s c0 := by
  obtain ⟨f, hu, hval, hcar, hk, he⟩ := hc
  refine FixedRow.runs_of_pend (laneCm k f) _ h.1 (guardMask_ne_zero h) (hx m s) (by rw [hu]; rfl) (by rw [hu]; rfl)
    ⟨by rw [hu]; decide, by rw [hu]; decide, ho⟩ (fun s id t c hc => by simp only [laneCm, hc]; rfl) (fun c t ht => ?_)
  refine ⟨ht, by simp only [Trig.pend, ht], rfl, hk.symm, rfl, rfl, fun l hl hm => ⟨?_, by rw [he]; rfl⟩,
    by rw [hcar]; rfl⟩
  simp only [Trig.pend]
  rw [Vals.at_map_range _ _ hl, if_pos hm, hval, ht]

/-- A row of the model compares with its own bit when the operation's bit is the same function. -/
theorem compares_of_eq {i : MoveF → Instr} {o : Nat} {k : BitVec 3} {f g : W32 → W32 → Bool} (h : ∀ a t, f a t = g a t) :
    Compares k (FixedRow.compare i o k f) (laneCm k g) :=
  .intro g rfl (fun a _ t _ => congrArg b2w (h a t)) rfl rfl (fun _ _ _ => rfl)

theorem compares_same {i : MoveF → Instr} {o : Nat} {k : BitVec 3} {f : W32 → W32 → Bool} :
    Compares k (FixedRow.compare i o k f) (laneCm k f) := compares_of_eq fun _ _ => rfl

/-- The operations of CM without a KIND, in the order of their rows (R91, R93). -/
def compareStarts (k : BitVec 3) : List Start :=
  [startCmpEq k, startKset k, startCmpEqFo k, startCmpEqFu k, startCmpNe k, startCmpNeFo k, startCmpNeFu k,
    startPlogAnd k, startPlogOr k, startPlogXor k, startPlogAndn k, startPlogOrn k, startPlogNand k, startPlogNor k,
    startPlogXnor k]

/-- The relations of CM, in the order of their rows (R91). -/
def relationStarts (kind : BitVec 2) (k : BitVec 3) : List Start :=
  [startCmpLt kind k, startCmpLe kind k, startCmpGt kind k, startCmpGe kind k]

theorem cmResults_start (k : BitVec 3) : Rows StartsAs (cmResults k) (compareStarts k) := by
  refine ⟨?_, ?_, ?_, ?_, ?_, ?_, ?_, ?_, ?_, ?_, ?_, ?_, ?_, ?_, ?_, trivial⟩ <;> exact fun _ _ => rfl

theorem cmRelResults_start (kind : BitVec 2) (k : BitVec 3) :
    Rows StartsAs (cmRelResults kind k) (relationStarts kind k) := by
  refine ⟨?_, ?_, ?_, ?_, trivial⟩ <;> exact fun _ _ => rfl

theorem cmResults_compare (k : BitVec 3) : Rows (Compares k) (cmResults k) (compareStarts k) := by
  simp only [cmResults, compareStarts, Rows, startCmpEq, startKset, startCmpEqFo, startCmpEqFu, startCmpNe, startCmpNeFo,
    startCmpNeFu, startPlogAnd, startPlogOr, startPlogXor, startPlogAndn, startPlogOrn, startPlogNand, startPlogNor,
    startPlogXnor, lanePlog, and_true]
  refine ⟨compares_same, compares_same, compares_same, compares_same, compares_same, compares_same, compares_same,
    compares_same, compares_same, compares_of_eq fun a t => ?_, compares_same, compares_same, compares_same,
    compares_same, compares_of_eq fun a t => ?_⟩
  · cases a.getLsbD 0 <;> cases t.getLsbD 0 <;> rfl
  · cases a.getLsbD 0 <;> cases t.getLsbD 0 <;> rfl

/-- Not less the other way round is at most, signed and unsigned (R91). -/
theorem not_ltS (a t : W32) : (!ltS t a) = a.sle t := by
  rw [ltS, BitVec.sle, ← decide_not]
  exact decide_eq_decide.mpr not_lt

theorem not_ltN (a t : W32) : (!ltN t a) = a.ule t := by
  rw [ltN, BitVec.ule, ← decide_not]
  exact decide_eq_decide.mpr not_lt

/-- A relation by KIND from its signed and unsigned forms. -/
theorem byKind_eq_relKind {kind : BitVec 2} {sg un fl sg' un' : W32 → W32 → Bool} (hs : ∀ a t, sg' a t = sg a t)
    (hn : ∀ a t, un' a t = un a t) (a t : W32) :
    byKind kind (sg a t) (un a t) (unord a t) (fl a t) = relKind kind sg' un' fl a t := by
  rw [relKind, hs, hn]
  rfl

theorem cmRelResults_compare (kind : BitVec 2) (k : BitVec 3) :
    Rows (Compares k) (cmRelResults kind k) (relationStarts kind k) :=
  ⟨compares_of_eq (byKind_eq_relKind (fun _ _ => rfl) (fun _ _ => rfl)), compares_of_eq (byKind_eq_relKind not_ltS not_ltN),
    compares_of_eq (byKind_eq_relKind (fun _ _ => rfl) (fun _ _ => rfl)),
    compares_of_eq (byKind_eq_relKind (fun a t => not_ltS t a) (fun a t => not_ltN t a)), trivial⟩

theorem cm_opcode_lt {kind : BitVec 2} {k : BitVec 3} {r : FixedRow} (hr : r ∈ cmResults k ++ cmRelResults kind k) :
    r.opcode < 256 := by
  have h3 := k.isLt
  have h2 := kind.isLt
  have all : ∀ x ∈ (cmResults k ++ cmRelResults kind k).map FixedRow.opcode, x < 256 := by
    simp only [cmResults, cmRelResults, FixedRow.compare, List.map_cons, List.map_nil, List.cons_append, List.nil_append,
      List.forall_mem_cons, List.not_mem_nil, false_imp_iff, implies_true, and_true]
    omega
  exact all _ (List.mem_map_of_mem hr)

/-- Settles O11: each row is the one-move bundle that starts the compare of its opcode (`StartsAs`), and that compare
gives the row's bit (`Compares`). -/
theorem compareResults : Obligations.CompareResults := by
  intro kind k r m s c0 hr h
  have ho := cm_opcode_lt hr
  obtain hr | hr := List.mem_append.mp hr
  · obtain ⟨st, hst, hc⟩ := (cmResults_start k).exists_of_mem (cmResults_compare k) hr
    exact hc.runs hst ho h
  · obtain ⟨st, hst, hc⟩ := (cmRelResults_start kind k).exists_of_mem (cmRelResults_compare kind k) hr
    exact hc.runs hst ho h

end Sys2Proof.Machine.IntegerControl
end

section
/-! SUPPORT. A branch to an odd address (R97): what is due after a bundle. -/
namespace Sys2Proof.Machine.IntegerControl
open Sys2Proof.Machine.Sequential

/-! ## What stays due after a bundle (R350) -/

/-- The trap of a single step after bundle `b` of the team that was `old` (R394). -/
def stepTrap (old : Ctx) (b : Bundle) (x : Ctx) : Ctx :=
  if old.tstatus.getLsbD 9 then
    if old.conf then x.addDue (DueTrap.of 0x58 b.pc (BitVec.ofNat 64 old.sched))
    else if !old.inh && x.due.length == old.due.length then
      x.addDue (DueTrap.of 0x0B b.pc (BitVec.ofNat 64 old.sched))
    else x
  else x

theorem stepTrap_due (old : Ctx) (b : Bundle) (x : Ctx) :
    ∃ ds, (stepTrap old b x).due = x.due ++ ds ∧ (stepTrap old b x).loop = x.loop := by
  have rest : ∃ ds, x.due = x.due ++ ds ∧ x.loop = x.loop := ⟨[], (List.append_nil _).symm, rfl⟩
  unfold stepTrap
  split
  · split
    · exact ⟨_, rfl, rfl⟩
    · split
      · exact ⟨_, rfl, rfl⟩
      · exact rest
  · exact rest

/-- Where no step of a loop record runs, the trap of a single step is all that the end of a bundle makes due. -/
theorem afterBundle_due {c old : Ctx} {b : Bundle} (n : Nat) (h : NoStep c) :
    ∃ ds, (c.afterBundle old b n).due = c.due ++ ds ∧ (c.afterBundle old b n).loop = c.loop := by
  have key : ∃ x, c.afterBundle old b n = stepTrap old b x ∧ x.due = c.due ∧ x.loop = c.loop := by
    refine ⟨_, rfl, ?_⟩
    cases hl : c.loop with
    | none => simp [Ctx.countDown, hl]
    | some q => simp [Ctx.countDown, hl, h q hl]
  obtain ⟨x, e, hd, hl⟩ := key
  rw [e, ← hd, ← hl]
  exact stepTrap_due old b x

theorem stepOver_of_noStep {c : Ctx} (h : NoStep c) : c.stepOver = c := by
  unfold Ctx.stepOver
  cases e : c.loop with
  | none => rfl
  | some q => simp [h q e]

theorem charged_due (c : Ctx) (ready : Bool) (idx : Nat) : (c.charged true true ready idx).due = c.due := by
  unfold Ctx.charged
  split <;> rfl

/-- What a trap keeps due through the first cycle of its bundle. -/
theorem due_firstPass {s : State} {id : CtxId} {c x : Ctx} (hp : id.slot ≤ CtxId.shadowSlot) (h : s.ctx id = some x)
    (pc : W64) (n : Nat) : ∃ y, (s.firstPass id c pc n).ctx id = some y ∧ y.due = x.due := by
  obtain ⟨r, hr⟩ := State.firstPass_ctx s id c pc n
  obtain ⟨e1, e2⟩ := CtxId.key_split hp
  rw [h, Option.map_some, if_pos e1, e2, beq_self_eq_true] at hr
  exact ⟨_, hr, charged_due x r 0⟩

theorem due_restick {s : State} {id : CtxId} {x : Ctx} (h : s.ctx id = some x) (old : Ctx) :
    ∃ y, (s.restick id old).ctx id = some y ∧ y.due = x.due := by
  unfold State.restick
  simp only
  split
  · exact ⟨x, h, rfl⟩
  · rw [State.modCtx_eq h]
    refine ⟨_, State.ctx_setCtx_same _ _ _, ?_⟩
    split <;> rfl

/-- What the operation of a one-trigger bundle leaves due is due when the bundle has executed. -/
theorem mem_due_issueOne {s t : State} {c0 x c' : Ctx} {w : W32} {st : Start} {d : DueTrap}
    (h : s.Clear c0 (Bundle.one w s.curPc)) (ht : (Move.of 0 w).isTrig = true)
    (hg : c0.land.guardMask (Move.of 0 w) ≠ 0) (hs : (Move.of 0 w).dunit = U.sv → 3 < (Move.of 0 w).dsel)
    (hx : (st (beginState s c0.land (Bundle.one w s.curPc) (Move.of 0 w)) s.cur
      (c0.land.trigOf (Bundle.one w s.curPc) (Move.of 0 w))).ctx s.cur = some x)
    (htid : x.tid = c0.land.tid) (hl : NoStep x) (hd : d ∈ x.due) (e1 : issueOne w st s = .next t)
    (e2 : t.ctx s.cur = some c') : d ∈ c'.due := by
  have hk := issueOne_clear st h
  rw [Ctx.atBundle_one hs, State.commit_one rfl (Bundle.one_isExt w s.curPc) ht hg hx htid, e1] at hk
  obtain ⟨y, hy, dy⟩ := due_firstPass (s := (st (beginState s c0.land (Bundle.one w s.curPc) (Move.of 0 w)) s.cur
    (c0.land.trigOf (Bundle.one w s.curPc) (Move.of 0 w))).setCtx s.cur
      (x.afterBundle c0.land (Bundle.one w s.curPc) 1).stepOver)
    (c := c0.land.after (Bundle.one w s.curPc) (s.fold s.cur.fold).cycle
      (c0.land.begun (Bundle.one w s.curPc) (Move.of 0 w)))
    h.place (State.ctx_setCtx_same _ _ _) (Bundle.one w s.curPc).pc (Lanes.passes c0.land.live c0.land.nlanes).length
  obtain ⟨z, hz, dz⟩ := due_restick hy c0
  rw [Host.Outcome.next.inj hk, State.observe_ctx] at e2
  have hzc : z = c' := Option.some.inj (hz.symm.trans e2)
  obtain ⟨ds, hds, hloop⟩ := afterBundle_due (old := c0.land) (b := Bundle.one w s.curPc) 1 hl
  rw [← hzc, dz, dy, stepOver_of_noStep (fun q e => hl q (hloop ▸ e)), hds]
  exact List.mem_append_left ds hd

/-! ## A branch that is taken to an odd target (R97) -/

/-- The trap of a branch to an odd target (R97, R368). -/
def alignTrap (t : Trig) (target : W64) : DueTrap :=
  { DueTrap.of 0x26 t.pc t.cycle with addr := some target, lanes := some t.mask }

/-- Where no step of a loop record runs, a branch to an odd target makes C_ALIGN due and goes nowhere. -/
theorem jump_odd {v : State} {id : CtxId} {t : Trig} {c : Ctx} {target : W64} (hv : v.ctx id = some c)
    (hl : NoStep c) (ho : target.getLsbD 0 = true) (f : Ctx → Ctx) :
    v.jump id t target f = v.setCtx id (c.addDue (alignTrap t target)) := by
  unfold State.jump
  rw [State.modCtx_eq hv, ho]
  cases e : c.loop with
  | none => rfl
  | some q => simp only [hl q e, Bool.false_and, Bool.false_eq_true, if_false, if_true]; rfl

/-- The row is the bundle of one move that, where the branch is taken, jumps to the row's target (R94, R97). -/
structure Jumps (r : BranchRow) (st : Start) : Prop where
  exec_eq : ∀ m s, exec (r.instr m) s = issueOne (r.word m) st s
  jump : ∀ (v : State) (id : CtxId) (t : Trig) (c : Ctx), v.ctx id = some c → t.unit = U.br → t.preds = c.k →
    r.taken c = true → ∃ f, st v id t = v.jump id t (startTarget r c t) f

theorem Jumps.cond {i : MoveF → Instr} {o : Nat} {p : Ctx → Bool} (cond : Ctx → Trig → Bool)
    (hx : ∀ m s, exec (i m) s = issueOne (syllable true U.br 3 o m) (startCond cond) s)
    (hc : ∀ (c : Ctx) (t : Trig), t.unit = U.br → t.preds = c.k → cond c t = p c) :
    Jumps ⟨i, o, false, p, false⟩ (startCond cond) where
  exec_eq := hx
  jump := by
    intro v id t c hv hu hk ht
    simp only [startCond, hv, (hc c t hu hk).trans ht, if_true, startTarget, Bool.false_eq_true, if_false,
      Ctx.relTarget, hu]
    exact ⟨_, rfl⟩

theorem Jumps.call {i : MoveF → Instr} {o : Nat}
    (hx : ∀ m s, exec (i m) s = issueOne (syllable true U.br 3 o m) startCall s) :
    Jumps ⟨i, o, false, fun _ => true, true⟩ startCall where
  exec_eq := hx
  jump := by
    intro v id t c hv hu _ _
    simp only [startCall, hv, startTarget, Bool.false_eq_true, if_false, Ctx.relTarget, hu]
    exact ⟨_, rfl⟩

theorem Jumps.abs {i : MoveF → Instr} {o : Nat}
    (hx : ∀ m s, exec (i m) s = issueOne (syllable true U.br 3 o m) startJr s) :
    Jumps ⟨i, o, true, fun _ => true, false⟩ startJr where
  exec_eq := hx
  jump := by
    intro v id t c hv hu _ _
    simp only [startJr, hv, startTarget, if_true, hu]
    exact ⟨_, rfl⟩

theorem branches_jump (k : BitVec 3) : ∀ r ∈ branches k, ∃ st, Jumps r st := by
  have onPred : ∀ {i : MoveF → Instr} {o : Nat} (f : Lanes → Lanes → Bool), (∀ m s, exec (i m) s =
      issueOne (syllable true U.br 3 o m) (startCond (fun c t => f (t.pred k.toNat) c.live)) s) →
      Jumps ⟨i, o, false, fun c => f (c.pred k.toNat) c.live, false⟩ _ :=
    fun f hx => .cond _ hx (fun c t _ hk => by simp only [Trig.pred, Ctx.pred, hk])
  have onA : ∀ {i : MoveF → Instr} {o : Nat} (f g : W64 → Bool), (∀ a, g a = f a) → (∀ m s, exec (i m) s =
      issueOne (syllable true U.br 3 o m) (startCond (fun c t => g (c.brA t))) s) →
      Jumps ⟨i, o, false, fun c => f ((c.us.unit U.br).a.at 0), false⟩ _ :=
    fun f g hf hx => .cond _ hx (fun c t hu _ => by rw [hf, Ctx.brA, hu])
  simp only [branches, List.forall_mem_cons, List.not_mem_nil, false_implies, implies_true, and_true]
  refine ⟨⟨_, .cond (fun _ _ => true) (fun _ _ => rfl) (fun _ _ _ _ => rfl)⟩,
    ⟨_, onPred (fun p l => p &&& l != 0) (fun _ _ => rfl)⟩, ⟨_, onPred (fun p l => p &&& l == l) (fun _ _ => rfl)⟩,
    ⟨_, onPred (fun p l => p &&& l == 0) (fun _ _ => rfl)⟩,
    ⟨_, onA (fun a => a == 0) (fun a => a == 0) (fun _ => rfl) (fun _ _ => rfl)⟩,
    ⟨_, onA (fun a => a != 0) (fun a => a != 0) (fun _ => rfl) (fun _ _ => rfl)⟩,
    ⟨_, onA (fun a => decide (a.toInt < 0)) BitVec.msb (fun _ => BitVec.msb_eq_toInt) (fun _ _ => rfl)⟩,
    ⟨_, onA (fun a => decide (0 ≤ a.toInt)) (fun a => !a.msb) (fun a => ?_) (fun _ _ => rfl)⟩,
    ⟨_, .call (fun _ _ => rfl)⟩, ⟨_, .abs (fun _ _ => rfl)⟩, ⟨_, .abs (fun _ _ => rfl)⟩⟩
  simp only [BitVec.msb_eq_toInt, ← decide_not, not_lt]

/-- Settles O20: the operation of the bundle is the jump of its row (`branches_jump`), which makes C_ALIGN due and
leaves the rest (`jump_odd`), and what is due stays due (`mem_due_issueOne`). -/
theorem oddBranchTargetTraps : Obligations.OddBranchTargetTraps := by
  intro k r m s c0 hr h b mv ht ho
  obtain ⟨st, hst⟩ := branches_jump k r hr
  obtain ⟨_, hb⟩ := branches_start k r hr
  have hm : mv.dunit = U.br := hb.dunit
  have hT : startTarget r (atStart c0.land s b mv) (c0.land.trigOf b mv) = r.target c0.land b mv := by
    rw [startTarget, BranchRow.target, branch_held hm]
    rfl
  obtain ⟨-, k2, -, -, -, -, -, -, -, -, k11, -, -, k14⟩ := Ctx.land_keeps c0
  have hx : ∀ v : State, v.ctx s.cur = some (atStart c0.land s b mv) → st v s.cur (c0.land.trigOf b mv) =
      v.setCtx s.cur ((atStart c0.land s b mv).addDue (alignTrap (c0.land.trigOf b mv) (r.target c0.land b mv))) := by
    intro v hv
    obtain ⟨f, hf⟩ := hst.jump v s.cur (c0.land.trigOf b mv) _ hv hm rfl ((hb.taken_atStart b).trans ht)
    rw [hf, hT, jump_odd hv (noStep_atStart h b mv) ho]
  obtain ⟨t, c', e1, e2, e3, e4, -⟩ := issueOne_setCtx _ (by decide) (by decide) hb.opcode_lt
    (fun e => absurd e (by decide)) h (fun v _ hv => hx v hv) rfl rfl rfl rfl rfl
  have hd : alignTrap (c0.land.trigOf b mv) (r.target c0.land b mv) ∈ c'.due := by
    refine mem_due_issueOne (x := (atStart c0.land s b mv).addDue _) h.1 (isTrig_syllable m (by decide) (by decide) hb.opcode_lt) (guardMask_ne_zero h)
      (fun e => absurd (hm.symm.trans e) (by decide)) ?_ rfl (noStep_atStart h b mv)
      (List.mem_append_right _ (List.mem_singleton_self _)) e1 e2
    exact (congrArg (fun u : State => u.ctx s.cur) (hx (beginState s c0.land b mv) (State.begun_ctx ..))).trans (State.ctx_setCtx_same _ _ _)
  refine ⟨t, c', _, (hst.exec_eq m s).trans e1, e2, e3, by rw [e4]; rfl, by rw [e4]; exact k11, hd, rfl, rfl, ?_⟩
  show some (s.curPc, BitVec.ofNat 64 c0.land.sched) = _
  rw [curPc_of h.1.here, k14]

end Sys2Proof.Machine.IntegerControl
end

section
/-! SUPPORT. exit in a state whose table of contexts does not stand in the order of its keys (R98). -/
namespace Sys2Proof.Machine.ExitOrder
open Sys2Proof.Machine.Sequential

/-- A context of one lane of the shadow slot. -/
def leavingCtx : Ctx := { Ctx.blank 1 32 with shadow := true }

/-- A state whose table lists the shadow context of fold 0 behind a context of fold 1, so that its keys do not rise. -/
def unorderedState : State := { State.reset with
    ctxs := [(CtxId.key { fold := 1, slot := 0 }, leavingCtx),
      (CtxId.key { fold := 0, slot := CtxId.shadowSlot }, leavingCtx)] }

/-- An exit under no guard. -/
def exitMove : MoveF := ⟨false, 0, 2, 0⟩
def exitWord : W32 := syllable true U.br 3 0x38 exitMove

/-- Whether a context stands in the slot of `cur` when the exit has executed. -/
def staysResident : Bool :=
  match execBrExit exitMove unorderedState with
  | .next t => (t.ctx unorderedState.cur).isSome
  | _ => false

theorem staysResident_eq : staysResident = true := by decide +kernel

theorem unordered_fires : unorderedState.Fires leavingCtx exitWord :=
  ⟨clear_of_standsClear rfl (by decide +kernel), 0, by decide +kernel, by decide +kernel⟩

/-- Refutes O21: in `unorderedState` the table of contexts lists the slot of `cur` once, as the statement asks, but behind
a higher key. The bundle's issue puts the changed context where its key belongs and the old entry stays behind it, so that
a context still stands in the slot when exit has removed the first. -/
theorem not_exitAndLexit : ¬ Obligations.ExitAndLexit := by
  intro h
  obtain ⟨gone, -⟩ := h exitMove unorderedState leavingCtx (.brExit exitMove) 0x38 (.inl ⟨rfl, rfl⟩) unordered_fires
  obtain ⟨t, e, none, -⟩ := gone (.inl rfl)
  have hx : execBrExit exitMove unorderedState = .next t := e
  have stays : staysResident = (t.ctx unorderedState.cur).isSome := by simp only [staysResident, hx]
  rw [staysResident_eq, none (by decide +kernel)] at stays
  exact absurd stays (by decide)

end Sys2Proof.Machine.ExitOrder
end

section
/-! SUPPORT. The operations of ctx: a state in which RESTORE does not answer on every lane (R377). -/
namespace Sys2Proof.Machine.ContextOps
open Sys2Proof.Machine.Sequential

/-- A context of two lanes, with RESTORE (OP 5) in s0 and k1 on lane 0 alone, in which a result of SV is due on lane 1. -/
def restoringCtx : Ctx := { answeredCtx with s := [(0, 0x50000000)] }

def restoringState : State := { State.reset with
    ctxs := [(CtxId.key { fold := 0, slot := CtxId.shadowSlot }, restoringCtx)] }

/-- A trigger under k1 with s0 as its T. -/
def fromS0 : MoveF := ⟨false, 1, 0, 128⟩

/-- The word of ctx with that trigger. -/
def restoreWord : W32 := syllable true U.sv 3 0x30 fromS0

/-- R of SV on lane 1, when RESTORE has answered on lane 0. -/
def restoredR : Option W64 :=
  match execSvCtxNextev fromS0 restoringState with
  | .next t => (t.ctx restoringState.cur).map (fun c' => (c'.us.unit U.sv).r.at 1)
  | _ => none

theorem restoredR_eq : restoredR = some 7 := by decide +kernel

theorem restoring_fires : restoringState.Fires restoringCtx restoreWord :=
  ⟨clear_of_standsClear rfl (by decide +kernel), 0, by decide +kernel, by decide +kernel⟩

theorem restoring_op : bits (restoringCtx.rowT restoringState restoreWord).toNat 31 28 = 5 := by decide +kernel

/-- Refutes O53: in `restoringCtx` a result is due whose unit is SV, which no trigger puts in flight but a state may
hold. It lands on lane 1 with the bundle of a RESTORE on lane 0, so SV.R holds 7 on lane 1 where it held 0 before the
bundle. -/
theorem not_contextOperations : ¬ Obligations.ContextOperations := by
  rintro ⟨h, -⟩
  obtain ⟨-, restore, -⟩ :=
    h .svCtxNextev fromS0 restoringState restoringCtx (by simp [ctxRows]) restoring_fires rfl rfl
  obtain ⟨t, c', e1, e2, -, -, -, -, -, -, -, -, -, ⟨-, -, hk⟩, -⟩ := restore restoring_op
  have hx : execSvCtxNextev fromS0 restoringState = .next t := e1
  have h7 : restoredR = some ((c'.us.unit U.sv).r.at 1) := by simp only [restoredR, hx, e2, Option.map_some]
  have h0 : (c'.us.unit U.sv).r.at 1 = 0 := (hk 1 (by decide)).trans (by decide +kernel)
  rw [restoredR_eq, h0] at h7
  exact absurd h7 (by decide)

end Sys2Proof.Machine.ContextOps
end

section
/-! SUPPORT. What lies beneath the contexts: the copies of bytes in the folds' L1, the home caches and directories, the
mesh and the transport engine. Their operations leave the contexts, the gangs and the packets as they are. -/
namespace Sys2Proof.Machine.Beneath

/-! ## Two relations between states -/

/-- A fold but for the lines of its L1. -/
def core (f : Fold) : Fold := { f with l1 := [] }

/-- The contexts, the gangs and every die's packets are as before. -/
structure Under (s t : State) : Prop where
  ctxs : t.ctxs = s.ctxs
  gangs : t.gangs = s.gangs
  nextId : t.nextId = s.nextId
  packets : ∀ d, (t.die d).packets = (s.die d).packets

/-- And so are the folds but for their L1, and every die's dirty-range log register. -/
structure Below (s t : State) : Prop extends Under s t where
  folds : ∀ f, core (t.fold f) = core (s.fold f)
  dlogCtl : ∀ d, (t.die d).dlogCtl = (s.die d).dlogCtl

/-- And so is memory. -/
structure Quiet (s t : State) : Prop extends Below s t where
  mem : t.mem = s.mem

theorem Under.refl (s : State) : Under s s := ⟨rfl, rfl, rfl, fun _ => rfl⟩
theorem Below.refl (s : State) : Below s s := ⟨.refl s, fun _ => rfl, fun _ => rfl⟩
theorem Quiet.refl (s : State) : Quiet s s := ⟨.refl s, rfl⟩

theorem Under.trans {s t u : State} (h : Under s t) (k : Under t u) : Under s u :=
  ⟨k.ctxs.trans h.ctxs, k.gangs.trans h.gangs, k.nextId.trans h.nextId, fun d => (k.packets d).trans (h.packets d)⟩
theorem Below.trans {s t u : State} (h : Below s t) (k : Below t u) : Below s u :=
  ⟨h.toUnder.trans k.toUnder, fun f => (k.folds f).trans (h.folds f), fun d => (k.dlogCtl d).trans (h.dlogCtl d)⟩
theorem Quiet.trans {s t u : State} (h : Quiet s t) (k : Quiet t u) : Quiet s u :=
  ⟨h.toBelow.trans k.toBelow, k.mem.trans h.mem⟩

theorem Under.ctx {s t : State} (h : Under s t) (id : CtxId) : t.ctx id = s.ctx id := by rw [State.ctx, h.ctxs, State.ctx]
theorem Under.gang {s t : State} (h : Under s t) (g : Nat) : t.gang g = s.gang g := by
  rw [State.gang, h.gangs, State.gang]

/-- A relation that holds step by step holds over a list. -/
theorem foldl_of_step {α β : Type} {R : β → β → Prop} (refl : ∀ s, R s s) (trans : ∀ {s t u}, R s t → R t u → R s u)
    (f : β → α → β) (step : ∀ s a, R s (f s a)) (l : List α) (s : β) : R s (l.foldl f s) := by
  induction l generalizing s with
  | nil => exact refl s
  | cons a r ih => exact trans (step s a) (ih (f s a))

theorem Under.foldl {α : Type} {f : State → α → State} (h : ∀ s a, Under s (f s a)) (l : List α) (s : State) :
    Under s (l.foldl f s) := foldl_of_step .refl .trans f h l s
theorem Below.foldl {α : Type} {f : State → α → State} (h : ∀ s a, Below s (f s a)) (l : List α) (s : State) :
    Below s (l.foldl f s) := foldl_of_step .refl .trans f h l s
theorem Quiet.foldl {α : Type} {f : State → α → State} (h : ∀ s a, Quiet s (f s a)) (l : List α) (s : State) :
    Quiet s (l.foldl f s) := foldl_of_step .refl .trans f h l s

/-! ## The updates of the state -/

/-- A change of memory, of the package and of the agenda. -/
theorem below_of_fields {s t : State} (hc : t.ctxs = s.ctxs) (hf : t.folds = s.folds) (hg : t.gangs = s.gangs)
    (hd : t.dies = s.dies) (hn : t.nextId = s.nextId) : Below s t :=
  ⟨⟨hc, hg, hn, fun d => by rw [State.die, hd, State.die]⟩, fun f => by rw [State.fold, hf, State.fold],
    fun d => by rw [State.die, hd, State.die]⟩

theorem under_modFold (s : State) (f : Nat) (g : Fold → Fold) : Under s (s.modFold f g) := ⟨rfl, rfl, rfl, fun _ => rfl⟩
theorem under_setFold (s : State) (f : Nat) (x : Fold) : Under s (s.setFold f x) := ⟨rfl, rfl, rfl, fun _ => rfl⟩

theorem quiet_modFold {s : State} {f : Nat} {g : Fold → Fold} (h : ∀ x, core (g x) = core x) : Quiet s (s.modFold f g) := by
  refine ⟨⟨under_modFold s f g, fun k => ?_, fun _ => rfl⟩, rfl⟩
  by_cases e : k = f
  · rw [e, State.fold_modFold_same, h]
  · rw [State.fold_modFold_ne s g e]

theorem under_modDie {s : State} {d : Nat} {g : Die → Die} (h : ∀ x, (g x).packets = x.packets) :
    Under s (s.modDie d g) := by
  refine ⟨rfl, rfl, rfl, fun e => ?_⟩
  by_cases k : e = d
  · rw [k, State.die_modDie_same, h]
  · rw [State.die_modDie_ne s g k]

theorem quiet_modDie {s : State} {d : Nat} {g : Die → Die} (h : ∀ x, (g x).packets = x.packets)
    (k : ∀ x, (g x).dlogCtl = x.dlogCtl) : Quiet s (s.modDie d g) := by
  refine ⟨⟨under_modDie h, fun _ => rfl, fun e => ?_⟩, rfl⟩
  by_cases q : e = d
  · rw [q, State.die_modDie_same, k]
  · rw [State.die_modDie_ne s g q]

theorem quiet_setDie {s : State} {d : Nat} {x : Die} (h : x.packets = (s.die d).packets)
    (k : x.dlogCtl = (s.die d).dlogCtl) : Quiet s (s.setDie d x) := by
  refine ⟨⟨⟨rfl, rfl, rfl, fun e => ?_⟩, fun _ => rfl, fun e => ?_⟩, rfl⟩
  · by_cases q : e = d
    · rw [q, State.die_setDie_same, h]
    · rw [State.die_setDie_ne s x q]
  · by_cases q : e = d
    · rw [q, State.die_setDie_same, k]
    · rw [State.die_setDie_ne s x q]

theorem below_modDie {s : State} {d : Nat} {g : Die → Die} (h : ∀ x, (g x).packets = x.packets)
    (k : ∀ x, (g x).dlogCtl = x.dlogCtl) : Below s (s.modDie d g) := (quiet_modDie h k).toBelow
theorem below_setDie {s : State} {d : Nat} {x : Die} (h : x.packets = (s.die d).packets)
    (k : x.dlogCtl = (s.die d).dlogCtl) : Below s (s.setDie d x) := (quiet_setDie h k).toBelow

theorem below_setMem (s : State) (m : List Host.Cell) : Below s { s with mem := m } :=
  below_of_fields rfl rfl rfl rfl rfl
theorem below_wr (s : State) (k n v : Nat) : Below s (s.wr k n v) := below_setMem ..

/-! ## Messages -/

theorem meshForward_quiet (s : State) (n : Nat) (m : MeshMsg) : Quiet s (s.meshForward n m) := by
  unfold State.meshForward
  split
  · split
    · exact ⟨below_of_fields rfl rfl rfl rfl rfl, rfl⟩
    · exact .refl s
  · exact .refl s

theorem meshSend_quiet (s : State) (a b vc f sc : Nat) : Quiet s (s.meshSend a b vc f sc) := by
  unfold State.meshSend
  split
  · exact .refl s
  · refine Quiet.trans ?_ (meshForward_quiet _ _ _)
    exact ⟨below_of_fields rfl rfl rfl rfl rfl, rfl⟩

theorem meshAccess_quiet (s : State) (f k vc sc : Nat) : Quiet s (s.meshAccess f k vc sc) := by
  unfold State.meshAccess
  split
  · exact (meshSend_quiet ..).trans (meshSend_quiet ..)
  · exact .refl s

theorem recallMsg_quiet (s : State) (d o : Nat) : Quiet s (s.recallMsg d o) :=
  (meshSend_quiet ..).trans (meshSend_quiet ..)

/-! ## Copies of bytes, the home caches and the range directory -/

theorem core_dropWords (f : Fold) (lo hi : Nat) (si : Bool) : core (f.dropWords lo hi si) = core f := rfl

theorem core_foldl {α : Type} {g : Fold → α → Fold} (h : ∀ f a, core (g f a) = core f) (l : List α) (f : Fold) :
    core (l.foldl g f) = core f :=
  foldl_of_step (R := fun a b => core b = core a) (fun _ => rfl) (fun p q => q.trans p) g h l f

/-- Every fold loses lines of its L1 alone. -/
theorem quiet_mapFolds {s : State} {g : Nat → Fold → Fold} (h : ∀ k f, core (g k f) = core f) :
    Quiet s { s with folds := s.folds.map (fun kv => (kv.1, g kv.1 kv.2)) } := by
  refine ⟨⟨⟨rfl, rfl, rfl, fun _ => rfl⟩, fun k => ?_, fun _ => rfl⟩, rfl⟩
  simp only [State.fold, Tbl.get, Tbl.find_map]
  cases Tbl.find s.folds k with
  | none => rfl
  | some f => exact h k f

theorem takeBytes_quiet (s : State) (b : Option Nat) (lo hi : Nat) (si : Bool) : Quiet s (s.takeBytes b lo hi si) := by
  unfold State.takeBytes
  dsimp only
  generalize (s.die (homeDie lo)).rdir.filter (fun e => b != some e.owner && e.covers lo hi) = hit
  have lost := quiet_mapFolds (s := s) (g := fun k f => if b = some k ∨ f.l1.isEmpty = true then f
    else ((hit.filter RangeEnt.line).filter (fun e => e.owner == k)).foldl
      (fun f e => f.dropWords e.base (e.base + 127) si) (f.loseWords (hit.any (fun e => e.owner == k)) lo hi si)) (by
    intro k f
    split
    · rfl
    · exact core_foldl (fun f e => core_dropWords f _ _ si) _ _)
  split
  · exact lost
  · exact (lost.trans (Quiet.foldl (fun s (e : RangeEnt) => recallMsg_quiet s (homeDie lo) e.owner) hit _)).trans
      (quiet_modDie (fun _ => rfl) (fun _ => rfl))

theorem disown_quiet (s : State) (f lo hi : Nat) : Quiet s (s.disown f lo hi) := by
  unfold State.disown
  dsimp only
  split
  · exact .refl s
  · have sent : ∀ l, Quiet s ((s.meshSend (dieOf f) (homeDie lo) 2 f 0).modDie (homeDie lo)
        (fun d => { d with rdir := l })) :=
      fun l => (meshSend_quiet ..).trans (quiet_modDie (fun _ => rfl) (fun _ => rfl))
    split
    · exact sent _
    · exact (sent _).trans (quiet_modFold fun _ => rfl)

theorem trimLines_quiet (s : State) (d sl : Nat) : Quiet s (s.trimLines d sl) := by
  unfold State.trimLines
  dsimp only
  refine Quiet.trans (Quiet.foldl (fun s e => ?_) _ s) (quiet_modDie (fun _ => rfl) (fun _ => rfl))
  exact quiet_modFold fun x => core_dropWords x _ _ _

theorem addEntry_quiet (s : State) (e : RangeEnt) : Quiet s (s.addEntry e) := by
  have entered : ∀ l n, Quiet s (s.setDie (homeDie e.base)
      { s.die (homeDie e.base) with rdir := l, rdirDegraded := n }) := fun l n => quiet_setDie rfl rfl
  unfold State.addEntry
  dsimp only
  split
  · exact .refl s
  · split
    · exact entered _ _
    · split
      · exact entered _ _
      · split
        · exact entered _ _
        · exact (entered _ _).trans (trimLines_quiet ..)

theorem takeLines_quiet (s : State) (f : Nat) (ls : List RangeEnt) : Quiet s (s.takeLines f ls) :=
  Quiet.foldl (fun s _ => (addEntry_quiet s _).trans (trimLines_quiet ..)) ls s

theorem ownRange_quiet (s : State) (f b st n w : Nat) : Quiet s (s.ownRange f b st n w) :=
  (Quiet.foldl (fun s _ => (takeBytes_quiet s _ _ _ _).trans (takeLines_quiet ..)) _ s).trans (addEntry_quiet ..)

theorem ownElems_quiet (s : State) (f n : Nat) (all : List Nat) (as : List (Nat × Nat)) :
    Quiet s (s.ownElems f n all as) := by
  unfold State.ownElems
  split
  · refine Quiet.foldl (fun s p => Quiet.foldl (fun s q => ?_) _ s) _ s
    split
    · exact .refl s
    · exact ownRange_quiet ..
  · exact Quiet.foldl (fun s a => ownRange_quiet ..) _ s

theorem l2Touch_quiet (s : State) (p : Nat) (w : Bool) : Quiet s (s.l2Touch p w) := by
  unfold State.l2Touch
  split
  · exact .refl s
  · refine quiet_modDie (fun x => ?_) (fun x => ?_)
    all_goals
      simp only
      split
      · split <;> rfl
      · split <;> rfl

theorem l1Room_quiet (s : State) (f : Nat) : Quiet s (s.l1Room f) := by
  unfold State.l1Room
  simp only
  split
  · exact .refl s
  · split
    · exact .refl s
    · split
      · exact quiet_modFold fun _ => rfl
      · exact ((l2Touch_quiet s _ _).trans (disown_quiet ..)).trans (quiet_modFold fun _ => rfl)

theorem modLine_quiet (s : State) (f p : Nat) (g : L1Line → L1Line) : Quiet s (s.modLine f p g) := by
  unfold State.modLine
  simp only
  split
  · exact quiet_modFold fun _ => rfl
  · exact (l1Room_quiet s f).trans (quiet_modFold fun _ => by split <;> rfl)

theorem fillL1_quiet (s : State) (f tid rt lo hi : Nat) : Quiet s (s.fillL1 f tid rt lo hi) := by
  unfold State.fillL1
  simp only
  split
  · exact (l2Touch_quiet s _ _).trans (modLine_quiet ..)
  · exact (l2Touch_quiet s _ _).trans (modLine_quiet ..)
  · exact (l2Touch_quiet s _ _).trans (modLine_quiet ..)
  · exact l2Touch_quiet ..

theorem storeL1_quiet (s : State) (f rt key : Nat) (bs : List Byte) : Quiet s (s.storeL1 f rt key bs) := by
  unfold State.storeL1
  dsimp only
  have taken : Quiet s (if tracked key then s.takeBytes (some f) key (key + bs.length - 1) false else s) := by
    split
    · exact takeBytes_quiet ..
    · exact .refl s
  generalize (if tracked key then s.takeBytes (some f) key (key + bs.length - 1) false else s) = s1 at taken ⊢
  split
  · exact taken.trans (modLine_quiet ..)
  · refine (taken.trans (l2Touch_quiet s1 key true)).trans ?_
    generalize s1.l2Touch key true = s2
    have left : Quiet s2 (if tracked key then s2.disown f key (key + bs.length - 1) else s2) := by
      split
      · exact disown_quiet ..
      · exact .refl _
    generalize (if tracked key then s2.disown f key (key + bs.length - 1) else s2) = s3 at left ⊢
    split
    · exact left.trans (quiet_modFold fun x => core_dropWords x _ _ _)
    · split
      · exact .refl _
      · refine Quiet.trans (t := s2.modFold f fun y => y.cleanBytes key (key + bs.length - 1)) ?_ ?_
        · exact quiet_modFold fun _ => rfl
        · exact quiet_modFold fun _ => rfl

theorem recallAll_quiet (s : State) (key n : Nat) : Quiet s (s.recallAll key n) := by
  unfold State.recallAll
  split
  · exact .refl s
  · simp only
    split
    · exact (takeBytes_quiet ..).trans (l2Touch_quiet ..)
    · exact takeBytes_quiet ..

/-! ## Translation, requests to other devices, and the counts of pages -/

theorem applyAD_below (s : State) (t : Trans) : Below s (s.applyAD t) := by
  unfold State.applyAD
  split
  · exact (recallAll_quiet s _ _).toBelow.trans (below_wr ..)
  · exact .refl s

theorem walkTo_below (s : State) (d asid : Nat) (a : W64) (k : AccKind) (u : Bool) : Below s (s.walkTo d asid a k u).1 := by
  unfold State.walkTo
  split
  · exact .refl s
  · exact applyAD_below ..

theorem useLeaf_quiet (s : State) (f asid : Nat) (t : Trans) : Quiet s (s.useLeaf f asid t) := by
  unfold State.useLeaf
  simp only
  split
  · exact .refl s
  · exact quiet_modDie (fun _ => rfl) (fun _ => rfl)

theorem emitPacket_quiet (s : State) (dev : Nat) (p : NxPacket) : Quiet s (s.emitPacket dev p) := by
  unfold State.emitPacket
  split <;> exact ⟨below_of_fields rfl rfl rfl rfl rfl, rfl⟩

theorem askRemote_quiet (s : State) (dev : Nat) (k : NxKind) (a n : Nat) (p : List Byte) :
    Quiet s (s.askRemote dev k a n p) := by
  unfold State.askRemote
  simp only
  split
  · exact .refl s
  · refine Quiet.trans ?_ (emitPacket_quiet _ _ _)
    exact ⟨below_of_fields rfl rfl rfl rfl rfl, rfl⟩

theorem putAt_below (s : State) (p : Place) (bs : List Byte) : Below s (s.putAt p bs) := by
  unfold State.putAt
  split
  · exact (askRemote_quiet ..).toBelow
  · exact (recallAll_quiet s _ _).toBelow.trans (below_of_fields rfl rfl rfl rfl rfl)

theorem shadowStore_below {s t : State} {d a : Nat} {bs : List Byte} (h : s.shadowStore d a bs = some t) : Below s t := by
  unfold State.shadowStore at h
  split at h
  · cases h
  · cases h
    exact (applyAD_below ..).trans (putAt_below ..)

theorem dieNotice_quiet (s : State) (c : BitVec 7) (n : Nat) (a : W64) : Quiet s (s.dieNotice c n a) :=
  ⟨below_of_fields rfl rfl rfl rfl rfl, rfl⟩

theorem migOvf_quiet (s : State) (d : Nat) : Quiet s (s.migOvf d) := by
  unfold State.migOvf
  split
  · exact .refl s
  · refine Quiet.trans ?_ (dieNotice_quiet ..)
    exact quiet_modDie (fun _ => rfl) (fun _ => rfl)

theorem postMig_below (s : State) (d f asid pg sz mt : Nat) : Below s (s.postMig d f asid pg sz mt) := by
  unfold State.postMig
  simp only
  split
  · exact .refl s
  · split
    · exact (migOvf_quiet s d).toBelow
    · split
      · exact (migOvf_quiet s d).toBelow
      · rename_i t e
        have posted : Below s (t.modDie d (fun d => { d with migqCtl := ringBump d.migqCtl })) :=
          (shadowStore_below e).trans (below_modDie (fun _ => rfl) (fun _ => rfl))
        split
        · exact posted.trans (below_of_fields rfl rfl rfl rfl rfl)
        · exact posted

theorem countAccess_below (s : State) (f asid : Nat) (t : Trans) (n : Nat) : Below s (s.countAccess f asid t n) := by
  unfold State.countAccess
  simp only
  split
  · exact .refl s
  · have counted : ∀ cs, Below s (s.setDie (dieOf f) { s.die (dieOf f) with counts := cs }) :=
      fun cs => below_setDie rfl rfl
    split
    · exact (counted _).trans (postMig_below ..)
    · exact counted _

end Sys2Proof.Machine.Beneath
end

section
/-! SUPPORT. Accesses of a fold, the dirty-range log and the sectors of maps: what they leave above memory. -/
namespace Sys2Proof.Machine.Beneath

/-! ## The dirty-range log -/

theorem dlogOvf_under (s : State) (d : Nat) : Under s (s.dlogOvf d) := by
  unfold State.dlogOvf
  split
  · exact .refl s
  · refine Under.trans ?_ (dieNotice_quiet ..).toUnder
    exact under_modDie fun _ => rfl

theorem postDlog_under (s : State) (f : Nat) (p : DlogSpan) : Under s (s.postDlog f p) := by
  unfold State.postDlog
  dsimp only
  split
  · exact .refl s
  · split
    · exact dlogOvf_under ..
    · split
      · exact dlogOvf_under ..
      · rename_i e
        exact (shadowStore_below e).toUnder.trans (under_modDie fun _ => rfl)

theorem flushDlog_under (s : State) (f : Nat) : Under s (s.flushDlog f) := by
  unfold State.flushDlog
  split
  · exact .refl s
  · exact (under_modFold ..).trans (postDlog_under ..)

theorem logSpan_under (s : State) (f r lo hi : Nat) : Under s (s.logSpan f r lo hi) := by
  unfold State.logSpan
  split
  · split
    · exact under_modFold ..
    · exact (flushDlog_under s f).trans (under_modFold ..)
  · exact under_modFold ..

theorem logBlock_under (s : State) (f lo hi : Nat) : Under s (s.logBlock f lo hi) := by
  unfold State.logBlock
  split
  · split
    · exact logSpan_under ..
    · exact .refl s
  · exact .refl s

theorem logWrite_under (s : State) (f va n : Nat) : Under s (s.logWrite f va n) := by
  unfold State.logWrite
  split
  · exact .refl s
  · exact Under.foldl (fun s i => logBlock_under ..) _ s

/-- Nothing is logged where the die's log is off (R232). -/
theorem logWrite_off {s : State} {f : Nat} (h : ringSize (s.die (dieOf f)).dlogCtl 8 20 = none) (va n : Nat) :
    s.logWrite f va n = s := by
  have block : ∀ lo hi, s.logBlock f lo hi = s := by
    intro lo hi
    unfold State.logBlock
    rw [h]
    split
    · exact if_neg fun e => by simp at e
    · rfl
  unfold State.logWrite
  split
  · rfl
  · generalize List.range _ = l
    induction l with
    | nil => rfl
    | cons i r ih => rw [List.foldl_cons, block, ih]

theorem flushDlog_none {s : State} {f : Nat} (h : (s.fold f).dlog = none) : s.flushDlog f = s := by
  unfold State.flushDlog
  rw [h]

/-! ## Accesses of a fold -/

theorem accessAt_below (s : State) (o : MemOp) (x : MemLane) (key : Nat) : Below s (s.accessAt o x key).1 := by
  unfold State.accessAt
  dsimp only
  split
  · exact .refl s
  · split <;> exact below_wr ..

/-- An access leaves memory as its bytes are written, whatever it does to their copies. -/
theorem accessGlobal_mem (s : State) (f tid : Nat) (o : MemOp) (x : MemLane) (key rt : Nat) :
    Below s (s.accessGlobal f tid o x key rt).1 ∧
      (s.accessGlobal f tid o x key rt).1.mem = (s.accessAt o x key).1.mem := by
  have far : ∀ u : State, Quiet u (if s.crosses f tid o key rt then
      u.meshSend (homeDie key) (dieOf f) 1 f o.scope.toNat else u) := by
    intro u
    split
    · exact meshSend_quiet ..
    · exact .refl u
  unfold State.accessGlobal
  dsimp only
  split
  · rename_i hl
    have load : (s.accessAt o x key).1 = s := by unfold State.accessAt; simp only [hl, if_true]
    rw [load]
    split
    · exact ⟨.refl s, rfl⟩
    · have filled := (fillL1_quiet s f tid rt key (key + o.size - 1)).trans (far _)
      exact ⟨filled.toBelow, filled.mem⟩
  · have stored := (storeL1_quiet (s.accessAt o x key).1 f (if o.unit = U.at_ then 3 else rt) key
      (Memory.readN (s.accessAt o x key).1.mem key o.size)).trans (far _)
    exact ⟨(accessAt_below ..).trans stored.toBelow, stored.mem⟩

theorem accessGlobal_below (s : State) (f tid : Nat) (o : MemOp) (x : MemLane) (key rt : Nat) :
    Below s (s.accessGlobal f tid o x key rt).1 := (accessGlobal_mem s f tid o x key rt).1

theorem prefetch_quiet (s : State) (f tid rt key : Nat) : Quiet s (s.prefetch f tid rt key) := by
  unfold State.prefetch
  dsimp only
  split
  · exact (ownRange_quiet ..).trans (fillL1_quiet ..)
  · exact fillL1_quiet ..

theorem prefetchRemote_quiet (s : State) (f tid rt dev a : Nat) : Quiet s (s.prefetchRemote f tid rt dev a) := by
  unfold State.prefetchRemote
  dsimp only
  have asked := askRemote_quiet s dev .read (lineOf a) 128 []
  split
  · exact asked.trans (modLine_quiet ..)
  · split
    · exact asked.trans (fillL1_quiet ..)
    · exact asked

theorem maintLine_quiet (s : State) (f : Nat) (o : MemOp) (key : Nat) : Quiet s (s.maintLine f o key) := by
  unfold State.maintLine
  dsimp only
  split
  · split
    · exact .refl s
    · exact disown_quiet ..
  · rename_i x _
    have touched : Quiet s (if x.dirty = 0 then s else s.l2Touch (lineOf key) true) := by
      split
      · exact .refl s
      · exact l2Touch_quiet ..
    have cleaned := touched.trans (quiet_modFold (f := f) (g := fun f => f.cleanBytes (lineOf key) (lineOf key + 127))
      fun _ => rfl)
    generalize ((if x.dirty = 0 then s else s.l2Touch (lineOf key) true).modFold f
      fun f => f.cleanBytes (lineOf key) (lineOf key + 127)) = s1 at cleaned ⊢
    split
    · exact cleaned
    · refine cleaned.trans (Quiet.trans (t := if tracked key then s1.disown f (lineOf key) (lineOf key + 127) else s1)
        ?_ (quiet_modFold fun y => core_dropWords y _ _ _))
      split
      · exact disown_quiet ..
      · exact .refl s1

theorem remoteCopies_quiet (s : State) (f tid : Nat) (o : MemOp) (dev a low : Nat) :
    Quiet s (s.remoteCopies f tid o dev a low) := by
  unfold State.remoteCopies
  dsimp only
  split
  · split
    · exact modLine_quiet ..
    · split
      · exact fillL1_quiet ..
      · exact .refl s
  · exact storeL1_quiet ..

theorem hold_under {s t : State} {id : CtxId} {c : Ctx} {o : MemOp} {x : MemLane} (h : s.hold id c o x = some t) :
    Under s t := by
  unfold State.hold at h
  dsimp only at h
  split at h
  · cases h; exact under_setFold ..
  · split at h
    · cases h
    · cases h; exact under_setFold ..

/-! ## Checks of a page of a map -/

theorem pushEvent_under (s : State) (f : Nat) (e : EventWord) : Under s (s.pushEvent f e) := under_modFold ..

theorem mapWatch_under (s : State) (g : Gang) (f : Nat) (l : List (Nat × Nat)) (w : Bool) :
    Under s (s.mapWatch g f l w).1 := by
  unfold State.mapWatch
  dsimp only
  split
  · exact pushEvent_under ..
  · exact .refl s

theorem mapChecks_under {s u : State} {g : Gang} {f va : Nat} {t : Trans} {l : List (Nat × Nat)} {w : Bool}
    {r : Option (BitVec 7)} (h : s.mapChecks g f va t l w = (u, r)) : Under s u := by
  have checked : Under s (s.mapChecks g f va t l w).1 := by
    unfold State.mapChecks
    split
    · exact .refl s
    · have watched := mapWatch_under s g f l w
      split
      · rename_i e; rw [e] at watched; exact watched
      · rename_i e
        rw [e] at watched
        split <;> exact watched
  rw [h] at checked
  exact checked

/-- A walk, with what it answers. -/
theorem walkTo_under {s u : State} {d asid : Nat} {a : W64} {k : AccKind} {b : Bool} {r : Except (BitVec 7) Trans}
    (h : s.walkTo d asid a k b = (u, r)) : Under s u := by
  have walked := walkTo_below s d asid a k b
  rw [h] at walked
  exact walked.toUnder

end Sys2Proof.Machine.Beneath
end

section
/-! SUPPORT. The sectors of a gang's maps (R215): a fill and a write-back change the sectors of their gang alone. -/
namespace Sys2Proof.Machine.Beneath

/-- The keys of a table rise: its canonical form. -/
def Rising {α : Type} (t : Tbl α) : Prop := (t.map Prod.fst).Pairwise (· < ·)

theorem rising_nil {α : Type} : Rising ([] : Tbl α) := List.Pairwise.nil

theorem rising_cons {α : Type} {j : Nat} {w : α} {r : Tbl α} :
    Rising ((j, w) :: r) ↔ (∀ k ∈ r.map Prod.fst, j < k) ∧ Rising r := List.pairwise_cons

theorem keys_put {α : Type} (t : Tbl α) (k : Nat) (v : α) {j : Nat} (h : j ∈ (Tbl.put t k v).map Prod.fst) :
    j = k ∨ j ∈ t.map Prod.fst := by
  induction t with
  | nil => exact .inl (by simpa [Tbl.put] using h)
  | cons e r ih =>
    obtain ⟨i, w⟩ := e
    simp only [Tbl.put] at h
    split at h
    · simpa using h
    · split at h
      · rename_i hk
        rw [List.map_cons, List.mem_cons] at h ⊢
        exact h.imp id .inr
      · rw [List.map_cons, List.mem_cons] at h ⊢
        rcases h with h | h
        · exact .inr (.inl h)
        · exact (ih h).imp id .inr

theorem Rising.put {α : Type} {t : Tbl α} (h : Rising t) (k : Nat) (v : α) : Rising (Tbl.put t k v) := by
  induction t with
  | nil => exact rising_cons.mpr ⟨by simp, rising_nil⟩
  | cons e r ih =>
    obtain ⟨i, w⟩ := e
    obtain ⟨h1, h2⟩ := rising_cons.mp h
    simp only [Tbl.put]
    split
    · rename_i hk
      refine rising_cons.mpr ⟨fun j hj => ?_, h⟩
      rw [List.map_cons, List.mem_cons] at hj
      rcases hj with hj | hj
      · exact hj ▸ hk
      · exact lt_trans hk (h1 j hj)
    · split
      · rename_i hk
        exact rising_cons.mpr ⟨fun j hj => hk ▸ h1 j hj, h2⟩
      · rename_i hk hne
        refine rising_cons.mpr ⟨fun j hj => ?_, ih h2⟩
        rcases keys_put r k v hj with hj | hj
        · omega
        · exact h1 j hj

theorem find_of_lt {α : Type} {t : Tbl α} {k : Nat} (h : ∀ j ∈ t.map Prod.fst, k < j) : Tbl.find t k = none := by
  induction t with
  | nil => rfl
  | cons e r ih =>
    obtain ⟨i, w⟩ := e
    have hi := h i (List.mem_cons_self ..)
    simp only [Tbl.find]
    rw [if_neg (by omega), ih fun j hj => h j (List.mem_cons_of_mem _ hj)]

theorem keys_drop {α : Type} (t : Tbl α) (k : Nat) {j : Nat} (h : j ∈ (Tbl.drop t k).map Prod.fst) :
    j ∈ t.map Prod.fst := by
  induction t with
  | nil => exact h
  | cons e r ih =>
    obtain ⟨i, w⟩ := e
    simp only [Tbl.drop] at h
    split at h
    · exact List.mem_cons_of_mem _ h
    · rw [List.map_cons, List.mem_cons] at h ⊢
      exact h.imp id ih

theorem Rising.drop {α : Type} {t : Tbl α} (h : Rising t) (k : Nat) : Rising (Tbl.drop t k) := by
  induction t with
  | nil => exact h
  | cons e r ih =>
    obtain ⟨i, w⟩ := e
    obtain ⟨h1, h2⟩ := rising_cons.mp h
    simp only [Tbl.drop]
    split
    · exact h2
    · exact rising_cons.mpr ⟨fun j hj => h1 j (keys_drop r k hj), ih h2⟩

/-- A key that is taken out of a canonical table is gone. -/
theorem Rising.find_drop {α : Type} {t : Tbl α} (h : Rising t) (k : Nat) : Tbl.find (Tbl.drop t k) k = none := by
  induction t with
  | nil => rfl
  | cons e r ih =>
    obtain ⟨i, w⟩ := e
    obtain ⟨h1, h2⟩ := rising_cons.mp h
    simp only [Tbl.drop]
    split
    · rename_i hk
      exact find_of_lt fun j hj => hk ▸ h1 j hj
    · rename_i hk
      simp only [Tbl.find]
      rw [if_neg hk, ih h2]

theorem Rising.map {α β : Type} {t : Tbl α} (h : Rising t) (f : Nat × α → Nat × β) (hf : ∀ e, (f e).1 = e.1) :
    Rising (t.map f) := by
  rw [Rising, List.map_map, show Prod.fst ∘ f = Prod.fst from funext hf]
  exact h

/-! ## The gangs but for their sectors -/

/-- A gang but for the sectors of its maps. -/
def bare (g : Gang) : Gang := { g with sectors := [] }

/-- The sectors of gang `k` alone have changed above memory. -/
structure Sectors (k : Nat) (s t : State) : Prop where
  ctxs : t.ctxs = s.ctxs
  nextId : t.nextId = s.nextId
  packets : ∀ d, (t.die d).packets = (s.die d).packets
  others : ∀ j, j ≠ k → t.gang j = s.gang j
  own : (t.gang k).map bare = (s.gang k).map bare
  rising : Rising s.gangs → Rising t.gangs

theorem Under.sectors {s t : State} (h : Under s t) (k : Nat) : Sectors k s t :=
  ⟨h.ctxs, h.nextId, h.packets, fun j _ => h.gang j, by rw [h.gang k], fun r => by rw [h.gangs]; exact r⟩

theorem Sectors.refl (k : Nat) (s : State) : Sectors k s s := (Under.refl s).sectors k

theorem Sectors.trans {k : Nat} {s t u : State} (h : Sectors k s t) (q : Sectors k t u) : Sectors k s u :=
  ⟨q.ctxs.trans h.ctxs, q.nextId.trans h.nextId, fun d => (q.packets d).trans (h.packets d),
    fun j e => (q.others j e).trans (h.others j e), q.own.trans h.own, fun r => q.rising (h.rising r)⟩

theorem Sectors.foldl {α : Type} {k : Nat} {f : State → α → State} (h : ∀ s a, Sectors k s (f s a)) (l : List α)
    (s : State) : Sectors k s (l.foldl f s) := foldl_of_step (.refl k) .trans f h l s

theorem sectors_setGang {s : State} {k : Nat} {g : Gang} (x : Gang) (hg : s.gang k = some g) (hx : bare x = bare g) :
    Sectors k s (s.setGang k x) :=
  ⟨rfl, rfl, fun _ => rfl, fun _ e => State.gang_setGang_ne s x e,
    by rw [State.gang_setGang_same, hg, Option.map_some, Option.map_some, hx], fun r => r.put k x⟩

theorem bare_setSector (g : Gang) (h k : Nat) (x : Sector) : bare (g.setSector h k x) = bare g := rfl

theorem putSector_sectors {s : State} {gid : Nat} {g g' : Gang} (half k : Nat) (bs : List Byte)
    (hg : s.gang gid = some g') (h : bare g = bare g') : Sectors gid s (s.putSector gid half k g bs) := by
  unfold State.putSector
  exact ((below_setMem s _).toUnder.sectors gid).trans (sectors_setGang _ (g := g') hg (by rw [bare_setSector, h]))

theorem fillSector_sectors (s : State) (gid half k : Nat) (m : SMap) (kind : AccKind) :
    Sectors gid s (s.fillSector gid half k m kind).1 := by
  unfold State.fillSector
  split
  · exact .refl ..
  · rename_i g hg
    split
    · exact .refl ..
    · dsimp only
      split
      · rename_i e; exact (walkTo_under e).sectors gid
      · rename_i s0 t e
        split
        · rename_i e1; exact ((walkTo_under e).trans (mapChecks_under e1)).sectors gid
        · rename_i s1 e1
          have counted := ((walkTo_under e).trans (mapChecks_under e1)).trans
            (countAccess_below s1 (g.foldOf half) g.asid t 1).toUnder
          have read : ∀ u bs, Under s u → Sectors gid s (u.putSector gid half k g bs) := fun u bs hu =>
            (hu.sectors gid).trans (putSector_sectors half k bs ((hu.gang gid).trans hg) rfl)
          refine read _ _ ?_
          split
          · exact counted.trans ((l2Touch_quiet ..).trans (meshAccess_quiet ..)).toUnder
          · exact counted.trans (askRemote_quiet ..).toUnder
          · exact counted

theorem modGang_sectors {s : State} {k : Nat} {f : Gang → Gang} (h : ∀ g, bare (f g) = bare g) :
    Sectors k s (s.modGang k f) := by
  cases hg : s.gang k with
  | none => rw [State.modGang, hg]; exact .refl k s
  | some g => rw [State.modGang_eq hg]; exact sectors_setGang _ hg (h g)

theorem dirtyBytes_sectors (s : State) (gid half off n : Nat) : Sectors gid s (s.dirtyBytes gid half off n) :=
  modGang_sectors fun _ => rfl

/-- A dirty byte of a sector goes to its place (R215). -/
def putDirty (fold key va : Nat) (t : Trans) (s : State) (i : Nat) : State :=
  let b := Memory.read s.mem (key + i)
  let s1 := match t.place.key with
    | some p =>
      let s1 := s.storeL1 fold 1 (p + i) [b]
      { s1 with mem := Memory.write s1.mem (p + i) b }
    | none => s
  s1.logWrite fold (va + i) 1

theorem putDirty_under (fold key va : Nat) (t : Trans) (s : State) (i : Nat) : Under s (putDirty fold key va t s i) := by
  unfold putDirty
  dsimp only
  refine Under.trans ?_ (logWrite_under ..)
  split
  · exact ((storeL1_quiet s _ _ _ _).toBelow.trans (below_setMem ..)).toUnder
  · exact .refl s

theorem writeBack_sectors (s : State) (gid half k : Nat) (m : SMap) : Sectors gid s (s.writeBack gid half k m).1 := by
  unfold State.writeBack
  split
  · exact .refl ..
  · rename_i g hg
    dsimp only
    split
    · exact .refl ..
    · split
      · rename_i e; exact (walkTo_under e).sectors gid
      · rename_i s0 t e
        split
        · rename_i e1; exact ((walkTo_under e).trans (mapChecks_under e1)).sectors gid
        · rename_i s1 e1
          have counted := ((walkTo_under e).trans (mapChecks_under e1)).trans
            (countAccess_below s1 (g.foldOf half) g.asid t 1).toUnder
          have put : ∀ key (ls : List Nat), Under s (ls.foldl (putDirty (g.foldOf half) key (m.global k) t)
              (s1.countAccess (g.foldOf half) g.asid t 1)) := fun key ls =>
            counted.trans (Under.foldl (putDirty_under _ _ _ _) ls _)
          have done : ∀ u x, Under s u → Sectors gid s (u.setGang gid (g.setSector half k x)) := fun u x hu =>
            (hu.sectors gid).trans (sectors_setGang _ ((hu.gang gid).trans hg) rfl)
          refine done _ _ ?_
          split
          · exact (put _ _).trans (meshAccess_quiet ..).toUnder
          · exact (put _ _).trans (Under.foldl (fun u r => (askRemote_quiet u _ _ _ _ _).toUnder) _ _)
          · exact put _ _

theorem touchWindow_sectors (s : State) (f off n : Nat) (kind : AccKind) :
    ∃ k, Sectors k s (s.touchWindow f off n kind).1 := by
  unfold State.touchWindow
  split
  · exact ⟨0, .refl ..⟩
  · rename_i gid g half o _
    refine ⟨gid, ?_⟩
    split
    · exact .refl ..
    · rename_i m _
      split
      · exact .refl ..
      · have filled := fillSector_sectors s gid half (o / 256) m kind
        split
        · rename_i e; rw [e] at filled; exact filled
        · rename_i e
          rw [e] at filled
          dsimp only
          split
          · exact filled.trans (dirtyBytes_sectors ..)
          · exact filled

theorem maintWindow_sectors (s : State) (o : MemOp) (f off : Nat) : ∃ k, Sectors k s (s.maintWindow o f off).1 := by
  unfold State.maintWindow
  split
  · exact ⟨0, .refl ..⟩
  · rename_i gid g half b _
    refine ⟨gid, ?_⟩
    split
    · exact .refl ..
    · rename_i m _
      have written := writeBack_sectors s gid half (b / 256) m
      split
      · rename_i e; rw [e] at written; exact written
      · rename_i e
        rw [e] at written
        dsimp only
        split
        · exact written
        · exact written.trans (modGang_sectors fun _ => rfl)

end Sys2Proof.Machine.Beneath
end

section
/-! SUPPORT. What the end of one team and the performance of its queue leave of the other contexts, the gangs and the
packets. -/
namespace Sys2Proof.Machine.Beneath

/-! ## The relation -/

/-- A slot that is empty stays empty, one that is taken stays taken, and an exiting team goes on exiting. -/
def Outlasts (o o' : Option Ctx) : Prop :=
  o'.isSome = o.isSome ∧ ∀ x, o = some x → x.wait = .exiting → ∃ y, o' = some y ∧ y.wait = .exiting

/-- What a flock's end looks at in a gang. -/
def standing (g : Gang) : W32 × Bool := (g.flock, g.aborted)

/-- The tables of contexts and of gangs stay canonical, and where they are, the slots whose keys satisfy `p` outlast and
the gangs' flocks and ends are as before; the packets are as before. -/
structure Keeps (p : Nat → Prop) (s t : State) : Prop where
  slots : Rising s.ctxs → Rising t.ctxs ∧ ∀ id, p (CtxId.key id) → Outlasts (s.ctx id) (t.ctx id)
  gangs : Rising s.gangs → Rising t.gangs ∧ ∀ k, (t.gang k).map standing = (s.gang k).map standing
  packets : ∀ d, (t.die d).packets = (s.die d).packets

/-- Every slot, and every slot but that of `id`. -/
def everySlot : Nat → Prop := fun _ => True
def slotsBut (id : CtxId) : Nat → Prop := fun k => k ≠ CtxId.key id

theorem Outlasts.refl (o : Option Ctx) : Outlasts o o := ⟨rfl, fun x h e => ⟨x, h, e⟩⟩

theorem Outlasts.trans {a b c : Option Ctx} (h : Outlasts a b) (k : Outlasts b c) : Outlasts a c :=
  ⟨k.1.trans h.1, fun x hx e => let ⟨y, hy, ey⟩ := h.2 x hx e; k.2 y hy ey⟩

section
variable {p : Nat → Prop} {s t u : State}

theorem Keeps.refl (p : Nat → Prop) (s : State) : Keeps p s s :=
  ⟨fun h => ⟨h, fun _ _ => .refl _⟩, fun h => ⟨h, fun _ => rfl⟩, fun _ => rfl⟩

theorem Keeps.trans (h : Keeps p s t) (k : Keeps p t u) : Keeps p s u := by
  refine ⟨fun r => ?_, fun r => ?_, fun d => (k.packets d).trans (h.packets d)⟩
  · obtain ⟨r1, o1⟩ := h.slots r
    obtain ⟨r2, o2⟩ := k.slots r1
    exact ⟨r2, fun id hp => (o1 id hp).trans (o2 id hp)⟩
  · obtain ⟨r1, g1⟩ := h.gangs r
    obtain ⟨r2, g2⟩ := k.gangs r1
    exact ⟨r2, fun g => (g2 g).trans (g1 g)⟩

theorem keeps_of_gangs_eq (hs : Rising s.ctxs → Rising t.ctxs ∧ ∀ id, p (CtxId.key id) → Outlasts (s.ctx id) (t.ctx id))
    (hg : t.gangs = s.gangs) (hd : t.dies = s.dies) : Keeps p s t := by
  refine ⟨hs, fun r => ⟨hg ▸ r, fun k => ?_⟩, fun d => ?_⟩
  · rw [State.gang, hg, State.gang]
  · rw [State.die, hd, State.die]

theorem Keeps.mono {q : Nat → Prop} (h : Keeps q s t) (pq : ∀ k, p k → q k) : Keeps p s t :=
  ⟨fun r => ⟨(h.slots r).1, fun id hp => (h.slots r).2 id (pq _ hp)⟩, h.gangs, h.packets⟩

theorem Keeps.foldl {α : Type} {f : State → α → State} (h : ∀ s a, Keeps p s (f s a)) (l : List α) (s : State) :
    Keeps p s (l.foldl f s) := foldl_of_step (.refl p) .trans f h l s

theorem Sectors.keeps {k : Nat} (h : Sectors k s t) : Keeps p s t := by
  refine ⟨fun r => ⟨h.ctxs ▸ r, fun id _ => by rw [State.ctx_congr h.ctxs id]; exact .refl _⟩,
    fun r => ⟨h.rising r, fun j => ?_⟩, h.packets⟩
  by_cases e : j = k
  · have own := congrArg (Option.map standing) h.own
    rw [Option.map_map, Option.map_map] at own
    rw [e]
    exact own
  · rw [h.others j e]

theorem Under.keeps (h : Under s t) : Keeps p s t := (h.sectors 0).keeps

end

/-! ## Updates of contexts and gangs -/

theorem Rising.find_of_mem {α : Type} {t : Tbl α} (h : Rising t) {k : Nat} {v : α} (hm : (k, v) ∈ t) :
    Tbl.find t k = some v := by
  induction t with
  | nil => cases hm
  | cons e r ih =>
    obtain ⟨i, w⟩ := e
    obtain ⟨h1, h2⟩ := rising_cons.mp h
    simp only [Tbl.find]
    rcases List.mem_cons.mp hm with e | hm
    · cases e; rw [if_pos rfl]
    · have := h1 k (List.mem_map_of_mem (f := Prod.fst) hm)
      rw [if_neg (by omega), ih h2 hm]

theorem keeps_of_setCtx {p : Nat → Prop} {s : State} {id : CtxId} {c : Ctx}
    (h : p (CtxId.key id) → Outlasts (s.ctx id) (some c)) : Keeps p s (s.setCtx id c) := by
  refine keeps_of_gangs_eq (fun r => ⟨r.put _ _, fun i hp => ?_⟩) rfl rfl
  by_cases e : CtxId.key i = CtxId.key id
  · have same : ∀ u : State, u.ctx i = u.ctx id := fun u => by rw [State.ctx, e, ← State.ctx]
    rw [same, same, State.ctx_setCtx_same]
    exact h (e ▸ hp)
  · rw [State.ctx_setCtx_ne s c e]
    exact .refl _

/-- A context is changed; the others outlast. -/
theorem keeps_setCtx (s : State) (id : CtxId) (c : Ctx) : Keeps (slotsBut id) s (s.setCtx id c) :=
  keeps_of_setCtx fun h => absurd rfl h

theorem keeps_modCtx (s : State) (id : CtxId) (f : Ctx → Ctx) : Keeps (slotsBut id) s (s.modCtx id f) := by
  unfold State.modCtx
  split
  · exact .refl _ s
  · exact keeps_setCtx ..

/-- A context that is not exiting is changed. -/
theorem keeps_setCtx_of_wait {p : Nat → Prop} {s : State} {id : CtxId} {x : Ctx} (h : s.ctx id = some x)
    (hw : x.wait ≠ .exiting) (c : Ctx) : Keeps p s (s.setCtx id c) := by
  refine keeps_of_setCtx fun _ => ?_
  rw [h]
  exact ⟨rfl, fun y hy e => absurd (Option.some.inj hy ▸ e) hw⟩

/-- Every context is changed, and an exiting one goes on exiting. -/
theorem keeps_mapCtxs {p : Nat → Prop} {s : State} {f : Nat × Ctx → Nat × Ctx} (hk : ∀ e, (f e).1 = e.1)
    (hw : ∀ e, e.2.wait = .exiting → (f e).2.wait = .exiting) (l : List Instr) :
    Keeps p s { s with ctxs := s.ctxs.map f, agenda := l } := by
  refine keeps_of_gangs_eq (fun r => ⟨r.map f hk, fun id _ => ?_⟩) rfl rfl
  rw [State.ctx, State.ctx]
  dsimp only
  rw [Tbl.find_map_pair s.ctxs f hk]
  cases Tbl.find s.ctxs (CtxId.key id) with
  | none => exact .refl _
  | some x => exact ⟨rfl, fun y hy e => ⟨_, rfl, hw _ (Option.some.inj hy ▸ e)⟩⟩

theorem keeps_dropCtx (s : State) (id : CtxId) : Keeps (slotsBut id) s (s.dropCtx id) := by
  refine keeps_of_gangs_eq (fun r => ⟨r.drop _, fun i hp => ?_⟩) rfl rfl
  rw [State.ctx, State.ctx, State.dropCtx_ctxs, Tbl.find_drop_ne _ hp]
  exact .refl _

theorem keeps_setGang {p : Nat → Prop} {s : State} {k : Nat} {g : Gang} (x : Gang) (hg : s.gang k = some g)
    (hx : standing x = standing g) : Keeps p s (s.setGang k x) := by
  refine ⟨fun r => ⟨r, fun _ _ => .refl _⟩, fun r => ⟨r.put k x, fun j => ?_⟩, fun _ => rfl⟩
  by_cases e : j = k
  · rw [e, State.gang_setGang_same, hg, Option.map_some, Option.map_some, hx]
  · rw [State.gang_setGang_ne s x e]

theorem keeps_modGang {p : Nat → Prop} {s : State} {k : Nat} {f : Gang → Gang} (h : ∀ g, standing (f g) = standing g) :
    Keeps p s (s.modGang k f) := by
  cases hg : s.gang k with
  | none => rw [State.modGang, hg]; exact .refl p s
  | some g => rw [State.modGang_eq hg]; exact keeps_setGang _ hg (h g)

/-! ## The tests that follow a team's end (R187, R191, R194) -/

theorem barWake_exiting {c : Ctx} (i gen : Nat) (h : c.wait = .exiting) : (c.barWake i gen).wait = .exiting := by
  unfold Ctx.barWake
  rw [if_neg (by rw [h]; simp)]
  exact h

theorem gangAcquire_under (s : State) (gid : Nat) (g : Gang) : Under s (s.gangAcquire gid g) :=
  Under.foldl (fun s f => under_modFold s f _) _ s

theorem barTest_keeps {p : Nat → Prop} (s : State) (gid i : Nat) : Keeps p s (s.barTest gid i) := by
  unfold State.barTest
  split
  · exact .refl p s
  · rename_i g hg
    dsimp only
    split
    · have acquired : ∀ x, standing x = standing g → Keeps p s ((s.setGang gid x).gangAcquire gid g) := fun x hx =>
        (keeps_setGang x hg hx).trans (gangAcquire_under _ gid g).keeps
      refine (acquired _ ?_).trans (keeps_mapCtxs (fun e => ?_) (fun e he => ?_) _)
      · rfl
      · split <;> rfl
      · split
        · exact barWake_exiting i _ he
        · exact he
    · exact .refl p s

theorem key_ctxOfKey (k : Nat) : CtxId.key (ctxOfKey k) = k := by
  simp only [CtxId.key, ctxOfKey]
  omega

theorem mem_ringWaiters {s : State} {gid n : Nat} {cons : Bool} {w : Nat × Nat} (h : w ∈ s.ringWaiters gid n cons) :
    ∃ c, (w.2, c) ∈ s.ctxs ∧ c.wait = .ring n cons := by
  unfold State.ringWaiters at h
  obtain ⟨kv, hkv, e⟩ := List.mem_filterMap.mp h
  split at e
  · rename_i hc
    obtain ⟨i, -, rfl⟩ := Option.map_eq_some_iff.mp e
    exact ⟨kv.2, hkv, hc.2.2⟩
  · cases e

theorem lowestWaiter_mem {l : List (Nat × Nat)} {w : Nat × Nat} (h : lowestWaiter l = some w) : w ∈ l := by
  induction l generalizing w with
  | nil => cases h
  | cons x r ih =>
    simp only [lowestWaiter] at h
    split at h
    · cases h; exact List.mem_cons_self ..
    · rename_i y hy
      cases h
      split
      · exact List.mem_cons_of_mem _ (ih hy)
      · exact List.mem_cons_self ..

/-- A team that waits on a ring is changed. -/
theorem keeps_ringWaiter {p : Nat → Prop} {s : State} {gid n : Nat} {cons : Bool} {w : Nat × Nat}
    (h : w ∈ s.ringWaiters gid n cons) (f : Ctx → Ctx) : Keeps p s (s.modCtx (ctxOfKey w.2) f) := by
  obtain ⟨c, hm, hw⟩ := mem_ringWaiters h
  have found : Rising s.ctxs → s.ctx (ctxOfKey w.2) = some c := fun r => by
    rw [State.ctx, key_ctxOfKey]; exact r.find_of_mem hm
  refine keeps_of_gangs_eq (fun r => ?_) (State.modCtx_gangs ..) (State.modCtx_dies ..)
  rw [State.modCtx_eq (found r)]
  exact (keeps_setCtx_of_wait (found r) (by rw [hw]; simp) (f c)).slots r

theorem ringTest_keeps {p : Nat → Prop} (gid n fuel : Nat) (s : State) : Keeps p s (s.ringTest gid n fuel) := by
  induction fuel generalizing s with
  | zero => exact .refl p s
  | succ fuel ih =>
    unfold State.ringTest
    split
    · exact .refl p s
    · split
      · exact .refl p s
      · dsimp only
        split
        · rename_i w hw
          refine Keeps.trans (keeps_ringWaiter (gid := gid) (n := n) (cons := false) ?_ _) (ih _)
          rcases Option.or_eq_some_iff.mp hw with hw | ⟨-, hw⟩
          · exact lowestWaiter_mem (Option.filter_eq_some_iff.mp hw).1
          · exact List.mem_of_find?_eq_some hw
        · rename_i w hw
          refine Keeps.trans (Keeps.trans (keeps_ringWaiter (gid := gid) (n := n) (cons := true) ?_ _)
            (under_modFold _ _ _).keeps) (ih _)
          exact List.mem_of_find?_eq_some hw
        · exact .refl p s

theorem retest_keeps {p : Nat → Prop} (s : State) (gid : Nat) : Keeps p s (s.retest gid) :=
  (Keeps.foldl (fun s i => barTest_keeps s gid i) _ s).trans (Keeps.foldl (fun s n => ringTest_keeps gid n 64 s) _ _)

theorem growTest_keeps {p : Nat → Prop} (f fuel : Nat) (s : State) : Keeps p s (s.growTest f fuel) := by
  induction fuel generalizing s with
  | zero => exact .refl p s
  | succ fuel ih =>
    unfold State.growTest
    split
    · exact .refl p s
    · dsimp only
      split
      · exact Keeps.trans (under_modFold _ _ _).keeps (ih _)
      · rename_i c hc
        split
        · rename_i b hb
          split
          · refine Keeps.trans (Keeps.trans ?_ (under_modFold _ _ _).keeps) (ih _)
            exact keeps_setCtx_of_wait hc (by rw [hb]; simp) _
          · exact .refl p s
        · exact Keeps.trans (under_modFold _ _ _).keeps (ih _)

/-! ## The end of a team (R98) -/

theorem vacate_keeps (s : State) (id : CtxId) (c : Ctx) : Keeps (slotsBut id) s (s.vacate id c) :=
  ((flushDlog_under s id.fold).keeps.trans (keeps_dropCtx _ id)).trans (under_modFold _ _ _).keeps

/-- A gang without a team that has exited, whose pending arrivals are withdrawn (R98, R187). -/
def withdraw (c : Ctx) (g : Gang) : Gang :=
  { g with teams := Tbl.drop g.teams c.teamId
           barriers := g.barriers.map (fun kv =>
             if c.arrivedAt kv.1 kv.2.gen then (kv.1, { kv.2 with arrivals := kv.2.arrivals - 1 }) else kv) }

/-- A die without a team's link watches (R426). -/
def unwatch (tid : Nat) (d : Die) : Die := { d with watches := d.watches.filter (fun w => w.1 != tid) }

/-- The state in which a gang is tested after a team has left it. -/
def vacated (s : State) (id : CtxId) (c : Ctx) : State :=
  ((s.modGang c.gang (withdraw c)).vacate id c).modDie (dieOf id.fold) (unwatch c.tid)

theorem teamExit_eq {s : State} {id : CtxId} {c : Ctx} (h : s.ctx id = some c) :
    s.teamExit id = ((vacated s id c).retest c.gang).growTest id.fold 33 := by
  unfold State.teamExit
  rw [h]
  rfl

theorem teamExit_of_none {s : State} {id : CtxId} (h : s.ctx id = none) : s.teamExit id = s := by
  unfold State.teamExit
  rw [h]

theorem vacated_keeps (s : State) (id : CtxId) (c : Ctx) : Keeps (slotsBut id) s (vacated s id c) :=
  ((keeps_modGang (f := withdraw c) fun _ => rfl).trans (vacate_keeps _ id c)).trans
    (under_modDie (g := unwatch c.tid) fun _ => rfl).keeps

theorem tested_keeps {p : Nat → Prop} (s : State) (gid f : Nat) : Keeps p s ((s.retest gid).growTest f 33) :=
  (retest_keeps s gid).trans (growTest_keeps f 33 _)

theorem teamExit_keeps (s : State) (id : CtxId) : Keeps (slotsBut id) s (s.teamExit id) := by
  cases h : s.ctx id with
  | none => rw [teamExit_of_none h]; exact .refl _ s
  | some c => rw [teamExit_eq h]; exact (vacated_keeps s id c).trans (tested_keeps ..)

theorem leave_keeps (s : State) (id : CtxId) : Keeps (slotsBut id) s (s.leave id) := by
  unfold State.leave
  split
  · exact .refl _ s
  · dsimp only
    split
    · exact teamExit_keeps s id
    · exact keeps_setCtx ..

/-- A slot that is empty stays empty. -/
theorem Keeps.none {p : Nat → Prop} {s t : State} (h : Keeps p s t) (r : Rising s.ctxs) {id : CtxId}
    (hp : p (CtxId.key id)) (hn : s.ctx id = .none) : t.ctx id = .none := by
  have e := ((h.slots r).2 id hp).1
  rw [hn] at e
  exact Option.isNone_iff_eq_none.mp (by simpa using e)

theorem vacated_gone {s : State} (r : Rising s.ctxs) (id : CtxId) (c : Ctx) : (vacated s id c).ctx id = none := by
  have flushed : Rising ((s.modGang c.gang (withdraw c)).flushDlog id.fold).ctxs := by
    rw [(flushDlog_under _ _).ctxs, State.modGang_ctxs]
    exact r
  exact flushed.find_drop _

/-- A team that has ended is gone. -/
theorem teamExit_gone {s : State} (r : Rising s.ctxs) (id : CtxId) : (s.teamExit id).ctx id = none := by
  cases h : s.ctx id with
  | none => rw [teamExit_of_none h, h]
  | some c =>
    rw [teamExit_eq h]
    exact (tested_keeps (p := everySlot) _ c.gang id.fold).none ((vacated_keeps s id c).slots r).1 trivial
      (vacated_gone r id c)

/-- A team that issues nothing more is gone or exiting. -/
theorem leave_gone {s : State} (r : Rising s.ctxs) (id : CtxId) :
    (s.leave id).ctx id = none ∨ ∃ y, (s.leave id).ctx id = some y ∧ y.wait = .exiting := by
  unfold State.leave
  split
  · exact .inl (by assumption)
  · dsimp only
    split
    · exact .inl (teamExit_gone r id)
    · exact .inr ⟨_, State.ctx_setCtx_same _ _ _, rfl⟩

end Sys2Proof.Machine.Beneath
end

section
/-! SUPPORT. The performance of a team's queue (R131 to R141, R449): what it leaves of the other contexts. -/
namespace Sys2Proof.Machine.Beneath

/-! ## Lanes -/

theorem report_keeps (s : State) (id : CtxId) (o : MemOp) (x : MemLane) (w : WatchHit) :
    Keeps (slotsBut id) s (s.report id o x w) := by
  have told : ∀ (b : Bool) (u : State) (f : Ctx → Ctx), Keeps (slotsBut id) u (if b then u.modCtx id f else u) := by
    intro b u f
    split
    · exact keeps_modCtx ..
    · exact .refl _ u
  unfold State.report
  exact (told w.user s _).trans (told w.shadow _ _)

theorem laneFault_keeps (s : State) (id : CtxId) (o : MemOp) (x : MemLane) (e : BitVec 7) :
    Keeps (slotsBut id) s (s.laneFault id o x e).1 := by
  unfold State.laneFault
  split
  · exact .refl _ s
  · split
    · exact .refl _ s
    · exact keeps_modCtx ..

theorem laneWindow_keeps (s : State) (id : CtxId) (o : MemOp) (x : MemLane) (f off : Nat) :
    Keeps (slotsBut id) s (s.laneWindow id o x f off).1 := by
  have ready : Keeps (slotsBut id) s (if o.isMaint then s.maintWindow o f off
      else s.touchWindow f off o.size o.kind).1 := by
    split
    · obtain ⟨k, h⟩ := maintWindow_sectors s o f off
      exact h.keeps
    · obtain ⟨k, h⟩ := touchWindow_sectors s f off o.size o.kind
      exact h.keeps
  unfold State.laneWindow
  generalize (if o.isMaint then s.maintWindow o f off else s.touchWindow f off o.size o.kind) = r at ready ⊢
  split
  · exact ready.trans (laneFault_keeps ..)
  · split
    · exact ready
    · exact ready.trans (accessAt_below _ o x _).toUnder.keeps

theorem lanePlace_keeps (s : State) (id : CtxId) (c : Ctx) (o : MemOp) (x : MemLane) (t : Trans) (key : Nat) :
    Keeps (slotsBut id) s (s.lanePlace id c o x t key).1 := by
  have used : Under s (if o.rtAt key (t.pte.getLsbD 63) = 3 then s else s.useLeaf id.fold c.asid t) := by
    split
    · exact .refl s
    · exact (useLeaf_quiet ..).toUnder
  unfold State.lanePlace
  dsimp only
  generalize (if o.rtAt key (t.pte.getLsbD 63) = 3 then s else s.useLeaf id.fold c.asid t) = s1 at used ⊢
  split
  · exact (used.trans ((prefetch_quiet ..).trans (meshAccess_quiet ..)).toUnder).keeps
  · have reported := used.keeps.trans (report_keeps s1 id o x (s1.seen id c o x))
    generalize s1.report id o x (s1.seen id c o x) = s2 at reported ⊢
    split
    · exact reported.trans (maintLine_quiet ..).toUnder.keeps
    · have accessed := reported.trans ((countAccess_below s2 id.fold c.asid t 1).trans
        (accessGlobal_below _ id.fold c.tid o x key (o.rtAt key (t.pte.getLsbD 63)))).toUnder.keeps
      split
      · exact accessed.trans (logWrite_under ..).keeps
      · exact accessed

theorem laneRemote_keeps (s : State) (id : CtxId) (c : Ctx) (o : MemOp) (x : MemLane) (t : Trans) (dev a : Nat) (v : W64) :
    Keeps (slotsBut id) s (s.laneRemote id c o x t dev a v).1 := by
  unfold State.laneRemote
  dsimp only
  have reported := ((useLeaf_quiet s id.fold c.asid t).toBelow.trans
    (countAccess_below _ id.fold c.asid t 1)).toUnder.keeps.trans (report_keeps _ id o x (s.seen id c o x))
  refine Keeps.trans ?_ (remoteCopies_quiet ..).toUnder.keeps
  split
  · exact reported.trans (logWrite_under ..).keeps
  · exact reported

theorem walked_below (s : State) (id : CtxId) (c : Ctx) (o : MemOp) (x : MemLane) (k : Check) :
    Below s (s.walked id c o x k) := by
  have walkedIf : ∀ b : Bool, Below s (if b then s
      else (s.walkTo (dieOf id.fold) c.asid x.addr o.kind (decide (c.asid < 256))).1) := fun b => by
    cases b
    · exact walkTo_below ..
    · exact .refl s
  unfold State.walked
  exact walkedIf _

theorem runLane_keeps {s t : State} {id : CtxId} {o o' : MemOp} {x : MemLane} {ans : Option RemoteAnswer}
    (h : s.runLane id o x ans = some (t, o')) : Keeps (slotsBut id) s t := by
  unfold State.runLane at h
  split at h
  · cases h
  · rename_i c _
    have walked : Keeps (slotsBut id) s (s.walked id c o x (s.check id c o x)) := (walked_below ..).toUnder.keeps
    have done : ∀ {r : State × MemOp}, some r = some (t, o') → Keeps (slotsBut id) s r.1 → Keeps (slotsBut id) s t := by
      intro r e k; cases e; exact k
    have held : ∀ {u : State}, (u.hold id c o x).map (fun s2 => (s2, o)) = some (t, o') → Under u t := by
      intro u e
      obtain ⟨s2, hs, e2⟩ := Option.map_eq_some_iff.mp e
      cases e2
      exact hold_under hs
    split at h
    · cases h
    split at h
    · cases h
    dsimp only at h
    generalize s.walked id c o x (s.check id c o x) = s1 at h walked
    split at h
    · refine done h (Keeps.trans ?_ (laneFault_keeps ..))
      split
      · exact walked.trans (report_keeps ..)
      · exact walked
    · exact done h (walked.trans (keeps_modCtx ..))
    · split at h
      · cases h
      · exact done h (laneWindow_keeps ..)
    · exact walked.trans (held h).keeps
    · split at h
      · cases h
      split at h
      · exact walked.trans (held h).keeps
      split at h
      · exact done h (walked.trans (laneFault_keeps ..))
      split at h
      · split at h
        · exact done h (walked.trans (lanePlace_keeps ..))
        · cases h
      · split at h
        · exact done h (walked.trans (lanePlace_keeps ..))
        · exact done h (walked.trans (laneFault_keeps ..))
      · split at h
        · exact done h (walked.trans (maintLine_quiet ..).toUnder.keeps)
        split at h
        · exact done h (walked.trans (laneFault_keeps ..))
        split at h
        · exact done h (walked.trans ((useLeaf_quiet ..).trans (prefetchRemote_quiet ..)).toUnder.keeps)
        split at h
        · exact done h (walked.trans (laneRemote_keeps ..))
        · cases h
        · exact done h ((walked.trans (askRemote_quiet ..).toUnder.keeps).trans (laneFault_keeps ..))
        · exact done h ((walked.trans (askRemote_quiet ..).toUnder.keeps).trans (laneFault_keeps ..))
        · exact done h ((walked.trans (askRemote_quiet ..).toUnder.keeps).trans (laneRemote_keeps ..))

theorem pairFresh_under (s : State) (id : CtxId) (c : Ctx) (o p : MemOp) (x y : MemLane) :
    Under s (s.pairFresh id c o p x y) := by
  unfold State.pairFresh
  split
  · dsimp only
    split
    · exact .refl s
    · exact under_setFold ..
  · exact .refl s

theorem runPair_keeps {s t : State} {id : CtxId} {o o' : MemOp} {x : MemLane} {ans : Option RemoteAnswer}
    (h : s.runPair id o x ans = some (t, o')) : Keeps (slotsBut id) s t := by
  unfold State.runPair at h
  split at h
  · exact runLane_keeps h
  · split at h
    · cases h
    · rename_i first
      obtain ⟨r, second, e⟩ := Option.map_eq_some_iff.mp h
      cases e
      exact (((pairFresh_under ..).keeps.trans (runLane_keeps first)).trans (runLane_keeps second)).trans
        (keeps_modCtx ..)

theorem runLanes_keeps (id : CtxId) (o : MemOp) (ans : Option RemoteAnswer) (l : List MemLane) (s : State) :
    Keeps (slotsBut id) s (s.runLanes id o ans l).1 := by
  induction l generalizing s o ans with
  | nil => exact .refl _ s
  | cons x r ih =>
    unfold State.runLanes
    split
    · exact .refl _ s
    · rename_i e
      exact (runPair_keeps e).trans (ih ..)

/-! ## The move as a whole -/

theorem mem_of_blockAt {s : State} {fold off gid half o : Nat} {g : Gang}
    (h : s.blockAt fold off = some (gid, g, half, o)) : (gid, g) ∈ s.gangs := by
  unfold State.blockAt at h
  obtain ⟨kv, hkv, e⟩ := List.exists_of_findSome?_eq_some h
  dsimp only at e
  split at e
  · cases e; exact hkv
  · cases e

theorem keeps_setSector {p : Nat → Prop} {s : State} {gid : Nat} {g : Gang} (h : (gid, g) ∈ s.gangs) (half k : Nat)
    (x : Sector) : Keeps p s (s.setGang gid (g.setSector half k x)) :=
  ⟨fun r => ⟨r, fun _ _ => .refl _⟩,
    fun r => (keeps_setGang (p := p) (g.setSector half k x) (r.find_of_mem h) rfl).gangs r, fun _ => rfl⟩

theorem coverBytes_keeps {p : Nat → Prop} (s : State) (l : List (Nat × Nat)) : Keeps p s (s.coverBytes l) := by
  unfold State.coverBytes
  refine Keeps.foldl (fun s b => ?_) _ s
  split
  · split
    · exact .refl p s
    · rename_i gid g half off e
      split
      · split
        · exact keeps_setSector (mem_of_blockAt e) ..
        · exact .refl p s
      · exact .refl p s
  · exact .refl p s

theorem coverSectors_keeps {p : Nat → Prop} (s : State) (id : CtxId) (c : Ctx) (o : MemOp) :
    Keeps p s (s.coverSectors id c o) := by
  unfold State.coverSectors
  split
  · exact .refl p s
  · exact coverBytes_keeps ..

theorem begin_keeps (s : State) (id : CtxId) (o : MemOp) : Keeps (slotsBut id) s (s.begin id o) := by
  unfold State.begin
  split
  · exact .refl _ s
  · rename_i c _
    have owned : Keeps (slotsBut id) s (if (o.isLoad || (o.unit == U.st && !o.isMaint)) && o.rt == 0 then
        s.ownElems id.fold o.size ((c.moveLanes o.uid).map (fun x => x.addr.toNat)) (s.ownAddrs id c o) else s) := by
      split
      · exact (ownElems_quiet ..).toUnder.keeps
      · exact .refl _ s
    dsimp only
    generalize (if (o.isLoad || (o.unit == U.st && !o.isMaint)) && o.rt == 0 then
        s.ownElems id.fold o.size ((c.moveLanes o.uid).map (fun x => x.addr.toNat)) (s.ownAddrs id c o) else s) = u
      at owned ⊢
    refine Keeps.trans (owned.trans ?_) (keeps_modCtx ..)
    split
    · exact coverSectors_keeps ..
    · exact .refl _ u

theorem orderFirst_under (s : State) (id : CtxId) (o : MemOp) : Under s (s.orderFirst id o) := by
  have acquired : Under s (if o.acquires then s.modFold id.fold Fold.dropSi else s) := by
    split
    · exact under_modFold ..
    · exact .refl s
  unfold State.orderFirst
  dsimp only
  split
  · exact acquired.trans (flushDlog_under ..)
  · exact acquired

theorem closeOp_keeps (s : State) (id : CtxId) (o : MemOp) : Keeps (slotsBut id) s (s.closeOp id o) := by
  unfold State.closeOp
  split
  · exact .refl _ s
  · dsimp only
    split
    · exact keeps_setCtx ..
    · split
      · exact (under_modFold ..).keeps
      · split
        · exact keeps_setCtx ..
        · exact keeps_setCtx ..

theorem exitIfDone_keeps (s : State) (id : CtxId) : Keeps (slotsBut id) s (s.exitIfDone id) := by
  unfold State.exitIfDone
  split
  · exact .refl _ s
  · split
    · exact teamExit_keeps s id
    · exact .refl _ s

theorem sent_below {one : State × List MemLane → MemLane → State × List MemLane}
    (h : ∀ a x, Below a.1 (one a x).1) (l : List MemLane) (a : State × List MemLane) : Below a.1 (l.foldl one a).1 := by
  induction l generalizing a with
  | nil => exact .refl _
  | cons x r ih => exact (h a x).trans (ih _)

theorem sendLanes_keeps {s t : State} {id : CtxId} {c : Ctx} {o : MemOp} (h : s.sendLanes id c o = some t) :
    Keeps (slotsBut id) s t := by
  unfold State.sendLanes at h
  dsimp only at h
  split at h
  · cases h
  · cases h
    refine Keeps.trans (Below.toUnder ?_).keeps (keeps_modCtx ..)
    refine sent_below (fun a x => ?_) o.lanes (s, [])
    split
    · exact .refl _
    · exact (walked_below ..).trans (meshSend_quiet ..).toBelow

theorem sendNext_keeps {s t : State} {id : CtxId} {c : Ctx} {l : List MemOp} (h : s.sendNext id c l = some t) :
    Keeps (slotsBut id) s t := by
  induction l with
  | nil => cases h
  | cons o r ih =>
    unfold State.sendNext at h
    split at h
    · cases h
    · split at h
      · rename_i e
        cases h
        exact sendLanes_keeps e
      · exact ih h

theorem performNext_keeps {s t : State} {id : CtxId} {ans : Option RemoteAnswer}
    (h : s.performNext id ans = some t) : Keeps (slotsBut id) s t := by
  unfold State.performNext at h
  split at h
  · cases h
  split at h
  · cases h
  split at h
  · cases h
  rename_i c _ _ o q _ _
  have queued : Keeps (slotsBut id) s (if c.memq = o :: q then s else s.setCtx id { c with memq := o :: q }) := by
    split
    · exact .refl _ s
    · exact keeps_setCtx ..
  dsimp only at h
  generalize (if c.memq = o :: q then s else s.setCtx id { c with memq := o :: q }) = s1 at h queued
  have ordered : Keeps (slotsBut id) s ((if o.begun then s1 else s1.begin id o).orderFirst id o) := by
    refine Keeps.trans ?_ (orderFirst_under ..).keeps
    split
    · exact queued
    · exact queued.trans (begin_keeps ..)
  generalize (if o.begun then s1 else s1.begin id o).orderFirst id o = s2 at h ordered
  have run := ordered.trans (runLanes_keeps id { o with begun := true } ans o.lanes s2)
  split at h
  · exact queued.trans (sendNext_keeps h)
  split at h
  · cases h
    exact run.trans (keeps_modCtx ..)
  · cases h
    exact ((run.trans (keeps_modCtx ..)).trans (closeOp_keeps ..)).trans (exitIfDone_keeps ..)

theorem performAll_keeps (id : CtxId) (n : Nat) (s : State) : Keeps (slotsBut id) s (State.performAll id n s) := by
  induction n generalizing s with
  | zero => exact .refl _ s
  | succ n ih =>
    unfold State.performAll
    split
    · exact .refl _ s
    · rename_i e
      exact (performNext_keeps e).trans (ih _)

theorem settleTeam_keeps (s : State) (id : CtxId) : Keeps (slotsBut id) s (s.settleTeam id) := by
  unfold State.settleTeam
  split
  · exact .refl _ s
  · exact performAll_keeps ..

end Sys2Proof.Machine.Beneath
end

section
/-! SUPPORT for O55. The placement of a gang (R176, R177, R180). -/
namespace Sys2Proof.Machine.Placement
open Sys2Proof.Machine.Beneath

/-! ## The fold that is chosen -/

theorem mem_of_roomiest {s : State} {b : Block} {asid f : Nat} {fs : List Nat} (h : s.roomiest b asid fs = some f) :
    f ∈ fs := by
  have chosen : ∀ (l : List Nat) (acc : Option Nat), (∀ x, acc = some x → x ∈ fs) → (∀ x ∈ l, x ∈ fs) →
      ∀ y, l.foldl (fun acc f => match acc with
        | none => some f
        | some g => if s.roomOf b asid g < s.roomOf b asid f then some f else some g) acc = some y → y ∈ fs := by
    intro l
    induction l with
    | nil => intro acc ha _ y hy; exact ha y hy
    | cons x r ih =>
      intro acc ha hl y hy
      refine ih _ (fun z hz => ?_) (fun z hz => hl z (List.mem_cons_of_mem _ hz)) y hy
      have hx := hl x (List.mem_cons_self ..)
      cases acc with
      | none => cases hz; exact hx
      | some g =>
        dsimp only at hz
        split at hz
        · cases hz; exact hx
        · exact ha z hz
  exact chosen fs none (fun _ h => nomatch h) (fun _ h => h) f h

theorem fits_of_placeFor {s : State} {d asid f : Nat} {b : Block} {flock : W32}
    (h : s.placeFor d b asid flock = some f) : s.fits b asid flock f = true :=
  (List.mem_filter.mp (mem_of_roomiest h)).2

theorem halfFits_room {s : State} {b : Block} {asid half f : Nat} {flock : W32}
    (h : s.halfFits b asid flock half f = true) : b.teamsOn half ≤ (s.freeSlots f).length := by
  simp only [State.halfFits, Bool.and_eq_true, decide_eq_true_eq] at h
  tauto

/-- The fold of a team of a block on fold `f`. -/
def teamFold (b : Block) (f i : Nat) : Nat := if b.pair then f / 2 * 2 + i % 2 else f

theorem foldOf_teamHalf (g : Gang) (i : Nat) : g.foldOf (g.block.teamHalf i) = teamFold g.block g.fold i := by
  unfold Gang.foldOf Block.teamHalf teamFold
  split <;> rfl

/-- Every fold that a fitting gang takes has a free slot for each of its teams there. -/
theorem room_of_fits {s : State} {b : Block} {asid f : Nat} {flock : W32} (h : s.fits b asid flock f = true) (F : Nat) :
    b.teamList.countP (fun t => teamFold b f t.2 == F) ≤ (s.freeSlots F).length := by
  have onHalf : ∀ half, (∀ t : Nat × Nat, (teamFold b f t.2 == F) = (b.teamHalf t.2 == half)) →
      b.teamsOn half ≤ (s.freeSlots F).length →
      b.teamList.countP (fun t => teamFold b f t.2 == F) ≤ (s.freeSlots F).length := by
    intro half e le
    rw [funext e, List.countP_eq_length_filter]
    exact le
  have nowhere : (∀ t : Nat × Nat, teamFold b f t.2 ≠ F) →
      b.teamList.countP (fun t => teamFold b f t.2 == F) ≤ (s.freeSlots F).length := by
    intro ne
    rw [List.countP_eq_zero.mpr fun t _ => by simpa using ne t]
    exact Nat.zero_le _
  unfold State.fits at h
  unfold teamFold at *
  cases hp : b.pair
  · simp only [hp, Bool.false_eq_true, if_false] at h onHalf nowhere ⊢
    by_cases e : f = F
    · subst e
      exact onHalf 0 (fun t => by simp [Block.teamHalf, hp]) (halfFits_room h)
    · exact nowhere fun _ => e
  · simp only [hp, if_true, Bool.and_eq_true, beq_iff_eq] at h onHalf nowhere ⊢
    obtain ⟨⟨even, h0⟩, h1⟩ := h
    by_cases e0 : F = f
    · subst e0
      exact onHalf 0 (fun t => by simp only [Block.teamHalf, hp, if_true, beq_eq_beq]; omega) (halfFits_room h0)
    · by_cases e1 : F = f + 1
      · subst e1
        exact onHalf 1 (fun t => by simp only [Block.teamHalf, hp, if_true, beq_eq_beq]; omega) (halfFits_room h1)
      · exact nowhere fun t => by omega

/-! ## Slots -/

theorem key_inj {a b : CtxId} (ha : a.slot < 64) (hb : b.slot < 64) (h : CtxId.key a = CtxId.key b) : a = b := by
  cases a; cases b
  simp only [CtxId.key, CtxId.mk.injEq] at *
  omega

theorem mem_freeSlots {s : State} {F i : Nat} : i ∈ s.freeSlots F ↔ i < 32 ∧ s.ctx { fold := F, slot := i } = none := by
  simp [State.freeSlots]

theorem freeSlots_congr {s t : State} (h : t.ctxs = s.ctxs) (F : Nat) : t.freeSlots F = s.freeSlots F := by
  unfold State.freeSlots State.ctx
  rw [h]

theorem freeSlots_setCtx_ne (s : State) {F G i : Nat} (c : Ctx) (hi : i < 32) (h : G ≠ F) :
    (s.setCtx { fold := F, slot := i } c).freeSlots G = s.freeSlots G := by
  unfold State.freeSlots
  refine List.filter_congr fun j hj => ?_
  rw [State.ctx_setCtx_ne]
  have := List.mem_range.mp hj
  simp only [CtxId.key]
  omega

/-- The lowest free slot is taken. -/
theorem freeSlots_setCtx_same {s : State} {F i : Nat} {r : List Nat} (c : Ctx) (h : s.freeSlots F = i :: r) :
    (s.setCtx { fold := F, slot := i } c).freeSlots F = r := by
  have taken : (s.setCtx { fold := F, slot := i } c).freeSlots F = (s.freeSlots F).filter (fun j => j != i) := by
    unfold State.freeSlots
    rw [List.filter_filter]
    refine List.filter_congr fun j hj => ?_
    by_cases e : j = i
    · subst e; simp
    · have := List.mem_range.mp hj
      have hi : i < 32 := (mem_freeSlots.mp (h ▸ List.mem_cons_self ..)).1
      rw [State.ctx_setCtx_ne _ _ (by simp only [CtxId.key]; omega)]
      simp [e]
  have once : (s.freeSlots F).Nodup := List.nodup_range.filter _
  rw [h] at once
  rw [taken, h, List.filter_cons]
  simp only [bne_self_eq_false, Bool.false_eq_true, if_false]
  refine List.filter_eq_self.mpr fun j hj => ?_
  have := (List.nodup_cons.mp once).1
  simp only [bne_iff_ne, ne_eq]
  exact fun e => this (e ▸ hj)

/-! ## Teams -/

/-- Team `x` (role, number in its role, TEAM_ID) of gang `gid` as it starts on its fold (R180). -/
def Seated (gid : Nat) (g : Gang) (x : (Nat × Nat) × Nat) (id : CtxId) (c : Ctx) : Prop :=
  id.fold = teamFold g.block g.fold x.1.2 ∧ id.slot < 32 ∧ ∃ tid now, c = g.newTeam gid tid x.2 x.1.1 x.1.2 now

/-- One team takes the lowest free slot of its fold: the step of `State.placeTeams`. -/
def placeTeam (gid : Nat) (g : Gang) (s : State) (x : (Nat × Nat) × Nat) : State :=
  let f := g.foldOf (g.block.teamHalf x.1.2)
  match s.freeSlots f with
  | [] => s
  | slot :: _ =>
    let c := g.newTeam gid s.nextId x.2 x.1.1 x.1.2 (s.fold f).cycle
    { s.setCtx { fold := f, slot := slot } c with nextId := s.nextId + 1 }

theorem placeTeams_eq (s : State) (gid : Nat) (g : Gang) :
    s.placeTeams gid g = g.block.teamList.zipIdx.foldl (placeTeam gid g) s := rfl

/-- A team whose fold has a free slot takes it; the slots of the other teams' folds stay free. -/
theorem placeTeam_seats {s : State} {gid : Nat} {g : Gang} {x : (Nat × Nat) × Nat}
    (room : s.freeSlots (teamFold g.block g.fold x.1.2) ≠ []) :
    (∃ id c, (placeTeam gid g s x).ctx id = some c ∧ s.ctx id = none ∧ Seated gid g x id c) ∧
      (∀ id c, s.ctx id = some c → (placeTeam gid g s x).ctx id = some c) ∧
      (placeTeam gid g s x).gangs = s.gangs ∧
      ∀ F, ((placeTeam gid g s x).freeSlots F).length + (if teamFold g.block g.fold x.1.2 = F then 1 else 0) =
        (s.freeSlots F).length := by
  unfold placeTeam
  rw [foldOf_teamHalf]
  generalize hf : teamFold g.block g.fold x.1.2 = f at room ⊢
  cases hs : s.freeSlots f with
  | nil => exact absurd hs room
  | cons i r =>
    obtain ⟨hi, free⟩ := mem_freeSlots.mp (hs ▸ List.mem_cons_self .. : i ∈ s.freeSlots f)
    simp only [hs]
    generalize hc : g.newTeam gid s.nextId x.2 x.1.1 x.1.2 (s.fold f).cycle = c
    have slots : ∀ F, ({ s.setCtx { fold := f, slot := i } c with nextId := s.nextId + 1 } : State).freeSlots F =
        (s.setCtx { fold := f, slot := i } c).freeSlots F := fun F => freeSlots_congr rfl F
    have read : ∀ id, ({ s.setCtx { fold := f, slot := i } c with nextId := s.nextId + 1 } : State).ctx id =
        (s.setCtx { fold := f, slot := i } c).ctx id := fun id => rfl
    refine ⟨⟨{ fold := f, slot := i }, c, ?_, free, hf.symm, hi, s.nextId, _, hc.symm⟩, fun id y hy => ?_, rfl,
      fun F => ?_⟩
    · rw [read, State.ctx_setCtx_same]
    · rw [read, State.ctx_setCtx_ne, hy]
      intro e
      rw [State.ctx, e, ← State.ctx, free] at hy
      cases hy
    · rw [slots]
      by_cases e : f = F
      · subst e
        rw [freeSlots_setCtx_same c hs, if_pos rfl, hs, List.length_cons]
      · rw [freeSlots_setCtx_ne s c hi (Ne.symm e), if_neg e, Nat.add_zero]

/-- Teams whose folds have enough free slots all take one. -/
theorem placeTeams_seats (gid : Nat) (g : Gang) (l : List ((Nat × Nat) × Nat)) (s : State)
    (room : ∀ F, l.countP (fun x => teamFold g.block g.fold x.1.2 == F) ≤ (s.freeSlots F).length) :
    (∀ x ∈ l, ∃ id c, (l.foldl (placeTeam gid g) s).ctx id = some c ∧ s.ctx id = none ∧ Seated gid g x id c) ∧
      (∀ id c, s.ctx id = some c → (l.foldl (placeTeam gid g) s).ctx id = some c) ∧
      (l.foldl (placeTeam gid g) s).gangs = s.gangs := by
  induction l generalizing s with
  | nil => exact ⟨fun _ h => absurd h List.not_mem_nil, fun _ _ h => h, rfl⟩
  | cons x r ih =>
    have nonempty : s.freeSlots (teamFold g.block g.fold x.1.2) ≠ [] := by
      intro e
      have := room (teamFold g.block g.fold x.1.2)
      rw [e, List.countP_cons_of_pos (by simp)] at this
      simp at this
    obtain ⟨⟨i, c, placed, free, seat⟩, kept, gangs, slots⟩ := placeTeam_seats (gid := gid) nonempty
    obtain ⟨rest, kept', gangs'⟩ := ih (placeTeam gid g s x) fun F => by
      have all := room F
      have taken := slots F
      simp only [List.countP_cons, beq_iff_eq] at all
      omega
    refine ⟨fun y hy => ?_, fun id c h => kept' id c (kept id c h), gangs'.trans gangs⟩
    rcases List.mem_cons.mp hy with rfl | hy
    · exact ⟨i, c, kept' i c placed, free, seat⟩
    · obtain ⟨j, d, placed', free', seat'⟩ := rest y hy
      refine ⟨j, d, placed', ?_, seat'⟩
      cases hj : s.ctx j with
      | none => rfl
      | some z => rw [kept j z hj] at free'; cases free'

/-! ## The gang -/

/-- The state that a read of an agent leaves, whether or not it faults. -/
def readLeaves : Except (BitVec 7 × Nat × State) (List Byte × State) → State
  | .ok r => r.2
  | .error e => e.2.2

theorem readVirt_under (s : State) (d asid : Nat) (user : Bool) (va n : Nat) :
    Under s (readLeaves (s.readVirt d asid user va n)) := by
  induction n generalizing s va with
  | zero => exact .refl s
  | succ n ih =>
    unfold State.readVirt
    split
    · rename_i e; exact walkTo_under e
    · rename_i s1 t e
      have walked := walkTo_under e
      split
      · exact walked
      · have rest := walked.trans (ih s1 (va + 1))
        generalize s1.readVirt d asid user (va + 1) n = r at rest ⊢
        cases r <;> exact rest

theorem loadMirror_under (s : State) (d asid f t : Nat) (a : W64) : Under s (s.loadMirror d asid f t a) := by
  unfold State.loadMirror
  have read := readVirt_under s d asid true a.toNat (512 * 32 + 64)
  split
  · rename_i e
    rw [e] at read
    exact read.trans (under_modFold ..)
  · rename_i e
    rw [e] at read
    exact (read.trans (under_modFold ..)).trans (dieNotice_quiet ..).toUnder

/-- A gang that has its blocks and mirror tables, else as before. -/
def SeatOf (g x : Gang) : Prop := x = { g with base := x.base, mirrorSel := x.mirrorSel }

/-- Gang `gid` is resident with the fields of `g`, and the contexts are those of `s`. -/
def Seating (gid : Nat) (g : Gang) (s t : State) : Prop := t.ctxs = s.ctxs ∧ ∃ x, t.gang gid = some x ∧ SeatOf g x

section
variable {gid : Nat} {g : Gang} {s t u : State}

theorem Seating.under (h : Seating gid g s t) (k : Under t u) : Seating gid g s u := by
  obtain ⟨hc, x, hx, e⟩ := h
  exact ⟨k.ctxs.trans hc, x, (k.gang gid).trans hx, e⟩

theorem Seating.setGang (h : t.ctxs = s.ctxs) {x : Gang} (hx : SeatOf g x) : Seating gid g s (t.setGang gid x) :=
  ⟨h, x, State.gang_setGang_same .., hx⟩

theorem seatOf_mirrorSel {x : Gang} (h : SeatOf g x) (m : Tbl W64) : SeatOf g { x with mirrorSel := m } := by
  unfold SeatOf at *
  rw [h]

theorem bindMirror_seating {x : Gang} (f : Nat) (hc : t.ctxs = s.ctxs) (hx : t.gang gid = some x) (e : SeatOf g x) :
    Seating gid g s (t.bindMirror gid f x) := by
  unfold State.bindMirror
  dsimp only
  split
  · exact .setGang hc (seatOf_mirrorSel e _)
  · split
    · exact ⟨hc, x, hx, e⟩
    · rename_i n load _
      have loaded : Under t (if load then t.loadMirror x.die x.asid f n x.block.mirrorAddr else t) := by
        split
        · exact loadMirror_under ..
        · exact .refl t
      generalize (if load then t.loadMirror x.die x.asid f n x.block.mirrorAddr else t) = u at loaded ⊢
      rw [State.modGang_eq ((loaded.gang gid).trans hx)]
      exact .setGang (loaded.ctxs.trans hc) (seatOf_mirrorSel e _)

theorem takeEngine_under (s : State) (f : Nat) : Under s (s.takeEngine f) :=
  (under_modFold s f _).trans (below_setMem _ _).toUnder

theorem seatGang_seating (s : State) (gid : Nat) (g : Gang) (fresh : Bool) :
    Seating gid g s (s.seatGang gid g fresh) := by
  unfold State.seatGang
  dsimp only
  have seated : Seating gid g s (s.setGang gid { g with
      base := g.halves.foldl (fun t h => Tbl.put t h.1
        ((if g.block.scrLog2 = 0 then some 0 else buddy (s.scratchTaken h.2) g.block.scrLog2).getD 0)) []
      mirrorSel := [] }) := .setGang rfl rfl
  generalize s.setGang gid _ = u at seated ⊢
  generalize g.halves = l
  induction l generalizing u with
  | nil => exact seated
  | cons h r ih =>
    refine ih _ ?_
    beta_reduce
    have supplied : Under u (if g.hasEngine then u.takeEngine h.2 else u) := by
      split
      · exact takeEngine_under ..
      · exact .refl u
    generalize (if g.hasEngine then u.takeEngine h.2 else u) = v at supplied ⊢
    have cleared : Under v (if fresh then
        { v with mem := Memory.clear v.mem (Memory.wideKey gid h.1 0) (2 ^ 15) } else v) := by
      split
      · exact (below_setMem ..).toUnder
      · exact .refl v
    generalize (if fresh then
        { v with mem := Memory.clear v.mem (Memory.wideKey gid h.1 0) (2 ^ 15) } else v) = w at cleared ⊢
    obtain ⟨hc, x, hx, e⟩ := (seated.under supplied).under cleared
    rw [hx]
    exact bindMirror_seating h.2 hc hx e

end

/-- The gang that a packet places on fold `f` (R176, R180). -/
def placedGang (d : Nat) (p : Packet) (b : Block) (f : Nat) : Gang :=
  { die := d, queue := p.q, flock := p.flock, gangIdx := p.placed, asid := queueAsid d p.q,
    args := BitVec.ofNat 64 (field p.bytes 24 8), save := BitVec.ofNat 64 (field p.bytes 32 8), conf := p.conf, fold := f,
    block := b, hasEngine := b.needsEngine, base := [], mirrorSel := [], liveBase := b.liveAddr, smapV := [],
    smapS := [], sectors := [], fm := b.fm, barriers := [], rings := b.rings,
    teams := b.teamList.zipIdx.map (fun x => (x.2, x.1.1)), loop := p.loop, pktIdx := p.idx, saving := false, asked := [],
    aborted := false, froze := p.froze }

/-- The gang takes its place with every team of its block. -/
theorem placeGang_seats {s : State} {d : Nat} {p : Packet} {b : Block} {f : Nat} {flock : W32} {asid : Nat}
    (h : s.fits b asid flock f = true) :
    (∃ x, (s.placeGang d p b f).gang s.nextId = some x ∧ SeatOf (placedGang d p b f) x) ∧
      ∀ x ∈ b.teamList.zipIdx, ∃ id c, (s.placeGang d p b f).ctx id = some c ∧ s.ctx id = none ∧
        Seated s.nextId (placedGang d p b f) x id c := by
  obtain ⟨hc, x, hx, e⟩ := seatGang_seating { s with nextId := s.nextId + 1 } s.nextId (placedGang d p b f) true
  have same : (s.placeGang d p b f) = ((State.seatGang { s with nextId := s.nextId + 1 } s.nextId
      (placedGang d p b f) true).placeTeams s.nextId (placedGang d p b f)).modPacket d p.num (fun x =>
        { x with placed := x.placed + 1, froze := [],
                 st := if x.placed + 1 = x.gangs then .running else .placing }) := rfl
  rw [same, placeTeams_eq]
  generalize State.seatGang { s with nextId := s.nextId + 1 } s.nextId (placedGang d p b f) true = t at hc hx ⊢
  have asBefore : ∀ id, t.ctx id = s.ctx id := fun id => State.ctx_congr hc id
  obtain ⟨teams, -, gangs⟩ := placeTeams_seats s.nextId (placedGang d p b f) b.teamList.zipIdx t fun F => by
    rw [freeSlots_congr (s := s) hc]
    refine le_trans (le_of_eq ?_) (room_of_fits h F)
    conv_rhs => rw [← List.zipIdx_map_fst 0 b.teamList, List.countP_map]
    rfl
  refine ⟨⟨x, ?_, e⟩, fun y hy => ?_⟩
  · rw [State.gang] at hx ⊢
    rw [← hx]
    exact congrArg (fun l => Tbl.find l s.nextId) gangs
  · obtain ⟨id, c, placed, free, seat⟩ := teams y hy
    exact ⟨id, c, placed, (asBefore id).symm.trans free, seat⟩

theorem exec_gangPlace {d q f : Nat} {s : State} {p : Packet} {b : Block} (hp : s.placingOf d q = some p)
    (hb : p.block = some b) (hf : s.placeFor d b (queueAsid d q) p.flock = some f) :
    exec (.gangPlace d q) s = .next (s.placeGang d p b f) := by
  show execGangPlace d q s = _
  unfold execGangPlace
  simp only [hp, hb, hf]

/-- R176, R177, R180: the first part of the obligation. -/
theorem gangPlace_seats {d q f : Nat} {s : State} {p : Packet} {b : Block} (hp : s.placingOf d q = some p)
    (hb : p.block = some b) (hf : s.placeFor d b (queueAsid d q) p.flock = some f) :
      ∃ t g, exec (.gangPlace d q) s = .next t ∧ t.gang s.nextId = some g ∧ g.fold = f ∧ g.die = d ∧ g.queue = p.q ∧
        g.flock = p.flock ∧ g.gangIdx = p.placed ∧ g.asid = queueAsid d p.q ∧ g.block = b ∧
        g.hasEngine = b.needsEngine ∧ g.liveBase = b.liveAddr ∧ g.barriers = [] ∧ g.sectors = [] ∧
        ∀ j r i, b.teamList[j]? = some (r, i) → ∃ id c, t.ctx id = some c ∧
          id.fold = (if b.pair then f / 2 * 2 + i % 2 else f) ∧ id.slot < 32 ∧ s.ctx id = none ∧ c.gang = s.nextId ∧
          c.teamId = j ∧ c.role = r ∧ c.pc = (b.role r).entry ∧ c.nlanes = (b.role r).lanes ∧
          c.live = allLanes (b.role r).lanes ∧ c.budget = roundUp (b.role r).regs 8 ∧ c.g = [] ∧ c.k = [] ∧
          c.s = [(0, BitVec.ofNat 64 (field p.bytes 24 8)), (1, BitVec.ofNat 64 p.placed), (2, BitVec.ofNat 64 r),
            (3, BitVec.ofNat 64 i)] ∧
          c.us = UnitState.fresh ∧ c.tstatus = 0 ∧ c.sched = 0 ∧ c.wait = .ready ∧ c.frozen = false ∧
          c.shadow = false := by
  obtain ⟨⟨g, hg, e⟩, teams⟩ := placeGang_seats (d := d) (p := p) (fits_of_placeFor hf)
  refine ⟨_, g, exec_gangPlace hp hb hf, hg, ?_⟩
  rw [SeatOf] at e
  refine ⟨?_, ?_, ?_, ?_, ?_, ?_, ?_, ?_, ?_, ?_, ?_, fun j r i hj => ?_⟩
  iterate 11 rw [e]; rfl
  obtain ⟨id, c, placed, free, hfold, hslot, tid, now, rfl⟩ :=
    teams ((r, i), j) (List.mem_zipIdx_iff_getElem?.mpr hj)
  exact ⟨id, _, placed, hfold, hslot, free, rfl, rfl, rfl, rfl, rfl, rfl, rfl, rfl, rfl, rfl, rfl, rfl, rfl, rfl, rfl, rfl⟩

end Sys2Proof.Machine.Placement
end

section
/-! SUPPORT for O55. The end of a gang (R182). -/
namespace Sys2Proof.Machine.GangEnds
open Sys2Proof.Machine.Beneath

theorem writeBackMap_sectors (s : State) (k half : Nat) (m : SMap) (code : BitVec 7) :
    Sectors k s (s.writeBackMap k half m (fun s va => s.dieNotice code 0 (BitVec.ofNat 64 va))) := by
  refine Sectors.foldl (fun s i => ?_) _ s
  have written := writeBack_sectors s k half (m.off / 256 + i) m
  split
  · rename_i e; rw [e] at written; exact written
  · rename_i e
    rw [e] at written
    exact written.trans ((dieNotice_quiet ..).toUnder.sectors k)

theorem writeBackGang_sectors (s : State) (k : Nat) (g : Gang) : Sectors k s (s.writeBackGang k g) :=
  Sectors.foldl (f := fun s (h : Nat × Nat) => (g.maps h.1).foldl (fun s m =>
    s.writeBackMap k h.1 m (fun s va => s.dieNotice 0x37 0 (BitVec.ofNat 64 va))) s)
    (fun s h => Sectors.foldl (fun s m => writeBackMap_sectors s k h.1 m 0x37) _ s) _ s

theorem flushGang_under (s : State) (g : Gang) : Under s (s.flushGang g) :=
  Under.foldl (f := fun s (h : Nat × Nat) => s.flushDlog h.2) (fun s h => flushDlog_under s h.2) _ s

/-- What the end of a gang does before it leaves: its maps' dirty bytes and its merged log records reach memory. -/
def settled (s : State) (k : Nat) (g : Gang) : State := (if g.aborted then s else s.writeBackGang k g).flushGang g

theorem settled_sectors (s : State) (k : Nat) (g : Gang) : Sectors k s (settled s k g) := by
  refine Sectors.trans ?_ ((flushGang_under _ g).sectors k)
  split
  · exact .refl k s
  · exact writeBackGang_sectors s k g

theorem thaw_gangs (l : List (Nat × Nat)) (s : State) : (s.thaw l).gangs = s.gangs ∧ (s.thaw l).dies = s.dies := by
  refine foldl_of_step (R := fun s t : State => t.gangs = s.gangs ∧ t.dies = s.dies) (fun _ => ⟨rfl, rfl⟩)
    (fun h k => ⟨k.1.trans h.1, k.2.trans h.2⟩) _ (fun s x => ?_) l s
  exact ⟨State.modCtx_gangs .., State.modCtx_dies ..⟩

/-- The table of gangs and the dies when a gang has given up its place. -/
theorem dropGang_gangs (s : State) (k : Nat) (g : Gang) :
    (s.dropGang k g).gangs = Tbl.drop s.gangs k ∧ (s.dropGang k g).dies = s.dies := by
  unfold State.dropGang
  dsimp only
  split
  · split <;> exact ⟨rfl, rfl⟩
  · exact ⟨rfl, rfl⟩

/-- Every die is changed alike, and a die that the table does not list is as before. -/
theorem die_of_map {s t : State} {f : Die → Die} (h : t.dies = s.dies.map (fun kv => (kv.1, f kv.2)))
    (fresh : f Die.fresh = Die.fresh) (d : Nat) : t.die d = f (s.die d) := by
  rw [State.die, State.die, Tbl.get, Tbl.get, h, Tbl.find_map_pair s.dies (fun kv => (kv.1, f kv.2)) fun _ => rfl]
  cases Tbl.find s.dies d with
  | none => exact fresh.symm
  | some x => rfl

/-- A die whose landing counters of gang `k` are free (R424). -/
def unbind (k : Nat) (d : Die) : Die :=
  { d with landing := d.landing.map (fun kv => if kv.2.gang = k then (kv.1, { kv.2 with bound := false }) else kv) }

theorem landing_freeCounters (s : State) (k d : Nat) :
    ∀ kv ∈ ((s.freeCounters k).die d).landing, kv.2.gang = k → kv.2.bound = false := by
  rw [die_of_map (s := s) (f := unbind k) rfl rfl]
  intro kv h own
  obtain ⟨y, -, rfl⟩ := List.mem_map.mp h
  split at own
  · rename_i e; rw [if_pos e]
  · rename_i e; exact absurd own e

theorem exec_gangEnd {k : Nat} {s : State} {g : Gang} (hg : s.gang k = some g) :
    exec (.gangEnd k) s = .next (if s.gangDone k g then
      (((settled s k g).freeCounters k).thaw g.froze).dropGang k g else s) := by
  show execGangEnd k s = _
  unfold execGangEnd
  simp only [hg]
  cases s.gangDone k g <;> rfl

/-- R182: the second part of the obligation. -/
theorem gangEnd_leaves {k : Nat} {s : State} {g : Gang} (hg : s.gang k = some g) (ok : s.tablesOk) :
    (s.gangDone k g = false → exec (.gangEnd k) s = .next s) ∧
      (s.gangDone k g = true → ∃ t, exec (.gangEnd k) s = .next t ∧ t.gang k = none ∧
        (∀ j, j ≠ k → t.gang j = s.gang j) ∧
        ∀ kv ∈ (t.die g.die).landing, kv.2.gang = k → kv.2.bound = false) := by
  obtain ⟨-, rising, -⟩ := ok
  rw [exec_gangEnd hg]
  refine ⟨fun h => by simp [h], fun h => ⟨_, rfl, ?_⟩⟩
  rw [if_pos h]
  have before := settled_sectors s k g
  obtain ⟨thawed, thawedDies⟩ := thaw_gangs g.froze ((settled s k g).freeCounters k)
  obtain ⟨dropped, dies⟩ := dropGang_gangs (((settled s k g).freeCounters k).thaw g.froze) k g
  have gangs := dropped.trans (congrArg (fun t => Tbl.drop t k) thawed)
  have kept : ((settled s k g).freeCounters k).gangs = (settled s k g).gangs := rfl
  rw [kept] at gangs
  refine ⟨?_, fun j hj => ?_, ?_⟩
  · rw [State.gang, gangs]
    exact (before.rising rising).find_drop k
  · rw [State.gang, gangs, Tbl.find_drop_ne _ hj]
    exact before.others j hj
  · rw [State.die, dies.trans thawedDies]
    exact landing_freeCounters (settled s k g) k g.die

end Sys2Proof.Machine.GangEnds
end

section
/-! SUPPORT for O55. The end of a flock (R98, R172, R313, R358). -/
namespace Sys2Proof.Machine.FlockEnds
open Sys2Proof.Machine.Beneath

/-! ## Teams that issue nothing more -/

/-- An empty slot, or an exiting team. -/
def Gone (o : Option Ctx) : Prop := o = none ∨ ∃ y, o = some y ∧ y.wait = .exiting

theorem Gone.outlasts {a b : Option Ctx} (h : Gone a) (k : Outlasts a b) : Gone b := by
  obtain ⟨some, stays⟩ := k
  rcases h with rfl | ⟨y, rfl, hy⟩
  · exact .inl (Option.isNone_iff_eq_none.mp (by simpa using some))
  · exact .inr (stays y rfl hy)

/-- The end of one team of a flock: its queue is performed, and it leaves its slot (R98, R313). -/
def endTeam (s : State) (kv : Nat × Ctx) : State :=
  ((s.settleTeam (ctxOfKey kv.1)).pushEvent (ctxOfKey kv.1).fold (eventWord 0x41 0 (ctxOfKey kv.1).slot false true 0)).leave
    (ctxOfKey kv.1)

/-- A team of a flock stands in none of the slots of the list. -/
def notIn (l : List (Nat × Ctx)) (k : Nat) : Prop := ∀ kv ∈ l, k ≠ kv.1

theorem told_keeps (s : State) (kv : Nat × Ctx) : Keeps (slotsBut (ctxOfKey kv.1)) s
    ((s.settleTeam (ctxOfKey kv.1)).pushEvent (ctxOfKey kv.1).fold (eventWord 0x41 0 (ctxOfKey kv.1).slot false true 0)) :=
  (settleTeam_keeps ..).trans (pushEvent_under ..).keeps

theorem endTeam_keeps (s : State) (kv : Nat × Ctx) : Keeps (slotsBut (ctxOfKey kv.1)) s (endTeam s kv) :=
  (told_keeps s kv).trans (leave_keeps ..)

theorem endTeam_gone {s : State} (r : Rising s.ctxs) (kv : Nat × Ctx) : Gone ((endTeam s kv).ctx (ctxOfKey kv.1)) :=
  leave_gone ((told_keeps s kv).slots r).1 _

theorem endTeams_keeps (l : List (Nat × Ctx)) (s : State) : Keeps (notIn l) s (l.foldl endTeam s) := by
  induction l generalizing s with
  | nil => exact .refl _ s
  | cons kv r ih =>
    have first : Keeps (notIn (kv :: r)) s (endTeam s kv) := Keeps.mono (endTeam_keeps s kv) fun k h => by
      rw [slotsBut, key_ctxOfKey]
      exact h kv (List.mem_cons_self ..)
    exact first.trans (Keeps.mono (ih _) fun k h x hx => h x (List.mem_cons_of_mem _ hx))

theorem endTeams_gone (l : List (Nat × Ctx)) {s : State} (rising : Rising s.ctxs) {kv : Nat × Ctx} (h : kv ∈ l) :
    Gone ((l.foldl endTeam s).ctx (ctxOfKey kv.1)) := by
  induction l generalizing s kv with
  | nil => cases h
  | cons x r ih =>
    have next : Rising (endTeam s x).ctxs := ((endTeam_keeps s x).slots rising).1
    by_cases later : ∃ y ∈ r, y.1 = kv.1
    · obtain ⟨y, hy, e⟩ := later
      rw [← e]
      exact ih next hy
    · have e : kv = x := (List.mem_cons.mp h).resolve_right fun hr => later ⟨kv, hr, rfl⟩
      subst e
      refine (endTeam_gone rising kv).outlasts (((endTeams_keeps r _).slots next).2 _ fun y hy e => later ⟨y, hy, ?_⟩)
      rw [← e, key_ctxOfKey]

/-! ## The flock -/

/-- A gang of the flock is aborted. -/
def abortOf (flock : W32) (g : Gang) : Gang := if g.flock = flock then { g with aborted := true } else g

/-- A placing or running packet of the flock completes with LAUNCH_ABORTED (R172). -/
def completeOf (flock : W32) (p : Packet) : Packet :=
  if p.flock = flock ∧ (p.st = .placing ∨ p.st = .running) then { p with st := .completing, status := 5 } else p

/-- A die without the flock's saved gangs, its packets completing. -/
def dieEnded (flock : W32) (d : Die) : Die :=
  { d with saved := d.saved.filter (fun x => x.gang.flock != flock), packets := d.packets.map (completeOf flock) }

/-- A die without the flock's evicted teams. -/
def dieCleared (flock : W32) (d : Die) : Die := { d with evicted := d.evicted.filter (fun t => t.ctx.flock != flock) }

/-- The flock's gangs are aborted and its packets complete. -/
def marked (s : State) (flock : W32) : State :=
  { s with gangs := s.gangs.map (fun kv => (kv.1, abortOf flock kv.2))
           dies := s.dies.map (fun kv => (kv.1, dieEnded flock kv.2)) }

/-- The resident teams of a flock. -/
def teamsOf (s : State) (flock : W32) : List (Nat × Ctx) := s.ctxs.filter (fun kv => !kv.2.shadow && kv.2.flock == flock)

/-- An evicted team leaves its gang. -/
def forget (s : State) (t : SavedTeam) : State :=
  s.modGang t.gang (fun g => { g with teams := Tbl.drop g.teams t.ctx.teamId })

/-- The flock's evicted teams leave their gangs. -/
def forgotten (s : State) (flock : W32) : State :=
  ((List.range 4).flatMap (fun d => (s.die d).evicted.filter (fun t => t.ctx.flock == flock))).foldl forget s

theorem forgotten_keeps {p : Nat → Prop} (s : State) (flock : W32) : Keeps p s (forgotten s flock) :=
  Keeps.foldl (f := forget) (fun _ _ => keeps_modGang fun _ => rfl) _ s

theorem endFlock_eq (s : State) (flock : W32) :
    s.endFlock flock =
      let s3 := forgotten ((teamsOf s flock).foldl endTeam (marked s flock)) flock
      { s3 with dies := s3.dies.map (fun kv => (kv.1, dieCleared flock kv.2)) } := rfl

theorem cleared_keeps {p : Nat → Prop} (s : State) (flock : W32) :
    Keeps p s { s with dies := s.dies.map (fun kv => (kv.1, dieCleared flock kv.2)) } :=
  ⟨fun r => ⟨r, fun _ _ => .refl _⟩, fun r => ⟨r, fun _ => rfl⟩, fun d => by
    rw [GangEnds.die_of_map (s := s) (f := dieCleared flock) rfl rfl]; rfl⟩

theorem endFlock_keeps (s : State) (flock : W32) : Keeps (notIn (teamsOf s flock)) (marked s flock) (s.endFlock flock) := by
  rw [endFlock_eq]
  exact ((endTeams_keeps _ _).trans (forgotten_keeps _ flock)).trans (cleared_keeps _ flock)

theorem endFlock_gone {s : State} (rising : Rising s.ctxs) {flock : W32} {kv : Nat × Ctx} (h : kv ∈ teamsOf s flock) :
    Gone ((s.endFlock flock).ctx (ctxOfKey kv.1)) := by
  have rising' : Rising (marked s flock).ctxs := rising
  have teams := endTeams_keeps (teamsOf s flock) (marked s flock)
  have rest := fun u => (forgotten_keeps (p := everySlot) u flock).trans (cleared_keeps _ flock)
  rw [endFlock_eq]
  exact (endTeams_gone (teamsOf s flock) rising' h).outlasts (((rest _).slots (teams.slots rising').1).2 _ trivial)

theorem mem_of_find {α : Type} {t : Tbl α} {k : Nat} {v : α} (h : Tbl.find t k = some v) : (k, v) ∈ t := by
  induction t with
  | nil => cases h
  | cons e r ih =>
    obtain ⟨i, w⟩ := e
    simp only [Tbl.find] at h
    split at h
    · rename_i e
      cases h
      rw [e]
      exact List.mem_cons_self ..
    · exact List.mem_cons_of_mem _ (ih h)

theorem ctxOfKey_key {id : CtxId} (h : id.slot < 64) : ctxOfKey (CtxId.key id) = id :=
  Placement.key_inj (by simp only [ctxOfKey]; omega) h (key_ctxOfKey _)

theorem mem_teamsOf {s : State} {flock : W32} {kv : Nat × Ctx} :
    kv ∈ teamsOf s flock ↔ kv ∈ s.ctxs ∧ kv.2.shadow = false ∧ kv.2.flock = flock := by
  simp [teamsOf]

/-- What the end of a flock leaves of a gang. -/
theorem endFlock_standing {s : State} (rising : Rising s.gangs) {flock : W32} {k : Nat} {g : Gang}
    (hg : s.gang k = some g) :
    ((s.endFlock flock).gang k).map Gang.aborted = some (abortOf flock g).aborted := by
  have risingMarked : Rising (marked s flock).gangs := rising.map _ fun _ => rfl
  have e := ((endFlock_keeps s flock).gangs risingMarked).2 k
  have h : (marked s flock).gang k = some (abortOf flock g) := by
    rw [State.gang] at hg ⊢
    rw [marked, Tbl.find_map_pair s.gangs (fun kv => (kv.1, abortOf flock kv.2)) fun _ => rfl, hg]
    rfl
  rw [h] at e
  have second := congrArg (Option.map Prod.snd) e
  rwa [Option.map_map, Option.map_map] at second

theorem endFlock_packets (s : State) (flock : W32) (d : Nat) :
    ((s.endFlock flock).die d).packets = (s.die d).packets.map (completeOf flock) := by
  rw [(endFlock_keeps s flock).packets d, GangEnds.die_of_map (s := s) (t := marked s flock) (f := dieEnded flock) rfl rfl]
  rfl

/-- R98, R172, R313, R358: the third part of the obligation. -/
theorem flockAbort_ends (flock : W32) {s : State} (ok : s.tablesOk) : ∃ t, exec (.flockAbort flock) s = .next t ∧
      (∀ k g, s.gang k = some g → g.flock = flock → (t.gang k).map Gang.aborted = some true) ∧
      (∀ k g, s.gang k = some g → g.flock ≠ flock → (t.gang k).map Gang.aborted = some g.aborted) ∧
      (∀ id x, s.ctx id = some x → id.slot ≤ 32 → x.shadow = false → x.flock = flock →
        t.ctx id = none ∨ ∃ y, t.ctx id = some y ∧ y.wait = .exiting) ∧
      (∀ id x, s.ctx id = some x → id.slot ≤ 32 → (x.shadow = true ∨ x.flock ≠ flock) → (t.ctx id).isSome = true) ∧
      (∀ d, ∀ p ∈ (s.die d).packets, p.flock = flock → (p.st = .placing ∨ p.st = .running) →
        { p with st := .completing, status := 5 } ∈ (t.die d).packets) := by
  obtain ⟨ctxs, gangs, -⟩ := ok
  refine ⟨s.endFlock flock, rfl, fun k g hg hf => ?_, fun k g hg hf => ?_, fun id x hx hs sh hf => ?_,
    fun id x hx hs other => ?_, fun d p hp hf hst => ?_⟩
  · rw [endFlock_standing gangs hg, abortOf, if_pos hf]
  · rw [endFlock_standing gangs hg, abortOf, if_neg hf]
  · have gone := endFlock_gone ctxs (kv := (CtxId.key id, x)) (mem_teamsOf.mpr ⟨mem_of_find hx, sh, hf⟩)
    rw [ctxOfKey_key (by omega)] at gone
    exact gone
  · have outlasts := ((endFlock_keeps s flock).slots ctxs).2 id fun kv hkv e => by
      obtain ⟨mem, sh, hf⟩ := mem_teamsOf.mp hkv
      have same : Tbl.find s.ctxs kv.1 = some kv.2 := Rising.find_of_mem ctxs mem
      rw [← e, ← State.ctx, hx] at same
      cases same
      rcases other with h | h
      · rw [sh] at h; cases h
      · exact h hf
    rw [outlasts.1]
    exact Option.isSome_iff_exists.mpr ⟨x, hx⟩
  · rw [endFlock_packets]
    exact List.mem_map.mpr ⟨p, hp, if_pos ⟨hf, hst⟩⟩

/-- Settles O55: a placed gang is seated on a fold with a free slot for each team (R176), a gang that ends is taken out of
the table of gangs, and each team of a flock that ends is gone or exiting while what follows keeps it so. -/
theorem gangsPlacedAndEnded : Obligations.GangsPlacedAndEnded := by
  unfold Obligations.GangsPlacedAndEnded
  exact ⟨fun _ _ _ _ _ _ => Placement.gangPlace_seats, fun _ _ _ => GangEnds.gangEnd_leaves,
    fun flock _ => flockAbort_ends flock⟩

end Sys2Proof.Machine.FlockEnds
end

section
/-! SUPPORT. What the walks and counts of an access do to memory depends on nothing that L1 and the homes' directories
hold (R237 to R248). -/
namespace Sys2Proof.Machine.Beneath

/-! ## The relation -/

/-- A die but for its directory, its home caches and the leaves that its folds' L1 know. -/
def homeless (d : Die) : Die := { d with rdir := [], rdirLine := [], l2 := [], used := [] }

/-- Two states that agree in memory, in the device's identity and in the dies but for their homes. -/
structure Alike (s t : State) : Prop where
  mem : t.mem = s.mem
  devId : t.pkg.devId = s.pkg.devId
  dies : ∀ d, homeless (t.die d) = homeless (s.die d)

theorem Alike.refl (s : State) : Alike s s := ⟨rfl, rfl, fun _ => rfl⟩

section
variable {s t u : State}

theorem Alike.symm (h : Alike s t) : Alike t s := ⟨h.mem.symm, h.devId.symm, fun d => (h.dies d).symm⟩

theorem Alike.trans (h : Alike s t) (k : Alike t u) : Alike s u :=
  ⟨k.mem.trans h.mem, k.devId.trans h.devId, fun d => (k.dies d).trans (h.dies d)⟩

theorem Alike.foldl {α : Type} {f : State → α → State} (h : ∀ s a, Alike s (f s a)) (l : List α) (s : State) :
    Alike s (l.foldl f s) := foldl_of_step .refl .trans f h l s

theorem alike_of_fields (hm : t.mem = s.mem) (hp : t.pkg.devId = s.pkg.devId) (hd : t.dies = s.dies) : Alike s t :=
  ⟨hm, hp, fun d => by rw [State.die, hd, State.die]⟩

/-- A field of a die that is none of the home's. -/
theorem Alike.field {α : Type} (h : Alike s t) (f : Die → α) (hf : ∀ d, f (homeless d) = f d) (d : Nat) :
    f (t.die d) = f (s.die d) := by rw [← hf, h.dies, hf]

theorem alike_modDie {d : Nat} {g : Die → Die} (h : ∀ x, homeless (g x) = homeless x) : Alike s (s.modDie d g) := by
  refine ⟨rfl, rfl, fun e => ?_⟩
  by_cases q : e = d
  · rw [q, State.die_modDie_same, h]
  · rw [State.die_modDie_ne s g q]

/-- The same change of a die in two states that agree. -/
theorem Alike.modDie (h : Alike s t) {d : Nat} {g : Die → Die}
    (hg : ∀ x y, homeless x = homeless y → homeless (g x) = homeless (g y)) : Alike (s.modDie d g) (t.modDie d g) := by
  refine ⟨h.mem, h.devId, fun e => ?_⟩
  by_cases q : e = d
  · rw [q, State.die_modDie_same, State.die_modDie_same]
    exact hg _ _ (h.dies d)
  · rw [State.die_modDie_ne t g q, State.die_modDie_ne s g q, h.dies e]

/-- The same bytes stored in two states that agree. -/
theorem Alike.setMem (h : Alike s t) {m m' : List Host.Cell} (e : m' = m) :
    Alike { s with mem := m } { t with mem := m' } := ⟨e, h.devId, h.dies⟩

end

/-! ## Recalls -/

theorem meshForward_alike (s : State) (n : Nat) (m : MeshMsg) : Alike s (s.meshForward n m) := by
  unfold State.meshForward
  split
  · split <;> exact alike_of_fields rfl rfl rfl
  · exact .refl s

theorem meshSend_alike (s : State) (a b vc f sc : Nat) : Alike s (s.meshSend a b vc f sc) := by
  unfold State.meshSend
  dsimp only
  split
  · exact .refl s
  · refine Alike.trans ?_ (meshForward_alike ..)
    exact alike_of_fields rfl rfl rfl

theorem recallMsg_alike (s : State) (d o : Nat) : Alike s (s.recallMsg d o) :=
  (meshSend_alike ..).trans (meshSend_alike ..)

theorem takeBytes_alike (s : State) (b : Option Nat) (lo hi : Nat) (si : Bool) : Alike s (s.takeBytes b lo hi si) := by
  unfold State.takeBytes
  dsimp only
  generalize (s.die (homeDie lo)).rdir.filter (fun e => b != some e.owner && e.covers lo hi) = hit
  have lost : ∀ fs, Alike s { s with folds := fs } := fun fs => alike_of_fields rfl rfl rfl
  split
  · exact lost _
  · have told : ∀ fs, Alike s (hit.foldl (fun s e => s.recallMsg (homeDie lo) e.owner) { s with folds := fs }) :=
      fun fs => (lost fs).trans (Alike.foldl (fun s (e : RangeEnt) => recallMsg_alike s (homeDie lo) e.owner) hit _)
    exact (told _).trans (alike_modDie fun _ => rfl)

theorem l2Touch_alike (s : State) (p : Nat) (w : Bool) : Alike s (s.l2Touch p w) := by
  unfold State.l2Touch
  split
  · exact .refl s
  · refine alike_modDie fun x => ?_
    dsimp only
    split
    · split <;> rfl
    · split <;> rfl

theorem recallAll_alike (s : State) (key n : Nat) : Alike s (s.recallAll key n) := by
  unfold State.recallAll
  split
  · exact .refl s
  · dsimp only
    split
    · exact (takeBytes_alike ..).trans (l2Touch_alike ..)
    · exact takeBytes_alike ..

theorem useLeaf_alike (s : State) (f asid : Nat) (t : Trans) : Alike s (s.useLeaf f asid t) := by
  unfold State.useLeaf
  dsimp only
  split
  · exact .refl s
  · exact alike_modDie fun _ => rfl

/-! ## Translation -/

section
variable {s t : State}

theorem Alike.rd (h : Alike s t) (k n : Nat) : t.rd k n = s.rd k n := by rw [State.rd, h.mem, State.rd]

theorem Alike.root (h : Alike s t) (asid : Nat) : t.root asid = s.root asid := by
  unfold State.root
  rw [h.field Die.qroot fun _ => rfl, h.field Die.sroot fun _ => rfl]

theorem Alike.walkFrom (h : Alike s t) (va lvl base : Nat) : t.walkFrom va lvl base = s.walkFrom va lvl base := by
  induction lvl generalizing base with
  | zero => unfold State.walkFrom; simp only [h.rd]
  | succ n ih => unfold State.walkFrom; simp only [h.rd, ih]

theorem Alike.leafOf (h : Alike s t) (d asid va : Nat) (k : AccKind) (base : Nat) :
    t.leafOf d asid va k base = s.leafOf d asid va k base := by
  have one : ∀ a, t.oneLeaf a = s.oneLeaf a := fun a => by simp only [State.oneLeaf, h.rd]
  have ent : ∀ l, t.entOf l va = s.entOf l va := fun l => by simp only [State.entOf, one]
  have desc : ∀ i, t.stripeDesc d i = s.stripeDesc d i := fun i => by
    rw [State.stripeDesc, h.mem, h.field Die.stripeBase fun _ => rfl, State.stripeDesc]
  unfold State.leafOf
  rw [h.field Die.tlb fun _ => rfl, h.walkFrom]
  simp only [ent, desc]

theorem Alike.leafPlace (h : Alike s t) (d : Nat) (pte : W64) (desc : List Byte) (size va : Nat) :
    t.leafPlace d pte desc size va = s.leafPlace d pte desc size va := by
  unfold State.leafPlace State.stripe
  rw [h.devId]

theorem Alike.translate (h : Alike s t) (d asid : Nat) (a : W64) (k : AccKind) (u : Bool) :
    t.translate d asid a k u = s.translate d asid a k u := by
  unfold State.translate
  simp only [h.root, h.leafOf, h.leafPlace]

theorem Alike.applyAD (h : Alike s t) (x : Trans) : Alike (s.applyAD x) (t.applyAD x) := by
  unfold State.applyAD
  split
  · rename_i a v _
    have recalled := ((recallAll_alike s a 8).symm.trans h).trans (recallAll_alike t a 8)
    exact recalled.setMem (by rw [recalled.mem])
  · exact h

theorem Alike.walkTo (h : Alike s t) (d asid : Nat) (a : W64) (k : AccKind) (u : Bool) :
    Alike (s.walkTo d asid a k u).1 (t.walkTo d asid a k u).1 := by
  unfold State.walkTo
  rw [h.translate]
  split
  · exact h
  · exact h.applyAD _

/-! ## Counts -/

theorem Alike.putAt (h : Alike s t) (p : Place) (bs : List Byte) : (t.putAt p bs).mem = (s.putAt p bs).mem := by
  unfold State.putAt
  split
  · rw [(askRemote_quiet ..).mem, (askRemote_quiet ..).mem, h.mem]
  · dsimp only
    rw [(recallAll_quiet ..).mem, (recallAll_quiet ..).mem, h.mem]

theorem Alike.shadowStore (h : Alike s t) (d a : Nat) (bs : List Byte) :
    (t.shadowStore d a bs).map State.mem = (s.shadowStore d a bs).map State.mem := by
  unfold State.shadowStore
  rw [h.translate]
  split
  · rfl
  · rw [Option.map_some, Option.map_some, (h.applyAD _).putAt]

/-- Memory after a migration record: the record is stored where the ring is enabled and has room (R248). -/
theorem postMig_mem (s : State) (d f asid pg sz mt : Nat) : (s.postMig d f asid pg sz mt).mem =
    match ringSize (s.die d).migqCtl 4 16 with
    | none => s.mem
    | some n =>
      let w := ringWidx (s.die d).migqCtl
      if (w + 2 ^ 32 - bits (s.die d).migqRidx.toNat 31 0) % 2 ^ 32 = n then s.mem
      else ((s.shadowStore d (bits (s.die d).migqBase.toNat 56 12 * 4096 + 16 * (w % n))
        (bytesOf 8 pg ++ bytesOf 2 asid ++ bytesOf 2 f ++ bytesOf 1 mt ++ bytesOf 1 (psizeOf sz) ++
          bytesOf 2 w)).map State.mem).getD s.mem := by
  unfold State.postMig
  dsimp only
  generalize ringSize (s.die d).migqCtl 4 16 = size
  cases size with
  | none => rfl
  | some n =>
    dsimp only
    split
    · exact (migOvf_quiet ..).mem
    · split
      · rename_i e; rw [e]; exact (migOvf_quiet ..).mem
      · rename_i e; rw [e]; split <;> rfl

theorem Alike.postMig (h : Alike s t) (d f asid pg sz mt : Nat) :
    (t.postMig d f asid pg sz mt).mem = (s.postMig d f asid pg sz mt).mem := by
  rw [postMig_mem, postMig_mem, h.field Die.migqCtl fun _ => rfl, h.field Die.migqRidx fun _ => rfl,
    h.field Die.migqBase fun _ => rfl, h.mem]
  simp only [h.shadowStore]

/-- The counts of a die after `n` accesses to a page, and whether the page's count has reached THRESH (R247); none where
the access is not counted. -/
def counted (d : Die) (asid : Nat) (x : Trans) (n : Nat) : Option (Bool × List AccCount) :=
  let th := bits d.migThresh.toNat 15 0
  if x.pte.getLsbD 62 = false ∨ n = 0 ∨ th = 0 then none
  else
    let old := ((d.counts.find? (fun c => c.asid == asid && c.page == x.ent)).map AccCount.count).getD 0
    let rest := d.counts.filter (fun c => !(c.asid == asid && c.page == x.ent))
    let rest1 := if 4096 ≤ rest.length then rest.drop 1 else rest
    let hit := decide (th ≤ old + n)
    some (hit, rest1 ++ [{ asid := asid, page := x.ent, count := if hit then 0 else old + n }])

def withCounts (cs : List AccCount) (d : Die) : Die := { d with counts := cs }

theorem countAccess_of_none {s : State} {f asid n : Nat} {x : Trans} (h : counted (s.die (dieOf f)) asid x n = none) :
    s.countAccess f asid x n = s := by
  unfold counted at h
  dsimp only at h
  split at h
  · rename_i idle
    unfold State.countAccess
    exact if_pos idle
  · cases h

theorem countAccess_of_some {s : State} {f asid n : Nat} {x : Trans} {hit : Bool} {cs : List AccCount}
    (h : counted (s.die (dieOf f)) asid x n = some (hit, cs)) :
    s.countAccess f asid x n = if hit then (s.modDie (dieOf f) (withCounts cs)).postMig (dieOf f) f asid x.page x.size
      (pteMt x.pte) else s.modDie (dieOf f) (withCounts cs) := by
  unfold counted at h
  dsimp only at h
  split at h
  · cases h
  · rename_i busy
    unfold State.countAccess
    rw [Option.some.injEq, Prod.mk.injEq] at h
    obtain ⟨rfl, rfl⟩ := h
    exact if_neg busy

theorem Alike.countAccess (h : Alike s t) (f asid : Nat) (x : Trans) (n : Nat) :
    (t.countAccess f asid x n).mem = (s.countAccess f asid x n).mem := by
  have same : counted (t.die (dieOf f)) asid x n = counted (s.die (dieOf f)) asid x n :=
    h.field (fun d => counted d asid x n) (fun _ => rfl) _
  cases hc : counted (s.die (dieOf f)) asid x n with
  | none => rw [countAccess_of_none hc, countAccess_of_none (same.trans hc), h.mem]
  | some r =>
    obtain ⟨hit, cs⟩ := r
    have now : Alike (s.modDie (dieOf f) (withCounts cs)) (t.modDie (dieOf f) (withCounts cs)) :=
      h.modDie fun _ _ e => congrArg (withCounts cs) e
    rw [countAccess_of_some hc, countAccess_of_some (same.trans hc)]
    cases hit
    · exact now.mem
    · exact now.postMig ..

end

end Sys2Proof.Machine.Beneath
end

section
/-! SUPPORT for O31. A store, red, atomic or maintenance operation that stands alone in its context's queue (R131 to R136):
what is done before its lane, the lane's checks, and what closes the move. -/
namespace Sys2Proof.Machine.Alone
open Sys2Proof.Machine.Beneath

/-! ## The move and what precedes its lane -/

/-- The operation `o` of one lane `x` stands alone in the queue of context `c`: no write of the team is held, no entry of
the store fault buffer is its own, and no record is to be flushed. -/
structure Lone (id : CtxId) (s : State) (c : Ctx) (o : MemOp) (x : MemLane) : Prop where
  ctx : s.ctx id = some c
  memq : c.memq = [o]
  unit : o.unit = U.st ∨ o.unit = U.at_
  lanes : o.lanes = [x]
  replay : o.replay = none
  res : o.res = []
  toks : o.toks = []
  map : c.mapPending o.uid = false
  desc : c.descPending o.uid = false
  unread : (s.fold id.fold).unread o.locks = false
  held : (s.fold id.fold).held.any (fun h => h.slot == id.slot && h.tid == c.tid) = false
  sfb : (c.sfb ++ c.sfbWait).any (fun q => q.op.uid == o.uid) = false
  dlog : (s.fold id.fold).dlog = none
  watch : (s.fold id.fold).watch = []
  shared : o.unit = U.st → o.isMaint = true ∨ o.rt ≠ 0
  calm : ∀ f off, s.check id c o x = .window f off → o.isMaint = true ∨ s.Unmapped

/-- A move whose lanes are about to be performed. -/
def launched (o : MemOp) : MemOp := { o with begun := true }

/-- The state in which the lane of a move is performed. -/
def started (s : State) (id : CtxId) (o : MemOp) : State := (if o.begun then s else s.begin id o).orderFirst id o

/-- What precedes the lane leaves everything but the queue's mark and the fold's self-invalidating copies. -/
structure Ready (id : CtxId) (s : State) (c : Ctx) (o : MemOp) (u : State) : Prop where
  ctx : ∃ q, u.ctx id = some { c with memq := [q] }
  mem : u.mem = s.mem
  dies : u.dies = s.dies
  pkg : u.pkg = s.pkg
  gangs : u.gangs = s.gangs
  folds : ∀ f, Beneath.core (u.fold f) = Beneath.core (s.fold f)
  still : o.acquires = false → u.folds = s.folds
  rising : Rising s.ctxs → Rising u.ctxs

section
variable {id : CtxId} {s : State} {c : Ctx} {o : MemOp} {x : MemLane}

theorem Lone.isLoadUnit (h : Lone id s c o x) : o.isLoadUnit = false := by
  unfold MemOp.isLoadUnit
  rcases h.unit with e | e <;> rw [e] <;> rfl

theorem Lone.isLoad (h : Lone id s c o x) : o.isLoad = false := by rw [MemOp.isLoad, h.isLoadUnit]; rfl

theorem Lone.isPf (h : Lone id s c o x) : o.isPf = false := by rw [MemOp.isPf, h.isLoadUnit]; rfl

theorem Lone.acquires_st (h : o.unit = U.st) : o.acquires = false := by
  unfold MemOp.acquires
  rw [h]
  rfl

theorem coverBytes_unmapped {s : State} (h : s.Unmapped) (l : List (Nat × Nat)) : s.coverBytes l = s := by
  unfold State.coverBytes
  refine List.foldl_fixed' (fun b => ?_) _
  split
  · split
    · rfl
    · rename_i e
      rw [h _ _ _ _ _ _ e]
  · rfl

theorem Lone.coverSectors (h : Lone id s c o x) (plain : o.isMaint = false) : s.coverSectors id c o = s := by
  unfold State.coverSectors
  split
  · rfl
  · have lanes : c.moveLanes o.uid = [x] := by
      unfold Ctx.moveLanes
      rw [h.memq]
      simp [h.lanes]
    dsimp only
    rw [lanes]
    simp only [List.flatMap_cons, List.flatMap_nil, List.append_nil]
    split
    · rename_i f off e
      rcases h.calm f off e with k | k
      · rw [plain] at k; cases k
      · exact coverBytes_unmapped k _
    · rfl

theorem Lone.begin_eq (h : Lone id s c o x) : s.begin id o = s.setCtx id { c with memq := [launched o] } := by
  have plain : ∀ u : State, u = s → (if (o.unit == U.st && !o.isMaint) = true then u.coverSectors id c o else u) = s := by
    rintro u rfl
    split
    · rename_i e
      exact h.coverSectors (by simpa using (Bool.and_eq_true_iff.mp e).2)
    · rfl
  have own : ((o.isLoad || (o.unit == U.st && !o.isMaint)) && o.rt == 0) = false := by
    rw [h.isLoad]
    rcases h.unit with e | e
    · rcases h.shared e with k | k <;> simp [k]
    · rw [e]; rfl
  unfold State.begin
  rw [h.ctx]
  dsimp only
  rw [own, if_neg Bool.false_ne_true, plain s rfl, State.modCtx_eq h.ctx, h.memq]
  simp [launched]

theorem rising_setCtx {s : State} (h : Rising s.ctxs) (id : CtxId) (c : Ctx) : Rising (s.setCtx id c).ctxs := h.put _ _

/-- The queue's head is marked: what begins a move of its own. -/
theorem Lone.begun_ready (h : Lone id s c o x) : Ready id s c o (if o.begun then s else s.begin id o) := by
  split
  · refine ⟨⟨o, ?_⟩, rfl, rfl, rfl, rfl, fun _ => rfl, fun _ => rfl, fun r => r⟩
    rw [h.ctx, ← h.memq]
  · rw [h.begin_eq]
    exact ⟨⟨_, State.ctx_setCtx_same ..⟩, rfl, rfl, rfl, rfl, fun _ => rfl, fun _ => rfl, fun r => rising_setCtx r ..⟩

theorem Lone.ready (h : Lone id s c o x) : Ready id s c o (started s id o) := by
  have b := h.begun_ready
  unfold started State.orderFirst
  generalize (if o.begun then s else s.begin id o) = u at b ⊢
  have acquired : Ready id s c o (if o.acquires then u.modFold id.fold Fold.dropSi else u) := by
    split
    · rename_i e
      have q : Quiet u (u.modFold id.fold Fold.dropSi) := quiet_modFold fun _ => rfl
      exact ⟨b.ctx, b.mem, b.dies, b.pkg, b.gangs, fun f => (q.folds f).trans (b.folds f),
        fun n => absurd (e.symm.trans n) (by decide), b.rising⟩
    · exact b
  generalize (if o.acquires then u.modFold id.fold Fold.dropSi else u) = v at acquired ⊢
  have none : (v.fold id.fold).dlog = none :=
    (congrArg Fold.dlog (acquired.folds id.fold)).trans h.dlog
  dsimp only
  rw [flushDlog_none none]
  split <;> exact acquired

/-! ## The checks of the lane -/

theorem Ready.alike {u : State} (r : Ready id s c o u) : Alike s u :=
  ⟨r.mem, by rw [r.pkg], fun d => by rw [State.die, r.dies, State.die]⟩

/-- The checks of a lane read memory, the dies and the fold, but no L1 and no directory. -/
theorem check_congr {s u : State} (a : Alike s u) {id : CtxId}
    (f : Beneath.core (u.fold id.fold) = Beneath.core (s.fold id.fold)) (c : Ctx) (o : MemOp) (x : MemLane) :
    u.check id c o x = s.check id c o x := by
  have lock : ∀ sp as lo hi n, (u.fold id.fold).lockHit sp as lo hi n = (s.fold id.fold).lockHit sp as lo hi n :=
    fun sp as lo hi n => by
      have e := congrArg (fun f : Fold => f.lockHit sp as lo hi n) f
      exact e
  have watch : ∀ sp as fl cf lo hi rd wr, (u.fold id.fold).watchHit sp as fl cf lo hi rd wr =
      (s.fold id.fold).watchHit sp as fl cf lo hi rd wr := fun sp as fl cf lo hi rd wr => by
    have e := congrArg (fun f : Fold => f.watchHit sp as fl cf lo hi rd wr) f
    exact e
  have region : ∀ d va fl wr, u.regionFails d va fl wr = s.regionFails d va fl wr := fun d va fl wr => by
    unfold State.regionFails State.regionAt
    rw [a.field Die.regions fun _ => rfl]
  unfold State.check State.checkGlobal
  simp only [a.translate, lock, watch, region]

theorem Ready.check {u : State} (r : Ready id s c o u) (q : List MemOp) :
    u.check id { c with memq := q } (launched o) x = s.check id c o x :=
  (check_congr r.alike (r.folds id.fold) _ _ x).trans rfl

end

end Sys2Proof.Machine.Alone
end

section
/-! SUPPORT for O31. What closes a move that stood alone: the queue is empty, R of a returning atomic fills, and a team
that was exiting is gone (R18, R98). -/
namespace Sys2Proof.Machine.Alone
open Sys2Proof.Machine.Beneath

/-- What follows the lane of a move that stood alone. -/
def closed (t : State) (id : CtxId) (o : MemOp) : State :=
  ((t.modCtx id (fun c => { c with memq := c.memq.drop 1 })).closeOp id o).exitIfDone id

section
variable {id : CtxId} {s : State} {c : Ctx} {o : MemOp} {x : MemLane}

theorem Lone.runPair (h : Lone id s c o x) (u : State) : u.runPair id (launched o) x none = u.runLane id (launched o) x none := by
  have twin : ∀ d : Ctx, d.twin (launched o) x = none := fun d => by
    unfold Ctx.twin
    have e : (launched o).isLoad = false := h.isLoad
    simp [e]
  unfold State.runPair
  cases u.ctx id with
  | none => rfl
  | some d => simp [twin]

/-- The lane of a move that stands alone is performed, and the move is closed. -/
theorem Lone.performNext (h : Lone id s c o x) {t : State} {o1 : MemOp}
    (run : (started s id o).runLane id (launched o) x none = some (t, o1)) :
    s.performNext id none = some (closed t id { o1 with lanes := [] }) := by
  have lanes : ((if o.begun then s else s.begin id o).orderFirst id o).runLanes id { o with begun := true } none o.lanes =
      (t, { o1 with lanes := [] }) := by
    change (started s id o).runLanes id (launched o) none o.lanes = _
    rw [h.lanes]
    unfold State.runLanes
    rw [h.runPair, run]
    rfl
  unfold State.performNext
  rw [h.ctx]
  dsimp only
  rw [h.memq, State.passHeld_one]
  dsimp only
  rw [h.map, h.desc, if_neg (by simp), if_pos rfl]
  rw [lanes, h.lanes]
  rfl

/-- The instruction that performs a move at the head of a queue. -/
def performing (id : CtxId) (o : MemOp) : Instr := if o.isAtom then .atomicComplete id else .storePerformed id

theorem Lone.exec_eq (h : Lone id s c o x) {t : State} {o1 : MemOp}
    (run : (started s id o).runLane id (launched o) x none = some (t, o1)) :
    exec (performing id o) s = .next (closed t id { o1 with lanes := [] }) := by
  have head : s.memHead id = some o := by
    unfold State.memHead
    rw [h.ctx, Option.bind_some, h.memq, State.passHeld_one]
    rfl
  have performed : ∀ p : MemOp → Bool, p o = true → s.performIf id p = closed t id { o1 with lanes := [] } := by
    intro p hp
    unfold State.performIf
    rw [head]
    dsimp only
    rw [if_pos hp, h.performNext run]
    rfl
  unfold performing
  by_cases atom : o.isAtom = true
  · rw [if_pos atom]
    show execAtomicComplete id s = _
    unfold execAtomicComplete
    rw [performed _ atom]
  · rw [if_neg atom]
    show execStorePerformed id s = _
    unfold execStorePerformed
    rw [performed]
    rcases h.unit with e | e
    · simp [e]
    · have red : o.isRed = true := by simpa [MemOp.isAtom, e] using atom
      simp [red]

/-! ## Closing -/

theorem closeMem_eq (h : o.replay = none) :
    c.closeMem o = if o.isLoad || o.isAtom then { c with wait := c.wake }.finishMem o else { c with wait := c.wake } := by
  unfold Ctx.closeMem
  rw [h]

theorem wake_exiting (c : Ctx) : c.wake = .exiting ↔ c.wait = .exiting := by
  unfold Ctx.wake
  split
  · rfl
  · cases c.wait <;> simp [Wait.woken]

theorem finishMem_fields (c : Ctx) (o : MemOp) : (c.finishMem o).wait = c.wake ∧ (c.finishMem o).memq = c.memq ∧
    (c.finishMem o).sfb = c.sfb ∧ (c.finishMem o).g = c.g ∧ (c.finishMem o).s = c.s ∧ (c.finishMem o).k = c.k ∧
    (c.finishMem o).pc = c.pc := by
  unfold Ctx.finishMem
  dsimp only
  split
  · split <;> exact ⟨rfl, rfl, rfl, rfl, rfl, rfl, rfl⟩
  · exact ⟨rfl, rfl, rfl, rfl, rfl, rfl, rfl⟩

theorem closeMem_fields (h : o.replay = none) : ((c.closeMem o).wait = .exiting ↔ c.wait = .exiting) ∧
    (c.closeMem o).memq = c.memq ∧ (c.closeMem o).sfb = c.sfb ∧ (c.closeMem o).g = c.g ∧ (c.closeMem o).s = c.s ∧
    (c.closeMem o).k = c.k ∧ (c.closeMem o).pc = c.pc := by
  rw [closeMem_eq h]
  split
  · obtain ⟨hw, rest⟩ := finishMem_fields { c with wait := c.wake } o
    refine ⟨?_, rest⟩
    rw [hw, wake_exiting, wake_exiting]
  · exact ⟨wake_exiting c, rfl, rfl, rfl, rfl, rfl, rfl⟩

end

/-- The lane of a move has been performed in `t` by the team of `c`, whose queue it leaves: none of its writes is held,
none of its lanes waits in the store fault buffer, and no record is to be flushed. -/
structure Closes (id : CtxId) (t : State) (c : Ctx) (o : MemOp) : Prop where
  ctx : t.ctx id = some c
  memq : c.memq.drop 1 = []
  replay : o.replay = none
  held : (t.fold id.fold).held.any (fun h => h.slot == id.slot && h.tid == c.tid) = false
  dlog : (t.fold id.fold).dlog = none

section
variable {id : CtxId} {t : State} {c : Ctx} {o : MemOp}

/-- The context after its queue's only move has been performed. -/
def emptied (c : Ctx) : Ctx := { c with memq := [] }

theorem Closes.drop (h : Closes id t c o) :
    t.modCtx id (fun c => { c with memq := c.memq.drop 1 }) = t.setCtx id (emptied c) := by
  rw [State.modCtx_eq h.ctx, h.memq]
  rfl

theorem Closes.notHeld (h : Closes id t c o) : (t.fold id.fold).held.any (fun x =>
    x.slot == id.slot && x.tid == c.tid && x.op.uid == o.uid) = false := by
  rw [List.any_eq_false] at *
  have none := List.any_eq_false.mp h.held
  intro x hx e
  exact none x hx (Bool.and_eq_true_iff.mp e).1

/-- A move that no entry of the store fault buffer shares closes at once. -/
theorem Closes.closeOp (h : Closes id t c o)
    (sfb : o.isAtom = true → (c.sfb ++ c.sfbWait).any (fun e => e.op.uid == o.uid) = false) :
    (t.setCtx id (emptied c)).closeOp id o = (t.setCtx id (emptied c)).setCtx id ((emptied c).closeMem o) := by
  unfold State.closeOp
  rw [State.ctx_setCtx_same]
  dsimp only
  rw [if_neg (by simp [emptied])]
  rw [if_neg, if_neg]
  · intro e
    obtain ⟨atom, hit⟩ := Bool.and_eq_true_iff.mp e
    exact absurd (hit.symm.trans (sfb atom)) (by decide)
  · intro e
    exact absurd ((Bool.and_eq_true_iff.mp e).2.symm.trans h.notHeld) (by decide)

theorem Closes.closed_eq (h : Closes id t c o)
    (sfb : o.isAtom = true → (c.sfb ++ c.sfbWait).any (fun e => e.op.uid == o.uid) = false) :
    closed t id o = ((t.setCtx id (emptied c)).setCtx id ((emptied c).closeMem o)).exitIfDone id := by
  unfold closed
  rw [h.drop, h.closeOp sfb]

/-- A team that has not exited goes on. -/
theorem exitIfDone_of_wait {s : State} {id : CtxId} {d : Ctx} (h : s.ctx id = some d) (w : d.wait ≠ .exiting) :
    s.exitIfDone id = s := by
  unfold State.exitIfDone
  rw [h]
  exact if_neg fun e => w e.1

theorem exitIfDone_of_exiting {s : State} {id : CtxId} {d : Ctx} (h : s.ctx id = some d) (w : d.wait = .exiting)
    (q : d.memq = []) : s.exitIfDone id = s.teamExit id := by
  unfold State.exitIfDone
  rw [h]
  exact if_pos ⟨w, by rw [q]; rfl⟩

end

/-! ## Memory at the end of a team -/

/-- A relation to memory that holds step by step holds over a list. -/
theorem foldl_mem {α : Type} {f : State → α → State} (h : ∀ s a, (f s a).mem = s.mem) (l : List α) (s : State) :
    (l.foldl f s).mem = s.mem :=
  foldl_of_step (R := fun a b : State => b.mem = a.mem) (fun _ => rfl) (fun p q => q.trans p) f h l s

theorem gangAcquire_mem (s : State) (gid : Nat) (g : Gang) : (s.gangAcquire gid g).mem = s.mem := by
  unfold State.gangAcquire
  refine foldl_mem (fun _ _ => ?_) _ s
  rfl

theorem barTest_mem (s : State) (gid i : Nat) : (s.barTest gid i).mem = s.mem := by
  unfold State.barTest
  split
  · rfl
  · dsimp only
    split
    · exact gangAcquire_mem ..
    · rfl

theorem ringTest_mem (gid n fuel : Nat) (s : State) : (s.ringTest gid n fuel).mem = s.mem := by
  induction fuel generalizing s with
  | zero => rfl
  | succ fuel ih =>
    unfold State.ringTest
    split
    · rfl
    · split
      · rfl
      · dsimp only
        split
        · rw [ih, State.modCtx_mem]
        · rw [ih]
          exact State.modCtx_mem ..
        · rfl

theorem growTest_mem (f fuel : Nat) (s : State) : (s.growTest f fuel).mem = s.mem := by
  induction fuel generalizing s with
  | zero => rfl
  | succ fuel ih =>
    unfold State.growTest
    split
    · rfl
    · dsimp only
      split
      · rw [ih]; rfl
      · split
        · split
          · rw [ih]; rfl
          · rfl
        · rw [ih]; rfl

theorem retest_mem (s : State) (gid : Nat) : (s.retest gid).mem = s.mem := by
  exact (foldl_mem (fun s n => ringTest_mem gid n 64 s) _ _).trans (foldl_mem (fun s i => barTest_mem s gid i) _ s)

/-- The end of a team without a record to flush changes no memory. -/
theorem teamExit_mem {s : State} {id : CtxId} (h : (s.fold id.fold).dlog = none) : (s.teamExit id).mem = s.mem := by
  cases hc : s.ctx id with
  | none => rw [teamExit_of_none hc]
  | some c =>
    have kept : (s.modGang c.gang (withdraw c)).flushDlog id.fold = s.modGang c.gang (withdraw c) :=
      flushDlog_none (by rw [State.fold, State.modGang_folds]; exact h)
    rw [teamExit_eq hc, growTest_mem, retest_mem]
    unfold vacated State.vacate
    rw [kept]
    exact State.modGang_mem ..

/-! ## The two ways to close -/

section
variable {id : CtxId} {t : State} {c : Ctx} {o : MemOp}

/-- A team that has not exited goes on with the move closed. -/
theorem Closes.goes_on (h : Closes id t c o)
    (sfb : o.isAtom = true → (c.sfb ++ c.sfbWait).any (fun e => e.op.uid == o.uid) = false) (w : c.wait ≠ .exiting) :
    closed t id o = (t.setCtx id (emptied c)).setCtx id ((emptied c).closeMem o) := by
  rw [h.closed_eq sfb]
  refine exitIfDone_of_wait (State.ctx_setCtx_same ..) fun e => w ?_
  exact (closeMem_fields (c := emptied c) h.replay).1.mp e

/-- The state in which an exiting team whose move has been performed is tested. -/
theorem Closes.ends (h : Closes id t c o)
    (sfb : o.isAtom = true → (c.sfb ++ c.sfbWait).any (fun e => e.op.uid == o.uid) = false) (w : c.wait = .exiting) :
    closed t id o = ((t.setCtx id (emptied c)).setCtx id ((emptied c).closeMem o)).teamExit id := by
  obtain ⟨hw, hq, -⟩ := closeMem_fields (c := emptied c) h.replay
  rw [h.closed_eq sfb]
  exact exitIfDone_of_exiting (State.ctx_setCtx_same ..) (hw.mpr w) hq

theorem Closes.mem (h : Closes id t c o)
    (sfb : o.isAtom = true → (c.sfb ++ c.sfbWait).any (fun e => e.op.uid == o.uid) = false) :
    (closed t id o).mem = t.mem := by
  by_cases w : c.wait = .exiting
  · rw [h.ends sfb w]
    refine (teamExit_mem ?_).trans rfl
    exact h.dlog
  · rw [h.goes_on sfb w]
    rfl

theorem Closes.gone (h : Closes id t c o)
    (sfb : o.isAtom = true → (c.sfb ++ c.sfbWait).any (fun e => e.op.uid == o.uid) = false) (w : c.wait = .exiting)
    (rising : Rising t.ctxs) : (closed t id o).ctx id = none := by
  rw [h.ends sfb w]
  exact teamExit_gone (rising_setCtx (rising_setCtx rising ..) ..) id

end

end Sys2Proof.Machine.Alone
end

section
/-! SUPPORT for O31. A store, red or atomic that is performed (R134, R136): its bytes, its R and its team. -/
namespace Sys2Proof.Machine.Alone
open Sys2Proof.Machine.Beneath Sys2Proof.Machine.Sequential

/-! ## Bytes -/

/-- The bytes that are written are the bytes that are read. -/
theorem readN_writeN (m : List Host.Cell) (k : Nat) (bs : List Byte) (h : Memory.wf m = true) :
    Memory.readN (Memory.writeN m k bs) k bs.length = bs := by
  have at_ : ∀ (n j : Nat), j + n = bs.length → Memory.readN (Memory.writeN m k bs) (k + j) n = bs.drop j := by
    intro n
    induction n with
    | zero => intro j e; rw [List.drop_eq_nil_of_le (by omega)]; rfl
    | succ n ih =>
      intro j e
      rw [Memory.readN, Memory.read_writeN m k _ bs h, if_pos (by omega), show k + j + 1 = k + (j + 1) from by omega,
        ih (j + 1) (by omega), show k + j - k = j from by omega, List.getD_eq_getElem _ _ (by omega)]
      exact (List.drop_eq_getElem_cons (by omega)).symm
  exact at_ bs.length 0 (by omega)

theorem rd_writeN {t : State} {m : List Host.Cell} {k n v : Nat} (h : Memory.wf m = true)
    (e : t.mem = Memory.writeN m k (bytesOf n v)) : t.rd k n = v % 2 ^ (8 * n) := by
  have bytes := readN_writeN m k (bytesOf n v) h
  rw [bytesOf_length] at bytes
  rw [State.rd, e, bytes, natOf_bytesOf, Nat.pow_mul]

theorem read_writeN_outside {m : List Host.Cell} {k n v a : Nat} (h : Memory.wf m = true) (out : a < k ∨ k + n ≤ a) :
    Memory.read (Memory.writeN m k (bytesOf n v)) a = Memory.read m a := by
  rw [Memory.read_writeN m k a _ h, bytesOf_length, if_neg (by omega)]

/-! ## R of a returning atomic -/

/-- A returning atomic whose lane holds `v` fills R with it (R18, R136). -/
theorem closeMem_fills {c : Ctx} {o : MemOp} {l : Nat} {v : W64} (atom : o.isAtom = true) (replay : o.replay = none)
    (toks : o.toks = []) (res : o.res = [(l, v)]) (unit : o.unit = U.at_) (last : (c.us.unit U.at_).last = o.uid)
    (full : (c.us.unit U.at_).full = false) (lane : l < c.nlanes) (live : (o.mask &&& c.live).getLsbD l = true) :
    ((c.closeMem o).us.unit U.at_).full = true ∧ ((c.closeMem o).us.unit U.at_).r.at l = v := by
  have filled : (c.closeMem o).us =
      c.us.finish c.nlanes U.at_ o.uid (o.mask &&& c.live) (fun l => Tbl.get o.res l 0) none := by
    rw [closeMem_eq replay, if_pos (by simp [atom])]
    unfold Ctx.finishMem
    rw [toks, ← unit]
    rfl
  obtain ⟨fl, e, -⟩ := finish_latest (n := c.nlanes) (mask := o.mask &&& c.live) (f := fun l => Tbl.get o.res l 0) last full
  rw [filled, e]
  refine ⟨congrArg UPorts.full (UnitState.unit_setUnit_same _ _ _), ?_⟩
  have merged := congrArg (fun p => Vals.at (UPorts.r p) l) (UnitState.unit_setUnit_same c.us U.at_
    { c.us.unit U.at_ with
      full := true
      r := Vals.merge c.nlanes (o.mask &&& c.live) (fun l => Tbl.get o.res l 0) (c.us.unit U.at_).r
      frec := none })
  refine merged.trans ?_
  dsimp only
  rw [Vals.at_merge _ _ _ lane, if_pos live, res]
  simp [Tbl.get, Tbl.find]

/-! ## The move is performed -/

/-- What a store, red or atomic leaves at its place (R134, R136). -/
def newValue (o : MemOp) (x : MemLane) (w : State) (key : Nat) : Nat :=
  if o.unit = U.st then x.x.toNat
  else atomNew (o.opcode.toNat % 16) (8 * o.size) (w.rd key o.size) x.x.toNat x.cmp.toNat

/-- The move of `o` is performed on the bytes at `key` of memory as it is in `w`. -/
def Performed (id : CtxId) (s : State) (c : Ctx) (o : MemOp) (x : MemLane) (w : State) (key : Nat) : Prop :=
  ∃ t, exec (performing id o) s = .next t ∧ t.rd key o.size = newValue o x w key % 2 ^ (8 * o.size) ∧
    (∀ a, (a < key ∨ key + o.size ≤ a) → Memory.read t.mem a = Memory.read w.mem a) ∧
    (c.wait = .exiting → (s.ctxs.map Prod.fst).Pairwise (· < ·) → t.ctx id = none) ∧
    (c.wait ≠ .exiting → ∃ c', t.ctx id = some c' ∧ c'.memq = [] ∧
      (o.isAtom = true → (c.us.unit U.at_).last = o.uid → (c.us.unit U.at_).full = false → x.lane < c.nlanes →
        (o.mask &&& c.live).getLsbD x.lane = true →
        (c'.us.unit U.at_).full = true ∧ (c'.us.unit U.at_).r.at x.lane = BitVec.ofNat 64 (w.rd key o.size)) ∧
      c'.g = c.g ∧ c'.s = c.s ∧ c'.k = c.k ∧ c'.pc = c.pc)

section
variable {id : CtxId} {s : State} {c : Ctx} {o : MemOp} {x : MemLane}

/-- The lane's work leaves the contexts and the folds, but for L1, as they were when it started. -/
theorem Lone.closes (h : Lone id s c o x) {t : State} {d : Ctx} {o1 : MemOp} (ctx : t.ctx id = some d)
    (tid : d.tid = c.tid) (memq : d.memq.drop 1 = [])
    (folds : Beneath.core (t.fold id.fold) = Beneath.core (s.fold id.fold)) (replay : o1.replay = none) :
    Closes id t d o1 := by
  have held := congrArg Fold.held folds
  have dlog := congrArg Fold.dlog folds
  exact ⟨ctx, memq, replay, by rw [show (t.fold id.fold).held = (s.fold id.fold).held from held, tid]; exact h.held,
    dlog.trans h.dlog⟩

theorem isAtom_unit (h : o.isAtom = true) : o.unit = U.at_ := by
  simp only [MemOp.isAtom, Bool.and_eq_true, beq_iff_eq] at h
  exact h.1

theorem Lone.performed (h : Lone id s c o x) {t w : State} {v : W64} {key : Nat}
    (run : (started s id o).runLane id (launched o) x none = some (t, (launched o).gives x v))
    (below : Below (started s id o) t) (wf : Memory.wf w.mem = true)
    (mem : t.mem = Memory.writeN w.mem key (bytesOf o.size (newValue o x w key)))
    (old : o.isAtom = true → v = BitVec.ofNat 64 (w.rd key o.size)) : Performed id s c o x w key := by
  have r := h.ready
  obtain ⟨q, hq⟩ := r.ctx
  have ctx : t.ctx id = some { c with memq := [q] } := (below.toUnder.ctx id).trans hq
  generalize ho : { (launched o).gives x v with lanes := [] } = o1 at *
  have isAtom : o1.isAtom = o.isAtom := by
    rw [← ho]; unfold MemOp.gives; split <;> rfl
  have fields : o1.replay = none ∧ o1.toks = [] ∧ o1.uid = o.uid ∧ o1.mask = o.mask ∧ o1.unit = o.unit := by
    rw [← ho]; unfold MemOp.gives; split <;> exact ⟨h.replay, h.toks, rfl, rfl, rfl⟩
  obtain ⟨replay, toks, uid, mask, unit⟩ := fields
  have closes := h.closes ctx rfl rfl ((below.folds id.fold).trans (r.folds id.fold)) replay
  have sfb : o1.isAtom = true → (c.sfb ++ c.sfbWait).any (fun e => e.op.uid == o1.uid) = false := fun _ => uid ▸ h.sfb
  have done := h.exec_eq run
  rw [ho] at done
  refine ⟨_, done, rd_writeN wf ((closes.mem sfb).trans mem), fun a ha => ?_, fun w rising => ?_, fun w => ?_⟩
  · rw [closes.mem sfb, mem]
    exact read_writeN_outside wf ha
  · exact closes.gone sfb w (below.ctxs ▸ r.rising rising)
  · obtain ⟨-, hmemq, -, hg, hs, hk, hpc⟩ := closeMem_fields (c := emptied { c with memq := [q] }) replay
    rw [closes.goes_on sfb w]
    refine ⟨_, State.ctx_setCtx_same .., hmemq, fun atom last full lane live => ?_, hg, hs, hk, hpc⟩
    refine closeMem_fills (isAtom.trans atom) replay toks ?_ (unit.trans (isAtom_unit atom))
      (last.trans uid.symm) full lane (mask ▸ live)
    rw [← ho, ← old atom]
    unfold MemOp.gives
    rw [if_pos (by rw [show (launched o).isAtom = true from atom, Bool.or_true])]
    simp [launched, h.res, Tbl.put]

end

end Sys2Proof.Machine.Alone
end

section
/-! SUPPORT for O31. The lane of a move that stands alone, by what its checks find (R449). -/
namespace Sys2Proof.Machine.Alone
open Sys2Proof.Machine.Beneath

/-! ## Memory stays canonical -/

theorem recallAll_wr_wf {s : State} (h : Memory.wf s.mem = true) (a n v k : Nat) :
    Memory.wf ((s.recallAll a k).wr a n v).mem = true := by
  refine State.wr_memOk _ _ _ _ ?_
  rw [(recallAll_quiet ..).mem]
  exact h

theorem applyAD_wf {s : State} (h : Memory.wf s.mem = true) (t : Trans) : Memory.wf (s.applyAD t).mem = true := by
  unfold State.applyAD
  split
  · exact recallAll_wr_wf h ..
  · exact h

theorem walkTo_wf {s : State} (h : Memory.wf s.mem = true) (d asid : Nat) (a : W64) (k : AccKind) (u : Bool) :
    Memory.wf (s.walkTo d asid a k u).1.mem = true := by
  unfold State.walkTo
  split
  · exact h
  · exact applyAD_wf h _

theorem putAt_wf {s : State} (h : Memory.wf s.mem = true) (p : Place) (bs : List Byte) :
    Memory.wf (s.putAt p bs).mem = true := by
  unfold State.putAt
  split
  · rw [(askRemote_quiet ..).mem]
    exact h
  · refine Memory.writeN_wf _ _ _ ?_
    rw [(recallAll_quiet ..).mem]
    exact h

theorem shadowStore_wf {s t : State} (h : Memory.wf s.mem = true) {d a : Nat} {bs : List Byte}
    (e : s.shadowStore d a bs = some t) : Memory.wf t.mem = true := by
  unfold State.shadowStore at e
  split at e
  · cases e
  · cases e
    exact putAt_wf (applyAD_wf h _) ..

theorem postMig_wf {s : State} (h : Memory.wf s.mem = true) (d f asid pg sz mt : Nat) :
    Memory.wf (s.postMig d f asid pg sz mt).mem = true := by
  rw [postMig_mem]
  split
  · exact h
  · dsimp only
    split
    · exact h
    · generalize e : s.shadowStore d _ _ = r
      cases r with
      | none => exact h
      | some t => exact shadowStore_wf h e

theorem countAccess_wf {s : State} (h : Memory.wf s.mem = true) (f asid : Nat) (t : Trans) (n : Nat) :
    Memory.wf (s.countAccess f asid t n).mem = true := by
  cases e : counted (s.die (dieOf f)) asid t n with
  | none => rw [countAccess_of_none e]; exact h
  | some r =>
    obtain ⟨hit, cs⟩ := r
    rw [countAccess_of_some e]
    cases hit
    · exact h
    · rw [if_pos rfl]
      refine postMig_wf ?_ ..
      exact h

/-! ## Watchpoints -/

theorem watchHit_none {f : Fold} (h : f.watch = []) (sp as : Nat) (fl : W32) (cf : Bool) (lo hi : Nat) (rd wr : Bool) :
    (f.watchHit sp as fl cf lo hi rd wr).user = false ∧ (f.watchHit sp as fl cf lo hi rd wr).shadow = false := by
  unfold Fold.watchHit
  rw [h]
  exact ⟨rfl, rfl⟩

/-- Where the fold has no watchpoint, none reports. -/
theorem report_seen {s t : State} {id : CtxId} (h : (s.fold id.fold).watch = []) (c : Ctx) (o o' : MemOp) (x : MemLane) :
    t.report id o' x (s.seen id c o x) = t := by
  have quiet : (s.seen id c o x).user = false ∧ (s.seen id c o x).shadow = false := by
    unfold State.seen
    split
    · exact ⟨rfl, rfl⟩
    · exact watchHit_none h ..
  unfold State.report
  simp [quiet.1, quiet.2]

/-! ## What stands before the lane -/

section
variable {id : CtxId} {s u : State} {c : Ctx} {o : MemOp} {x : MemLane} {q : List MemOp}

theorem Ready.watch (r : Ready id s c o u) (h : Lone id s c o x) : (u.fold id.fold).watch = [] :=
  (congrArg Fold.watch (r.folds id.fold)).trans h.watch

theorem Ready.unread (r : Ready id s c o u) (h : Lone id s c o x) : (u.fold id.fold).unread o.locks = false :=
  (congrArg (fun f : Fold => f.unread o.locks) (r.folds id.fold)).trans h.unread

theorem Ready.heldBefore (r : Ready id s c o u) (h : Lone id s c o x) (d : Ctx) (hd : d.tid = c.tid) (p : MemOp) :
    u.heldBefore id d p = false := by
  have held := congrArg Fold.held (r.folds id.fold)
  unfold State.heldBefore
  rw [show (u.fold id.fold).held = (s.fold id.fold).held from held, List.any_eq_false, hd]
  intro y hy e
  exact List.any_eq_false.mp h.held y hy (Bool.and_eq_true_iff.mp e).1

/-- The walk of the lane does to memory what it would have done before. -/
theorem Ready.walked (r : Ready id s c o u) (k : Check) :
    Alike (s.walked id c o x k) (u.walked id { c with memq := q } (launched o) x k) := by
  have walked : ∀ b : Bool, Alike (if b then s else (s.walkTo (dieOf id.fold) c.asid x.addr o.kind (decide (c.asid < 256))).1)
      (if b then u else (u.walkTo (dieOf id.fold) c.asid x.addr o.kind (decide (c.asid < 256))).1) := fun b => by
    cases b
    · exact r.alike.walkTo ..
    · exact r.alike
  exact walked _

theorem walked_wf {s : State} (h : Memory.wf s.mem = true) (k : Check) : Memory.wf (s.walked id c o x k).mem = true := by
  have walked : ∀ b : Bool, Memory.wf (if b then s
      else (s.walkTo (dieOf id.fold) c.asid x.addr o.kind (decide (c.asid < 256))).1).mem = true := fun b => by
    cases b
    · exact walkTo_wf h ..
    · exact h
  exact walked _

/-- A lane that its own moves or its fold's buffer stop does not walk. -/
theorem walked_of_early {s : State} {k k' : Check} (h : State.early c o x = some k') : s.walked id c o x k = s := by
  unfold State.walked
  dsimp only
  rw [h, if_pos (by simp)]

/-- A lane joins an entry of the store fault buffer before it is translated (R449). -/
theorem early_of_join {s : State} (h : s.check id c o x = .join) : State.early c o x = some .join := by
  unfold State.check at h
  split at h
  · rename_i k e
    rw [e, h]
  · split at h
    · unfold State.checkGlobal at h
      split at h
      · cases h
      · dsimp only at h
        generalize (if o.isPf then _ else _ : Bool) = locked at h
        repeat' split at h
        all_goals cases h
    · dsimp only at h
      split at h <;> cases h

end

section
variable {id : CtxId} {s : State} {c : Ctx} {o : MemOp} {x : MemLane}

/-- The lane is performed as its checks say: what `State.runLane` comes to once nothing stands before it. -/
theorem Lone.lane (h : Lone id s c o x) (q : MemOp) :
    ¬((x.win.isSome && ((started s id o).fold id.fold).unread (launched o).locks) = true) ∧
      ¬((opRelease (launched o).unit (launched o).opcode.toNat &&
        (started s id o).heldBefore id { c with memq := [q] } (launched o)) = true) := by
  have r := h.ready
  rw [show ((started s id o).fold id.fold).unread (launched o).locks = false from r.unread h,
    r.heldBefore h { c with memq := [q] } rfl]
  simp

theorem Lone.runLane_fault (h : Lone id s c o x) {q : MemOp} (hq : (started s id o).ctx id = some { c with memq := [q] })
    {e : BitVec 7} (k : s.check id c o x = .fault e) : (started s id o).runLane id (launched o) x none =
      some (((started s id o).walked id { c with memq := [q] } (launched o) x (.fault e)).laneFault id (launched o) x e) := by
  obtain ⟨n1, n2⟩ := h.lane q
  unfold State.runLane
  rw [hq]
  dsimp only
  rw [if_neg n1, if_neg n2, h.ready.check, k]
  dsimp only
  rw [report_seen (h.ready.watch h), ite_self]

theorem Lone.runLane_join (h : Lone id s c o x) {q : MemOp} (hq : (started s id o).ctx id = some { c with memq := [q] })
    (k : s.check id c o x = .join) : (started s id o).runLane id (launched o) x none =
      some ((started s id o).modCtx id (fun c => c.sfbAdd (launched o) x 0), launched o) := by
  obtain ⟨n1, n2⟩ := h.lane q
  have early : State.early { c with memq := [q] } (launched o) x = some .join := early_of_join k
  unfold State.runLane
  rw [hq]
  dsimp only
  rw [if_neg n1, if_neg n2, h.ready.check, k, walked_of_early early]

theorem Lone.runLane_window (h : Lone id s c o x) {q : MemOp}
    (hq : (started s id o).ctx id = some { c with memq := [q] }) {f off : Nat} (k : s.check id c o x = .window f off)
    (free : (started s id o).maintHeld (launched o) f off = false) :
    (started s id o).runLane id (launched o) x none = some ((started s id o).laneWindow id (launched o) x f off) := by
  obtain ⟨n1, n2⟩ := h.lane q
  unfold State.runLane
  rw [hq]
  dsimp only
  rw [if_neg n1, if_neg n2, h.ready.check, k]
  dsimp only
  rw [free, if_neg Bool.false_ne_true]

/-! ## Places -/

theorem eccHit_congr {s u : State} (h : u.dies = s.dies) (p : Place) (n : Nat) : u.eccHit p n = s.eccHit p n := by
  unfold State.eccHit State.die
  rw [h]

/-- A store, red, atomic or maintenance operation crosses to another die alike, whatever L1 holds: L1 serves a store of
the request type `.own` alone (R219). -/
theorem Lone.atHome (h : Lone id s c o x) (u : State) (tid p : Nat) (wblk : Bool) :
    u.atHome id.fold tid (launched o) x p ((launched o).rtAt p wblk) = s.atHome id.fold tid o x p (o.rtAt p wblk) := by
  have serves : o.isMaint = false → ∀ f : Fold, f.serves tid o p (o.rtAt p wblk) = false := fun plain f => by
    have rt : o.unit = U.st → (o.rtAt p wblk == 0) = false := fun e => by
      rcases h.shared e with k | k
      · rw [plain] at k; cases k
      · simp [MemOp.rtAt, k]
    unfold Fold.serves
    rw [h.isLoadUnit]
    split
    · rfl
    · dsimp only
      rcases h.unit with e | e
      · simp [rt e]
      · rw [if_pos (.inl e)]
  have crosses : u.crosses id.fold tid (launched o) p ((launched o).rtAt p wblk) =
      s.crosses id.fold tid o p (o.rtAt p wblk) := by
    show u.crosses id.fold tid o p (o.rtAt p wblk) = _
    unfold State.crosses
    cases plain : o.isMaint
    · rw [serves plain, serves plain]
    · simp
  unfold State.atHome
  rw [crosses]

theorem Lone.runLane_place (h : Lone id s c o x) {q : MemOp} (hq : (started s id o).ctx id = some { c with memq := [q] })
    {tr : Trans} {p : Nat} (k : s.check id c o x = .place tr) (place : tr.place = .pkg p)
    (free : o.isMaint = true ∨ s.behindHeld id c o x = false) (ecc : s.eccHit tr.place o.size = false)
    (home : s.atHome id.fold c.tid o x p (o.rtAt p (tr.pte.getLsbD 63)) = true) :
    (started s id o).runLane id (launched o) x none = some
      (((started s id o).walked id { c with memq := [q] } (launched o) x (.place tr)).lanePlace id
        { c with memq := [q] } (launched o) x tr p) := by
  obtain ⟨n1, n2⟩ := h.lane q
  have held := congrArg Fold.held (h.ready.folds id.fold)
  have behind : (!(launched o).isMaint && !(launched o).isPf &&
      (started s id o).behindHeld id { c with memq := [q] } (launched o) x) = false := by
    rcases free with e | e
    · simp [show (launched o).isMaint = true from e]
    · have same : (started s id o).behindHeld id { c with memq := [q] } (launched o) x = s.behindHeld id c o x := by
        unfold State.behindHeld
        rw [show ((started s id o).fold id.fold).held = (s.fold id.fold).held from held]
        rfl
      rw [same, e, Bool.and_false]
  have ecc' : (started s id o).eccHit tr.place (launched o).size = false := (eccHit_congr h.ready.dies ..).trans ecc
  have home' := (h.atHome (started s id o) c.tid p (tr.pte.getLsbD 63)).trans home
  unfold State.runLane
  rw [hq]
  dsimp only
  rw [if_neg n1, if_neg n2, h.ready.check, k]
  dsimp only
  rw [behind, Bool.false_and, if_neg Bool.false_ne_true, if_neg Bool.false_ne_true, ecc', if_neg Bool.false_ne_true, place]
  dsimp only
  rw [home', if_pos rfl]

end

end Sys2Proof.Machine.Alone
end

section
/-! SUPPORT for O31. Stores, reds and atomics on scratchpad and package bytes (R134, R136, R211, R225), and the moves that
a fault or the store fault buffer stops (R141, R362). -/
namespace Sys2Proof.Machine.Alone
open Sys2Proof.Machine.Beneath Sys2Proof.Machine.Sequential

section
variable {id : CtxId} {s : State} {c : Ctx} {o : MemOp} {x : MemLane}

/-- What a store, red or atomic does to memory, and what a returning atomic answers (R134, R136). -/
theorem Lone.accessAt (h : Lone id s c o x) (u : State) (key : Nat) :
    (u.accessAt (launched o) x key).1 = u.wr key o.size (newValue o x u key) ∧
      (o.isAtom = true → (u.accessAt (launched o) x key).2 = BitVec.ofNat 64 (u.rd key o.size)) := by
  unfold State.accessAt newValue
  rw [show (launched o).isLoadUnit = false from h.isLoadUnit, if_neg Bool.false_ne_true]
  by_cases e : o.unit = U.st
  · rw [show (launched o).unit = U.st from e, if_pos rfl, if_pos e]
    refine ⟨rfl, fun atom => ?_⟩
    rw [isAtom_unit atom] at e
    cases e
  · rw [if_neg (show ¬(launched o).unit = U.st from e), if_neg e]
    exact ⟨rfl, fun _ => rfl⟩

theorem blockAt_congr {s u : State} (h : u.gangs = s.gangs) (f off : Nat) : u.blockAt f off = s.blockAt f off := by
  unfold State.blockAt
  rw [h]

/-! ## Scratchpad bytes -/

theorem Lone.performed_window (h : Lone id s c o x) (wf : Memory.wf s.mem = true) (plain : o.isMaint = false) {f off : Nat}
    (k : s.check id c o x = .window f off) (free : s.Unmapped) : Performed id s c o x s (Memory.spmKey f off) := by
  have r := h.ready
  obtain ⟨q, hq⟩ := r.ctx
  have idle : (started s id o).maintHeld (launched o) f off = false := by
    unfold State.maintHeld
    rw [show (launched o).isMaint = false from plain]
    rfl
  have touched : (started s id o).touchWindow f off (launched o).size (launched o).kind = (started s id o, none) := by
    unfold State.touchWindow
    split
    · rfl
    · rename_i e
      rw [free _ _ _ _ _ _ ((blockAt_congr r.gangs f off).symm.trans e)]
  have run := h.runLane_window hq k idle
  unfold State.laneWindow at run
  rw [show (launched o).isMaint = false from plain, if_neg Bool.false_ne_true, touched] at run
  dsimp only at run
  rw [if_neg Bool.false_ne_true] at run
  obtain ⟨stored, old⟩ := h.accessAt (started s id o) (Memory.spmKey f off)
  have rd : (started s id o).rd (Memory.spmKey f off) o.size = s.rd (Memory.spmKey f off) o.size := h.ready.alike.rd ..
  have new : newValue o x (started s id o) (Memory.spmKey f off) = newValue o x s (Memory.spmKey f off) := by
    unfold newValue
    rw [rd]
  refine h.performed run ?_ wf ?_ fun atom => (old atom).trans (by rw [rd])
  · rw [stored]
    exact below_wr ..
  · rw [stored, new, State.wr_mem, r.mem]

/-! ## Package bytes -/

theorem accessGlobal_answer {u : State} {f tid : Nat} {o : MemOp} {x : MemLane} {key rt : Nat}
    (h : o.isLoadUnit = false) : (u.accessGlobal f tid o x key rt).2 = (u.accessAt o x key).2 := by
  unfold State.accessGlobal
  dsimp only
  rw [h, if_neg Bool.false_ne_true]

/-- A state in which a lane of a package byte reads or writes is alike whether what precedes the lane was done or not. -/
theorem Lone.reached (h : Lone id s c o x) {q : MemOp} {tr : Trans} {p : Nat} {v : State}
    (hv : v = if (launched o).rtAt p (tr.pte.getLsbD 63) = 3
      then (started s id o).walked id { c with memq := [q] } (launched o) x (.place tr)
      else ((started s id o).walked id { c with memq := [q] } (launched o) x (.place tr)).useLeaf id.fold c.asid tr) :
    (v.countAccess id.fold c.asid tr 1).mem = (s.reached id c o x tr p).mem := by
  have walked : Alike (s.walked id c o x (.place tr))
      ((started s id o).walked id { c with memq := [q] } (launched o) x (.place tr)) := h.ready.walked _
  have used : Alike (if o.rtAt p (tr.pte.getLsbD 63) = 3 then s.walked id c o x (.place tr)
      else (s.walked id c o x (.place tr)).useLeaf id.fold c.asid tr) v := by
    rw [hv]
    by_cases e : o.rtAt p (tr.pte.getLsbD 63) = 3
    · rw [if_pos e, if_pos (show (launched o).rtAt p (tr.pte.getLsbD 63) = 3 from e)]
      exact walked
    · rw [if_neg e, if_neg (show ¬(launched o).rtAt p (tr.pte.getLsbD 63) = 3 from e)]
      exact ((useLeaf_alike ..).symm.trans walked).trans (useLeaf_alike ..)
  have watch : ∀ {w : State}, Below s w → (w.fold id.fold).watch = [] := fun b =>
    (congrArg Fold.watch (b.folds id.fold)).trans h.watch
  have below : Below s (if o.rtAt p (tr.pte.getLsbD 63) = 3 then s.walked id c o x (.place tr)
      else (s.walked id c o x (.place tr)).useLeaf id.fold c.asid tr) := by
    split
    · exact walked_below ..
    · exact (walked_below ..).trans (useLeaf_quiet ..).toBelow
  unfold State.reached
  dsimp only
  rw [report_seen (watch below)]
  exact used.countAccess ..

theorem reached_wf {s : State} (wf : Memory.wf s.mem = true) (tr : Trans) (p : Nat) :
    Memory.wf (s.reached id c o x tr p).mem = true := by
  unfold State.reached
  refine countAccess_wf ?_ ..
  have told : ∀ (w : State) (e : WatchHit), (w.report id o x e).mem = w.mem := fun w e => by
    unfold State.report
    dsimp only
    split
    · rw [State.modCtx_mem]
      split
      · exact State.modCtx_mem ..
      · rfl
    · split
      · exact State.modCtx_mem ..
      · rfl
  rw [told]
  split
  · exact walked_wf wf _
  · rw [(useLeaf_quiet ..).mem]
    exact walked_wf wf _

theorem Lone.performed_place (h : Lone id s c o x) (wf : Memory.wf s.mem = true) (plain : o.isMaint = false)
    {tr : Trans} {p : Nat} (at_ : s.At id c o x tr p) (off : ringSize (s.die (dieOf id.fold)).dlogCtl 8 20 = none) :
    Performed id s c o x (s.reached id c o x tr p) p := by
  obtain ⟨k, place, behind, ecc, home⟩ := at_
  have r := h.ready
  obtain ⟨q, hq⟩ := r.ctx
  have run := h.runLane_place hq k place (.inr behind) ecc home
  unfold State.lanePlace at run
  dsimp only at run
  generalize hv : (if (launched o).rtAt p (tr.pte.getLsbD 63) = 3
      then (started s id o).walked id { c with memq := [q] } (launched o) x (.place tr)
      else ((started s id o).walked id { c with memq := [q] } (launched o) x (.place tr)).useLeaf id.fold c.asid tr) = v
    at run
  have mem := h.reached hv.symm
  have below : Below (started s id o) v := by
    rw [← hv]
    split
    · exact walked_below ..
    · exact (walked_below ..).trans (useLeaf_quiet ..).toBelow
  have watch : (v.fold id.fold).watch = [] := (congrArg Fold.watch (below.folds id.fold)).trans (r.watch h)
  rw [show (launched o).isPf = false from h.isPf, if_neg Bool.false_ne_true, report_seen watch,
    show (launched o).isMaint = false from plain, if_neg Bool.false_ne_true] at run
  obtain ⟨below', mem'⟩ := accessGlobal_mem (v.countAccess id.fold c.asid tr 1) id.fold c.tid (launched o) x p
    ((launched o).rtAt p (tr.pte.getLsbD 63))
  have answer := accessGlobal_answer (u := v.countAccess id.fold c.asid tr 1) (f := id.fold) (tid := c.tid) (x := x)
    (key := p) (rt := (launched o).rtAt p (tr.pte.getLsbD 63)) (show (launched o).isLoadUnit = false from h.isLoadUnit)
  have all := (below.trans (countAccess_below ..)).trans below'
  have logOff : ringSize (((v.countAccess id.fold c.asid tr 1).accessGlobal id.fold c.tid (launched o) x p
      ((launched o).rtAt p (tr.pte.getLsbD 63))).1.die (dieOf id.fold)).dlogCtl 8 20 = none := by
    rw [all.dlogCtl, State.die, r.dies]
    exact off
  rw [logWrite_off logOff, ite_self] at run
  obtain ⟨stored, old⟩ := h.accessAt (v.countAccess id.fold c.asid tr 1) p
  have rd : (v.countAccess id.fold c.asid tr 1).rd p o.size = (s.reached id c o x tr p).rd p o.size := by
    rw [State.rd, mem, State.rd]
  have new : newValue o x (v.countAccess id.fold c.asid tr 1) p = newValue o x (s.reached id c o x tr p) p := by
    unfold newValue
    rw [rd]
  refine h.performed run all (reached_wf wf ..) ?_ fun atom => (answer.trans (old atom)).trans (by rw [rd])
  rw [mem', stored, new, State.wr_mem, mem]

end

end Sys2Proof.Machine.Alone
end

section
/-! SUPPORT for O31. Moves that a fault or the store fault buffer stops (R141, R361, R362). -/
namespace Sys2Proof.Machine.Alone
open Sys2Proof.Machine.Beneath Sys2Proof.Machine.Sequential

/-! ## The store fault buffer -/

/-- The entry that a lane of a move opens. -/
def entry (o : MemOp) (x : MemLane) (cause : BitVec 7) : SfbEntry :=
  { cause := cause, op := { o with lanes := [{ x with trip := .here }], res := [], toks := [] } }

/-- The entries of a move take what another part of it found. -/
def joined (o : MemOp) (l : List SfbEntry) : List SfbEntry :=
  l.map (fun e => if e.op.uid == o.uid then { e with op := e.op.absorb o } else e)

theorem joined_others {o : MemOp} {l : List SfbEntry} (h : l.any (fun e => e.op.uid == o.uid) = false) : joined o l = l := by
  refine List.map_congr_left (g := id) (fun e he => if_neg (List.any_eq_false.mp h e he)) |>.trans (List.map_id l)

theorem sfbAdd_new {c : Ctx} {o : MemOp} (x : MemLane) (cause : BitVec 7)
    (h : (c.sfb ++ c.sfbWait).any (fun q => q.op.uid == o.uid) = false) (room : c.sfb.length < 16) :
    ∃ d, c.sfbAdd o x cause = { c with sfb := c.sfb ++ [entry o x cause], due := d } := by
  have mine : ∀ l : List SfbEntry, l.any (fun q => q.op.uid == o.uid) = false →
      l.any (fun e => e.op.uid == o.uid && e.op.bundle == o.bundle && e.op.cycle == o.cycle) = false := fun l none => by
    refine List.any_eq_false.mpr fun e he hit => List.any_eq_false.mp none e he ?_
    exact (Bool.and_eq_true_iff.mp (Bool.and_eq_true_iff.mp hit).1).1
  rw [List.any_append, Bool.or_eq_false_iff] at h
  unfold Ctx.sfbAdd
  dsimp only
  rw [mine _ h.1, if_neg Bool.false_ne_true, mine _ h.2, if_neg Bool.false_ne_true, if_neg (by omega)]
  split
  · exact ⟨_, rfl⟩
  · exact ⟨_, rfl⟩

section
variable {id : CtxId} {t : State} {c : Ctx} {o : MemOp}

/-- A returning atomic whose lane waits in the store fault buffer gives its entry what it found, and closes nothing. -/
theorem Closes.joins (h : Closes id t c o) (atom : o.isAtom = true)
    (sfb : (c.sfb ++ c.sfbWait).any (fun e => e.op.uid == o.uid) = true) (w : c.wait ≠ .exiting) :
    closed t id o = (t.setCtx id (emptied c)).setCtx id { emptied c with
      sfb := joined o c.sfb, sfbWait := joined o c.sfbWait, wait := c.wake } := by
  have op : (t.setCtx id (emptied c)).closeOp id o = (t.setCtx id (emptied c)).setCtx id { emptied c with
      sfb := joined o c.sfb, sfbWait := joined o c.sfbWait, wait := c.wake } := by
    unfold State.closeOp
    rw [State.ctx_setCtx_same]
    dsimp only
    rw [if_neg (by simp [emptied])]
    rw [if_neg, if_pos]
    · rfl
    · exact Bool.and_eq_true_iff.mpr ⟨atom, sfb⟩
    · intro e
      exact absurd ((Bool.and_eq_true_iff.mp e).2.symm.trans h.notHeld) (by decide)
  unfold closed
  rw [h.drop, op]
  exact exitIfDone_of_wait (State.ctx_setCtx_same ..) fun e => w ((wake_exiting c).mp e)

end

section
variable {id : CtxId} {s : State} {c : Ctx} {o : MemOp} {x : MemLane}

/-- The lane has left its move for the store fault buffer in a state that is else as the lane found it. -/
theorem Lone.buffered (h : Lone id s c o x) {w : State} {e : BitVec 7} (below : Below (started s id o) w)
    (run : (started s id o).runLane id (launched o) x none =
      some (w.modCtx id (fun c => c.sfbAdd (launched o) x e), launched o))
    (go : c.wait ≠ .exiting) (room : c.sfb.length < 16) :
    ∃ t c' q, exec (performing id o) s = .next t ∧ t.ctx id = some c' ∧ c'.memq = [] ∧ c'.sfb = c.sfb ++ [q] ∧
      q.cause = e ∧ q.op.lanes = [{ x with trip := .here }] ∧
      (c'.us.unit U.at_).full = (c.us.unit U.at_).full ∧ t.mem = w.mem := by
  obtain ⟨q, hq⟩ := h.ready.ctx
  have found : w.ctx id = some { c with memq := [q] } := (below.toUnder.ctx id).trans hq
  obtain ⟨d, added⟩ := sfbAdd_new (c := { c with memq := [q] }) (o := launched o) x e h.sfb room
  rw [State.modCtx_eq found, added] at run
  have done := h.exec_eq run
  generalize ho : { launched o with lanes := [] } = o1 at done
  have isAtom : o1.isAtom = o.isAtom := by rw [← ho]; rfl
  have uid : o1.uid = o.uid := by rw [← ho]; rfl
  have replay : o1.replay = none := by rw [← ho]; exact h.replay
  have closes := h.closes (d := { c with memq := [q], sfb := c.sfb ++ [entry (launched o) x e], due := d })
    (State.ctx_setCtx_same w id _) rfl rfl
    ((below.folds id.fold).trans (h.ready.folds id.fold)) replay
  have others := h.sfb
  rw [List.any_append, Bool.or_eq_false_iff] at others
  cases atom : o.isAtom
  · have plain : o1.isAtom = true → (c.sfb ++ [entry (launched o) x e] ++ c.sfbWait).any
        (fun q => q.op.uid == o1.uid) = false := fun y => by rw [isAtom, atom] at y; cases y
    have kept : ∀ d : Ctx, d.closeMem o1 = { d with wait := d.wake } := fun d => by
      rw [closeMem_eq replay, isAtom, atom, show o1.isLoad = false by rw [← ho]; exact h.isLoad]
      rfl
    rw [closes.goes_on plain go, kept] at done
    exact ⟨_, _, entry (launched o) x e, done, State.ctx_setCtx_same .., rfl, rfl, rfl, rfl, rfl, rfl⟩
  · have own : (c.sfb ++ [entry (launched o) x e] ++ c.sfbWait).any (fun q => q.op.uid == o1.uid) = true := by
      simp [uid, entry, launched]
    rw [closes.joins (isAtom.trans atom) own go] at done
    refine ⟨_, _, { entry (launched o) x e with op := (entry (launched o) x e).op.absorb o1 }, done,
      State.ctx_setCtx_same .., rfl, ?_, rfl, rfl, rfl, rfl⟩
    show joined o1 (c.sfb ++ [entry (launched o) x e]) = _
    unfold joined
    rw [List.map_append, ← joined, joined_others (by rw [uid]; exact others.1), List.map_singleton]
    rw [if_pos (by rw [uid]; simp [entry, launched])]

/-- A store or red whose checks find a fault is the newest entry of the store fault buffer (R141, R362). -/
theorem Lone.faults_store (h : Lone id s c o x) {e : BitVec 7} (k : s.check id c o x = .fault e) (store : o.isAtom = false)
    (go : c.wait ≠ .exiting) (room : c.sfb.length < 16) :
    ∃ t c' q, exec (performing id o) s = .next t ∧ t.ctx id = some c' ∧ c'.memq = [] ∧ c'.sfb = c.sfb ++ [q] ∧
      q.cause = e ∧ q.op.lanes = [{ x with trip := .here }] ∧
      ∀ a, Memory.read t.mem a = Memory.read (s.walked id c o x (.fault e)).mem a := by
  obtain ⟨q, hq⟩ := h.ready.ctx
  have run := h.runLane_fault hq k
  unfold State.laneFault at run
  rw [show (launched o).isPf = false from h.isPf, if_neg Bool.false_ne_true, show (launched o).isLoad = false from h.isLoad,
    show (launched o).isAtom = false from store, Bool.or_false, if_neg Bool.false_ne_true] at run
  obtain ⟨t, c', y, done, ctx, memq, sfb, cause, lanes, -, mem⟩ := h.buffered (walked_below ..) run go room
  refine ⟨t, c', y, done, ctx, memq, sfb, cause, lanes, fun a => ?_⟩
  rw [mem, (h.ready.walked (q := [q]) (x := x) (.fault e)).mem]

/-- A store, red or atomic that touches an entry of the store fault buffer is its newest entry (R362). -/
theorem Lone.joins_buffer (h : Lone id s c o x) (k : s.check id c o x = .join) (go : c.wait ≠ .exiting)
    (room : c.sfb.length < 16) :
    ∃ t c' q, exec (performing id o) s = .next t ∧ t.ctx id = some c' ∧ c'.memq = [] ∧ c'.sfb = c.sfb ++ [q] ∧
      q.cause = 0 ∧ q.op.lanes = [{ x with trip := .here }] ∧
      (c'.us.unit U.at_).full = (c.us.unit U.at_).full ∧ ∀ a, Memory.read t.mem a = Memory.read s.mem a := by
  obtain ⟨q, hq⟩ := h.ready.ctx
  obtain ⟨t, c', y, done, ctx, memq, sfb, cause, lanes, full, mem⟩ :=
    h.buffered (.refl _) (h.runLane_join hq k) go room
  exact ⟨t, c', y, done, ctx, memq, sfb, cause, lanes, full, fun a => by rw [mem, h.ready.mem]⟩

/-- A returning atomic whose one lane holds a token fills R with it (R141, R360, R361). -/
theorem closeMem_token {c : Ctx} {o : MemOp} {l : Nat} {e : BitVec 7} {a : W64} (atom : o.isAtom = true)
    (replay : o.replay = none) (toks : o.toks = [(l, e, a)]) (last : (c.us.unit U.at_).last = o.uid)
    (full : (c.us.unit U.at_).full = false) (frec : (c.us.unit U.at_).frec.isSome = true) :
    (c.closeMem o).RToken U.at_ (BitVec.ofNat 1024 (2 ^ l)) e ∧
      (o.acquires = true → ∃ d ∈ (c.closeMem o).due, d.code = 0x10 ∧ d.sub = e) := by
  obtain ⟨r, hr⟩ := Option.isSome_iff_exists.mp frec
  have unit := isAtom_unit atom
  have found : { c with wait := c.wake }.recOf o.unit o.uid = some r := by
    unfold Ctx.recOf
    rw [unit]
    exact (if_pos last).trans hr
  have cause : (r.with o.toks).cause = e := by rw [toks]; rfl
  have lanes : (r.with o.toks).lanes = BitVec.ofNat 1024 (2 ^ l) := by
    rw [toks]
    exact BitVec.zero_or
  have some_toks : o.toks.isEmpty = false := by rw [toks]; rfl
  have filled : (c.closeMem o) = if o.acquires then
      ({ c with wait := c.wake }.finish o.unit o.uid o.mask (fun l => Tbl.get o.res l 0) (some (r.with o.toks))).addDue
        (Ctx.poisoned ({ c with wait := c.wake }.finish o.unit o.uid o.mask (fun l => Tbl.get o.res l 0)
          (some (r.with o.toks))) o.unit (r.with o.toks))
      else { c with wait := c.wake }.finish o.unit o.uid o.mask (fun l => Tbl.get o.res l 0) (some (r.with o.toks)) := by
    rw [closeMem_eq replay, if_pos (by simp [atom])]
    unfold Ctx.finishMem
    rw [some_toks, if_neg Bool.false_ne_true, found]
    rfl
  have us : (c.closeMem o).us = c.us.finish c.nlanes U.at_ o.uid (o.mask &&& c.live) (fun l => Tbl.get o.res l 0)
      (some (r.with o.toks)) := by
    rw [filled, ← unit]
    split <;> rfl
  refine ⟨?_, fun acquires => ?_⟩
  · unfold Ctx.RToken
    rw [us]
    unfold UnitState.finish
    dsimp only
    rw [if_pos ⟨last, full⟩]
    obtain ⟨fl, flags, -⟩ := flagsDone_is (c.us.setUnit U.at_ { c.us.unit U.at_ with
      full := true
      r := Vals.merge c.nlanes ((o.mask &&& c.live) &&& ~~~(r.with o.toks).lanes) (fun l => Tbl.get o.res l 0)
        (c.us.unit U.at_).r
      frec := some (r.with o.toks) }) o.uid
    rw [flags]
    have same := UnitState.unit_setUnit_same c.us U.at_ { c.us.unit U.at_ with
      full := true
      r := Vals.merge c.nlanes ((o.mask &&& c.live) &&& ~~~(r.with o.toks).lanes) (fun l => Tbl.get o.res l 0)
        (c.us.unit U.at_).r
      frec := some (r.with o.toks) }
    exact ⟨congrArg UPorts.full same, _, congrArg UPorts.frec same, cause, lanes⟩
  · rw [filled, if_pos acquires]
    exact ⟨_, List.mem_append_right _ (List.mem_singleton_self _), rfl, cause⟩

/-- A returning atomic whose checks find a fault fills R with a token of it (R141, R360, R361). -/
theorem Lone.faults_atomic (h : Lone id s c o x) {e : BitVec 7} (k : s.check id c o x = .fault e) (atom : o.isAtom = true)
    (go : c.wait ≠ .exiting) (last : (c.us.unit U.at_).last = o.uid) (full : (c.us.unit U.at_).full = false)
    (frec : (c.us.unit U.at_).frec.isSome = true) :
    ∃ t c', exec (performing id o) s = .next t ∧ t.ctx id = some c' ∧ c'.memq = [] ∧ c'.sfb = c.sfb ∧
      c'.RToken U.at_ (BitVec.ofNat 1024 (2 ^ x.lane)) e ∧
      (o.acquires = true → ∃ d ∈ c'.due, d.code = 0x10 ∧ d.sub = e) ∧
      (∀ a, Memory.read t.mem a = Memory.read (s.walked id c o x (.fault e)).mem a) := by
  obtain ⟨q, hq⟩ := h.ready.ctx
  have run := h.runLane_fault hq k
  unfold State.laneFault at run
  rw [show (launched o).isPf = false from h.isPf, if_neg Bool.false_ne_true, show (launched o).isAtom = true from atom,
    Bool.or_true, if_pos rfl, show (launched o).toks = [] from h.toks] at run
  have below : Below (started s id o) ((started s id o).walked id { c with memq := [q] } (launched o) x (.fault e)) :=
    walked_below ..
  have done := h.exec_eq run
  generalize ho : { ({ launched o with toks := [] ++ [(x.lane, e, x.addr)] } : MemOp) with lanes := [] } = o1 at done
  have fields : o1.isAtom = true ∧ o1.uid = o.uid ∧ o1.replay = none ∧ o1.toks = [(x.lane, e, x.addr)] ∧
      o1.acquires = o.acquires := by
    rw [← ho]
    exact ⟨atom, rfl, h.replay, rfl, rfl⟩
  obtain ⟨isAtom, uid, replay, toks, acquires⟩ := fields
  have closes := h.closes (d := { c with memq := [q] }) ((below.toUnder.ctx id).trans hq) rfl rfl
    ((below.folds id.fold).trans (h.ready.folds id.fold)) replay
  rw [closes.goes_on (fun _ => by rw [uid]; exact h.sfb) go] at done
  obtain ⟨-, hmemq, hsfb, -⟩ := closeMem_fields (c := emptied { c with memq := [q] }) replay
  obtain ⟨token, poisons⟩ := closeMem_token (c := emptied { c with memq := [q] }) isAtom replay toks
    (last.trans uid.symm) full frec
  refine ⟨_, _, done, State.ctx_setCtx_same .., hmemq, hsfb, token, fun acq => poisons (acquires.trans acq), fun a => ?_⟩
  exact congrArg (fun m => Memory.read m a) (h.ready.walked (q := [q]) (x := x) (.fault e)).mem

end

end Sys2Proof.Machine.Alone
end

section
/-! SUPPORT for O31. Maintenance operations (R135, R215, R229). -/
namespace Sys2Proof.Machine.Alone
open Sys2Proof.Machine.Beneath Sys2Proof.Machine.Sequential

/-! ## The line of an address -/

theorem homeDie_lineOf (p : Nat) : homeDie (lineOf p) = homeDie p := by
  unfold homeDie lineOf
  split <;> split <;> omega

theorem lineBytes_all (b : Nat) : lineBytes b b (b + 127) = BitVec.allOnes 128 := by
  unfold lineBytes
  rw [if_neg (by omega)]
  simp only [Nat.max_self, Nat.sub_self, Nat.min_self, Nat.add_sub_cancel_left]
  decide

theorem lineWords_all (b : Nat) : lineWords b b (b + 127) = BitVec.allOnes 32 := by
  unfold lineWords
  rw [if_neg (by omega)]
  simp only [Nat.max_self, Nat.sub_self, Nat.min_self, Nat.add_sub_cancel_left]
  decide

/-! ## The range directory -/

theorem mem_of_runs {l : List Nat} {r : Nat × Nat} (h : r ∈ runs l) : ∀ i < r.2, r.1 + i ∈ l := by
  induction l generalizing r with
  | nil => cases h
  | cons x l ih =>
    unfold runs at h
    split at h
    · rename_i y n q e
      have first : ∀ i < n, y + i ∈ l := ih (r := (y, n)) (by rw [e]; exact List.mem_cons_self ..)
      split at h
      · rename_i next
        rcases List.mem_cons.mp h with rfl | h
        · intro i hi
          cases i with
          | zero => exact List.mem_cons_self ..
          | succ i =>
            have := first i (by simpa using hi)
            rw [show x + (i + 1) = y + i from by omega]
            exact List.mem_cons_of_mem _ this
        · exact fun i hi => List.mem_cons_of_mem _ (ih (by rw [e]; exact List.mem_cons_of_mem _ h) i hi)
      · rcases List.mem_cons.mp h with rfl | h
        · intro i hi
          rw [show i = 0 from by simpa using hi]
          exact List.mem_cons_self ..
        · exact fun i hi => List.mem_cons_of_mem _ (ih (e ▸ h) i hi)
    · rw [List.mem_singleton] at h
      subst h
      intro i hi
      rw [show i = 0 from by simpa using hi]
      exact List.mem_cons_self ..

/-- What is left of an entry covers none of the bytes taken from it. -/
theorem covers_without {e y : RangeEnt} {lo hi : Nat} (h : y ∈ e.without lo hi) : y.covers lo hi = false := by
  unfold RangeEnt.without at h
  split at h
  · rename_i line
    split at h
    · cases h
    · rename_i apart
      rw [List.mem_singleton] at h
      subst h
      unfold RangeEnt.covers
      rw [if_pos line]
      exact Bool.eq_false_iff.mpr apart
  · rename_i line
    obtain ⟨r, hr, rfl⟩ := List.mem_map.mp h
    unfold RangeEnt.covers
    rw [if_neg line, List.any_eq_false]
    intro j hj
    have left := (List.mem_filter.mp (mem_of_runs hr j (List.mem_range.mp hj))).2
    have same : ({ e with base := e.base + e.stride * r.1, count := r.2 } : RangeEnt).touches j lo hi =
        e.touches (r.1 + j) lo hi := by
      unfold RangeEnt.touches
      dsimp only
      rw [Nat.mul_add, Nat.add_assoc]
    rw [same]
    simpa using left

/-- A fold that gives bytes up owns none of them (R229). -/
theorem disown_rdir (s : State) (f lo hi : Nat) :
    ∀ e ∈ ((s.disown f lo hi).die (homeDie lo)).rdir, e.owner = f → e.covers lo hi = false := by
  unfold State.disown
  dsimp only
  split
  · rename_i none
    simpa using none
  · have left : ∀ e ∈ (s.die (homeDie lo)).rdir.flatMap (fun e => if e.owner = f then e.without lo hi else [e]),
        e.owner = f → e.covers lo hi = false := by
      intro e he own
      obtain ⟨y, -, hy⟩ := List.mem_flatMap.mp he
      split at hy
      · exact covers_without hy
      · rename_i other
        rw [List.mem_singleton] at hy
        exact absurd (hy ▸ own) other
    split
    · rw [State.die_modDie_same]
      exact left
    · rw [State.die_modFold, State.die_modDie_same]
      exact left

theorem meshSend_folds (s : State) (a b vc f sc : Nat) : (s.meshSend a b vc f sc).folds = s.folds := by
  unfold State.meshSend State.meshForward
  dsimp only
  split
  · rfl
  · split
    · split <;> rfl
    · rfl

/-- Giving bytes up changes which words of a line are owned, and no line's place. -/
theorem disown_bases (s : State) (f lo hi : Nat) :
    ((s.disown f lo hi).fold f).l1.map L1Line.base = (s.fold f).l1.map L1Line.base := by
  have sent : ∀ d g, (((s.meshSend (dieOf f) d 2 f 0).modDie d g).fold f).l1 = (s.fold f).l1 := fun d g => by
    rw [State.fold_modDie, State.fold, meshSend_folds, State.fold]
  unfold State.disown
  dsimp only
  split
  · rfl
  · split
    · rw [sent]
    · rw [State.fold_modFold_same]
      dsimp only
      rw [List.map_map, sent]
      rfl

/-! ## A line of L1 -/

/-- The line of an address, when L1 holds it, is one of its lines; else no line of L1 is it. -/
theorem find_line {l : List L1Line} {b : Nat} (h : l.find? (fun x => x.base == b) = none) : ∀ y ∈ l, y.base ≠ b :=
  fun y hy e => List.find?_eq_none.mp h y hy (by simpa using e)

theorem cleanBytes_line {f : Fold} {b : Nat} : ∀ y ∈ (f.cleanBytes b (b + 127)).l1, y.base = b → y.dirty = 0 := by
  intro y hy e
  obtain ⟨x, -, rfl⟩ := List.mem_map.mp hy
  dsimp only at e ⊢
  rw [e, lineBytes_all, BitVec.not_allOnes]
  exact BitVec.and_zero

theorem dropWords_line {f : Fold} {b : Nat} : ∀ y ∈ (f.dropWords b (b + 127) true).l1, y.base ≠ b := by
  intro y hy e
  obtain ⟨hy, valid⟩ := List.mem_filter.mp hy
  obtain ⟨x, -, rfl⟩ := List.mem_map.mp hy
  have base : x.base = b := e
  have gone : (x.drop (lineWords x.base b (b + 127)) true).valid = 0 := by
    rw [base, lineWords_all]
    show x.valid &&& ~~~BitVec.allOnes 32 = 0
    rw [BitVec.not_allOnes]
    exact BitVec.and_zero
  rw [gone] at valid
  exact absurd valid (by decide)

/-- wb leaves the fold's line clean (R135). -/
theorem maintLine_clean (s : State) (f : Nat) (o : MemOp) (key : Nat) (wb : o.opcode = 0x80) :
    ∀ y ∈ ((s.maintLine f o key).fold f).l1, y.base = lineOf key → y.dirty = 0 := by
  unfold State.maintLine
  dsimp only
  split
  · rename_i none
    rw [if_pos (.inl wb)]
    exact fun y hy e => absurd e (find_line none y hy)
  · rw [if_pos wb, State.fold_modFold_same]
    exact cleanBytes_line

/-- inv and flush leave no line and no ownership of it (R135, R229). -/
theorem maintLine_gone (s : State) (f : Nat) (o : MemOp) (key : Nat) (wb : o.opcode ≠ 0x80) (home : tracked key = true) :
    (∀ y ∈ ((s.maintLine f o key).fold f).l1, y.base ≠ lineOf key) ∧
      ∀ e ∈ ((s.maintLine f o key).die (homeDie key)).rdir, e.owner = f →
        e.covers (lineOf key) (lineOf key + 127) = false := by
  have given : ∀ u : State, ∀ e ∈ ((u.disown f (lineOf key) (lineOf key + 127)).die (homeDie key)).rdir, e.owner = f →
      e.covers (lineOf key) (lineOf key + 127) = false := fun u => by
    rw [← homeDie_lineOf]
    exact disown_rdir u f _ _
  unfold State.maintLine
  dsimp only
  split
  · rename_i none
    rw [if_neg (not_or.mpr ⟨wb, by simp [home]⟩)]
    refine ⟨fun y hy e => ?_, given s⟩
    have base := List.mem_map_of_mem (f := L1Line.base) hy
    rw [disown_bases] at base
    obtain ⟨z, hz, hb⟩ := List.mem_map.mp base
    exact find_line none z hz (hb.trans e)
  · rw [if_neg wb, if_pos home]
    refine ⟨?_, ?_⟩
    · rw [State.fold_modFold_same]
      exact dropWords_line
    · rw [State.die_modFold]
      exact given _

/-! ## The maintenance operation -/

section
variable {id : CtxId} {s : State} {c : Ctx} {o : MemOp} {x : MemLane}

/-- A maintenance operation whose lane has been performed in `v` leaves the queue, and nothing else changes. -/
theorem Lone.clears (h : Lone id s c o x) {v : State} {q : MemOp}
    (run : (started s id o).runLane id (launched o) x none = some (v, launched o))
    (ctx : v.ctx id = some { c with memq := [q] })
    (folds : Beneath.core (v.fold id.fold) = Beneath.core (s.fold id.fold)) (go : c.wait ≠ .exiting) :
    ∃ d e, exec (performing id o) s = .next ((v.setCtx id d).setCtx id e) ∧ e.memq = [] := by
  have done := h.exec_eq run
  generalize ho : { launched o with lanes := [] } = o1 at done
  have replay : o1.replay = none := by rw [← ho]; exact h.replay
  have uid : o1.uid = o.uid := by rw [← ho]; rfl
  have closes := h.closes ctx rfl rfl folds replay
  rw [closes.goes_on (fun _ => by rw [uid]; exact h.sfb) go] at done
  exact ⟨_, _, done, (closeMem_fields (c := emptied { c with memq := [q] }) replay).2.1⟩

/-- On a scratchpad byte that no map covers nothing changes. -/
theorem Lone.maintains_window (h : Lone id s c o x) (st : o.unit = U.st) (maint : o.isMaint = true)
    (go : c.wait ≠ .exiting) {f off : Nat} (k : s.check id c o x = .window f off) (free : s.Unmapped) :
    ∃ t, (∃ c', exec (performing id o) s = .next t ∧ t.ctx id = some c' ∧ c'.memq = []) ∧ t.mem = s.mem ∧
      t.gangs = s.gangs ∧ t.folds = s.folds := by
  have r := h.ready
  obtain ⟨q, hq⟩ := r.ctx
  have unmapped : ∀ {gid g half b}, (started s id o).blockAt f off = some (gid, g, half, b) → g.mapAt half b = none :=
    fun e => free _ _ _ _ _ _ ((blockAt_congr r.gangs f off).symm.trans e)
  have idle : (started s id o).maintHeld (launched o) f off = false := by
    unfold State.maintHeld
    rw [show (launched o).isMaint = true from maint, Bool.true_and]
    split
    · rfl
    · rename_i e
      rw [unmapped e]
  have done : (started s id o).maintWindow (launched o) f off = (started s id o, none) := by
    unfold State.maintWindow
    split
    · rfl
    · rename_i e
      rw [unmapped e]
  have run := h.runLane_window hq k idle
  unfold State.laneWindow at run
  rw [show (launched o).isMaint = true from maint, if_pos rfl, done] at run
  dsimp only at run
  rw [if_pos rfl] at run
  obtain ⟨d, e, ended, memq⟩ := h.clears run hq (r.folds id.fold) go
  exact ⟨_, ⟨e, ended, State.ctx_setCtx_same .., memq⟩, r.mem, r.gangs, r.still (Lone.acquires_st st)⟩

/-- A clean sector of a map is left as it is by wb, and unfilled by inv and flush (R135, R215). -/
theorem Lone.maintains_sector (h : Lone id s c o x) (maint : o.isMaint = true)
    (go : c.wait ≠ .exiting) {f off gid half b : Nat} {g : Gang} {m : SMap} (k : s.check id c o x = .window f off)
    (block : s.blockAt f off = some (gid, g, half, b)) (hg : s.gang gid = some g) (hm : g.mapAt half b = some m)
    (clean : (g.sector half (b / 256)).dirty = 0) :
    ∃ t, (∃ c', exec (performing id o) s = .next t ∧ t.ctx id = some c' ∧ c'.memq = []) ∧ t.mem = s.mem ∧
      (t.gang gid).map (fun h => h.sector half (b / 256)) =
        some (if o.opcode = 0x80 then g.sector half (b / 256) else Sector.fresh) := by
  have r := h.ready
  obtain ⟨q, hq⟩ := r.ctx
  have block' : (started s id o).blockAt f off = some (gid, g, half, b) := (blockAt_congr r.gangs f off).trans block
  have hg' : (started s id o).gang gid = some g := by rw [State.gang, r.gangs]; exact hg
  have idle : (started s id o).maintHeld (launched o) f off = false := by
    unfold State.maintHeld State.sectorHeld
    rw [block']
    dsimp only
    rw [hm]
    dsimp only
    rw [hg']
    dsimp only
    rw [clean]
    simp
  have written : (started s id o).writeBack gid half (b / 256) m = (started s id o, none) := by
    unfold State.writeBack
    rw [hg']
    exact if_pos clean
  have done : (started s id o).maintWindow (launched o) f off = (if o.opcode = 0x80 then started s id o
      else (started s id o).modGang gid (fun g => g.setSector half (b / 256) Sector.fresh), none) := by
    unfold State.maintWindow
    rw [block']
    dsimp only
    rw [hm]
    dsimp only
    rw [written]
    rfl
  have run := h.runLane_window hq k idle
  unfold State.laneWindow at run
  rw [show (launched o).isMaint = true from maint, if_pos rfl, done] at run
  dsimp only at run
  rw [if_pos rfl] at run
  by_cases wb : o.opcode = 0x80
  · rw [if_pos wb] at run
    obtain ⟨d, e, ended, memq⟩ := h.clears run hq (r.folds id.fold) go
    refine ⟨_, ⟨e, ended, State.ctx_setCtx_same .., memq⟩, r.mem, ?_⟩
    rw [if_pos wb]
    exact congrArg (Option.map _) hg'
  · rw [if_neg wb, State.modGang_eq hg'] at run
    obtain ⟨d, e, ended, memq⟩ := h.clears run hq (r.folds id.fold) go
    refine ⟨_, ⟨e, ended, State.ctx_setCtx_same .., memq⟩, r.mem, ?_⟩
    have unfilled := congrArg (Option.map (fun y : Gang => y.sector half (b / 256)))
      (State.gang_setGang_same (started s id o) gid (g.setSector half (b / 256) Sector.fresh))
    rw [if_neg wb]
    refine unfilled.trans (congrArg some ?_)
    unfold Gang.sector Gang.setSector
    exact Tbl.get_put_same ..

/-- At a package byte the fold's line is written back, and left by inv and flush (R135, R229). -/
theorem Lone.maintains_place (h : Lone id s c o x) (maint : o.isMaint = true)
    (go : c.wait ≠ .exiting) {tr : Trans} {p : Nat} (k : s.check id c o x = .place tr) (place : tr.place = .pkg p)
    (home : tracked p = true) (ecc : s.eccHit tr.place o.size = false) :
    ∃ t, (∃ c', exec (performing id o) s = .next t ∧ t.ctx id = some c' ∧ c'.memq = []) ∧
      (∀ a, Memory.read t.mem a = Memory.read (s.walked id c o x (.place tr)).mem a) ∧
      (o.opcode = 0x80 → ∀ y ∈ (t.fold id.fold).l1, y.base = lineOf p → y.dirty = 0) ∧
      (o.opcode ≠ 0x80 → (∀ y ∈ (t.fold id.fold).l1, y.base ≠ lineOf p) ∧
        ∀ e ∈ (t.die (homeDie p)).rdir, e.owner = id.fold → e.covers (lineOf p) (lineOf p + 127) = false) := by
  have r := h.ready
  obtain ⟨q, hq⟩ := r.ctx
  have atHome : s.atHome id.fold c.tid o x p (o.rtAt p (tr.pte.getLsbD 63)) = true := by
    unfold State.atHome State.crosses
    rw [maint]
    simp
  have run := h.runLane_place hq k place (.inl maint) ecc atHome
  have walked := h.ready.walked (q := [q]) (x := x) (.place tr)
  have walkedBelow : Below (started s id o) ((started s id o).walked id { c with memq := [q] } (launched o) x (.place tr)) :=
    walked_below ..
  generalize (started s id o).walked id { c with memq := [q] } (launched o) x (.place tr) = w at run walked walkedBelow
  have used : Quiet w (if (launched o).rtAt p (tr.pte.getLsbD 63) = 3 then w else w.useLeaf id.fold c.asid tr) := by
    split
    · exact .refl w
    · exact useLeaf_quiet ..
  unfold State.lanePlace at run
  dsimp only at run
  generalize (if (launched o).rtAt p (tr.pte.getLsbD 63) = 3 then w else w.useLeaf id.fold c.asid tr) = v at run used
  have watch : (v.fold id.fold).watch = [] := by
    have kept := (used.folds id.fold).trans (walkedBelow.folds id.fold)
    exact (congrArg Fold.watch kept).trans (r.watch h)
  rw [show (launched o).isPf = false from h.isPf, if_neg Bool.false_ne_true, report_seen watch,
    show (launched o).isMaint = true from maint, if_pos rfl] at run
  have line := maintLine_quiet v id.fold (launched o) p
  have below := walkedBelow.trans (used.trans line).toBelow
  obtain ⟨d, e, ended, memq⟩ := h.clears run ((below.toUnder.ctx id).trans hq)
    ((below.folds id.fold).trans (r.folds id.fold)) go
  refine ⟨_, ⟨e, ended, State.ctx_setCtx_same .., memq⟩, fun a => ?_, fun wb => ?_, fun wb => ?_⟩
  · exact congrArg (fun m => Memory.read m a) ((used.trans line).mem.trans walked.mem)
  · exact maintLine_clean v id.fold (launched o) p wb
  · exact maintLine_gone v id.fold (launched o) p wb home

end

end Sys2Proof.Machine.Alone
end

section
/-! SUPPORT for O31. The statement from its parts. -/
namespace Sys2Proof.Machine.Alone

/-- Settles O31: the move stands alone (`Lone`), what precedes its lane changes nothing that its checks or memory see
(`Lone.ready`), and each clause is the lane as those checks find it followed by what closes the move. -/
theorem storesAndAtomicsPerformed : Obligations.StoresAndAtomicsPerformed := by
  unfold Obligations.StoresAndAtomicsPerformed
  intro id s c o x wf ctx memq unit lanes replay res toks map desc unread held sfb dlog watch i writes performed
  have lone : (o.unit = U.st → o.isMaint = true ∨ o.rt ≠ 0) →
      (∀ f off, s.check id c o x = .window f off → o.isMaint = true ∨ s.Unmapped) → Lone id s c o x :=
    fun shared calm => ⟨ctx, memq, unit, lanes, replay, res, toks, map, desc, unread, held, sfb, dlog, watch, shared, calm⟩
  have plain : writes → o.isMaint = false := by
    rintro (⟨-, e, -⟩ | e)
    · exact e
    · unfold MemOp.isMaint
      rw [e]
      rfl
  have shared : writes → o.unit = U.st → o.isMaint = true ∨ o.rt ≠ 0 := by
    rintro (⟨-, -, rt⟩ | e) st
    · exact .inr rt
    · rw [e] at st; cases st
  have elsewhere : ∀ {k : Check}, s.check id c o x = k → (∀ f off, k ≠ .window f off) →
      ∀ f off, s.check id c o x = .window f off → o.isMaint = true ∨ s.Unmapped :=
    fun e ne f off w => absurd (e.symm.trans w) (ne f off)
  refine ⟨fun f off w k free => ?_, fun tr p w at_ off => ?_, fun go w => ⟨fun e k store room => ?_,
    fun e k atom last full frec => ?_, fun k room => ?_⟩, fun go st maint => ⟨fun f off k free => ?_,
    fun f off gid g half b m k block hg hm clean => ?_, fun tr p k place home ecc => ?_⟩⟩
  · exact (lone (shared w) fun _ _ _ => .inr free).performed_window wf (plain w) k free
  · exact (lone (shared w) (elsewhere at_.1 fun _ _ => by simp)).performed_place wf (plain w) at_ off
  · exact (lone (shared w) (elsewhere k fun _ _ => by simp)).faults_store k store go room
  · exact (lone (shared w) (elsewhere k fun _ _ => by simp)).faults_atomic k atom go last full frec
  · exact (lone (shared w) (elsewhere k fun _ _ => by simp)).joins_buffer k go room
  · obtain ⟨t, cleared, rest⟩ := (lone (fun _ => .inl maint) fun _ _ _ => .inl maint).maintains_window st maint go k free
    exact ⟨t, cleared, rest⟩
  · obtain ⟨t, cleared, rest⟩ :=
      (lone (fun _ => .inl maint) fun _ _ _ => .inl maint).maintains_sector maint go k block hg hm clean
    exact ⟨t, cleared, rest⟩
  · obtain ⟨t, cleared, rest⟩ :=
      (lone (fun _ => .inl maint) fun _ _ _ => .inl maint).maintains_place maint go k place home ecc
    exact ⟨t, cleared, rest⟩

end Sys2Proof.Machine.Alone
end

section
/-! SUPPORT. The floating-point rows (R109 to R122): what a row of FA, FB and CV puts in flight. -/
namespace Sys2Proof.Machine.FloatUnits
open Sys2Proof.Machine.Sequential

/-! ## One result of FA, FB or CV (R16, R113) -/

/-- The lanes' values and exceptions of an operation that triggers as `t`. -/
def fpResults (f : Nat → Nat → Nat → Nat × BitVec 5) (c : Ctx) (t : Trig) : List (Nat × BitVec 5) :=
  (List.range c.nlanes).map (fun l => if t.mask.getLsbD l then
    f (lo32 ((c.us.unit t.unit).a.at l)).toNat (lo32 ((c.us.unit t.unit).b.at l)).toNat
      (lo32 ((c.us.unit t.unit).held.at l)).toNat else (0, 0))

/-- The result that the operation puts in flight. -/
def fpPend (f : Nat → Nat → Nat → Nat × BitVec 5) (c : Ctx) (t : Trig) : Pend :=
  { t.pend c.nlanes (fun _ => 0) with
    vals := (fpResults f c t).map (fun x => BitVec.ofNat 64 (x.1 % 2 ^ 32)), excs := (fpResults f c t).map Prod.snd }

theorem laneFp_eq {v : State} {id : CtxId} {c : Ctx} (h : v.ctx id = some c) (t : Trig)
    (f : Nat → Nat → Nat → Nat × BitVec 5) : laneFp f v id t = v.addPend id (fpPend f c t) := by
  simp only [laneFp, h]
  rfl

theorem ofNat_mod_eq_zx (n : Nat) : BitVec.ofNat 64 (n % 2 ^ 32) = zx (BitVec.ofNat 32 n) := by
  apply BitVec.eq_of_toNat_eq
  simp only [zx, BitVec.zeroExtend, BitVec.toNat_setWidth, BitVec.toNat_ofNat]

/-- The result in flight holds the row's value and exceptions on each triggered lane. -/
theorem fpPend_gives {i : MoveF → Instr} {u o : Nat} {f : Nat → Nat → Nat → Nat × BitVec 5} (c : Ctx) {t : Trig}
    (ht : t.unit = u) : (FixedRow.fp i u o f).Gives (fpPend f c t) c t := by
  have lane : ∀ l, l < c.nlanes → t.mask.getLsbD l = true → (fpResults f c t)[l]? =
      some (f (lo32 ((c.us.unit u).a.at l)).toNat (lo32 ((c.us.unit u).b.at l)).toNat
        (lo32 ((c.us.unit u).held.at l)).toNat) := fun l hl hm => by simp [fpResults, hl, hm, ht]
  refine ⟨ht, congrArg fixedLat ht, rfl, rfl, rfl, rfl, fun l hl hm => ⟨?_, ?_⟩, rfl⟩
  · simp only [fpPend, Vals.at, List.getD_eq_getElem?_getD, List.getElem?_map, lane l hl hm, Option.map_some,
      Option.getD_some, ofNat_mod_eq_zx]
    rfl
  · simp only [fpPend, List.getD_eq_getElem?_getD, List.getElem?_map, lane l hl hm, Option.map_some, Option.getD_some]
    rfl

/-- The units whose results carry exceptions when they land (R113, R114). -/
def FpUnit (u : Nat) : Prop := u = U.fa ∨ u = U.fb ∨ u = U.cv

/-- A row runs as stated where its bundle starts the operation of its values. -/
theorem fp_runs {i : MoveF → Instr} {u o : Nat} {f : Nat → Nat → Nat → Nat × BitVec 5} (hu : FpUnit u) (ho : o < 256)
    {m : MoveF} {s : State} {c0 : Ctx} (hx : exec (i m) s = issueOne (syllable true u 3 o m) (laneFp f) s)
    (h : s.Fires c0 (syllable true u 3 o m)) : (FixedRow.fp i u o f).Runs m s c0 := by
  have place : isVar u = false ∧ uniformPort u 3 = false ∧ u < 32 ∧ u ≠ 0 := by
    rcases hu with rfl | rfl | rfl <;> decide
  obtain ⟨hvar, hport, h32, h0⟩ := place
  exact FixedRow.runs_of_pend (laneFp f) (fpPend f) h.1 (guardMask_ne_zero h) hx hvar hport ⟨h32, h0, ho⟩
    (fun _ _ t _ hc => laneFp_eq hc t f) (fun c _ ht => fpPend_gives c ht)

/-- The row is the one-move bundle that starts the operation of its values, whatever the state. -/
inductive StartsFp : FixedRow → Prop
  | intro {i : MoveF → Instr} {u o : Nat} {f : Nat → Nat → Nat → Nat × BitVec 5}
      (hx : StartsAs (FixedRow.fp i u o f) (laneFp f)) (hu : FpUnit u) (ho : o < 256) : StartsFp (FixedRow.fp i u o f)

theorem StartsFp.runs {r : FixedRow} (hr : StartsFp r) {m : MoveF} {s : State} {c0 : Ctx} (h : s.Fires c0 (r.word m)) :
    r.Runs m s c0 := by
  obtain ⟨hx, hu, ho⟩ := hr
  exact fp_runs hu ho (hx m s) h

/-! ## FA and FB (R115 to R117) -/

/-- An opcode of FA and FB (R54). -/
theorem fp_opcode_lt {op : Nat} (h : op < 8) (ty rnd : BitVec 2) (ftz : BitVec 1) :
    op * 32 + ty.toNat * 8 + rnd.toNat * 2 + ftz.toNat < 256 := by
  have := ty.isLt
  have := rnd.isLt
  have := ftz.isLt
  omega

theorem startsFp_of_op {i : MoveF → Instr} {u op : Nat} {ty rnd : BitVec 2} {ftz : BitVec 1}
    {f : Nat → Nat → Nat → Nat × BitVec 5}
    (hx : StartsAs (FixedRow.fp i u (op * 32 + ty.toNat * 8 + rnd.toNat * 2 + ftz.toNat) f) (laneFp f)) (hu : FpUnit u)
    (h : op < 8) : StartsFp (FixedRow.fp i u (op * 32 + ty.toNat * 8 + rnd.toNat * 2 + ftz.toNat) f) :=
  .intro hx hu (fp_opcode_lt h ty rnd ftz)

theorem faResults_start (ty rnd : BitVec 2) (ftz : BitVec 1) : ∀ r ∈ faResults ty rnd ftz, StartsFp r := by
  have hu : FpUnit U.fa := .inl rfl
  simp only [faResults, List.forall_mem_cons, List.not_mem_nil, false_implies, implies_true, and_true]
  refine ⟨startsFp_of_op ?_ hu (by decide), startsFp_of_op ?_ hu (by decide), startsFp_of_op ?_ hu (by decide),
    startsFp_of_op ?_ hu (by decide), startsFp_of_op ?_ hu (by decide), startsFp_of_op ?_ hu (by decide),
    startsFp_of_op ?_ hu (by decide), startsFp_of_op ?_ hu (by decide)⟩ <;> exact fun _ _ => rfl

theorem fbResults_start (ty rnd : BitVec 2) (ftz : BitVec 1) : ∀ r ∈ fbResults ty rnd ftz, StartsFp r := by
  have hu : FpUnit U.fb := .inr (.inl rfl)
  simp only [fbResults, List.forall_mem_cons, List.not_mem_nil, false_implies, implies_true, and_true]
  refine ⟨startsFp_of_op ?_ hu (by decide), startsFp_of_op ?_ hu (by decide), startsFp_of_op ?_ hu (by decide),
    startsFp_of_op ?_ hu (by decide), startsFp_of_op ?_ hu (by decide), startsFp_of_op ?_ hu (by decide),
    startsFp_of_op ?_ hu (by decide), startsFp_of_op ?_ hu (by decide)⟩ <;> exact fun _ _ => rfl

/-- Settles O13: each row of FA and FB starts the operation of its values (`faResults_start`, `fbResults_start`), which
puts their result in flight (`fpPend_gives`). -/
theorem floatResults : Obligations.FloatResults := by
  intro ty rnd ftz r m s c0 hr h
  rcases List.mem_append.mp hr with hr | hr
  · exact (faResults_start ty rnd ftz r hr).runs h
  · exact (fbResults_start ty rnd ftz r hr).runs h

/-! ## CV without a format register (R118, R119, R122) -/

/-- The width of an element of TYPE (R54). -/
theorem typeFmt_width {ty : BitVec 2} (h : ty ≠ 3) : (if ty = 0 then 32 else 16) = (typeFmt ty.toNat).width := by
  revert ty
  decide

theorem startFrexp_eq {ty : BitVec 2} (h : ty ≠ 3) : startFrexp ty = laneFp (fun _ _ t => perElem1 ty.toNat (fun x =>
    ((BitVec.ofInt (typeFmt ty.toNat).width
        (frexpExp (typeFmt ty.toNat).width ((typeFmt ty.toNat).decode x)).1).toNat,
      (frexpExp (typeFmt ty.toNat).width ((typeFmt ty.toNat).decode x)).2)) t) := by
  rw [← typeFmt_width h]
  rfl

theorem startLdexp_eq {ty : BitVec 2} (h : ty ≠ 3) : startLdexp ty = laneFp (fun a _ t => perElem2 ty.toNat (fun x k =>
    (typeFmt ty.toNat).ldexp ((typeFmt ty.toNat).decode x)
      (max (-4000) (min 4000 (BitVec.ofNat (typeFmt ty.toNat).width k).toInt))) a t) := by
  rw [← typeFmt_width h]
  rfl

theorem cvResults_start (pair : BitVec 4) (rnd ty : BitVec 2) (sat : BitVec 1) (hty : ty ≠ 3) :
    ∀ r ∈ cvResults pair rnd ty sat, StartsFp r := by
  have := pair.isLt
  have := rnd.isLt
  have := ty.isLt
  have := sat.isLt
  have row : ∀ {i : MoveF → Instr} {o : Nat} {f : Nat → Nat → Nat → Nat × BitVec 5}, o < 256 →
      StartsAs (FixedRow.fp i U.cv o f) (laneFp f) → StartsFp (FixedRow.fp i U.cv o f) :=
    fun h hx => .intro hx (.inr (.inr rfl)) h
  simp only [cvResults, List.forall_mem_cons, List.not_mem_nil, false_implies, implies_true, and_true]
  refine ⟨row (by omega) fun _ _ => rfl, row (by omega) fun _ _ => rfl, row (by omega) fun _ _ => rfl,
    row (by omega) fun _ _ => rfl, row (by omega) ?_, row (by omega) fun _ _ => rfl, row (by omega) ?_⟩
  · rw [← startFrexp_eq hty]
    exact fun _ _ => rfl
  · rw [← startLdexp_eq hty]
    exact fun _ _ => rfl

/-! ## CV through a format register (R120, R121) -/

/-- An operation whose bundle nothing stands before may be replaced by one that acts alike where it starts. -/
theorem issueOne_congr {s : State} {c0 : Ctx} {u o : Nat} {m : MoveF} {st st' : Start} (hu : u < 32) (h0 : u ≠ 0)
    (ho : o < 256) (hsv : u ≠ U.sv) (h : s.Fires c0 (syllable true u 3 o m))
    (hst : st (beginState s c0.land (Bundle.one (syllable true u 3 o m) s.curPc) (Move.of 0 (syllable true u 3 o m)))
        s.cur (c0.land.trigOf (Bundle.one (syllable true u 3 o m) s.curPc) (Move.of 0 (syllable true u 3 o m))) =
      st' (beginState s c0.land (Bundle.one (syllable true u 3 o m) s.curPc) (Move.of 0 (syllable true u 3 o m)))
        s.cur (c0.land.trigOf (Bundle.one (syllable true u 3 o m) s.curPc) (Move.of 0 (syllable true u 3 o m)))) :
    issueOne (syllable true u 3 o m) st s = issueOne (syllable true u 3 o m) st' s := by
  obtain ⟨f1, -⟩ := Move.of_syllable u 3 o m hu (by decide) ho
  rw [issueOne_clear st h.1, issueOne_clear st' h.1, Ctx.atBundle_one fun e => absurd (f1 ▸ e) hsv]
  unfold State.commit
  simp only [Ctx.trigsOf_one rfl (Bundle.one_isExt _ _) (isTrig_syllable m hu h0 ho) (guardMask_ne_zero h),
    Ctx.issued_one rfl (Bundle.one_isExt _ _) (isTrig_syllable m hu h0 ho) (guardMask_ne_zero h), startOrder_one,
    List.foldl_cons, List.foldl_nil]
  rw [beginState, State.begun] at hst
  rw [hst]

/-- The trap of a malformed format register (R120, R368). -/
def formatTrap (t : Trig) : DueTrap := { DueTrap.of 0x48 t.pc t.cycle with lanes := some t.mask }

section
variable {v : State} {id : CtxId} {c : Ctx} {n : Nat} {d : Narrow} (hv : v.ctx id = some c)
  (hd : Narrow.of (v.fmReg c n) = d) (t : Trig) (f : Narrow → Nat → Nat × BitVec 5)
include hv hd

theorem fmStart_wellFormed (hm : d.malformed = false) : fmStart n f v id t = laneFp (fun _ _ x => f d x) v id t := by
  simp only [fmStart, hv, hd, hm, Bool.false_eq_true, if_false]

theorem fmStart_malformed (hm : d.malformed = true) : fmStart n f v id t = v.setCtx id (c.addDue (formatTrap t)) := by
  simp only [fmStart, hv, hd, hm, if_true, State.modCtx_eq hv]
  rfl

end

/-- The moves of a bundle leave the format registers of its team's gang. -/
theorem fmReg_beginState (s : State) (c : Ctx) (b : Bundle) (m : Move) (n : Nat) :
    (beginState s c b m).fmReg (atStart c s b m) n = s.fmReg c n := rfl

/-- A row through a well-formed format register starts the conversion of its description. -/
theorem issueOne_fmStart {s : State} {c0 : Ctx} {o n : Nat} {m : MoveF} (f : Narrow → Nat → Nat × BitVec 5)
    (ho : o < 256) (h : s.Fires c0 (syllable true U.cv 3 o m))
    (hm : (Narrow.of (s.fmReg c0.land n)).malformed = false) :
    issueOne (syllable true U.cv 3 o m) (fmStart n f) s =
      issueOne (syllable true U.cv 3 o m) (laneFp (fun _ _ x => f (Narrow.of (s.fmReg c0.land n)) x)) s :=
  issueOne_congr (by decide) (by decide) ho (by decide) h
    (fmStart_wellFormed (State.begun_ctx ..) (congrArg Narrow.of (fmReg_beginState ..)) _ f hm)

theorem fmTo_opcode_lt (fm : BitVec 4) (rz : BitVec 1) : 0xC0 + fm.toNat * 2 + rz.toNat < 256 := by
  have := fm.isLt
  have := rz.isLt
  omega

theorem fmFrom_opcode_lt (fm : BitVec 4) : 0xE0 + fm.toNat * 2 < 256 := by
  have := fm.isLt
  omega

theorem cvFmResults_run {fm : BitVec 4} {rz : BitVec 1} {m : MoveF} {s : State} {c0 : Ctx}
    (hm : (Narrow.of (s.fmReg c0.land fm.toNat)).malformed = false) :
    ∀ r ∈ cvFmResults fm rz (Narrow.of (s.fmReg c0.land fm.toNat)), s.Fires c0 (r.word m) → r.Runs m s c0 := by
  simp only [cvFmResults, List.forall_mem_cons, List.not_mem_nil, false_implies, implies_true, and_true]
  exact ⟨fun h => fp_runs (.inr (.inr rfl)) (fmTo_opcode_lt fm rz) (issueOne_fmStart _ (fmTo_opcode_lt fm rz) h hm) h,
    fun h => fp_runs (.inr (.inr rfl)) (fmFrom_opcode_lt fm) (issueOne_fmStart fmFrom (fmFrom_opcode_lt fm) h hm) h⟩

/-- Settles O14: a row without a format register starts the operation of its values (`cvResults_start`), and one
through a well-formed format register the conversion of its description (`issueOne_fmStart`). -/
theorem convertResults : Obligations.ConvertResults := by
  intro pair fm rnd ty sat rz r m s c0 h
  exact ⟨fun hr hty => (cvResults_start pair rnd ty sat hty r hr).runs h, fun hm hr => cvFmResults_run hm r hr h⟩

/-- A row through a malformed format register puts nothing in flight and makes C_MXFORMAT due (R120). -/
theorem issueOne_fmStart_malformed {s : State} {c0 : Ctx} {o n : Nat} {m : MoveF} (f : Narrow → Nat → Nat × BitVec 5)
    (ho : o < 256) (h : s.Fires c0 (syllable true U.cv 3 o m))
    (hm : (Narrow.of (s.fmReg c0.land n)).malformed = true) :
    ∃ t c', issueOne (syllable true U.cv 3 o m) (fmStart n f) s = .next t ∧ t.ctx s.cur = some c' ∧ s.Frame t ∧
      c'.us.pend = c0.land.us.ticked.pend ∧
      formatTrap (c0.land.trigOf (Bundle.one (syllable true U.cv 3 o m) s.curPc)
        (Move.of 0 (syllable true U.cv 3 o m))) ∈ c'.due := by
  obtain ⟨f1, -⟩ := Move.of_syllable U.cv 3 o m (by decide) (by decide) ho
  obtain ⟨k1, -⟩ := Ctx.land_keeps c0
  have hst := fmStart_malformed (State.begun_ctx ..) (congrArg Narrow.of (fmReg_beginState s c0.land
    (Bundle.one (syllable true U.cv 3 o m) s.curPc) (Move.of 0 (syllable true U.cv 3 o m)) n))
    (c0.land.trigOf (Bundle.one (syllable true U.cv 3 o m) s.curPc) (Move.of 0 (syllable true U.cv 3 o m))) f hm
  obtain ⟨t, c', e1, e2, e3, e4⟩ := issueOne_started _ (by decide) (by decide) ho (fun e => absurd e (by decide)) h hst
    rfl rfl rfl rfl
  refine ⟨t, c', e1, e2, e3, ?_, ?_⟩
  · have hb := begun_fixed (c := c0.land) (b := Bundle.one (syllable true U.cv 3 o m) s.curPc)
      (m := Move.of 0 (syllable true U.cv 3 o m)) (by rw [f1]; rfl)
    rw [e4.1]
    simp only [Ctx.addDue, Ctx.after_us, hb]
    rfl
  · exact IntegerControl.mem_due_issueOne
      (x := (atStart c0.land s (Bundle.one (syllable true U.cv 3 o m) s.curPc)
        (Move.of 0 (syllable true U.cv 3 o m))).addDue _)
      h.1 (isTrig_syllable m (by decide) (by decide) ho) (guardMask_ne_zero h)
      (fun e => absurd (f1.symm.trans e) (by decide))
      ((congrArg (fun v : State => v.ctx s.cur) hst).trans (State.ctx_setCtx_same _ _ _)) rfl
      (fun q e => h.1.loop q (k1 ▸ e)) (List.mem_append_right _ (List.mem_singleton_self _)) e1 e2

/-- Settles O15: the operation makes the trap due (`fmStart_malformed`), and what is due stays due until the next bundle
(`issueOne_fmStart_malformed`). -/
theorem malformedFormatTraps : Obligations.MalformedFormatTraps := by
  intro fm rz m s c0 i o hi hm h
  obtain ⟨-, -, -, -, -, -, -, -, -, -, -, -, -, hsched⟩ := Ctx.land_keeps c0
  have traps : ∀ f, o < 256 → exec i s = issueOne (syllable true U.cv 3 o m) (fmStart fm.toNat f) s →
      ∃ t c' d, exec i s = .next t ∧ t.ctx s.cur = some c' ∧ s.Frame t ∧ c'.us.pend = c0.land.us.ticked.pend ∧
        d ∈ c'.due ∧ d.code = 0x48 ∧ d.lanes = some (c0.land.guardMask (Move.of 0 (syllable true U.cv 3 o m))) ∧
        d.bundle = some (c0.pc, BitVec.ofNat 64 c0.sched) := by
    intro f ho hx
    obtain ⟨t, c', e1, e2, e3, e4, e5⟩ := issueOne_fmStart_malformed f ho h hm
    refine ⟨t, c', _, hx.trans e1, e2, e3, e4, e5, rfl, rfl, ?_⟩
    rw [← curPc_of h.1.here, ← hsched]
    rfl
  obtain ⟨rfl, rfl⟩ | ⟨rfl, rfl⟩ := hi
  · exact traps _ (fmTo_opcode_lt fm rz) rfl
  · exact traps fmFrom (fmFrom_opcode_lt fm) rfl

end Sys2Proof.Machine.FloatUnits
end

section
/-! SUPPORT. Enabled exceptions (R112 to R114): the trap of a landing, and the trap of SF that a bundle meets. -/
namespace Sys2Proof.Machine.FloatTraps
open Sys2Proof.Machine.Sequential

/-! ## The trap of enabled exceptions (R112, R114) -/

/-- The lowest exception of a set is the first that is in it. -/
theorem lowExc_first : ∀ e : BitVec 5, e ≠ 0 →
    lowExc e < 5 ∧ e.getLsbD (lowExc e) = true ∧ ∀ i, i < lowExc e → e.getLsbD i = false := by decide

theorem code_lowExc {e : BitVec 5} (h : e ≠ 0) : ∃ j, j < 5 ∧ e.getLsbD j = true ∧ (∀ i, i < j → e.getLsbD i = false) ∧
    (BitVec.ofNat 7 (0x12 + lowExc e)).toNat = 0x12 + j := by
  obtain ⟨h5, hj, hi⟩ := lowExc_first e h
  refine ⟨lowExc e, h5, hj, hi, ?_⟩
  rw [BitVec.toNat_ofNat]
  omega

theorem getLsbD_excLanes (ctl : W64) (m : Lanes) (excs : List (BitVec 5)) {n l : Nat} (hn : l < n) (hl : l < 1024) :
    (excLanes ctl m n excs).getLsbD l = (m.getLsbD l && decide (excs.getD l 0 &&& ctl.extractLsb' 8 5 ≠ 0)) := by
  rw [excLanes, getLsbD_lanesOf _ _ hl, decide_eq_true hn, Bool.true_and, enabledExc,
    Bool.eq_iff_iff.mpr (bne_iff_ne.trans decide_eq_true_iff.symm)]

section
variable {ctl : W64} {m : Lanes} {n : Nat} {excs : List (BitVec 5)} {bundle cycle : W64}

theorem fpTrap_none (h : excUnion m n excs &&& ctl.extractLsb' 8 5 = 0) : fpTrap ctl m n excs bundle cycle = none :=
  if_pos h

theorem fpTrap_some (h : excUnion m n excs &&& ctl.extractLsb' 8 5 ≠ 0) : fpTrap ctl m n excs bundle cycle =
    some { DueTrap.of (BitVec.ofNat 7 (0x12 + lowExc (excUnion m n excs &&& ctl.extractLsb' 8 5))) bundle cycle with
      lanes := some (excLanes ctl m n excs) } := if_neg h

end

/-! ## A landing (R16, R114) -/

/-- The landing of the one result that is due adds the trap of its enabled exceptions to what is due. -/
theorem land_single_due {c : Ctx} {p : Pend} (hi : ∀ n, c.wait ≠ .idle n) (hp : c.us.pend = [p]) (h0 : p.left = 0) :
    c.land.due = c.due ++ (fpTrap c.fpCtl (p.mask &&& c.live) c.nlanes p.excs p.bundle p.cycle).toList := by
  have hl : c.land = c.landWithin 1 := by
    unfold Ctx.land
    split
    · exact absurd ‹_› (hi _)
    · rfl
  have hd : c.dueWithin 1 = [p] := by simp [Ctx.dueWithin, hp, h0]
  have ht : c.excTrap [p] = fpTrap c.fpCtl (p.mask &&& c.live) c.nlanes p.excs p.bundle p.cycle := rfl
  obtain ⟨us, k, x, h⟩ := Ctx.landOne_only
    ({ c with us := { c.us with pend := c.us.pend.filter (fun p => !decide (p.left < 1)) } } : Ctx) p
  rw [hl, Ctx.landWithin]
  simp only [hd, ht, List.isEmpty_cons, Bool.false_eq_true, if_false, List.foldl_cons, List.foldl_nil, h]
  cases fpTrap c.fpCtl (p.mask &&& c.live) c.nlanes p.excs p.bundle p.cycle with
  | none => exact (List.append_nil _).symm
  | some d => rfl

/-- An enabled exception of the one result that is due becomes due when that lands (R114). -/
theorem landing_traps {id : CtxId} {u : UnitId} {s : State} {c : Ctx} {p : Pend} (hc : s.ctx id = some c)
    (hi : ∀ n, c.wait ≠ .idle n) (hp : c.us.pend = [p]) (h0 : p.left = 0) (hu : p.unit = unitCode u)
    (hcm : p.unit ≠ U.cm) :
    let e := excUnion (p.mask &&& c.live) c.nlanes p.excs &&& c.fpCtl.extractLsb' 8 5
    ∃ t c', exec (.fixedResultLand id u) s = .next t ∧ t.ctx id = some c' ∧
      (e = 0 → c'.due = c.due) ∧
      (e ≠ 0 → ∃ d, c'.due = c.due ++ [d] ∧ d.bundle = some (p.bundle, p.cycle) ∧ d.own = true ∧
        (∃ j, j < 5 ∧ e.getLsbD j = true ∧ (∀ i, i < j → e.getLsbD i = false) ∧ d.code.toNat = 0x12 + j) ∧
        (∃ m, d.lanes = some m ∧ ∀ l, l < c.nlanes → l < 1024 → m.getLsbD l = ((p.mask &&& c.live).getLsbD l &&
          decide (p.excs.getD l 0 &&& c.fpCtl.extractLsb' 8 5 ≠ 0)))) := by
  intro e
  have hx := exec_land hc hp h0 hu
  have hd := land_single_due hi hp h0
  rw [if_neg hcm] at hx
  refine ⟨_, c.land, hx, State.ctx_setCtx_same _ _ _, fun he => ?_, fun he => ?_⟩
  · rw [hd, fpTrap_none he]
    exact List.append_nil _
  · rw [fpTrap_some he] at hd
    exact ⟨_, hd, rfl, rfl, code_lowExc he, _, rfl, fun l hn hl => getLsbD_excLanes _ _ _ hn hl⟩

/-! ## A completion of SF (R114, R123) -/

/-- The trap that an operation of SF leaves pending (R114). -/
def sfTrapOf (c : Ctx) (o : VarOp) : Option SfTrap :=
  (fpTrap c.fpCtl (o.mask &&& c.live) c.nlanes ((sfResults c o).map Prod.snd) o.bundle o.cycle).map (fun d =>
    { code := d.code, lanes := d.lanes.getD 0, bundle := o.bundle, cycle := o.cycle,
      flag := (c.us.owners.find? (fun kv => kv.2 == o.uid)).map Prod.fst })

/-- The event of the completion of SF's oldest operation, where that is the unit's latest and no frame is held. -/
theorem exec_sfComplete_frameless {id : CtxId} {s : State} {c : Ctx} {o : VarOp} (hc : s.ctx id = some c)
    (ho : c.ops.find? (fun o => o.unit == U.sf) = some o) (hl : (c.us.unit U.sf).last = o.uid)
    (hf : c.frame = none) :
    ∃ fr, exec (.sfComplete id) s = .next (s.setCtx id { sfFilled c o with
      fpCtl := stick c.fpCtl (excUnion (o.mask &&& c.live) c.nlanes ((sfResults c o).map Prod.snd))
      us := (sfFilled c o).us.sfDone o.uid (sfTrapOf c o)
      frame := fr }) := by
  have e : exec (.sfComplete id) s = execSfComplete id s := rfl
  rw [e]
  simp only [execSfComplete, hc, Ctx.findOp, ho, Ctx.latest, hl, hf, BEq.rfl, Bool.true_or, if_true, Option.map_none,
    Option.getD_none, List.append_nil]
  exact ⟨_, rfl⟩

/-- SF still waits for the operation that has filled its R. -/
theorem sfFilled_last {c : Ctx} {o : VarOp} (hl : (c.us.unit U.sf).last = o.uid)
    (hf : (c.us.unit U.sf).full = false) : ((sfFilled c o).us.unit U.sf).last = o.uid := by
  obtain ⟨fl, h, -⟩ := finish_latest (n := c.nlanes) (mask := o.mask &&& c.live)
    (f := fun l => BitVec.ofNat 64 (((sfResults c o).getD l (0, 0)).1 % 2 ^ 32)) hl hf
  have hu : (sfFilled c o).us = _ := h
  rw [hu]
  exact (congrArg UPorts.last (UnitState.unit_setUnit_same _ _ _)).trans hl

/-- An operation of SF with an enabled exception leaves its trap pending (R114). -/
theorem sfComplete_traps {id : CtxId} {s : State} {c : Ctx} {o : VarOp} (hc : s.ctx id = some c)
    (ho : c.ops.find? (fun o => o.unit == U.sf) = some o) (hl : (c.us.unit U.sf).last = o.uid)
    (hf : (c.us.unit U.sf).full = false) (hfr : c.frame = none) :
    let exc := fun l => if (o.mask &&& c.live).getLsbD l then
      (sfLane o.opcode.toNat (lo32 (o.a.at l)).toNat (lo32 (o.t.at l)).toNat).2 else 0
    let e := excUnion (o.mask &&& c.live) c.nlanes ((List.range c.nlanes).map exc) &&& c.fpCtl.extractLsb' 8 5
    ∃ t c', exec (.sfComplete id) s = .next t ∧ t.ctx id = some c' ∧ c'.due = c.due ∧
      (e = 0 → c'.us.sfTrap = none) ∧
      (e ≠ 0 → ∃ d, c'.us.sfTrap = some d ∧ d.bundle = o.bundle ∧ d.cycle = o.cycle ∧
        d.flag = (c.us.owners.find? (fun kv => kv.2 == o.uid)).map Prod.fst ∧
        (∃ j, j < 5 ∧ e.getLsbD j = true ∧ (∀ i, i < j → e.getLsbD i = false) ∧ d.code.toNat = 0x12 + j) ∧
        ∀ l, l < c.nlanes → l < 1024 → d.lanes.getLsbD l = decide (exc l &&& c.fpCtl.extractLsb' 8 5 ≠ 0)) := by
  intro exc e
  have hexc : (sfResults c o).map Prod.snd = (List.range c.nlanes).map exc := by
    rw [sfResults, List.map_map]
    exact List.map_congr_left fun l _ => apply_ite Prod.snd _ _ _
  obtain ⟨fr, hx⟩ := exec_sfComplete_frameless hc ho hl hfr
  have hdone : (sfFilled c o).us.sfDone o.uid (sfTrapOf c o) = { (sfFilled c o).us with sfTrap := sfTrapOf c o } :=
    if_pos (sfFilled_last hl hf)
  rw [hdone] at hx
  refine ⟨_, _, hx, State.ctx_setCtx_same _ _ _, rfl, fun he => ?_, fun he => ?_⟩
  · show sfTrapOf c o = none
    rw [sfTrapOf, hexc, fpTrap_none he, Option.map_none]
  · have hs : sfTrapOf c o = some
        { code := BitVec.ofNat 7 (0x12 + lowExc e),
          lanes := excLanes c.fpCtl (o.mask &&& c.live) c.nlanes ((List.range c.nlanes).map exc),
          bundle := o.bundle, cycle := o.cycle,
          flag := (c.us.owners.find? (fun kv => kv.2 == o.uid)).map Prod.fst } := by
      rw [sfTrapOf, hexc, fpTrap_some he]
      rfl
    refine ⟨_, hs, rfl, rfl, rfl, code_lowExc he, fun l hn hlt => (getLsbD_excLanes _ _ _ hn hlt).trans ?_⟩
    have hgetD : ((List.range c.nlanes).map exc).getD l 0 = exc l := by simp [hn]
    rw [hgetD]
    cases hm : (o.mask &&& c.live).getLsbD l with
    | true => exact Bool.true_and _
    | false =>
      have h0 : exc l = 0 := if_neg (by rw [hm]; exact Bool.false_ne_true)
      rw [h0]
      exact (decide_eq_false (not_not_intro BitVec.zero_and)).symm

/-! ## A bundle that meets the trap of SF (R114, R350, R355) -/

/-- What the boundary asks of a cause: one of R114's is taken on route U as it stands, and no rule for a single cause
names it. -/
theorem fpCode_plain : ∀ k : BitVec 7, 0x12 ≤ k → k ≤ 0x16 → k ≠ 0x0B ∧ k ≠ 0x0C ∧ k ≠ 0x0F ∧ k ≠ 0x10 ∧ k ≠ 0x18 ∧
    k ≠ 0x1A ∧ k ≠ 0x29 ∧ k ≠ 0x3B ∧ k ≠ 0x5F ∧ routeOf k = .user := by decide

/-- The trap of SF as one that is due. -/
def sfDue (x : SfTrap) : DueTrap := { DueTrap.of x.code x.bundle x.cycle with lanes := some x.lanes }

/-- A context in which the trap of SF is pending no longer and `ds` is due; the cycle of the boundary counts in `st`. -/
def metSf (c : Ctx) (ds : List DueTrap) (st : Tbl Nat) : Ctx :=
  { c with us := { c.us with sfTrap := none }, due := ds, stall := st }

theorem still_brk {f g : Fold} (h : f.still = g.still) : f.brk = g.brk :=
  (congrArg Fold.brk h : f.still.brk = g.still.brk)

theorem still_held {f g : Fold} (h : f.still = g.still) : f.held = g.held :=
  (congrArg Fold.held h : f.still.held = g.still.held)

section
variable {c : Ctx} {x : SfTrap} {b : Bundle}

/-- A Ready context without a result in flight has nothing to land. -/
theorem land_of_no_pend (hw : c.wait = .ready) (hp : c.us.pend = []) : c.land = c ∧ c.boundary = c := by
  have hd : c.dueWithin 1 = [] := by simp [Ctx.dueWithin, hp]
  constructor
  · simp only [Ctx.land, hw, Ctx.landWithin, hd, List.isEmpty_nil, if_true]
  · simp only [Ctx.boundary, Ctx.landsTrap, hw, hd, Ctx.excTrap, List.foldl_nil, Option.isSome_none,
      Bool.false_eq_true, if_false]

theorem meetSf_eq (ht : c.us.sfTrap = some x) (hd : c.due = []) (hm : c.meetsSf b x = true) :
    c.meetSf b = metSf c [sfDue x] c.stall := by
  simp only [Ctx.meetSf, ht, hd, Option.filter_some, hm, if_true, List.find?_nil, List.filter_nil, List.nil_append]
  rfl

theorem unstick_metSf (st : Tbl Nat) : (metSf c [sfDue x] st).unstick c b = metSf c [sfDue x] st := by
  unfold Ctx.unstick
  split <;> rfl

theorem meetAs_metSf (hw : c.wait = .ready) (hp : c.us.pend = []) :
    c.meetAs (metSf c [sfDue x] c.stall) = metSf c [sfDue x] c.stall := by
  rw [Ctx.meetAs, (land_of_no_pend hw hp).2]
  rfl

section
variable (h1 : 0x12 ≤ x.code) (h2 : x.code ≤ 0x16)
include h1 h2

/-- The trap of SF is the one that the boundary takes (R450). -/
theorem nextDue_metSf (hw : c.wait = .ready) (st : Tbl Nat) : (metSf c [sfDue x] st).nextDue = some (sfDue x) := by
  obtain ⟨n0B, n0C, -, -, -, -, -, n3B, -⟩ := fpCode_plain x.code h1 h2
  have hr : (metSf c [sfDue x] st).ripe (sfDue x) = true := by
    simp only [Ctx.ripe, DueTrap.isRequest, metSf, sfDue, DueTrap.of, hw, n0C, n3B, reduceCtorEq, if_false,
      decide_false, Bool.or_self, Bool.false_eq_true, Wait.woken, bne_self_eq_false, Bool.and_false, Bool.false_and,
      Bool.not_false, Bool.and_self, beq_eq_false_iff_ne.mpr n0B]
  have hdue : (metSf c [sfDue x] st).due = [sfDue x] := rfl
  simp only [Ctx.nextDue, hdue, List.filter_cons, hr, if_true, List.filter_nil, List.foldl_cons, List.foldl_nil]

/-- The trap of SF makes the bundle wait for no operation that it did not wait for (R141, R162). -/
theorem acqOut_metSf {s v : State} {id : CtxId} (h : s.acqOut id c = none) (hd : c.due = []) (st : Tbl Nat)
    (hv : (v.fold id.fold).held = (s.fold id.fold).held) : v.acqOut id (metSf c [sfDue x] st) = none := by
  obtain ⟨n0B, -, -, -, -, -, n29, n3B, -⟩ := fpCode_plain x.code h1 h2
  have hq : (metSf c [sfDue x] st).acqOut = c.acqOut := by
    simp only [Ctx.acqOut, metSf, sfDue, DueTrap.of, hd, List.any_cons, List.any_nil, beq_eq_false_iff_ne.mpr n0B,
      beq_eq_false_iff_ne.mpr n29, Bool.false_and, Bool.or_false]
  have hdr : (metSf c [sfDue x] st).drains = false := by
    simp only [Ctx.drains, metSf, sfDue, DueTrap.of, List.any_cons, List.any_nil, beq_eq_false_iff_ne.mpr n3B,
      Bool.or_false, Bool.and_false, Bool.false_and]
  have hdr0 : c.drains = false := by simp only [Ctx.drains, hd, List.any_nil, Bool.and_false, Bool.false_and]
  simp only [State.acqOut, hdr0, Bool.false_eq_true, if_false] at h
  simp only [State.acqOut, hq, hdr, hv, Bool.false_eq_true, if_false]
  exact h

theorem verdict_metSf {s v : State} {id : CtxId} (h : s.acqOut id c = none) (hd : c.due = []) (hw : c.wait = .ready)
    (st : Tbl Nat) (hv : (v.fold id.fold).held = (s.fold id.fold).held) :
    v.verdict id (metSf c [sfDue x] st) b = .settle := by
  obtain ⟨-, -, -, -, n18, -⟩ := fpCode_plain x.code h1 h2
  have hcode : (sfDue x).code ≠ 0x18 := n18
  have hf : ∀ p q, (metSf c [sfDue x] st).dueFirst p q = true := fun p q => by
    simp only [Ctx.dueFirst, nextDue_metSf h1 h2 hw st, hcode, decide_false, Bool.false_and, Bool.not_false]
  simp only [State.verdict, acqOut_metSf h1 h2 h hd st hv, Option.isSome_none, Bool.false_eq_true, if_false, hf,
    if_true]

/-- The trap of SF goes to the team's own handler where one may start (R354, R357). -/
theorem redirect_sfDue (hsh : c.shadow = false) (hi : c.inh = false) (htv : c.tvec &&& ~~~1 ≠ 0) :
    c.redirect (sfDue x) = (.user, x.code, if setsSub x.code then (sfDue x).sub else 0) := by
  obtain ⟨-, -, -, n10, n18, -, n29, -, -, hroute⟩ := fpCode_plain x.code h1 h2
  have hr : (sfDue x).route = .user := by
    simp only [DueTrap.route, sfDue, DueTrap.of, n10, n18, n29, or_self, if_false, hroute]
  simp only [Ctx.redirect, hsh, hi, hr, htv, Bool.false_eq_true, if_false, and_false, false_and]
  rfl

/-- The boundary of a context that has met the trap of SF: the team enters its handler (R355). -/
theorem settle_metSf {s v : State} {id : CtxId} {st : Tbl Nat} (hc : v.ctx id = some (metSf c [sfDue x] st))
    (h : s.acqOut id c = none) (hd : c.due = []) (hw : c.wait = .ready) (hb : s.breaks id c = false)
    (hs : (v.fold id.fold).still = (s.fold id.fold).still) (hsh : c.shadow = false) (hi : c.inh = false)
    (htv : c.tvec &&& ~~~1 ≠ 0) :
    ∃ w : State, w.mem = v.mem ∧
      v.settle id = w.setCtx id (Ctx.enterUser (metSf c [] st) (sfDue x) 0) := by
  obtain ⟨-, -, -, -, n18, -⟩ := fpCode_plain x.code h1 h2
  have hbrk : v.withBreak id (metSf c [sfDue x] st) = metSf c [sfDue x] st := by
    have hv : v.breaks id (metSf c [sfDue x] st) = s.breaks id c := by
      rw [State.breaks, still_brk hs]
      rfl
    simp only [State.withBreak, hv, hb, Bool.false_and, Bool.false_eq_true, if_false]
  have hbound : v.atBoundary id (metSf c [sfDue x] st) = metSf c [sfDue x] st := by
    rw [State.atBoundary, acqOut_metSf h1 h2 h hd st (still_held hs)]
    rfl
  have hleft : (metSf c [sfDue x] st).leftDue (some (sfDue x)) = [] := by
    simp [Ctx.leftDue, metSf, dropDue]
  have huser := redirect_sfDue h1 h2 (c := metSf c [] st) hsh hi htv
  have hfresh : (metSf c [sfDue x] st).refreshDue (sfDue x) = some (sfDue x) := if_neg n18
  refine ⟨v.setCtx id (metSf c [] st), rfl, ?_⟩
  have hcode : (sfDue x).code ≠ 0x18 := n18
  simp only [State.settle, hc, hbrk, hbound, nextDue_metSf h1 h2 hw st, hleft, if_neg hcode, hfresh]
  rw [show ({ metSf c [sfDue x] st with due := [] } : Ctx) = metSf c [] st from rfl]
  simp only [State.takeTrap, State.ctx_setCtx_same, huser, State.deliver]

end
end

/-- What a cycle leaves of a Ready context (R185, R386). -/
theorem charged_of_ready {c : Ctx} (hw : c.wait = .ready) (mine issued ready : Bool) (idx : Nat) :
    ∃ st, c.charged mine issued ready idx = { c with stall := st } := by
  have hcyc : ∀ (i : Bool) (st : Tbl Nat), ({ c with stall := st } : Ctx).cycles i ready 1 = { c with stall := st } :=
    fun i st => by simp only [Ctx.cycles, hw]
  unfold Ctx.charged
  split
  · exact ⟨c.stall, rfl⟩
  · split
    · simp only
      split
      · exact ⟨_, rfl⟩
      · exact ⟨_, hcyc false _⟩
    · exact ⟨c.stall, hcyc issued c.stall⟩

theorem charge_ctx_of_ready {v : State} {id : CtxId} {c : Ctx} (hc : v.ctx id = some c) (hw : c.wait = .ready)
    (f : Nat) (who : Option Nat) (pc : W64) (idx : Nat) :
    ∃ st, (v.charge f who pc idx).ctx id = some { c with stall := st } := by
  obtain ⟨r, h⟩ := State.chargeAs_ctx v f who (Sample.of (who.bind (fun sl =>
    (v.ctx { fold := f, slot := sl }).map (fun x => (sl, x)))) idx pc v.timebase) false idx id
  obtain ⟨st, hst⟩ := charged_of_ready hw (who == some (CtxId.key id % 64)) false r idx
  rw [hc, Option.map_some, hst] at h
  by_cases e : CtxId.key id / 64 = f
  · exact ⟨st, h.trans (congrArg some (if_pos e))⟩
  · exact ⟨c.stall, h.trans (congrArg some (if_neg e))⟩

/-- The bundle that an instruction issues where a context can issue. -/
theorem exec_issues {s : State} {c : Ctx} {i : Instr} {b : Bundle} (h : s.Issues c i b) (hc : s.ctx s.cur = some c)
    (hr : c.ready = true) : ∃ us, exec i s = .next (s.issue us b s.cur) := by
  have hcan : s.canIssue = true := by simp [State.canIssue, hc, hr]
  obtain ⟨r, rfl, rfl⟩ | ⟨n, r, rfl, hm, rfl⟩ | ⟨u, p, o, m, hd, rfl⟩ := h
  · exact ⟨allUnits, if_pos hcan⟩
  · have hrec : s.issueRecall allUnits s.cur n.toNat = s.issue allUnits (rawAt r s.curPc (s.curPc + 2)) s.cur := by
      rw [curPc_of hc]
      simp only [State.issueRecall, hc, hm]
    exact ⟨allUnits, (if_pos hcan : exec (.recall n) s = _).trans (congrArg Host.Outcome.next hrec)⟩
  · obtain ⟨us, hx⟩ := exec_destOf hd
    exact ⟨us, (hx s).trans (if_pos hcan)⟩

/-- A handler starts with INH set (R355). -/
theorem trapRegs_inh (c : Ctx) (d : DueTrap) (code sub : BitVec 7) (origin : Nat) (setSrc : Bool) :
    (c.trapRegs d code sub origin true setSrc).inh = true := by
  simp only [Ctx.inh, Ctx.trapRegs, if_true, BitVec.getLsbD_ofNat, Nat.testBit_eq_decide_div_mod_eq]
  rw [Bool.and_eq_true]
  exact ⟨rfl, decide_eq_true (by omega)⟩

/-- A bundle that meets the trap of SF is not executed: the team enters its handler (R114, R355). -/
theorem issue_meets_sfTrap {s : State} {c : Ctx} {x : SfTrap} {b : Bundle} (us : Units) (hc : s.ctx s.cur = some c)
    (hw : c.wait = .ready) (hsh : c.shadow = false) (ht : c.us.sfTrap = some x) (hp : c.us.pend = []) (hd : c.due = [])
    (ha : s.acqOut s.cur c = none) (hb : s.breaks s.cur c = false) (hi : c.inh = false) (htv : c.tvec &&& ~~~1 ≠ 0)
    (h1 : 0x12 ≤ x.code) (h2 : x.code ≤ 0x16) (hm : c.meetsSf b x = true) :
    ∃ (w : State) (st : Tbl Nat), w.mem = s.mem ∧
      s.issue us b s.cur = w.setCtx s.cur (Ctx.enterUser (metSf c [] st) (sfDue x) 0) := by
  have hissue : s.issue us b s.cur =
      ((s.setCtx s.cur (metSf c [sfDue x] c.stall)).charge s.cur.fold (some s.cur.slot) c.pc 6).settle s.cur := by
    simp only [State.issue, hc, (land_of_no_pend hw hp).1, meetSf_eq ht hd hm, unstick_metSf,
      verdict_metSf (v := s.setCtx s.cur (metSf c [sfDue x] c.stall)) h1 h2 ha hd hw c.stall rfl, meetAs_metSf hw hp]
    rfl
  obtain ⟨st, hst⟩ := charge_ctx_of_ready (State.ctx_setCtx_same s s.cur (metSf c [sfDue x] c.stall)) hw s.cur.fold
    (some s.cur.slot) c.pc 6
  obtain ⟨w, hmem, hw'⟩ := settle_metSf (c := c) (st := st) h1 h2 hst ha hd hw hb
    (State.chargeAs_fold_still (s.setCtx s.cur (metSf c [sfDue x] c.stall)) ..) hsh hi htv
  exact ⟨w, st, hmem, hissue.trans hw'⟩

/-- Settles O17: a landing adds the trap of its result (`landing_traps`), a completion of SF leaves its trap pending
(`sfComplete_traps`), and the bundle that meets that one enters the handler instead (`issue_meets_sfTrap`). -/
theorem enabledExceptionBecomesDue : Obligations.EnabledExceptionBecomesDue := by
  refine ⟨fun id u s c p => landing_traps, fun id s c o => sfComplete_traps, ?_⟩
  intro i b s c0 x hiss hc hr hsh ht hp hd ha hb hi htv h1 h2 hm
  have hw : c0.wait = .ready := by
    simp only [Ctx.ready, Bool.and_eq_true, beq_iff_eq] at hr
    exact hr.2
  obtain ⟨us, hx⟩ := exec_issues hiss hc hr
  obtain ⟨w, st, hmem, he⟩ := issue_meets_sfTrap us hc hw hsh ht hp hd ha hb hi htv h1 h2 hm
  obtain ⟨-, -, n0F, -, -, n1A, -, -, n5F, -⟩ := fpCode_plain x.code h1 h2
  have hunder : (sfDue x).under x.code = sfDue x := by
    rw [DueTrap.under, if_neg (not_or.mpr ⟨n0F, n1A⟩), if_neg n5F]
  rw [he] at hx
  refine ⟨_, _, hx, State.ctx_setCtx_same _ _ _, rfl, rfl, ?_, ?_, ?_, trapRegs_inh _ _ _ _ _ _, if_neg ?_, rfl, rfl,
    rfl, hmem⟩
  · show ((sfDue x).under x.code).pc.getD c0.pc &&& ~~~1 = _
    rw [hunder]
    rfl
  · simp only [Ctx.enterUser, Ctx.trapRegs, show (sfDue x).code = x.code from rfl, hunder]
    rfl
  · simp only [Ctx.enterUser, Ctx.trapRegs, show (sfDue x).code = x.code from rfl, hunder]
    rfl
  · exact Bool.eq_false_iff.mp hi

end Sys2Proof.Machine.FloatTraps
end

section
/-! SUPPORT. What a move reads from R of LA, LB and AT (R11, R129). -/
namespace Sys2Proof.Machine.PortReads

/-- A move from R of a unit that has a value for each lane. -/
theorem src_of_r {c : Ctx} {b : Bundle} {m : Move} {u l : Nat} (kind : m.skind = 1) (sel : m.ssel = u * 32)
    (lanes : u ≠ 21) : c.src b m l = cut m.width ((c.us.unit u).r.at l) := by
  unfold Ctx.src UnitState.rOf
  rw [kind, sel, Nat.mul_div_cancel u (by decide)]
  exact congrArg (cut m.width) (congrArg (Vals.at _) (if_neg lanes))

theorem width_of_sReg {m : Move} (h : m.dunit = 0 ∧ m.dport = 1) : m.width = 64 := by
  unfold Move.width
  rw [if_pos h.1, h.2]
  rfl

theorem width_of_gReg {m : Move} (h : m.dunit = 0 ∧ m.dport = 0) : m.width = 32 := by
  unfold Move.width
  rw [if_pos h.1, h.2]
  rfl

/-- A 64-bit port that is not written by halves takes 64 bits (R13, R41). -/
theorem width_of_port64 {m : Move} (unit : m.dunit ≠ 0) (wide : port64 m.dunit m.dport = true)
    (whole : m.dport = 3 ∨ m.dsel = 0) : m.width = 64 := by
  unfold Move.width
  rw [if_neg unit, if_neg (by omega), if_pos wide]

theorem width_of_port32 {m : Move} (unit : m.dunit ≠ 0) (narrow : port64 m.dunit m.dport = false) : m.width = 32 := by
  unfold Move.width
  rw [if_neg unit, if_neg (Bool.eq_false_iff.mp narrow), ite_self]

/-- Settles O23: the source is R on the lane (`src_of_r`), cut to the destination's width. -/
theorem wideLoadPortReads : Obligations.WideLoadPortReads := by
  intro c b m u l kind sel port
  have lanes : u ≠ 21 := by
    rintro rfl
    revert port
    decide
  rw [src_of_r kind sel lanes]
  refine ⟨fun wide => ?_, fun narrow => ?_⟩
  · have width : m.width = 64 := by
      rcases wide with sReg | ⟨unit, is64, whole⟩
      · exact width_of_sReg sReg
      · exact width_of_port64 unit is64 whole
    rw [width]
    rfl
  · have width : m.width = 32 := by
      rcases narrow with gReg | ⟨unit, is32⟩
      · exact width_of_gReg gReg
      · exact width_of_port32 unit is32
    rw [width]
    rfl

end Sys2Proof.Machine.PortReads
end

section
/-! SUPPORT. A load of a leaf that its own walk marks (R220, R242). -/
namespace Sys2Proof.Machine.OwnLeaf

/-- A load of 4 bytes by LA under `.si`, of virtual address 0 on one lane. -/
def leafLane : MemLane := { lane := 0, addr := 0, x := 0, cmp := 0, win := none, fault := none, watch := 0 }
def leafLoad : MemOp := { MemOp.blank 8 U.la 0x24 0 1 0 0x1000 0 with lanes := [leafLane] }

/-- The record that a trigger of LA opens. -/
def openRecord : FaultRec :=
  { cause := 0, opcode := 0x24, bundle := 0x1000, cycle := 0, lanes := 0, addrs := [], mask := 1, a := [], b := [], c := [],
    t := [], r := [], scope := 0 }

/-- The team that has queued the load. -/
def reader : Ctx := { Ctx.blank 1 32 with
    tid := 1
    pc := 0x1006
    nextUid := 16
    memq := [leafLoad]
    us := UnitState.fresh.setUnit U.la { UPorts.fresh with full := false, last := 8, frec := some openRecord } }

/-- The team's self-invalidating copy of the leaf's first word, from before A was set. -/
def staleLine : L1Line := { base := 0, valid := 1, owned := 0, dirty := 0, si := [(0, 1, [0x25, 0, 0, 0])] }

/-- Address space 0 has its root at 0, where the one entry (valid, readable, user, A clear) is the table of every level and
the leaf of page 0, so that virtual address 0 is the entry itself. -/
def selfMapped : State := { State.reset with
    mem := [(0, 0x25)]
    ctxs := [(CtxId.key { fold := 0, slot := 0 }, reader)]
    folds := [(0, { Fold.fresh with l1 := [staleLine] })]
    dies := [(0, { Die.fresh with qroot := [(0, 1)] })] }

/-- What the walk finds: the leaf, whose A it will set. -/
def leafTrans : Trans :=
  { place := .pkg 0, pte := 0x65, page := 0, size := 4096, ent := 0, desc := [], setAD := some (0, 0x65) }

/-- R of LA on lane 0 once the load has been performed. -/
def loadedR : Option W64 :=
  match execLoadComplete { fold := 0, slot := 0 } selfMapped with
  | .next t => (t.ctx { fold := 0, slot := 0 }).map (fun c' => (c'.us.unit U.la).r.at 0)
  | _ => none

theorem loadedR_eq : loadedR = some 0x65 := by decide +kernel

theorem reader_open : reader.wait ≠ .exiting ∧ reader.LoadOpen leafLoad ∧ reader.Serves leafLoad := by
  unfold Ctx.LoadOpen Ctx.Serves
  decide +kernel

theorem leaf_at : selfMapped.At { fold := 0, slot := 0 } reader leafLoad leafLane leafTrans 0 := by
  unfold State.At
  decide +kernel

/-- The copy would serve the load with the entry as it was. -/
theorem stale_served : (if leafLoad.rt = 2 && !leafLoad.acquires then
    (selfMapped.fold 0).siBytes reader.tid 0 leafLoad.size else none) = some [0x25, 0, 0, 0] := by decide +kernel

/-- Refutes O30: in `selfMapped` the team holds a self-invalidating copy of the word that the load reads, and the statement
gives R that copy, 0x25. But the word is the load's own leaf, whose A the walk sets before the access (R242): the write at
the leaf's home drops every copy of it, which R220 lets serve but does not keep, and the load reads 0x65. -/
theorem not_loadsPerformed : ¬ Obligations.LoadsPerformed := by
  intro h
  obtain ⟨running, isOpen, serves⟩ := reader_open
  have unlocked : (∃ x ∈ leafLoad.lanes, x.win.isSome = true) → (selfMapped.fold 0).unread leafLoad.locks = false :=
    fun _ => by decide +kernel
  obtain ⟨package, -⟩ := h { fold := 0, slot := 0 } selfMapped reader leafLoad rfl running isOpen serves unlocked
  obtain ⟨t, c', ⟨done, ctx, -, -⟩, -, value⟩ := package leafLane leafTrans 0 rfl rfl leaf_at
  rw [stale_served] at value
  have next : execLoadComplete { fold := 0, slot := 0 } selfMapped = .next t := done
  have loaded : loadedR = some ((c'.us.unit U.la).r.at 0) := by simp only [loadedR, next, ctx, Option.map_some]
  have stale : (c'.us.unit U.la).r.at 0 = 0x25 := value.trans (by decide +kernel)
  rw [loadedR_eq, stale] at loaded
  exact absurd loaded (by decide)

end Sys2Proof.Machine.OwnLeaf
end

section
/-! SUPPORT for O44. A landing counter counts bytes and arrives at its barrier (R187, R424). -/
namespace Sys2Proof.Machine.LandingCounters
open Sys2Proof.Machine.Beneath Sys2Proof.Machine.Alone Sys2Proof.Machine.FlockEnds

/-! ## The counter -/

/-- A die whose landing counter `i` is `l`. -/
def withLanding (i : Nat) (l : Landing) (d : Die) : Die := { d with landing := Tbl.put d.landing i l }

section
variable {s : State} {die n i : Nat} {key : BitVec 16} {l : Landing} {g : Gang}

theorem find_of_landingOf (h : s.landingOf die key = some (i, l)) : Tbl.find (s.die die).landing i = some l := by
  unfold State.landingOf at h
  dsimp only at h
  split at h
  · rename_i found
    split at h
    · cases h
      exact found
    · cases h
  · cases h

/-- A counter below its target posts no C_LANDOVER. -/
theorem landOver_below (h : Tbl.find (s.die die).landing i = some l) (below : l.count < l.target) :
    s.landOver die i key = s := by
  unfold State.landOver
  rw [h]
  dsimp only
  split
  · rfl
  · exact if_neg fun e => Nat.not_le.mpr below e.1

theorem exec_landingCount_below (h : s.landingOf die key = some (i, l)) (hg : s.gang l.gang = some g)
    (below : l.count + n < l.target) : exec (.landingCount die key n) s =
      .next (s.modDie die (withLanding i { l with count := l.count + n })) := by
  show execLandingCount die key n s = _
  unfold execLandingCount
  rw [h]
  dsimp only
  rw [hg]
  dsimp only
  rw [if_neg fun e => Nat.not_le.mpr below e.1]
  refine congrArg Host.Outcome.next (landOver_below (l := { l with count := l.count + n }) ?_ below)
  rw [State.die_modDie_same]
  exact Tbl.find_put_same ..

/-- The counter that has arrived at generation `gen` of its barrier. -/
def arrivedAt (l : Landing) (n gen : Nat) : Landing := { l with count := l.count + n - l.target, arrivedAt := some gen }

theorem exec_landingCount_at (h : s.landingOf die key = some (i, l)) (hg : s.gang l.gang = some g)
    (reached : l.target ≤ l.count + n) (once : l.arrivedAt ≠ some (g.barrier l.barrier).gen) :
    exec (.landingCount die key n) s = .next (((s.modDie die (withLanding i
      (arrivedAt l n (g.barrier l.barrier).gen))).barArrive l.gang l.barrier).landOver die i key) := by
  show execLandingCount die key n s = _
  unfold execLandingCount
  rw [h]
  dsimp only
  rw [hg]
  dsimp only
  rw [if_pos ⟨reached, once⟩]
  rfl

theorem exec_landingCount_none (h : s.landingOf die key = none) : exec (.landingCount die key n) s = .next s := by
  show execLandingCount die key n s = _
  unfold execLandingCount
  rw [h]

end

/-! ## What a barrier expects (R187) -/

/-- A count of entries is the same after an entry is replaced by one that counts alike. -/
theorem length_filter_put {α : Type} {t : Tbl α} (rising : Rising t) {k : Nat} {v w : α} (h : Tbl.find t k = some v)
    {p : Nat × α → Bool} (same : p (k, w) = p (k, v)) : ((Tbl.put t k w).filter p).length = (t.filter p).length := by
  induction t with
  | nil => cases h
  | cons e r ih =>
    obtain ⟨j, x⟩ := e
    obtain ⟨above, rest⟩ := rising_cons.mp rising
    unfold Tbl.put
    unfold Tbl.find at h
    by_cases here : j = k
    · subst here
      rw [if_pos rfl, Option.some.injEq] at h
      subst h
      rw [if_neg (Nat.lt_irrefl j), if_pos rfl, List.filter_cons, List.filter_cons, same]
      split <;> rfl
    · rw [if_neg here] at h
      have later : j < k := above k (List.mem_map_of_mem (f := Prod.fst) (mem_of_find h))
      rw [if_neg (by omega), if_neg (by omega), List.filter_cons, List.filter_cons]
      split
      · rw [List.length_cons, List.length_cons, ih rest h]
      · exact ih rest h

section
variable {s : State} {die i : Nat} {l m : Landing} {gid b : Nat} {g x : Gang}

/-- A counter that stays bound to its barrier leaves the barrier's expected count as it is. -/
theorem expected_withLanding (rising : Rising (s.die die).landing) (h : Tbl.find (s.die die).landing i = some l)
    (bound : m.bound = l.bound) (gang : m.gang = l.gang) (barrier : m.barrier = l.barrier) :
    (s.modDie die (withLanding i m)).expected gid g b = s.expected gid g b := by
  unfold State.expected
  refine congrArg (_ + ·) ?_
  rw [List.length_flatMap, List.length_flatMap]
  refine congrArg List.sum (List.map_congr_left fun d _ => ?_)
  by_cases e : d = die
  · subst e
    rw [State.die_modDie_same]
    exact length_filter_put rising h (by simp only [bound, gang, barrier])
  · rw [State.die_modDie_ne _ _ e]

/-- A gang with barrier `b` in state `x`. -/
def withBarrier (g : Gang) (b : Nat) (x : Barrier) : Gang := { g with barriers := Tbl.put g.barriers b x }

theorem barrier_withBarrier (g : Gang) (b : Nat) (x : Barrier) : (withBarrier g b x).barrier b = x := Tbl.get_put_same ..

/-! ## The arrival (R187, R424) -/

theorem gangAcquire_dies (s : State) (gid : Nat) (g : Gang) : (s.gangAcquire gid g).dies = s.dies :=
  foldl_of_step (R := fun a c : State => c.dies = a.dies) (fun _ => rfl) (fun p q => q.trans p) State.acquireAt
    (fun _ _ => rfl) _ s

theorem barTest_dies (s : State) (gid b : Nat) : (s.barTest gid b).dies = s.dies := by
  unfold State.barTest
  split
  · rfl
  · dsimp only
    split
    · exact gangAcquire_dies ..
    · rfl

/-- The last arrival raises the generation. -/
theorem barTest_completes (hg : s.gang gid = some g) (begun : (g.barrier b).arrivals ≠ 0)
    (all : (g.barrier b).arrivals = s.expected gid g b) :
    (s.barTest gid b).gang gid = some (withBarrier g b { gen := (g.barrier b).gen + 1, arrivals := 0 }) := by
  unfold State.barTest
  rw [hg]
  dsimp only
  rw [if_pos ⟨begun, all⟩]
  exact ((gangAcquire_under ..).gang gid).trans (State.gang_setGang_same ..)

theorem barTest_waits (hg : s.gang gid = some g) (few : (g.barrier b).arrivals ≠ s.expected gid g b) :
    s.barTest gid b = s := by
  unfold State.barTest
  rw [hg]
  exact if_neg fun e => few e.2

theorem barArrive_eq (hg : s.gang gid = some g) : s.barArrive gid b = (s.setGang gid (withBarrier g b
    { gen := (g.barrier b).gen, arrivals := (g.barrier b).arrivals + 1 })).barTest gid b := by
  unfold State.barArrive
  rw [State.modGang_eq hg]
  rfl

/-- One arrival of those that the barrier expects. -/
theorem barArrive_gang (hg : s.gang gid = some g) :
    ((g.barrier b).arrivals + 1 = s.expected gid g b → ((s.barArrive gid b).gang gid).map (Gang.barrier · b) =
        some { gen := (g.barrier b).gen + 1, arrivals := 0 }) ∧
      ((g.barrier b).arrivals + 1 ≠ s.expected gid g b → ((s.barArrive gid b).gang gid).map (Gang.barrier · b) =
        some { gen := (g.barrier b).gen, arrivals := (g.barrier b).arrivals + 1 }) := by
  have here := State.gang_setGang_same s gid (withBarrier g b
    { gen := (g.barrier b).gen, arrivals := (g.barrier b).arrivals + 1 })
  have counted := barrier_withBarrier g b { gen := (g.barrier b).gen, arrivals := (g.barrier b).arrivals + 1 }
  rw [barArrive_eq hg]
  refine ⟨fun all => ?_, fun few => ?_⟩
  · rw [barTest_completes here (by rw [counted]; exact Nat.succ_ne_zero _) (by rw [counted]; exact all), counted,
      Option.map_some, barrier_withBarrier]
  · rw [barTest_waits here (by rw [counted]; exact few), here, Option.map_some, counted]

/-- The counter's arrival changes no memory and no die. -/
theorem barArrive_still (hg : s.gang gid = some g) :
    (s.barArrive gid b).mem = s.mem ∧ (s.barArrive gid b).dies = s.dies := by
  rw [barArrive_eq hg]
  exact ⟨barTest_mem .., barTest_dies ..⟩

end

/-! ## The counter at its target -/

section
variable {s : State} {die n i : Nat} {key : BitVec 16} {l : Landing} {g : Gang}

/-- A counter that reaches its target keeps what is above it and arrives at its barrier once (R424). -/
theorem landingCount_arrives (h : s.landingOf die key = some (i, l)) (hg : s.gang l.gang = some g)
    (rising : Rising (s.die die).landing) (reached : l.target ≤ l.count + n) (once : l.count + n < 2 * l.target)
    (new : l.arrivedAt ≠ some (g.barrier l.barrier).gen) :
    ∃ t x, exec (.landingCount die key n) s = .next t ∧ t.mem = s.mem ∧
      Tbl.find (t.die die).landing i = some x ∧ x.count = l.count + n - l.target ∧
      x.arrivedAt = some (g.barrier l.barrier).gen ∧
      ((g.barrier l.barrier).arrivals + 1 = s.expected l.gang g l.barrier →
        (t.gang l.gang).map (Gang.barrier · l.barrier) = some { gen := (g.barrier l.barrier).gen + 1, arrivals := 0 }) ∧
      ((g.barrier l.barrier).arrivals + 1 ≠ s.expected l.gang g l.barrier →
        (t.gang l.gang).map (Gang.barrier · l.barrier) =
          some { gen := (g.barrier l.barrier).gen, arrivals := (g.barrier l.barrier).arrivals + 1 }) := by
  have counted := exec_landingCount_at h hg reached new
  have found := find_of_landingOf h
  generalize hx : arrivedAt l n (g.barrier l.barrier).gen = x at counted
  have expected : (s.modDie die (withLanding i x)).expected l.gang g l.barrier = s.expected l.gang g l.barrier :=
    expected_withLanding rising found (by rw [← hx]; rfl) (by rw [← hx]; rfl) (by rw [← hx]; rfl)
  have hg' : (s.modDie die (withLanding i x)).gang l.gang = some g := hg
  obtain ⟨mem, dies⟩ := barArrive_still (b := l.barrier) hg'
  have kept : Tbl.find (((s.modDie die (withLanding i x)).barArrive l.gang l.barrier).die die).landing i = some x := by
    rw [State.die, dies, ← State.die, State.die_modDie_same]
    exact Tbl.find_put_same ..
  have below : x.count < x.target := by
    rw [← hx]
    show l.count + n - l.target < l.target
    omega
  rw [landOver_below kept below] at counted
  obtain ⟨last, early⟩ := barArrive_gang (b := l.barrier) hg'
  rw [expected] at last early
  exact ⟨_, x, counted, mem, kept, by rw [← hx]; rfl, by rw [← hx]; rfl, last, early⟩

end

end Sys2Proof.Machine.LandingCounters
end

section
/-! SUPPORT for O44. What kind of access a load is (R58, R131). -/
namespace Sys2Proof.Machine.LoadKind

section
variable {o : MemOp}

theorem unit_of_isLoad (h : o.isLoad = true) : o.unit = U.la ∨ o.unit = U.lb := by
  have unit := (Bool.and_eq_true_iff.mp h).1
  unfold MemOp.isLoadUnit at unit
  simpa using unit

theorem isLoadUnit_of_isLoad (h : o.isLoad = true) : o.isLoadUnit = true := (Bool.and_eq_true_iff.mp h).1

theorem isPf_of_isLoad (h : o.isLoad = true) : o.isPf = false := by simpa using (Bool.and_eq_true_iff.mp h).2

theorem isMaint_of_isLoad (h : o.isLoad = true) : o.isMaint = false := by
  unfold MemOp.isMaint
  rcases unit_of_isLoad h with e | e <;> rw [e] <;> rfl

theorem isAtom_of_isLoad (h : o.isLoad = true) : o.isAtom = false := by
  unfold MemOp.isAtom
  rcases unit_of_isLoad h with e | e <;> rw [e] <;> rfl

theorem release_of_isLoad (h : o.isLoad = true) : opRelease o.unit o.opcode.toNat = false := by
  unfold opRelease
  rcases unit_of_isLoad h with e | e <;> rw [e] <;> rfl

theorem isWrite_of_isLoad (h : o.isLoad = true) : o.kind.isWrite = false := by
  unfold MemOp.kind
  rw [if_pos (isLoadUnit_of_isLoad h)]
  rfl

end

end Sys2Proof.Machine.LoadKind
end

section
/-! SUPPORT for O44. What has left the package stays among what it has sent (R421, R428). -/
namespace Sys2Proof.Machine.Outgoing
open Sys2Proof.Machine.Beneath Sys2Proof.Machine.LoadKind

/-- Everything that has left the package in `s` has left it in `t`. -/
def Sent (s t : State) : Prop := s.pkg.out ⊆ t.pkg.out

theorem Sent.refl (s : State) : Sent s s := List.Subset.refl _
theorem Sent.trans {s t u : State} (h : Sent s t) (k : Sent t u) : Sent s u := List.Subset.trans h k
theorem sent_of_eq {s t : State} (h : t.pkg = s.pkg) : Sent s t := by
  unfold Sent
  rw [h]
  exact List.Subset.refl _
theorem Sent.foldl {α : Type} {f : State → α → State} (h : ∀ s a, Sent s (f s a)) (l : List α) (s : State) :
    Sent s (l.foldl f s) := foldl_of_step .refl .trans f h l s

/-! ## Messages and copies of bytes -/

theorem meshForward_sent (s : State) (n : Nat) (m : MeshMsg) : Sent s (s.meshForward n m) := by
  unfold State.meshForward
  split
  · split
    · exact List.Subset.refl _
    · exact .refl s
  · exact .refl s

theorem meshSend_sent (s : State) (a b vc f sc : Nat) : Sent s (s.meshSend a b vc f sc) := by
  unfold State.meshSend
  split
  · exact .refl s
  · refine Sent.trans ?_ (meshForward_sent _ _ _)
    exact List.Subset.refl _

theorem recallMsg_sent (s : State) (d o : Nat) : Sent s (s.recallMsg d o) :=
  (meshSend_sent ..).trans (meshSend_sent ..)

theorem takeBytes_sent (s : State) (b : Option Nat) (lo hi : Nat) (si : Bool) : Sent s (s.takeBytes b lo hi si) := by
  unfold State.takeBytes
  dsimp only
  generalize (s.die (homeDie lo)).rdir.filter (fun e => b != some e.owner && e.covers lo hi) = hit
  have told : ∀ fs, Sent s (hit.foldl (fun s e => s.recallMsg (homeDie lo) e.owner) { s with folds := fs }) := fun fs =>
    (sent_of_eq (t := { s with folds := fs }) rfl).trans
      (Sent.foldl (fun s (e : RangeEnt) => recallMsg_sent s (homeDie lo) e.owner) hit _)
  split
  · exact sent_of_eq rfl
  · exact (told _).trans (sent_of_eq rfl)

theorem disown_sent (s : State) (f lo hi : Nat) : Sent s (s.disown f lo hi) := by
  unfold State.disown
  dsimp only
  split
  · exact .refl s
  · split
    · exact (meshSend_sent ..).trans (sent_of_eq rfl)
    · exact (meshSend_sent ..).trans (sent_of_eq rfl)

theorem l2Touch_pkg (s : State) (p : Nat) (w : Bool) : (s.l2Touch p w).pkg = s.pkg := by
  unfold State.l2Touch
  split <;> rfl

theorem recallAll_sent (s : State) (key n : Nat) : Sent s (s.recallAll key n) := by
  unfold State.recallAll
  split
  · exact .refl s
  · dsimp only
    split
    · exact (takeBytes_sent ..).trans (sent_of_eq (l2Touch_pkg ..))
    · exact takeBytes_sent ..

theorem l1Room_sent (s : State) (f : Nat) : Sent s (s.l1Room f) := by
  unfold State.l1Room
  dsimp only
  split
  · exact .refl s
  · split
    · exact .refl s
    · split
      · exact sent_of_eq rfl
      · exact ((sent_of_eq (l2Touch_pkg ..)).trans (disown_sent ..)).trans (sent_of_eq rfl)

theorem modLine_sent (s : State) (f p : Nat) (g : L1Line → L1Line) : Sent s (s.modLine f p g) := by
  unfold State.modLine
  dsimp only
  split
  · exact sent_of_eq rfl
  · exact (l1Room_sent s f).trans (sent_of_eq rfl)

theorem fillL1_sent (s : State) (f tid rt lo hi : Nat) : Sent s (s.fillL1 f tid rt lo hi) := by
  have touched : Sent s (s.l2Touch lo false) := sent_of_eq (l2Touch_pkg ..)
  unfold State.fillL1
  dsimp only
  split
  · exact touched.trans (modLine_sent ..)
  · exact touched.trans (modLine_sent ..)
  · exact touched.trans (modLine_sent ..)
  · exact touched

/-! ## Requests and notices -/

theorem emitPacket_sent (s : State) (dev : Nat) (p : NxPacket) : Sent s (s.emitPacket dev p) := by
  unfold State.emitPacket
  split
  · exact sent_of_eq rfl
  · exact List.subset_append_left ..

/-- A packet for another device is among what has left. -/
theorem emitPacket_leaves {s : State} {dev : Nat} (other : dev ≠ s.pkg.devId.toNat) (p : NxPacket) :
    Out.packet p ∈ (s.emitPacket dev p).pkg.out := by
  unfold State.emitPacket
  rw [if_neg other]
  exact List.mem_append_right _ (List.mem_singleton_self _)

theorem askRemote_sent (s : State) (dev : Nat) (k : NxKind) (a n : Nat) (p : List Byte) :
    Sent s (s.askRemote dev k a n p) := by
  unfold State.askRemote
  dsimp only
  split
  · exact .refl s
  · refine Sent.trans ?_ (emitPacket_sent _ _ _)
    exact List.Subset.refl _

theorem migOvf_sent (s : State) (d : Nat) : Sent s (s.migOvf d) := by
  unfold State.migOvf
  split
  · exact .refl s
  · exact List.subset_append_left ..

/-! ## Translation and counts -/

theorem applyAD_sent (s : State) (t : Trans) : Sent s (s.applyAD t) := by
  unfold State.applyAD
  split
  · exact (recallAll_sent s _ _).trans (sent_of_eq rfl)
  · exact .refl s

theorem putAt_sent (s : State) (p : Place) (bs : List Byte) : Sent s (s.putAt p bs) := by
  unfold State.putAt
  split
  · exact askRemote_sent ..
  · exact (recallAll_sent s _ _).trans (sent_of_eq rfl)

theorem shadowStore_sent {s t : State} {d a : Nat} {bs : List Byte} (h : s.shadowStore d a bs = some t) : Sent s t := by
  unfold State.shadowStore at h
  split at h
  · cases h
  · cases h
    exact (applyAD_sent ..).trans (putAt_sent ..)

theorem postMig_sent (s : State) (d f asid pg sz mt : Nat) : Sent s (s.postMig d f asid pg sz mt) := by
  unfold State.postMig
  dsimp only
  split
  · exact .refl s
  · split
    · exact migOvf_sent s d
    · split
      · exact migOvf_sent s d
      · rename_i stored
        split
        · exact (shadowStore_sent stored).trans (sent_of_eq rfl)
        · exact (shadowStore_sent stored).trans (sent_of_eq rfl)

theorem countAccess_sent (s : State) (f asid : Nat) (t : Trans) (n : Nat) : Sent s (s.countAccess f asid t n) := by
  cases e : counted (s.die (dieOf f)) asid t n with
  | none =>
    rw [countAccess_of_none e]
    exact .refl s
  | some r =>
    obtain ⟨hit, cs⟩ := r
    rw [countAccess_of_some e]
    cases hit
    · exact sent_of_eq rfl
    · exact (sent_of_eq rfl).trans (postMig_sent (s.modDie (dieOf f) (withCounts cs)) ..)

theorem useLeaf_pkg (s : State) (f asid : Nat) (t : Trans) : (s.useLeaf f asid t).pkg = s.pkg := by
  unfold State.useLeaf
  dsimp only
  split <;> rfl

theorem report_pkg (s : State) (id : CtxId) (o : MemOp) (x : MemLane) (w : WatchHit) : (s.report id o x w).pkg = s.pkg := by
  unfold State.report
  dsimp only
  split <;> split <;> simp

/-! ## The answer of another device -/

theorem remoteCopies_sent {o : MemOp} (load : o.isLoad = true) (s : State) (f tid dev a low : Nat) :
    Sent s (s.remoteCopies f tid o dev a low) := by
  unfold State.remoteCopies
  dsimp only
  rw [if_pos load]
  split
  · exact modLine_sent ..
  · split
    · exact fillL1_sent ..
    · exact .refl s

theorem laneRemote_sent {o : MemOp} (load : o.isLoad = true) (s : State) (id : CtxId) (c : Ctx) (x : MemLane) (t : Trans)
    (dev a : Nat) (v : W64) : Sent s (s.laneRemote id c o x t dev a v).1 := by
  unfold State.laneRemote
  dsimp only
  rw [isWrite_of_isLoad load, if_neg Bool.false_ne_true]
  exact (((sent_of_eq (useLeaf_pkg ..)).trans (countAccess_sent ..)).trans (sent_of_eq (report_pkg ..))).trans
    (remoteCopies_sent load ..)

/-- The request to a device that the remote map names has left over its connection (R140, R428). -/
theorem askRemote_asks {s : State} {dev : Nat} {cn : ConnEnt} (kind : NxKind) (a n : Nat) (bs : List Byte)
    (entry : s.connEnt (bits (s.rd (bits s.pkg.rmapBase.toNat 47 15 * 2 ^ 15 + 2 * (dev % 2 ^ 14)) 2) 11 0) = some cn)
    (other : cn.dev ≠ s.pkg.devId.toNat) :
    ∃ p, Out.packet p ∈ (s.askRemote dev kind a n bs).pkg.out ∧ p.kind = kind ∧ p.conn = cn.dconn ∧
      p.src = s.pkg.devId ∧ p.raddr = BitVec.ofNat 64 a ∧ p.total = n := by
  unfold State.askRemote
  dsimp only
  rw [entry]
  dsimp only
  refine ⟨_, emitPacket_leaves (s := s.setConn _ _) other _, ?_⟩
  exact ⟨rfl, rfl, rfl, rfl, rfl⟩

end Sys2Proof.Machine.Outgoing
end

section
/-! SUPPORT for O44. R of a load or returning atomic when its move is closed (R18, R141, R360). -/
namespace Sys2Proof.Machine.MoveCloses
open Sys2Proof.Machine.Beneath Sys2Proof.Machine.Sequential Sys2Proof.Machine.Alone Sys2Proof.Machine.LoadKind

section
variable {id : CtxId} {t : State} {c : Ctx} {o : MemOp} {l : Nat}

/-- A load of a team that goes on leaves the queue, and its values and tokens go to R. -/
theorem closed_load (ctx : t.ctx id = some c) (alone : c.memq.drop 1 = []) (load : o.isLoad = true)
    (replay : o.replay = none) (go : c.wait ≠ .exiting) :
    closed t id o = (t.setCtx id (emptied c)).setCtx id ((emptied c).closeMem o) := by
  have drop : t.modCtx id (fun c => { c with memq := c.memq.drop 1 }) = t.setCtx id (emptied c) := by
    rw [State.modCtx_eq ctx, alone]
    rfl
  have close : (t.setCtx id (emptied c)).closeOp id o = (t.setCtx id (emptied c)).setCtx id ((emptied c).closeMem o) := by
    unfold State.closeOp
    rw [State.ctx_setCtx_same]
    dsimp only
    rw [if_neg (by simp [emptied]), isAtom_of_isLoad load, Bool.false_and, Bool.false_and, if_neg Bool.false_ne_true,
      if_neg Bool.false_ne_true]
  unfold closed
  rw [drop, close]
  refine exitIfDone_of_wait (State.ctx_setCtx_same ..) fun e => go ?_
  exact (closeMem_fields (c := emptied c) replay).1.mp e

/-- A load whose lane has the value `v` fills R with it. -/
theorem closeMem_load_value {v : W64} (load : o.isLoad = true) (replay : o.replay = none) (toks : o.toks = [])
    (res : o.res = [(l, v)]) (last : (c.us.unit o.unit).last = o.uid) (full : (c.us.unit o.unit).full = false)
    (lane : l < c.nlanes) (live : (o.mask &&& c.live).getLsbD l = true) :
    ((c.closeMem o).us.unit o.unit).full = true ∧ ((c.closeMem o).us.unit o.unit).r.at l = v := by
  have filled : (c.closeMem o).us =
      c.us.finish c.nlanes o.unit o.uid (o.mask &&& c.live) (fun l => Tbl.get o.res l 0) none := by
    rw [closeMem_eq replay, load, Bool.true_or, if_pos rfl]
    unfold Ctx.finishMem
    rw [toks]
    rfl
  obtain ⟨fl, e, -⟩ := finish_latest (n := c.nlanes) (mask := o.mask &&& c.live) (f := fun l => Tbl.get o.res l 0) last full
  have unit : (c.closeMem o).us.unit o.unit = { c.us.unit o.unit with
      full := true
      r := Vals.merge c.nlanes (o.mask &&& c.live) (fun l => Tbl.get o.res l 0) (c.us.unit o.unit).r
      frec := none } := by
    rw [filled, e]
    exact UnitState.unit_setUnit_same ..
  rw [unit]
  refine ⟨rfl, ?_⟩
  rw [Vals.at_merge _ _ _ lane, if_pos live, res]
  simp [Tbl.get, Tbl.find]

/-- R of the operation that emptied it last, when it completes with a record. -/
theorem finish_record {us : UnitState} {n u uid : Nat} {mask : Lanes} {f : Nat → W64} {r : FaultRec}
    (last : (us.unit u).last = uid) (full : (us.unit u).full = false) :
    ((us.finish n u uid mask f (some r)).unit u).full = true ∧
      ((us.finish n u uid mask f (some r)).unit u).frec = some r := by
  unfold UnitState.finish
  dsimp only
  rw [if_pos ⟨last, full⟩]
  obtain ⟨fl, flags, -⟩ := flagsDone_is (us.setUnit u { us.unit u with
    full := true, r := Vals.merge n (mask &&& ~~~r.lanes) f (us.unit u).r, frec := some r }) uid
  have unit := UnitState.unit_setUnit_same us u { us.unit u with
    full := true, r := Vals.merge n (mask &&& ~~~r.lanes) f (us.unit u).r, frec := some r }
  rw [flags]
  exact ⟨congrArg UPorts.full unit, congrArg UPorts.frec unit⟩

/-- A load that is no acquire, whose lane holds a token of a cause, fills R with it. -/
theorem closeMem_load_token {e : BitVec 7} {a : W64} (load : o.isLoad = true) (plain : o.acquires = false)
    (replay : o.replay = none) (toks : o.toks = [(l, e, a)]) (last : (c.us.unit o.unit).last = o.uid)
    (full : (c.us.unit o.unit).full = false) (frec : (c.us.unit o.unit).frec.isSome = true) :
    (c.closeMem o).RToken o.unit (BitVec.ofNat 1024 (2 ^ l)) e := by
  obtain ⟨r, hr⟩ := Option.isSome_iff_exists.mp frec
  have found : { c with wait := c.wake }.recOf o.unit o.uid = some r := by
    unfold Ctx.recOf
    exact (if_pos last).trans hr
  have filled : (c.closeMem o).us = c.us.finish c.nlanes o.unit o.uid (o.mask &&& c.live) (fun l => Tbl.get o.res l 0)
      (some (r.with o.toks)) := by
    rw [closeMem_eq replay, load, Bool.true_or, if_pos rfl]
    unfold Ctx.finishMem
    rw [found, plain, toks]
    rfl
  obtain ⟨isFull, record⟩ := finish_record (n := c.nlanes) (mask := o.mask &&& c.live)
    (f := fun l => Tbl.get o.res l 0) (r := r.with o.toks) last full
  unfold Ctx.RToken
  rw [filled]
  refine ⟨isFull, _, record, ?_, ?_⟩
  · rw [toks]
    rfl
  · rw [toks]
    exact BitVec.zero_or

end

end Sys2Proof.Machine.MoveCloses
end

section
/-! SUPPORT for O44. A load that stands alone in its context's queue and whose place is at another device (R140, R428). -/
namespace Sys2Proof.Machine.RemoteLoads
open Sys2Proof.Machine.Beneath Sys2Proof.Machine.Alone Sys2Proof.Machine.Outgoing Sys2Proof.Machine.MoveCloses
  Sys2Proof.Machine.LoadKind

/-- The load `o` of one lane `x`, no acquire and not `.own`, stands alone in the queue of context `c`, a team that goes on,
and the lane's place is address `a` of device `dev`, which is reachable and whose bytes no copy of the team serves. -/
structure Asks (id : CtxId) (s : State) (c : Ctx) (o : MemOp) (x : MemLane) (tr : Trans) (dev a : Nat) : Prop where
  ctx : s.ctx id = some c
  memq : c.memq = [o]
  load : o.isLoad = true
  plain : o.acquires = false
  lanes : o.lanes = [x]
  replay : o.replay = none
  res : o.res = []
  toks : o.toks = []
  shared : o.rt ≠ 0
  map : c.mapPending o.uid = false
  desc : c.descPending o.uid = false
  go : c.wait ≠ .exiting
  ecc : s.eccHit tr.place o.size = false
  check : s.check id c o x = .place tr
  marked : tr.setAD = none
  place : tr.place = .remote dev a
  peer : s.peerOk (dieOf id.fold) dev = true
  fresh : s.remoteSi id.fold c.tid o dev a = none
  behind : s.behindHeld id c o x = false

section
variable {id : CtxId} {s : State} {c : Ctx} {o : MemOp} {x : MemLane} {tr : Trans} {dev a : Nat}

/-! ## Whether a device is reached (R411, R417) -/

theorem routeUp_of_pkg {t : State} (h : t.pkg = s.pkg) : ∀ l, t.routeUp l = s.routeUp l
  | [] => rfl
  | [_] => rfl
  | a :: b :: r => by
    unfold State.routeUp State.link
    rw [routeUp_of_pkg h (b :: r), h]

theorem route_of_pkg {t : State} (h : t.pkg = s.pkg) (a b : Nat) : t.route a b = s.route a b := by
  unfold State.route State.cdRoute State.ioRoute State.ioRouteTo State.cdRoute
  simp only [routeUp_of_pkg h]

/-- Memory and the package decide which devices are reached. -/
theorem peerOk_congr {t : State} (mem : t.mem = s.mem) (pkg : t.pkg = s.pkg) (die dev : Nat) :
    t.peerOk die dev = s.peerOk die dev := by
  unfold State.peerOk State.nxIo State.nxPower State.connEnt State.rd
  rw [route_of_pkg pkg, mem, pkg]

/-! ## What the lane meets -/

/-- A lane whose checks name a place has no window, no early fault, and a translation (R449). -/
theorem translate_of_place (h : s.check id c o x = .place tr) : x.win = none ∧ State.early c o x = none ∧
    s.translate (dieOf id.fold) c.asid x.addr o.kind (decide (c.asid < 256)) = .ok tr := by
  unfold State.check at h
  split at h
  · rename_i k early
    unfold State.early at early
    split at early
    · cases early; cases h
    · cases early
      split at h <;> cases h
    · rw [h] at early
      cases e : x.fault <;> rw [e] at early <;> cases early
  · rename_i early
    split at h
    · rename_i win
      refine ⟨win, early, ?_⟩
      unfold State.checkGlobal at h
      split at h
      · cases h
      · rename_i t e
        dsimp only at h
        generalize (if o.isPf then _ else _ : Bool) = locked at h
        repeat' split at h
        all_goals cases h
        exact e
    · dsimp only at h
      split at h <;> cases h

/-- The walk of a leaf whose bits are set changes nothing. -/
theorem walked_of_marked {k : Check} (h : s.check id c o x = .place tr) (marked : tr.setAD = none) :
    s.walked id c o x k = s := by
  obtain ⟨-, -, translated⟩ := translate_of_place h
  have walk : (s.walkTo (dieOf id.fold) c.asid x.addr o.kind (decide (c.asid < 256))).1 = s := by
    unfold State.walkTo
    rw [translated]
    dsimp only
    unfold State.applyAD
    rw [marked]
  unfold State.walked
  dsimp only
  rw [walk, ite_self]

/-! ## Before the lane -/

theorem Asks.memHead (h : Asks id s c o x tr dev a) : s.memHead id = some o := by
  unfold State.memHead
  rw [h.ctx, Option.bind_some, h.memq, State.passHeld_one]
  rfl

/-- The lane waits for its device's answer, when the fold has no earlier access to that device (R428). -/
theorem Asks.awaits (h : Asks id s c o x tr dev a) : s.awaitsRemote id = !s.remoteBefore id dev o.issued := by
  have device : s.laneDevice id c o x = some dev := by
    unfold State.laneDevice
    rw [h.check]
    dsimp only
    rw [h.place]
    dsimp only
    rw [h.peer, isMaint_of_isLoad h.load, isPf_of_isLoad h.load, h.fresh]
    rfl
  unfold State.awaitsRemote
  rw [h.ctx, h.memHead]
  dsimp only
  rw [h.lanes]
  dsimp only
  rw [device]
  dsimp only
  rw [h.behind]
  rfl

theorem Asks.begin_eq (h : Asks id s c o x tr dev a) : s.begin id o = s.setCtx id { c with memq := [launched o] } := by
  have store : (o.unit == U.st) = false := by
    rcases unit_of_isLoad h.load with e | e <;> rw [e] <;> rfl
  have own : (o.rt == 0) = false := by simpa using h.shared
  unfold State.begin
  rw [h.ctx]
  dsimp only
  rw [store, own, Bool.false_and, Bool.and_false, if_neg Bool.false_ne_true, if_neg Bool.false_ne_true,
    State.modCtx_eq h.ctx, h.memq]
  simp [launched]

/-- What precedes the lane marks the move, if it is not marked. -/
theorem Asks.started_eq (h : Asks id s c o x tr dev a) :
    started s id o = if o.begun then s else s.setCtx id { c with memq := [launched o] } := by
  unfold started State.orderFirst
  rw [h.plain, release_of_isLoad h.load, h.begin_eq, if_neg Bool.false_ne_true, if_neg Bool.false_ne_true]

theorem Asks.ready (h : Asks id s c o x tr dev a) : Ready id s c o (started s id o) := by
  rw [h.started_eq]
  split
  · refine ⟨⟨o, ?_⟩, rfl, rfl, rfl, rfl, fun _ => rfl, fun _ => rfl, fun r => r⟩
    rw [h.ctx, ← h.memq]
  · exact ⟨⟨_, State.ctx_setCtx_same ..⟩, rfl, rfl, rfl, rfl, fun _ => rfl, fun _ => rfl, fun r => rising_setCtx r ..⟩

/-! ## The lane -/

/-- The lane once the answer of the device has come: its request has left (R140, R428). -/
def answered (u : State) (id : CtxId) (c : Ctx) (o : MemOp) (x : MemLane) (tr : Trans) (dev a : Nat) :
    RemoteAnswer → State × MemOp
  | .done v => (u.askLane o x dev a).laneRemote id c o x tr dev a v
  | .refused => (u.askLane o x dev a).laneFault id o x 0x36
  | .unreachable => (u.askLane o x dev a).laneFault id o x 0x53

theorem Asks.runLane (h : Asks id s c o x tr dev a) {q : MemOp} (hq : (started s id o).ctx id = some { c with memq := [q] })
    (ans : RemoteAnswer) : (started s id o).runLane id (launched o) x (some ans) =
      some (answered (started s id o) id { c with memq := [q] } (launched o) x tr dev a ans) := by
  have check : (started s id o).check id { c with memq := [q] } (launched o) x = .place tr := (h.ready.check [q]).trans h.check
  obtain ⟨win, -, -⟩ := translate_of_place check
  have behind : (started s id o).behindHeld id { c with memq := [q] } (launched o) x = false := by
    have held := congrArg Fold.held (h.ready.folds id.fold)
    refine Eq.trans ?_ h.behind
    unfold State.behindHeld
    rw [show ((started s id o).fold id.fold).held = (s.fold id.fold).held from held]
    rfl
  have ecc : (started s id o).eccHit tr.place (launched o).size = false := (eccHit_congr h.ready.dies ..).trans h.ecc
  have peer : (started s id o).peerOk (dieOf id.fold) dev = true := (peerOk_congr h.ready.mem h.ready.pkg ..).trans h.peer
  have fresh : (started s id o).remoteSi id.fold c.tid (launched o) dev a = none := by
    rw [h.started_eq]
    split <;> exact h.fresh
  unfold State.runLane
  rw [hq]
  dsimp only
  rw [win, Option.isSome_none, Bool.false_and, if_neg Bool.false_ne_true,
    show opRelease (launched o).unit (launched o).opcode.toNat = false from release_of_isLoad h.load, Bool.false_and,
    if_neg Bool.false_ne_true, check, walked_of_marked check h.marked]
  dsimp only
  rw [behind, Bool.and_false, Bool.false_and, if_neg Bool.false_ne_true, if_neg Bool.false_ne_true, ecc,
    if_neg Bool.false_ne_true, h.place]
  dsimp only
  rw [show (launched o).isMaint = false from isMaint_of_isLoad h.load, if_neg Bool.false_ne_true, peer, Bool.not_true,
    if_neg Bool.false_ne_true, show (launched o).isPf = false from isPf_of_isLoad h.load, if_neg Bool.false_ne_true, fresh]
  cases ans <;> rfl

/-- No other load stands in the queue to form one access with. -/
theorem Asks.runPair (h : Asks id s c o x tr dev a) (ans : RemoteAnswer) :
    (started s id o).runPair id (launched o) x (some ans) = (started s id o).runLane id (launched o) x (some ans) := by
  have single : ∃ q, (started s id o).ctx id = some { c with memq := [q] } ∧ q.unit = o.unit := by
    rw [h.started_eq]
    split
    · exact ⟨o, by rw [h.ctx, ← h.memq], rfl⟩
    · exact ⟨launched o, State.ctx_setCtx_same .., rfl⟩
  obtain ⟨q, hq, unit⟩ := single
  have twin : ({ c with memq := [q] } : Ctx).twin (launched o) x = none := by
    unfold Ctx.twin
    simp [launched, unit]
  unfold State.runPair
  rw [hq, Option.bind_some, twin]
  rfl

/-- The answer of the device performs the load, and the move is closed. -/
theorem Asks.exec_eq (h : Asks id s c o x tr dev a) {q : MemOp} (hq : (started s id o).ctx id = some { c with memq := [q] })
    (turn : s.remoteBefore id dev o.issued = false) {ans : RemoteAnswer} {t : State} {o1 : MemOp}
    (lane : answered (started s id o) id { c with memq := [q] } (launched o) x tr dev a ans = (t, o1)) :
    exec (.remoteAccess id ans) s = .next (closed t id { o1 with lanes := [] }) := by
  have run : ((if o.begun then s else s.begin id o).orderFirst id o).runLanes id { o with begun := true } (some ans) o.lanes =
      (t, { o1 with lanes := [] }) := by
    change (started s id o).runLanes id (launched o) (some ans) o.lanes = _
    rw [h.lanes]
    unfold State.runLanes
    rw [h.runPair, h.runLane hq, lane]
    rfl
  have performed : s.performNext id (some ans) = some (closed t id { o1 with lanes := [] }) := by
    unfold State.performNext
    rw [h.ctx]
    dsimp only
    rw [h.memq, State.passHeld_one]
    dsimp only
    rw [h.map, h.desc, if_neg (by simp), if_pos rfl]
    rw [run, h.lanes]
    rfl
  show execRemoteAccess id ans s = _
  unfold execRemoteAccess
  rw [h.awaits, turn, performed]
  rfl

/-- While the fold has an earlier access to the device, no answer reaches this one. -/
theorem Asks.exec_later (h : Asks id s c o x tr dev a) (turn : s.remoteBefore id dev o.issued = true) (ans : RemoteAnswer) :
    exec (.remoteAccess id ans) s = .next s := by
  show execRemoteAccess id ans s = _
  unfold execRemoteAccess
  rw [h.awaits, turn]
  rfl

/-! ## The request -/

/-- The request of the lane has left for `dev` (R428). -/
def Asked (s t : State) (o : MemOp) (dev a : Nat) : Prop :=
  ∀ cn, s.connEnt (bits (s.rd (bits s.pkg.rmapBase.toNat 47 15 * 2 ^ 15 + 2 * (dev % 2 ^ 14)) 2) 11 0) = some cn →
    cn.dev ≠ s.pkg.devId.toNat → ∃ p, Out.packet p ∈ t.pkg.out ∧ p.kind = .read ∧ p.conn = cn.dconn ∧
      p.src = s.pkg.devId ∧ p.raddr = BitVec.ofNat 64 a ∧ p.total = o.size

theorem Asks.asked (h : Asks id s c o x tr dev a) {t : State} (sent : Sent ((started s id o).askLane (launched o) x dev a) t) :
    Asked s t o dev a := by
  intro cn entry other
  have ask : (launched o).ask x = (.read, []) := by
    unfold MemOp.ask
    exact if_pos (isLoadUnit_of_isLoad h.load)
  have same : (started s id o).connEnt (bits ((started s id o).rd
      (bits (started s id o).pkg.rmapBase.toNat 47 15 * 2 ^ 15 + 2 * (dev % 2 ^ 14)) 2) 11 0) = some cn := by
    rw [h.started_eq]
    split <;> exact entry
  have self : cn.dev ≠ (started s id o).pkg.devId.toNat := by
    rw [h.ready.pkg]
    exact other
  obtain ⟨p, left, kind, conn, src, place, total⟩ := askRemote_asks ((launched o).ask x).1 a (launched o).size
    ((launched o).ask x).2 same self
  refine ⟨p, sent left, ?_, conn, ?_, place, total⟩
  · rw [kind, ask]
  · rw [src, h.ready.pkg]

/-! ## The answers -/

/-- A report of a watchpoint makes traps due and changes nothing else of the context (R365). -/
theorem report_ctx {u : State} {d : Ctx} (h : u.ctx id = some d) (o : MemOp) (x : MemLane) (w : WatchHit) :
    ∃ due, (u.report id o x w).ctx id = some { d with due := due } := by
  have added : ∀ (d : Ctx) b, ∃ due, d.addWatch o x b = { d with due := due } := fun d b => by
    unfold Ctx.addWatch
    dsimp only
    split <;> exact ⟨_, rfl⟩
  have told : ∀ (u : State) (d : Ctx) (b toShadow : Bool), u.ctx id = some d →
      ∃ due, (if b then u.modCtx id (fun c => c.addWatch o x toShadow) else u).ctx id = some { d with due := due } := by
    intro u d b toShadow e
    split
    · obtain ⟨due, hd⟩ := added d toShadow
      exact ⟨due, by rw [State.modCtx_eq e, State.ctx_setCtx_same, hd]⟩
    · exact ⟨d.due, e⟩
  unfold State.report
  obtain ⟨due, first⟩ := told u d w.user false h
  exact told _ { d with due := due } w.shadow true first

theorem gives_load (load : o.isLoad = true) (res : o.res = []) (v : W64) : o.gives x v = { o with res := [(x.lane, v)] } := by
  unfold MemOp.gives
  rw [load, Bool.true_or, if_pos rfl, res]
  rfl

/-- Where an answered access leaves the context, but for the traps that its watchpoints make due. -/
theorem laneRemote_ctx {u : State} {d : Ctx} (h : u.ctx id = some d) (load : o.isLoad = true) (v : W64) :
    ∃ due, (u.laneRemote id c o x tr dev a v).1.ctx id = some { d with due := due } := by
  have counted : Below u ((u.useLeaf id.fold c.asid tr).countAccess id.fold c.asid tr 1) :=
    (useLeaf_quiet ..).toBelow.trans (countAccess_below ..)
  obtain ⟨due, told⟩ := report_ctx ((counted.toUnder.ctx id).trans h) o x (u.seen id c o x)
  unfold State.laneRemote
  dsimp only
  rw [isWrite_of_isLoad load, if_neg Bool.false_ne_true]
  exact ⟨due, ((remoteCopies_quiet ..).toUnder.ctx id).trans told⟩

/-- The value of the answer, extended, fills R (R131, R140). -/
theorem Asks.done (h : Asks id s c o x tr dev a) (lane : x.lane < c.nlanes) (live : (o.mask &&& c.live).getLsbD x.lane = true)
    (last : (c.us.unit o.unit).last = o.uid) (full : (c.us.unit o.unit).full = false)
    (turn : s.remoteBefore id dev o.issued = false) (v : W64) :
    ∃ t c', exec (.remoteAccess id (.done v)) s = .next t ∧ t.ctx id = some c' ∧ c'.memq = [] ∧
      (c'.us.unit o.unit).full = true ∧ (c'.us.unit o.unit).r.at x.lane = o.extend (v.toNat % 2 ^ (8 * o.size)) ∧
      c'.g = c.g ∧ c'.pc = c.pc ∧ Asked s t o dev a := by
  obtain ⟨q, hq⟩ := h.ready.ctx
  have done := h.exec_eq hq turn (ans := .done v) (Prod.mk.eta).symm
  have value : (answered (started s id o) id { c with memq := [q] } (launched o) x tr dev a (.done v)).2 =
      { launched o with res := [(x.lane, o.extend (v.toNat % 2 ^ (8 * o.size)))] } := by
    show (launched o).gives x _ = _
    rw [gives_load (o := launched o) h.load h.res, if_pos (show (launched o).isLoad = true from h.load)]
    rfl
  have sent : Sent ((started s id o).askLane (launched o) x dev a)
      (answered (started s id o) id { c with memq := [q] } (launched o) x tr dev a (.done v)).1 :=
    laneRemote_sent (o := launched o) h.load ..
  obtain ⟨due, ctx⟩ := laneRemote_ctx (o := launched o) (c := { c with memq := [q] }) (x := x) (tr := tr) (dev := dev)
    (a := a)
    (((askRemote_quiet (started s id o) dev ((launched o).ask x).1 a (launched o).size
      ((launched o).ask x).2).toUnder.ctx id).trans hq) h.load v
  change (answered (started s id o) id { c with memq := [q] } (launched o) x tr dev a (.done v)).1.ctx id = _ at ctx
  generalize ho : ({ (answered (started s id o) id { c with memq := [q] } (launched o) x tr dev a (.done v)).2 with
    lanes := [] } : MemOp) = o1 at done
  generalize (answered (started s id o) id { c with memq := [q] } (launched o) x tr dev a (.done v)).1 = t at done sent ctx
  have fields : o1.isLoad = true ∧ o1.replay = none ∧ o1.toks = [] ∧ o1.uid = o.uid ∧ o1.mask = o.mask ∧
      o1.unit = o.unit ∧ o1.res = [(x.lane, o.extend (v.toNat % 2 ^ (8 * o.size)))] := by
    rw [← ho, value]
    exact ⟨h.load, h.replay, h.toks, rfl, rfl, rfl, rfl⟩
  obtain ⟨load, replay, toks, uid, mask, unit, res⟩ := fields
  rw [closed_load ctx rfl load replay h.go] at done
  obtain ⟨-, memq, -, g, -, -, pc⟩ := closeMem_fields (c := emptied { c with memq := [q], due := due }) replay
  obtain ⟨isFull, r⟩ := closeMem_load_value (c := emptied { c with memq := [q], due := due }) load replay toks res
    (by rw [unit, uid]; exact last) (by rw [unit]; exact full) lane (by rw [mask]; exact live)
  rw [unit] at isFull r
  exact ⟨_, _, done, State.ctx_setCtx_same .., memq, isFull, r, g, pc, h.asked sent⟩

/-- A device that refuses the access or cannot be reached gives R a token (R141, R428). -/
theorem Asks.token (h : Asks id s c o x tr dev a) (last : (c.us.unit o.unit).last = o.uid)
    (full : (c.us.unit o.unit).full = false) (frec : (c.us.unit o.unit).frec.isSome = true)
    (turn : s.remoteBefore id dev o.issued = false) {ans : RemoteAnswer} {k : BitVec 7}
    (cause : (ans = .refused ∧ k = 0x36) ∨ (ans = .unreachable ∧ k = 0x53)) :
    ∃ t c', exec (.remoteAccess id ans) s = .next t ∧ t.ctx id = some c' ∧ c'.memq = [] ∧
      c'.RToken o.unit (BitVec.ofNat 1024 (2 ^ x.lane)) k ∧ Asked s t o dev a ∧
      ∀ b, Memory.read t.mem b = Memory.read s.mem b := by
  obtain ⟨q, hq⟩ := h.ready.ctx
  have fault : ∀ (u : State) e, u.laneFault id (launched o) x e = (u, { launched o with toks := [(x.lane, e, x.addr)] }) := by
    intro u e
    unfold State.laneFault
    rw [show (launched o).isPf = false from isPf_of_isLoad h.load, if_neg Bool.false_ne_true,
      show (launched o).isLoad = true from h.load, Bool.true_or, if_pos rfl, show (launched o).toks = [] from h.toks]
    rfl
  have lane : answered (started s id o) id { c with memq := [q] } (launched o) x tr dev a ans =
      ((started s id o).askLane (launched o) x dev a, { launched o with toks := [(x.lane, k, x.addr)] }) := by
    rcases cause with ⟨rfl, rfl⟩ | ⟨rfl, rfl⟩ <;> exact fault ..
  have done := h.exec_eq hq turn lane
  have asking : Quiet (started s id o) ((started s id o).askLane (launched o) x dev a) := askRemote_quiet ..
  have ctx := (asking.toUnder.ctx id).trans hq
  have mem := asking.mem.trans h.ready.mem
  generalize ho : ({ ({ launched o with toks := [(x.lane, k, x.addr)] } : MemOp) with lanes := [] } : MemOp) = o1 at done
  have fields : o1.isLoad = true ∧ o1.acquires = false ∧ o1.replay = none ∧ o1.toks = [(x.lane, k, x.addr)] ∧
      o1.uid = o.uid ∧ o1.unit = o.unit := by
    rw [← ho]
    exact ⟨h.load, h.plain, h.replay, rfl, rfl, rfl⟩
  obtain ⟨load, plain, replay, toks, uid, unit⟩ := fields
  rw [closed_load ctx rfl load replay h.go] at done
  obtain ⟨-, memq, -⟩ := closeMem_fields (c := emptied { c with memq := [q] }) replay
  have token := closeMem_load_token (c := emptied { c with memq := [q] }) load plain replay toks
    (by rw [unit, uid]; exact last) (by rw [unit]; exact full) (by rw [unit]; exact frec)
  rw [unit] at token
  exact ⟨_, _, done, State.ctx_setCtx_same .., memq, token, h.asked (.refl _),
    fun b => congrArg (fun m => Memory.read m b) mem⟩

end

end Sys2Proof.Machine.RemoteLoads
end

section
/-! SUPPORT for O44. The statement from its parts. -/
namespace Sys2Proof.Machine.RemoteLoads
open Sys2Proof.Machine.LandingCounters

/-- Settles O44: a landing counter below its target counts (`exec_landingCount_below`) and at its target arrives
(`landingCount_arrives`); a load at another device (`Asks`) waits for its turn, and takes its answer with the request that
left. -/
theorem landingsAndRemoteAccesses : Obligations.LandingsAndRemoteAccesses := by
  refine ⟨fun die n i key s l g bound gang _ rising => ⟨fun below => ?_, fun reached once new => ?_⟩,
    fun die n key s unbound => exec_landingCount_none unbound, ?_⟩
  · exact ⟨_, exec_landingCount_below bound gang below, rfl⟩
  · exact landingCount_arrives bound gang rising reached once new
  · intro id s c o x tr dev a ctx memq load _ plain lanes replay res toks shared map desc go _ ecc lane _ live last full frec
      check marked place peer fresh behind
    have asks : Asks id s c o x tr dev a := { ctx, memq, load, plain, lanes, replay, res, toks, shared, map, desc, go, ecc,
                                              check, marked, place, peer, fresh, behind }
    refine ⟨fun turn ans => asks.exec_later turn ans, fun turn v => ?_, fun turn ans k cause => ?_⟩
    · exact asks.done lane live last full turn v
    · exact asks.token last full frec turn cause

end Sys2Proof.Machine.RemoteLoads
end

section
/-! SUPPORT for O26. vote.all in a context whose live lanes hold a lane that its team does not have (R154). -/
namespace Sys2Proof.Machine.LaneVotes
open Sys2Proof.Machine.Sequential

/-- A context of one lane whose live lanes hold lane 1 as well. -/
def votingCtx : Ctx := { Ctx.blank 1 32 with shadow := true, live := 3 }

def votingState : State := { State.reset with ctxs := [(CtxId.key { fold := 0, slot := CtxId.shadowSlot }, votingCtx)] }

/-- A trigger under no guard with the immediate 1 as its T. -/
def voteMove : MoveF := ⟨false, 0, 2, 1⟩

/-- The row of vote.all. -/
noncomputable def voteAllRow : XlRow := ⟨.xlVoteAll, 6, fun x _ => if x.all.all (fun v => v.getLsbD 0) then 1 else 0⟩

theorem voteAllRow_mem : voteAllRow ∈ xlResults := by simp [xlResults, voteAllRow]

/-- The values of the operations in flight, when vote.all has issued. -/
def votedVals : Option (List (Option Vals)) :=
  match execXlVoteAll voteMove votingState with
  | .next t => (t.ctx votingState.cur).map (fun c' => c'.ops.map VarOp.vals)
  | _ => none

theorem votedVals_eq : votedVals = some [some [0]] := by decide +kernel

theorem voting_fires : votingState.Fires votingCtx (voteAllRow.word voteMove) :=
  ⟨clear_of_standsClear rfl (by decide +kernel), 0, by decide +kernel, by decide +kernel⟩

/-- Refutes O26: `votingCtx` has one lane, and its live lanes hold lane 1 as well, so vote.all is triggered on a lane
that casts no vote. Lane 0, whose t0 is 1, is given 0, where the statement, over the lanes of the team alone, gives 1. -/
theorem not_laneOperationsStart : ¬ Obligations.LaneOperationsStart := by
  intro h
  obtain ⟨t, c', o, e1, e2, -, e3, -, -, -, -, hm, -, -, -, -, v, hv, value⟩ :=
    h voteAllRow voteMove votingState votingCtx voteAllRow_mem voting_fires
  have hx : execXlVoteAll voteMove votingState = .next t := e1
  have hops : c'.ops = [o] := congrArg Ctx.ops e3.1
  have voted : votedVals = some [some v] := by simp only [votedVals, hx, e2, Option.map_some, hops, List.map, hv]
  rw [votedVals_eq] at voted
  have zero : v = [0] := by simpa using voted.symm
  have one := value 0 (by decide) (hm ▸ (by decide +kernel))
  rw [zero] at one
  exact absurd one (by decide +kernel)

end Sys2Proof.Machine.LaneVotes
end

section
/-! SUPPORT for O28. The containers of a gang's wide registers after a list of writes (R157, R159). -/
namespace Sys2Proof.Machine.WideCells
open Sys2Proof.Machine.Alone

/-- The state after the containers at the offsets of `ws` have been written one by one. -/
def written (s : State) (gang half : Nat) (ws : List (Nat × Nat)) : State :=
  ws.foldl (fun u x => u.wr (Memory.wideKey gang half x.1) 2 x.2) s

/-- The writes at offset `off` leave `v` there. -/
structure Leaves (ws : List (Nat × Nat)) (off v : Nat) : Prop where
  mem : (off, v) ∈ ws
  only : ∀ x ∈ ws, x.1 = off → x.2 = v

section
variable {s : State} {gang half : Nat} {ws : List (Nat × Nat)}

/-- The writes change memory alone. -/
theorem written_eq : written s gang half ws = { s with mem := (written s gang half ws).mem } := by
  induction ws generalizing s with
  | nil => rfl
  | cons x r ih => exact ih (s := s.wr (Memory.wideKey gang half x.1) 2 x.2)

theorem written_ctx (id : CtxId) : (written s gang half ws).ctx id = s.ctx id := by rw [written_eq]; rfl
theorem written_fold (f : Nat) : (written s gang half ws).fold f = s.fold f := by rw [written_eq]; rfl
theorem written_gangs : (written s gang half ws).gangs = s.gangs := by rw [written_eq]
theorem written_dies : (written s gang half ws).dies = s.dies := by rw [written_eq]
theorem written_cur : (written s gang half ws).cur = s.cur := by rw [written_eq]

theorem written_mem_congr {t : State} (h : t.mem = s.mem) :
    (written t gang half ws).mem = (written s gang half ws).mem := by
  induction ws generalizing s t with
  | nil => exact h
  | cons x r ih => exact ih (by rw [State.wr_mem, State.wr_mem, h])

/-- A byte outside of every container that is written. -/
theorem read_written {a : Nat} (wf : Memory.wf s.mem = true)
    (out : ∀ x ∈ ws, ¬(Memory.wideKey gang half x.1 ≤ a ∧ a < Memory.wideKey gang half x.1 + 2)) :
    Memory.read (written s gang half ws).mem a = Memory.read s.mem a := by
  induction ws generalizing s with
  | nil => rfl
  | cons x r ih =>
    obtain ⟨hx, hr⟩ := List.forall_mem_cons.mp out
    exact (ih (State.wr_memOk s _ 2 x.2 wf) hr).trans (read_writeN_outside wf (by omega))

/-- Where containers do not straddle one another, one that every write at its offset gives `v`, and that is written or
held `v` before, holds `v`. -/
theorem rd_written {off v : Nat} (wf : Memory.wf s.mem = true) (even : ∀ x ∈ ws, x.1 % 2 = 0) (heven : off % 2 = 0)
    (only : ∀ x ∈ ws, x.1 = off → x.2 = v)
    (held : (∃ x ∈ ws, x.1 = off) ∨ s.rd (Memory.wideKey gang half off) 2 = v % 2 ^ 16) :
    (written s gang half ws).rd (Memory.wideKey gang half off) 2 = v % 2 ^ 16 := by
  induction ws generalizing s with
  | nil => exact held.resolve_left (by simp)
  | cons x r ih =>
    obtain ⟨evenx, evenr⟩ := List.forall_mem_cons.mp even
    obtain ⟨onlyx, onlyr⟩ := List.forall_mem_cons.mp only
    refine ih (State.wr_memOk s _ 2 x.2 wf) evenr onlyr ?_
    by_cases e : x.1 = off
    · exact .inr (by rw [← onlyx e, ← e]; exact rd_writeN wf rfl)
    · refine held.imp (fun h => ?_) (fun h => ?_)
      · simpa [e] using h
      · rw [← h]
        refine congrArg natOf (Memory.readN_congr _ _ fun a h1 h2 => read_writeN_outside wf ?_)
        unfold Memory.wideKey at *
        omega

theorem Leaves.rd {off v : Nat} (h : Leaves ws off v) (wf : Memory.wf s.mem = true) (even : ∀ x ∈ ws, x.1 % 2 = 0)
    (hv : v < 2 ^ 16) : (written s gang half ws).rd (Memory.wideKey gang half off) 2 = v :=
  (rd_written wf even (even _ h.mem) h.only (.inl ⟨_, h.mem, rfl⟩)).trans (Nat.mod_eq_of_lt hv)

end

theorem natOf_lt (bs : List Byte) : natOf bs < 256 ^ bs.length := by
  induction bs with
  | nil => simp [natOf]
  | cons b r ih =>
    have := b.isLt
    rw [natOf, List.length_cons, Nat.pow_succ]
    omega

/-- A number read depends on memory alone (R4). -/
theorem rd_congr {s t : State} (h : t.mem = s.mem) (k n : Nat) : t.rd k n = s.rd k n := by rw [State.rd, h, State.rd]

/-- A container holds 16 bits (R157). -/
theorem rd_two_lt (s : State) (k : Nat) : s.rd k 2 < 2 ^ 16 := by
  have := natOf_lt (Memory.readN s.mem k 2)
  rwa [Memory.readN_length] at this

/-- Two neighbouring containers as one number (R4). -/
theorem rd_four (s : State) (k : Nat) : s.rd k 4 = s.rd k 2 + 2 ^ 16 * s.rd (k + 2) 2 := by
  simp only [State.rd, Memory.readN, natOf, Nat.add_assoc, Nat.reduceAdd]
  omega

/-! ## Lists of writes -/

theorem Leaves.map {l : List Nat} {off val : Nat → Nat} (inj : ∀ i ∈ l, ∀ j ∈ l, off i = off j → i = j) {j : Nat}
    (hj : j ∈ l) : Leaves (l.map fun i => (off i, val i)) (off j) (val j) := by
  refine ⟨List.mem_map_of_mem hj, fun x hx e => ?_⟩
  obtain ⟨i, hi, rfl⟩ := List.mem_map.mp hx
  rw [inj i hi j hj e]

theorem Leaves.flatMap {l : List Nat} {f : Nat → List (Nat × Nat)} {j off v : Nat} (hj : j ∈ l) (h : Leaves (f j) off v)
    (apart : ∀ i ∈ l, ∀ x ∈ f i, x.1 = off → i = j) : Leaves (l.flatMap f) off v := by
  refine ⟨List.mem_flatMap.mpr ⟨j, hj, h.mem⟩, fun x hx e => ?_⟩
  obtain ⟨i, hi, hx⟩ := List.mem_flatMap.mp hx
  obtain rfl := apart i hi x hx e
  exact h.only x hx e

end Sys2Proof.Machine.WideCells
end

section
/-! SUPPORT for O28. What each wide-register operation writes, container by container (R159). -/
namespace Sys2Proof.Machine.WideActs
open Sys2Proof.Machine.WideCells

theorem contOff_even (w r c : Nat) : contOff w r c % 2 = 0 := by unfold contOff; omega

/-- A container's offset tells its row and its column (R157). -/
theorem contOff_inj {w r c r' c' : Nat} (hc : c < 64) (hc' : c' < 64)
    (h : contOff w r c = contOff w r' c') : r = r' ∧ c = c' := by
  unfold contOff at h
  omega

/-- The second container of a pair follows the first (R157). -/
theorem contOff_succ (w r c : Nat) : contOff w r (c + 1) = contOff w r c + 2 := by unfold contOff; omega

/-- A control word names a column of a wide register (R158). -/
theorem wideCtl_col_lt (w : W32) : (WideCtl.of w).col < 64 := by
  simp only [WideCtl.of, bits]
  omega

theorem mem_list {m : Lanes} {n l : Nat} : l ∈ Lanes.list m n ↔ l < n ∧ m.getLsbD l = true := by
  simp [Lanes.list]

section
variable {k : WideCtl} {t : Trig} {n : Nat} {tv tv' : Nat → W32} {rd : Nat → Nat}

/-- An operation reads T on its triggered lanes alone. -/
theorem wideAct_congr (op : Nat) (h : ∀ l, l < n → t.mask.getLsbD l = true → tv l = tv' l) :
    wideAct op k t n tv rd = wideAct op k t n tv' rd := by
  have lanes : ∀ x ∈ wideLanes t n k.row, tv x.1 = tv' x.1 := by
    intro x hx
    obtain ⟨l, hl, rfl⟩ := List.mem_map.mp hx
    obtain ⟨hn, hm⟩ := mem_list.mp hl
    exact h l hn hm
  unfold wideAct
  split
  case h_2 => exact congrArg (WideAct.mk _ _) (List.flatMap_congr fun x hx => by rw [lanes x hx])
  case h_10 => exact congrArg (WideAct.mk _ _) (List.map_congr_left fun x hx => by rw [lanes x hx])
  all_goals rfl

/-- Every write is that of a container, whose offset is even. -/
theorem wideAct_even (op : Nat) : ∀ x ∈ (wideAct op k t n tv rd).writes, x.1 % 2 = 0 := by
  intro x hx
  unfold wideAct at hx
  split at hx <;> grind [contOff_even]

/-- A list of writes over a whole register, row by row. -/
theorem leaves_register {w : Nat} (f : Nat → Nat → Nat) {r c : Nat} (hr : r < 16) (hc : c < 64) :
    Leaves ((List.range 16).flatMap fun r => (List.range 64).map fun c => (contOff w r c, f r c)) (contOff w r c)
      (f r c) := by
  refine Leaves.flatMap (List.mem_range.mpr hr) ?_ fun i _ x hx e => ?_
  · exact Leaves.map (off := fun c => contOff w r c) (val := fun c => f r c)
      (fun _ hi _ hj e => (contOff_inj (List.mem_range.mp hi) (List.mem_range.mp hj) e).2) (List.mem_range.mpr hc)
  · obtain ⟨j, hj, rfl⟩ := List.mem_map.mp hx
    exact (contOff_inj (List.mem_range.mp hj) hc e).1

/-- A list of writes along a row. -/
theorem leaves_row {w r : Nat} (f : Nat → Nat) {c : Nat} (hc : c < 64) :
    Leaves ((List.range 64).map fun c => (contOff w r c, f c)) (contOff w r c) (f c) :=
  Leaves.map (off := fun c => contOff w r c)
    (fun _ hi _ hj e => (contOff_inj (List.mem_range.mp hi) (List.mem_range.mp hj) e).2) (List.mem_range.mpr hc)

/-- A list of writes along a column. -/
theorem leaves_column {w c : Nat} (f : Nat → Nat) {r : Nat} (hr : r < 16) (hc : c < 64) :
    Leaves ((List.range 16).map fun r => (contOff w r c, f r)) (contOff w r c) (f r) :=
  Leaves.map (off := fun r => contOff w r c)
    (fun _ _ _ _ e => (contOff_inj hc hc e).1) (List.mem_range.mpr hr)

/-- Below 512 lanes no two lanes share a row and a place in it (R157). -/
theorem lane_of_place {l j row : Nat} (hl : l < 512) (hj : j < 512)
    (hr : (row + l / 32) % 16 = (row + j / 32) % 16) (hc : l % 32 = j % 32) : l = j := by omega

/-- wr.st: each triggered lane's two halves (R159). -/
theorem leaves_st (hn : n ≤ 512) {l : Nat} (hl : l < n) (hm : t.mask.getLsbD l = true) :
    Leaves (wideAct 0x41 k t n tv rd).writes (contOff k.wreg ((k.row + l / 32) % 16) (2 * (l % 32)))
        ((tv l).toNat % 2 ^ 16) ∧
      Leaves (wideAct 0x41 k t n tv rd).writes (contOff k.wreg ((k.row + l / 32) % 16) (2 * (l % 32) + 1))
        ((tv l).toNat / 2 ^ 16) := by
  have hmem := mem_list.mpr ⟨hl, hm⟩
  simp only [wideAct, wideLanes, List.flatMap_map]
  have apart : ∀ i ∈ Lanes.list t.mask n, ∀ x ∈
      [(contOff k.wreg ((k.row + i / 32) % 16) (2 * (i % 32)), (tv i).toNat % 2 ^ 16),
        (contOff k.wreg ((k.row + i / 32) % 16) (2 * (i % 32) + 1), (tv i).toNat / 2 ^ 16)],
      ∀ b < 2, x.1 = contOff k.wreg ((k.row + l / 32) % 16) (2 * (l % 32) + b) → i = l := by
    intro i hi x hx b hb e
    obtain ⟨hi, -⟩ := mem_list.mp hi
    have place : (k.row + i / 32) % 16 = (k.row + l / 32) % 16 ∧ i % 32 = l % 32 := by
      simp only [List.mem_cons, List.not_mem_nil, or_false] at hx
      obtain rfl | rfl := hx
      · have := contOff_inj (by omega) (by omega) e
        omega
      · have := contOff_inj (by omega) (by omega) e
        omega
    exact lane_of_place (by omega) (by omega) place.1 place.2
  exact ⟨Leaves.flatMap hmem ⟨by simp, by simp [contOff]⟩ fun i hi x hx e => apart i hi x hx 0 (by decide) e,
    Leaves.flatMap hmem ⟨by simp, by simp [contOff]⟩ fun i hi x hx e => apart i hi x hx 1 (by decide) e⟩

/-- wr.pack: each triggered lane's converted value (R159). -/
theorem leaves_pack (hn : n ≤ 512) (hk : k.col < 64) {l : Nat} (hl : l < n) (hm : t.mask.getLsbD l = true) :
    Leaves (wideAct 0x49 k t n tv rd).writes (contOff k.wreg ((k.row + l / 32) % 16) (32 * (k.col / 32) + l % 32))
      (widePack k.ty (tv l)) := by
  have half : k.col / 32 % 2 = k.col / 32 := by omega
  have h := Leaves.map (off := fun l => contOff k.wreg ((k.row + l / 32) % 16) (32 * (k.col / 32) + l % 32))
    (val := fun l => widePack k.ty (tv l)) (l := Lanes.list t.mask n) (fun i hi j hj e => by
      obtain ⟨hi, -⟩ := mem_list.mp hi
      obtain ⟨hj, -⟩ := mem_list.mp hj
      obtain ⟨hr, hc⟩ := contOff_inj (by omega) (by omega) e
      exact lane_of_place (by omega) (by omega) hr (by omega)) (mem_list.mpr ⟨hl, hm⟩)
  simp only [wideAct, wideLanes, List.map_map, half]
  exact h

end

/-- pack gives a container's value (R159). -/
theorem widePack_lt (ty : Nat) (v : W32) : widePack ty v < 2 ^ 16 := Nat.mod_lt _ (by decide)

/-- The sum of signed 16-bit values: wrapping for TYPE 0, saturating otherwise (R159). -/
def intSum (ty : Nat) (xs : List Nat) : BitVec 16 :=
  let z := (xs.map (fun x => (BitVec.ofNat 16 x).toInt)).sum
  if ty = 0 then BitVec.ofInt 16 z else BitVec.ofInt 16 (max (-32768) (min 32767 z))

theorem wideFold_eq {ty : Nat} (h : ty < 2) (xs : List Nat) : wideFold ty xs = (intSum ty xs).toNat := by
  have sum := (List.sum_eq_foldl (xs := xs.map fun x => (BitVec.ofNat 16 x).toInt)).symm
  interval_cases ty
  · simp only [wideFold, intSum, sum, if_true]
  · simp only [wideFold, intSum, sum, satInt]
    rw [if_pos trivial, if_neg (by decide), min_comm]
    norm_num

end Sys2Proof.Machine.WideActs
end

section
/-! SUPPORT for O28. What a wide-register operation leaves where it starts, and what its bundle leaves of memory (R158 to
R161). -/
namespace Sys2Proof.Machine.WideStarts
open Sys2Proof.Machine.Sequential Sys2Proof.Machine.WideCells Sys2Proof.Machine.WideActs

/-! ## Memory after a bundle of one trigger -/

theorem observe_mem (s : State) (id : CtxId) (c : Ctx) (b : Bundle) : (s.observe id c b).mem = s.mem := by
  unfold State.observe
  split <;> rfl

theorem restick_mem (s : State) (id : CtxId) (c : Ctx) : (s.restick id c).mem = s.mem := by
  unfold State.restick
  simp only
  split
  · rfl
  · exact State.modCtx_mem _ _ _

theorem firstPass_mem (s : State) (id : CtxId) (c : Ctx) (pc : W64) (n : Nat) : (s.firstPass id c pc n).mem = s.mem := by
  unfold State.firstPass
  simp only [State.chargeAs_mem]
  split <;> rfl

/-- A bundle of one trigger leaves memory as its operation left it. -/
theorem issueOne_mem {s t : State} {c0 x : Ctx} {w : W32} {st : Start} (h : s.Clear c0 (Bundle.one w s.curPc))
    (ht : (Move.of 0 w).isTrig = true) (hg : c0.land.guardMask (Move.of 0 w) ≠ 0)
    (hs : (Move.of 0 w).dunit = U.sv → 3 < (Move.of 0 w).dsel)
    (hx : (st (beginState s c0.land (Bundle.one w s.curPc) (Move.of 0 w)) s.cur
      (c0.land.trigOf (Bundle.one w s.curPc) (Move.of 0 w))).ctx s.cur = some x)
    (htid : x.tid = c0.land.tid) (e : issueOne w st s = .next t) :
    t.mem = (st (beginState s c0.land (Bundle.one w s.curPc) (Move.of 0 w)) s.cur
      (c0.land.trigOf (Bundle.one w s.curPc) (Move.of 0 w))).mem := by
  have hk := issueOne_clear st h
  rw [Ctx.atBundle_one hs, State.commit_one rfl (Bundle.one_isExt w s.curPc) ht hg hx htid, e] at hk
  rw [Host.Outcome.next.inj hk, observe_mem, restick_mem, firstPass_mem]
  rfl

/-! ## The operation -/

/-- wr.ld's values: on each triggered lane the pair of containers of its row and columns (R159). -/
def pairs (k : WideCtl) (t : Trig) (n : Nat) (rd : Nat → Nat) : Vals :=
  (List.range n).map fun l => if t.mask.getLsbD l then
    BitVec.ofNat 64 (rd (contOff k.wreg ((k.row + l / 32) % 16) (2 * (l % 32))) +
      2 ^ 16 * rd (contOff k.wreg ((k.row + l / 32) % 16) (2 * (l % 32) + 1))) else 0

/-- The control word of a trigger in `c` (R158). -/
def control (c : Ctx) (t : Trig) : WideCtl := WideCtl.of ((c.us.unit t.unit).aw (t.lane c))

/-- What a trigger in `c` does to the wide registers of gang `g` as they stand in `v` (R159). -/
def action (op : Nat) (v : State) (id : CtxId) (t : Trig) (c : Ctx) (g : Gang) : WideAct :=
  wideAct op (control c t) t c.nlanes (c.us.unit t.unit).tw
    (fun off => v.rd (Memory.wideKey c.gang (g.half id.fold) off) 2)

/-- The cycle at which the path is free again (R161). -/
def pathEnd (op : Nat) (v : State) (id : CtxId) (c : Ctx) : Nat :=
  (v.fold id.fold).cycle + wideBeats op (Lanes.passes c.live c.nlanes).length

/-- The operation that a wide-register trigger puts in flight (R159, R161). -/
def wideOp (op : Nat) (v : State) (id : CtxId) (t : Trig) (c : Ctx) (g : Gang) : VarOp :=
  { t.op [] [] (if op = 0x40 then
      some (pairs (control c t) t c.nlanes fun off => v.rd (Memory.wideKey c.gang (g.half id.fold) off) 2)
    else none) (pathEnd op v id c + 1) with locks := (v.fold id.fold).lockSeq }

/-- The context in which a wide-register operation has started. -/
def occupied (op : Nat) (v : State) (id : CtxId) (t : Trig) (c : Ctx) (g : Gang) : Ctx :=
  { c with ops := c.ops ++ [wideOp op v id t c g], us := { c.us with xlBusy := pathEnd op v id c } }

/-- What a wide-register operation leaves: its containers written, itself in flight, XL and the path busy (R159, R161). -/
structure Widened (op : Nat) (v : State) (id : CtxId) (t : Trig) (c : Ctx) (g : Gang) (u : State) : Prop where
  ctx : u.ctx id = some (occupied op v id t c g)
  mem : u.mem = (written v c.gang (g.half id.fold) (action op v id t c g).writes).mem
  path : (u.fold id.fold).widePath = pathEnd op v id c
  gangs : u.gangs = v.gangs
  dies : u.dies = v.dies
  cur : u.cur = v.cur

/-- An operation whose registers the gang has and whose containers no range lock covers starts (R158, R160). -/
theorem startWide_widened {op : Nat} {v : State} {id : CtxId} {t : Trig} {c : Ctx} {g : Gang} (hc : v.ctx id = some c)
    (hg : v.gang c.gang = some g) (hs : c.shadow = false)
    (regs : (action op v id t c g).regs.any (fun w => decide (g.block.wide ≤ w)) = false)
    (free : wideLocked (v.fold id.fold) (wideOwner c.gang (g.half id.fold)) (v.blockRegs id.fold c g)
      (action op v id t c g) = false) :
    Widened op v id t c g (startWide op v id t) := by
  have run : startWide op v id t = (((written v c.gang (g.half id.fold) (action op v id t c g).writes).addOp id
      (t.op [] [] (if op = 0x40 then some (pairs (control c t) t c.nlanes fun off =>
        v.rd (Memory.wideKey c.gang (g.half id.fold) off) 2) else none) (pathEnd op v id c + 1))).modCtx id
      (fun c' => { c' with us := { c'.us with xlBusy := pathEnd op v id c } })).modFold id.fold
        (fun f => { f with widePath := f.cycle + wideBeats op (Lanes.passes c.live c.nlanes).length }) := by
    unfold action control at regs free
    simp only [startWide, hc, hg, hs, regs, free, Bool.false_or, Bool.false_eq_true, if_false]
    rfl
  have hw := (written_ctx (s := v) (gang := c.gang) (half := g.half id.fold)
    (ws := (action op v id t c g).writes) id).trans hc
  rw [State.addOp, State.modCtx_eq hw, State.modCtx_eq (State.ctx_setCtx_same _ _ _), written_fold] at run
  rw [run]
  refine ⟨State.ctx_setCtx_same _ _ _, rfl, ?_, written_gangs, written_dies, written_cur⟩
  rw [State.fold_modFold_same]
  exact congrArg (Fold.cycle · + _) (written_fold _)

/-- What the bundle of a wide-register operation leaves of its context. -/
theorem occupied_fields {op : Nat} {v : State} {id : CtxId} {t : Trig} {c c' : Ctx} {g : Gang} {q : List MemOp}
    (h : c'.Is { occupied op v id t c g with us := (occupied op v id t c g).us.ticked, memq := q }) :
    c'.ops = c.ops ++ [wideOp op v id t c g] ∧ c'.us.xlBusy = pathEnd op v id c ∧ c'.g = c.g ∧ c'.s = c.s ∧
      c'.k = c.k ∧ c'.pc = c.pc ∧ c'.sched = c.sched ∧ c'.us.flags = c.us.flags := by
  rw [h.1]
  exact ⟨rfl, rfl, rfl, rfl, rfl, rfl, rfl, rfl⟩

/-- Every row of the wide registers is a bundle of one move that starts its operation (R159). -/
theorem exec_wide : ∀ p ∈ wideOps, p.1 < 256 ∧ ∀ m s, exec (p.2 m) s =
    issueOne (syllable true U.xl 3 p.1 m) (startWide p.1) s := by
  simp only [wideOps, List.forall_mem_cons, List.not_mem_nil, false_implies, implies_true, and_true]
  exact ⟨⟨by decide, fun _ _ => rfl⟩, ⟨by decide, fun _ _ => rfl⟩, ⟨by decide, fun _ _ => rfl⟩,
    ⟨by decide, fun _ _ => rfl⟩, ⟨by decide, fun _ _ => rfl⟩, ⟨by decide, fun _ _ => rfl⟩,
    ⟨by decide, fun _ _ => rfl⟩, ⟨by decide, fun _ _ => rfl⟩, ⟨by decide, fun _ _ => rfl⟩,
    ⟨by decide, fun _ _ => rfl⟩⟩

/-- The landing of results leaves a context in its gang (R16). -/
theorem land_gang (c : Ctx) : c.land.gang = c.gang := by
  unfold Ctx.land
  split
  · rfl
  · obtain ⟨u, q, k, x, d, h⟩ := Ctx.landWithin_only c 1
    rw [h]

/-! ## The operation in the context that its bundle leaves -/

section
variable (c : Ctx) (s : State) (b : Bundle) {m : Move} (hm : m.dunit = U.xl)
include hm

/-- The control word is A of the lowest triggered lane (R158). -/
theorem control_atStart : control (atStart c s b m) (c.trigOf b m) =
    WideCtl.of (lo32 ((c.us.unit U.xl).a.at (Lanes.low (c.guardMask m) c.nlanes))) := by
  rw [control, UPorts.aw, atStart_a, hm]
  rfl

/-- The operation acts on the containers as they stand before its bundle, with the T values of its move (R159). -/
theorem action_atStart (op : Nat) (g : Gang) :
    action op (beginState s c b m) s.cur (c.trigOf b m) (atStart c s b m) g =
      wideAct op (WideCtl.of (lo32 ((c.us.unit U.xl).a.at (Lanes.low (c.guardMask m) c.nlanes)))) (c.trigOf b m) c.nlanes
        (fun l => lo32 (c.src b m l)) (fun off => s.rd (Memory.wideKey c.gang (g.half s.cur.fold) off) 2) := by
  rw [action, control_atStart c s b hm]
  refine wideAct_congr op fun l hl hg => ?_
  rw [UPorts.tw, atStart_held, Ctx.withT_held (c := c) (by rw [hm]; rfl) hl hg]

omit hm in
/-- The trigger of a gang's team whose registers and locks allow the operation starts it (R158, R160). -/
theorem startWide_atStart {op : Nat} {g : Gang} {a : WideAct}
    (ha : action op (beginState s c b m) s.cur (c.trigOf b m) (atStart c s b m) g = a) (hg : s.gang c.gang = some g)
    (hs : c.shadow = false) (regs : a.regs.any (fun w => decide (g.block.wide ≤ w)) = false)
    (free : wideLocked (s.fold s.cur.fold) (wideOwner c.gang (g.half s.cur.fold)) (s.blockRegs s.cur.fold c g) a = false) :
    Widened op (beginState s c b m) s.cur (c.trigOf b m) (atStart c s b m) g
      (startWide op (beginState s c b m) s.cur (c.trigOf b m)) :=
  startWide_widened (State.begun_ctx ..) hg hs (ha ▸ regs) (ha ▸ free)

omit hm in
theorem begun_flags : (c.begun b m).flags = c.us.flags := by
  unfold Ctx.begun
  split <;> rfl

end

/-- wr.ld's value on a triggered lane is its pair of containers as one number (R159). -/
theorem pairs_at {k : WideCtl} {t : Trig} {n l : Nat} (s : State) (gang half : Nat) (hl : l < n)
    (hm : t.mask.getLsbD l = true) :
    (pairs k t n fun off => s.rd (Memory.wideKey gang half off) 2).at l =
      BitVec.ofNat 64 (s.rd (Memory.wideKey gang half (contOff k.wreg ((k.row + l / 32) % 16) (2 * (l % 32)))) 4) := by
  rw [pairs, Vals.at_map_range _ _ hl, if_pos hm, rd_four, contOff_succ]
  rfl

end Sys2Proof.Machine.WideStarts
end

section
/-! SUPPORT for O28. The statement from its parts. -/
namespace Sys2Proof.Machine.WideStarts
open Sys2Proof.Machine.Sequential Sys2Proof.Machine.WideCells Sys2Proof.Machine.WideActs

/-- The containers after each operation whose values the integer rules of R159 give, where every container that is
written holds in `new` what its writes leave. -/
theorem containers_after {op : Nat} {k : WideCtl} {t : Trig} {n : Nat} {tv : Nat → W32} {rd new : Nat → Nat}
    (hcol : k.col < 64) (hrd : ∀ off, rd off < 2 ^ 16)
    (placed : ∀ off v, Leaves (wideAct op k t n tv rd).writes off v → v < 2 ^ 16 → new off = v) :
    (op = 0x41 → n ≤ 512 → ∀ l, l < n → t.mask.getLsbD l = true →
      new (contOff k.wreg ((k.row + l / 32) % 16) (2 * (l % 32))) = (tv l).toNat % 2 ^ 16 ∧
      new (contOff k.wreg ((k.row + l / 32) % 16) (2 * (l % 32) + 1)) = (tv l).toNat / 2 ^ 16) ∧
    (op = 0x42 → ∀ x, x < 64 → new (contOff k.wreg k.row x) = rd (contOff k.wreg k.row ((x + 64 - k.amt) % 64))) ∧
    (op = 0x43 → ∀ r, r < 16 →
      new (contOff k.wreg r k.col) = rd (contOff k.wreg ((r + 16 - k.amt % 16) % 16) k.col)) ∧
    (op = 0x44 → ∀ r x, r < 16 → x < 64 → new (contOff k.wdst r x) = rd (contOff k.wreg k.row x)) ∧
    (op = 0x45 → ∀ r x, r < 16 → x < 64 → new (contOff k.wdst r x) = rd (contOff k.wreg r k.col)) ∧
    (op = 0x46 → k.ty < 2 → ∀ r, r < 16 → new (contOff k.wdst r k.col) =
      (intSum k.ty ((List.range 64).map fun x => rd (contOff k.wreg r x))).toNat) ∧
    (op = 0x47 → k.ty < 2 → ∀ x, x < 64 → new (contOff k.wdst k.row x) =
      (intSum k.ty ((List.range 16).map fun r => rd (contOff k.wreg r x))).toNat) ∧
    (op = 0x48 → ∀ r x, r < 16 → x < 64 → new (contOff k.wreg r x) = 0) ∧
    (op = 0x49 → n ≤ 512 → ∀ l, l < n → t.mask.getLsbD l = true →
      new (contOff k.wreg ((k.row + l / 32) % 16) (32 * (k.col / 32) + l % 32)) = widePack k.ty (tv l)) := by
  refine ⟨?st, ?rotr, ?rotc, ?bcr, ?bcc, ?redr, ?redc, ?zero, ?pack⟩
  case st =>
    rintro rfl hn l hl hm
    have := (tv l).isLt
    obtain ⟨lo, hi⟩ := leaves_st (k := k) (tv := tv) (rd := rd) hn hl hm
    exact ⟨placed _ _ lo (Nat.mod_lt _ (by decide)), placed _ _ hi (by omega)⟩
  case rotr =>
    rintro rfl x hx
    exact placed _ _ (leaves_row (fun c => rd (contOff k.wreg k.row ((c + 64 - k.amt) % 64))) hx) (hrd _)
  case rotc =>
    rintro rfl r hr
    exact placed _ _ (leaves_column (fun r => rd (contOff k.wreg ((r + 16 - k.amt % 16) % 16) k.col)) hr hcol) (hrd _)
  case bcr =>
    rintro rfl r x hr hx
    exact placed _ _ (leaves_register (fun _ c => rd (contOff k.wreg k.row c)) hr hx) (hrd _)
  case bcc =>
    rintro rfl r x hr hx
    exact placed _ _ (leaves_register (fun r _ => rd (contOff k.wreg r k.col)) hr hx) (hrd _)
  case redr =>
    rintro rfl ht r hr
    rw [← wideFold_eq ht]
    exact placed _ _ (leaves_column (fun r => wideFold k.ty ((List.range 64).map fun c => rd (contOff k.wreg r c))) hr hcol)
      (by rw [wideFold_eq ht]; exact BitVec.isLt _)
  case redc =>
    rintro rfl ht x hx
    rw [← wideFold_eq ht]
    exact placed _ _ (leaves_row (fun c => wideFold k.ty ((List.range 16).map fun r => rd (contOff k.wreg r c))) hx)
      (by rw [wideFold_eq ht]; exact BitVec.isLt _)
  case zero =>
    rintro rfl r x hr hx
    exact placed _ _ (leaves_register (fun _ _ => 0) hr hx) (by decide)
  case pack =>
    rintro rfl hn l hl hm
    exact placed _ _ (leaves_pack hn hcol hl hm) (widePack_lt _ _)

/-- Settles O28: the trigger starts its operation (`startWide_widened`) on the containers that its bundle finds
(`action_atStart`), the bundle leaves memory as the operation wrote it (`issueOne_mem`), and the containers hold what
their writes leave (`containers_after`). -/
theorem wideRegisterOperationsStart : Obligations.WideRegisterOperationsStart := by
  intro op i m s c0 g hi wf h hg hs b mv c k key act regs free
  obtain ⟨hop, hx⟩ := exec_wide _ hi
  obtain ⟨unit, -⟩ := Move.of_syllable U.xl 3 op m (by decide) (by decide) hop
  obtain ⟨loop, tid, -, -, -, tstatus, -, -, shadow, -⟩ := Ctx.land_keeps c0
  have gang : c.gang = c0.gang := land_gang c0
  have trig := isTrig_syllable m (by decide : U.xl < 32) (by decide) hop
  have sv : mv.dunit = U.sv → 3 < mv.dsel := fun e => absurd (unit.symm.trans e) (by decide)
  have acts : action op (beginState s c b mv) s.cur (c.trigOf b mv) (atStart c s b mv) g = act := by
    rw [action_atStart c s b unit, gang]
  have started := startWide_atStart c s b acts (gang ▸ hg) (shadow.trans hs) regs (gang ▸ free)
  obtain ⟨t, c', run, here, is, frame⟩ := issueOne_runs (startWide op) h.1 trig (guardMask_ne_zero h) sv _ rfl
    started.ctx tid loop tstatus rfl started.cur
  have mem : t.mem = (written s c0.gang (g.half s.cur.fold) act.writes).mem := by
    rw [issueOne_mem h.1 trig (guardMask_ne_zero h) sv started.ctx rfl run, started.mem, acts, ← gang]
    exact written_mem_congr rfl
  obtain ⟨ops, busy, hg', hs', hk', pc, sched, flags⟩ := occupied_fields is
  refine ⟨t, c', wideOp op (beginState s c b mv) s.cur (c.trigOf b mv) (atStart c s b mv) g, (hx m s).trans run, here,
    ops, unit, rfl, rfl, fun e => ⟨_, if_pos e, fun l hl hm => ?_⟩, fun e => if_neg e, ?_, mem, fun a out => ?_, busy, ?_,
    hg', hs', hk', pc, sched, flags.trans (begun_flags c b), frame.gangs.trans started.gangs,
    frame.dies.trans started.dies⟩
  · rw [control_atStart c s b unit]
    exact (pairs_at s c.gang (g.half s.cur.fold) hl hm).trans (by rw [gang])
  · exact containers_after (t := c.trigOf b mv) (rd := fun off => s.rd (key off) 2) (new := fun off => t.rd (key off) 2)
      (wideCtl_col_lt _) (fun off => rd_two_lt s _)
      (fun off v leaves hv => (rd_congr mem _ 2).trans (leaves.rd wf (wideAct_even op) hv))
  · rw [mem]
    exact read_written wf out
  · exact (congrArg Fold.widePath (frame.folds s.cur.fold)).trans started.path

end Sys2Proof.Machine.WideStarts
end

section
/-! SUPPORT for O34, O35 and O36. A result of SY that lands with a trigger of SY (R16, R186). -/
namespace Sys2Proof.Machine.SyncAnswers
open Sys2Proof.Machine.Sequential

/-! ## A result in flight of the variable-latency unit SY

No trigger puts such a result in flight, but a state may hold one. It lands before the bundle executes, so what SY.R is
after the bundle is not what it was before. -/

/-- A result in flight that is due, of SY, whose value on each lane of `mask` is 7. -/
def syAnswer (mask : Lanes) (vals : Vals) : Pend :=
  { unit := U.sy, left := 0, mask := mask, vals := vals, carry := none, kdst := 0, excs := [], bundle := 0, cycle := 0 }

/-- The block of a gang of one role, which takes part in every barrier. -/
def soloBlock : Block :=
  { mirrorAddr := 0, liveAddr := 0, barMask := 0xFFFFFFFF, barMaskHi := 0xFFFFFFFF, scrLog2 := 0, wide := 16,
    pair := false, roles := [{ entry := 0, kind := 3, prio := 3, regs := 16, lanes := 32, teams := 1 }], rings := [],
    fm := [] }

/-- A gang of one team of that role. It has no stage ring. -/
def soloGang : Gang :=
  { die := 0, queue := 0, flock := 0, gangIdx := 0, asid := 0, args := 0, save := 0, conf := false, fold := 0,
    block := soloBlock, hasEngine := true, base := [], mirrorSel := [], liveBase := 0, smapV := [], smapS := [],
    sectors := [], fm := [], barriers := [], rings := [], teams := [(0, 0)], loop := none, pktIdx := 0,
    saving := false, asked := [], aborted := false, froze := [] }

/-- The team of that gang, in which the result is due on lane 0. -/
def syncCtx : Ctx := { Ctx.blank 1 32 with gang := 7, us := { UnitState.fresh with pend := [syAnswer 1 [7]] } }

def syncState : State := { State.reset with
    cur := { fold := 0, slot := 0 }, ctxs := [(CtxId.key { fold := 0, slot := 0 }, syncCtx)], gangs := [(7, soloGang)] }

theorem sync_idle : syncState.SyIdle syncCtx soloGang :=
  ⟨rfl, rfl, rfl, fun _ ho => absurd ho List.not_mem_nil⟩

/-- R of SY on lane `l`, when a trigger has answered `r`. -/
def syR (s : State) (l : Nat) : Host.Outcome State Fault Refusal → Option W64
  | .next t => (t.ctx s.cur).map (fun c' => (c'.us.unit U.sy).r.at l)
  | _ => none

theorem syR_next {s t : State} {c' : Ctx} {l : Nat} {r : Host.Outcome State Fault Refusal} (h : r = .next t) (h' : t.ctx s.cur = some c') :
    syR s l r = some ((c'.us.unit U.sy).r.at l) := by
  simp only [syR, h, h', Option.map_some]

/-! ## O34: a bar.wait without an arrival -/

theorem waited_fires : syncState.Fires syncCtx (syllable true U.sy 3 0x10 strayMove) :=
  ⟨clear_of_standsClear rfl (by decide +kernel), 0, by decide +kernel, by decide +kernel⟩

theorem waitedR_eq : syR syncState 0 (execSyBarWait 0 strayMove syncState) = some 7 := by decide +kernel

/-- Refutes O34: in `syncCtx` a result of SY is due. It lands with a bar.wait whose team has not arrived, which is
refused, so SY.R holds 7 on lane 0 where it held 0 before the bundle. -/
theorem not_barrierArrivalsAndWaits : ¬ Obligations.BarrierArrivalsAndWaits := by
  intro h
  obtain ⟨-, -, -, refused⟩ := h 0 strayMove syncState syncCtx soloGang sync_idle
  obtain ⟨t, c', e1, e2, -, -, -, -, -, -, -, -, ⟨-, -, hk⟩, -⟩ :=
    refused (.syBarWait 0 strayMove) 0x10 (.inr (.inl ⟨rfl, rfl⟩)) waited_fires (.inr (.inr ⟨rfl, rfl⟩))
  have h7 := waitedR_eq.symm.trans (syR_next e1 e2)
  have h0 : (c'.us.unit U.sy).r.at 0 = 0 := (hk 0 (by decide)).trans (by decide +kernel)
  rw [h0] at h7
  exact absurd h7 (by decide)

/-! ## O35: a racq on a ring that the gang does not have -/

theorem acquired_fires : syncState.Fires syncCtx (syllable true U.sy 3 0x80 strayMove) :=
  ⟨clear_of_standsClear rfl (by decide +kernel), 0, by decide +kernel, by decide +kernel⟩

theorem acquiredR_eq : syR syncState 0 (execSyRacq 0 strayMove syncState) = some 7 := by decide +kernel

/-- Refutes O35: in `syncCtx` a result of SY is due. It lands with a racq on a ring that `soloGang` does not have, which
is refused, so SY.R holds 7 on lane 0 where it held 0 before the bundle. -/
theorem not_stageRings : ¬ Obligations.StageRings := by
  intro h
  obtain ⟨refused, -⟩ := h 0 strayMove syncState syncCtx soloGang sync_idle
  obtain ⟨t, c', e1, e2, -, -, -, -, -, -, -, -, ⟨-, -, hk⟩, -⟩ :=
    refused (.syRacq 0 strayMove) 0x80 false true (List.mem_cons_self ..) acquired_fires (.inl rfl)
  have h7 := acquiredR_eq.symm.trans (syR_next e1 e2)
  have h0 : (c'.us.unit U.sy).r.at 0 = 0 := (hk 0 (by decide)).trans (by decide +kernel)
  rw [h0] at h7
  exact absurd h7 (by decide)

/-! ## O36: an rshrink on the other lane -/

/-- A context of two lanes, whose predicate k1 holds on lane 0 alone, in which the result is due on lane 1. -/
def shrinkCtx : Ctx :=
  { Ctx.blank 2 32 with gang := 7, k := [(1, 1)], us := { UnitState.fresh with pend := [syAnswer 2 [0, 7]] } }

def shrinkState : State := { syncState with ctxs := [(CtxId.key { fold := 0, slot := 0 }, shrinkCtx)] }

theorem shrink_fires : shrinkState.Fires shrinkCtx (syllable true U.sy 3 0xA1 underK1) :=
  ⟨clear_of_standsClear rfl (by decide +kernel), 0, by decide +kernel, by decide +kernel⟩

theorem shrinkR_eq : syR shrinkState 1 (execSyRshrink underK1 shrinkState) = some 7 := by decide +kernel

/-- Lane 1 takes no answer of the rshrink. -/
theorem shrink_lane : (shrinkCtx.rowMask (syllable true U.sy 3 0xA1 underK1)).getLsbD 1 = false := by decide +kernel

/-- Refutes O36: in `shrinkCtx` a result of SY is due on lane 1. It lands with an rshrink on lane 0, so SY.R holds 7 on
lane 1 where it held 0 before the bundle. -/
theorem not_registerBudgets : ¬ Obligations.RegisterBudgets := by
  intro h
  obtain ⟨-, shrinks⟩ := h underK1 shrinkState shrinkCtx (fun _ ho => absurd ho List.not_mem_nil) rfl
  obtain ⟨t, c', e1, e2, -, -, -, -, -, -, -, -, -, -, -, -, -, hk⟩ := shrinks shrink_fires
  have h7 := shrinkR_eq.symm.trans (syR_next e1 e2)
  have h0 : (c'.us.unit U.sy).r.at 1 = 0 :=
    (hk 1 (by decide)).trans ((if_neg (by rw [shrink_lane]; decide)).trans (by decide +kernel))
  rw [h0] at h7
  exact absurd h7 (by decide)

end Sys2Proof.Machine.SyncAnswers
end

section
/-! SUPPORT for O6. Where no context can issue, no instruction that a context issues executes. -/
namespace Sys2Proof.Machine.NoIssuer
open Sys2Proof.Machine.Sequential

theorem issueBundle_refused {s : State} (h : s.canIssue = false) (us : Units) (b : State → Bundle) :
    issueBundle us b s = .fault .noIssuingContext :=
  if_neg (by rw [h]; decide)

/-- Settles O6: a row of one move issues the bundle of its syllable (`exec_destOf`), and each way to issue asks first
whether `cur` can. -/
theorem noContextNoIssue : Obligations.NoContextNoIssue := by
  rintro i s (hd | ⟨n, rfl⟩ | ⟨n, rfl⟩ | ⟨b, rfl⟩) h
  · obtain ⟨⟨u, p, o, m⟩, hd⟩ := Option.isSome_iff_exists.mp hd
    obtain ⟨us, hx⟩ := exec_destOf hd
    exact (hx s).trans (issueBundle_refused h _ _)
  · show execIdle n s = _
    rw [execIdle, h]
    rfl
  · show execRecall n s = _
    rw [execRecall, h]
    rfl
  · show execBundleIssue b s = _
    exact issueBundle_refused h _ _

end Sys2Proof.Machine.NoIssuer
end

section
/-! SUPPORT for O32. The triggers of SY that complete at once: flags, yields, fences (R189, R190, R279, R308). -/
namespace Sys2Proof.Machine.SyncTriggers
open Sys2Proof.Machine.Sequential

/-! ## Tables and lanes -/

theorem put_put {α : Type} (t : Tbl α) (k : Nat) (v w : α) : Tbl.put (Tbl.put t k v) k w = Tbl.put t k w := by
  induction t with
  | nil => simp [Tbl.put]
  | cons e r ih =>
    obtain ⟨j, x⟩ := e
    rcases lt_trichotomy k j with h | h | h
    · simp [Tbl.put, h]
    · simp [Tbl.put, h]
    · simp [Tbl.put, Nat.not_lt.mpr h.le, h.ne', ih]

theorem setCtx_setCtx (s : State) (id : CtxId) (x y : Ctx) : (s.setCtx id x).setCtx id y = s.setCtx id y := by
  simp only [State.setCtx, put_put]

/-- The lowest lane of a mask that holds a lane below `n`. -/
theorem low_mem {m : Lanes} {n l : Nat} (hl : l < n) (hm : m.getLsbD l = true) :
    Lanes.low m n < n ∧ m.getLsbD (Lanes.low m n) = true := by
  unfold Lanes.low
  cases e : (List.range n).find? (fun j => m.getLsbD j) with
  | none => exact absurd hm (List.find?_eq_none.mp e l (List.mem_range.mpr hl))
  | some j => exact ⟨List.mem_range.mp (List.mem_of_find?_eq_some e), List.find?_some e⟩

/-! ## An operation of SY that refills R at once (R186) -/

theorem flagsDone_unowned {us : UnitState} {uid : Nat} (h : ∀ kv ∈ us.owners, kv.2 ≠ uid) : us.flagsDone uid = us := by
  have mine : us.owners.filter (fun kv => kv.2 == uid) = [] :=
    List.filter_eq_nil_iff.mpr fun kv hm => by simpa using h kv hm
  have rest : us.owners.filter (fun kv => kv.2 != uid) = us.owners :=
    List.filter_eq_self.mpr fun kv hm => by simpa using h kv hm
  rw [UnitState.flagsDone, mine, rest]
  rfl

/-- What a context keeps when the operation that emptied R of unit `u` last refills it and owns no flag. -/
theorem finishKeep_unowned {c : Ctx} {u uid : Nat} (hl : (c.us.unit u).last = uid) (hf : (c.us.unit u).full = false)
    (own : ∀ kv ∈ c.us.owners, kv.2 ≠ uid) :
    ∃ us fr, c.finishKeep u uid = { c with us := us, frame := fr, wait := c.wake } ∧ us.flags = c.us.flags ∧
      us.owners = c.us.owners ∧ (us.unit u).full = true := by
  refine ⟨_, _, rfl, ?_⟩
  rw [UnitState.finish, if_pos ⟨hl, hf⟩, flagsDone_unowned (by exact own)]
  exact ⟨rfl, rfl, by rw [UnitState.unit_setUnit_same]⟩

/-- What a trigger that refills R at once leaves of the context `y` in which it starts. -/
structure Refills (y x : Ctx) : Prop where
  unit : x.us.unit U.sy = y.us.unit U.sy
  owners : x.us.owners = y.us.owners
  frozen : x.frozen = y.frozen
  tid : x.tid = y.tid
  loop : x.loop = y.loop
  tstatus : x.tstatus = y.tstatus
  fpCtl : x.fpCtl = y.fpCtl
  memq : x.memq = y.memq

/-- The context `y` in which a trigger of SY starts, from the context `c` that its bundle finds (R18, R23, R28). -/
structure Starts (u : State) (c y : Ctx) : Prop where
  last : (y.us.unit U.sy).last = c.nextUid
  empty : (y.us.unit U.sy).full = false
  flags : y.us.flags = c.us.flags
  owners : y.us.owners = c.us.owners
  frozen : y.frozen = c.frozen
  tid : y.tid = c.tid
  loop : y.loop = c.loop
  tstatus : y.tstatus = c.tstatus
  fpCtl : y.fpCtl = c.fpCtl
  memq : y.memq = c.memq
  wait : y.wait = c.wait
  g : y.g = c.g
  s : y.s = c.s
  k : y.k = c.k
  pc : y.pc = u.curPc + 6
  sched : y.sched = (c.sched + 1) % 2 ^ 48

section
variable {o : Nat} {m : MoveF} {s : State} {c0 : Ctx} (ho : o < 256) (h : s.Fires c0 (syllable true U.sy 3 o m))
include ho

theorem sy_starts (c : Ctx) : Starts s c
    (atStart c s (Bundle.one (syllable true U.sy 3 o m) s.curPc) (Move.of 0 (syllable true U.sy 3 o m))) := by
  obtain ⟨f1, -⟩ := Move.of_syllable U.sy 3 o m (by decide) (by decide) ho
  have e : c.begun (Bundle.one (syllable true U.sy 3 o m) s.curPc) (Move.of 0 (syllable true U.sy 3 o m)) =
      (c.withT (Bundle.one (syllable true U.sy 3 o m) s.curPc) (Move.of 0 (syllable true U.sy 3 o m))).emptyR
        U.sy c.nextUid := by
    rw [Ctx.begun, f1, if_pos (by decide)]
    rfl
  rw [atStart, e]
  generalize hw : c.withT (Bundle.one (syllable true U.sy 3 o m) s.curPc) (Move.of 0 (syllable true U.sy 3 o m)) = w
  have flags : w.flags = c.us.flags := hw ▸ rfl
  have owners : w.owners = c.us.owners := hw ▸ rfl
  refine ⟨?_, ?_, flags, owners, rfl, rfl, rfl, rfl, rfl, rfl, rfl, rfl, rfl, rfl, rfl, rfl⟩
  · rw [Ctx.after_us, UnitState.emptyR, UnitState.unit_setUnit_same]
  · rw [Ctx.after_us, UnitState.emptyR, UnitState.unit_setUnit_same]

include h

omit ho in
/-- Nothing else holds a team whose bundle executes. -/
theorem wait_ready : c0.land.wait = .ready ∧ c0.land.frozen = false := by
  have ready := h.1.ready
  obtain ⟨-, -, frozen, -, wait, -⟩ := Ctx.land_keeps c0
  simp only [Ctx.ready, Bool.and_eq_true, beq_iff_eq, Bool.not_eq_true'] at ready
  exact ⟨wait.trans ready.2, frozen.trans ready.1.1⟩

omit ho in
/-- No step of a loop record runs in a context whose trigger starts. -/
theorem noStep {y : Ctx} (hy : y.loop = c0.land.loop) : NoStep y := by
  obtain ⟨loop, -⟩ := Ctx.land_keeps c0
  exact fun q e => h.1.loop q (loop ▸ hy ▸ e)

/-- A trigger of SY that changes its context alone, by `f`, and then refills R. -/
theorem keeps_runs {st : Start} (f : Ctx → Ctx) (keeps : ∀ y, Refills y (f y))
    (own : ∀ kv ∈ c0.land.us.owners, kv.2 ≠ c0.land.nextUid)
    (hst : ∀ v : State, ∀ y, v.ctx s.cur = some y → y = atStart c0.land s
        (Bundle.one (syllable true U.sy 3 o m) s.curPc) (Move.of 0 (syllable true U.sy 3 o m)) →
      st v s.cur (c0.land.trigOf (Bundle.one (syllable true U.sy 3 o m) s.curPc)
        (Move.of 0 (syllable true U.sy 3 o m))) = (v.setCtx s.cur (f y)).keep s.cur
          (c0.land.trigOf (Bundle.one (syllable true U.sy 3 o m) s.curPc) (Move.of 0 (syllable true U.sy 3 o m)))) :
    ∃ t c' y, issueOne (syllable true U.sy 3 o m) st s = .next t ∧ t.ctx s.cur = some c' ∧ s.Frame t ∧
      Starts s c0.land y ∧ c'.us.flags = (f y).us.flags ∧ c'.us.owners = y.us.owners ∧
      (c'.us.unit U.sy).full = true ∧ c'.wait = (f y).wait.woken ∧ c'.g = (f y).g ∧ c'.s = (f y).s ∧
      c'.k = (f y).k ∧ c'.pc = (f y).pc ∧ c'.sched = (f y).sched := by
  obtain ⟨f1, -⟩ := Move.of_syllable U.sy 3 o m (by decide) (by decide) ho
  obtain ⟨y, hy, starts⟩ : ∃ y, y = atStart c0.land s (Bundle.one (syllable true U.sy 3 o m) s.curPc)
    (Move.of 0 (syllable true U.sy 3 o m)) ∧ Starts s c0.land y := ⟨_, rfl, sy_starts ho c0.land⟩
  have left := keeps y
  obtain ⟨us, fr, kept, flags, owners, full⟩ := finishKeep_unowned (c := f y) (u := U.sy) (uid := c0.land.nextUid)
    (by rw [left.unit]; exact starts.last) (by rw [left.unit]; exact starts.empty)
    (by rw [left.owners, starts.owners]; exact own)
  have wake : (f y).wake = (f y).wait.woken := by
    rw [Ctx.wake, left.frozen, starts.frozen, (wait_ready h).2]
    rfl
  obtain ⟨t, c', e1, e2, e3, e4, -⟩ := issueOne_setCtx (st := st)
    { f y with us := us, frame := fr, wait := (f y).wake } (by decide) (by decide) ho (fun e => absurd e (by decide)) h
    (fun v _ hv => by
      rw [hst v y (hv.trans (congrArg some hy.symm)) hy, State.keep, State.modCtx_eq (State.ctx_setCtx_same _ _ _),
        setCtx_setCtx]
      show v.setCtx s.cur ((f y).finishKeep (Move.of 0 (syllable true U.sy 3 o m)).dunit c0.land.nextUid) = _
      rw [f1, kept]) (left.tid.trans starts.tid) (left.loop.trans starts.loop) (left.tstatus.trans starts.tstatus)
      (left.fpCtl.trans starts.fpCtl) (left.memq.trans starts.memq)
  rw [wake] at e4
  refine ⟨t, c', y, e1, e2, e3, starts, ?_⟩
  rw [e4]
  exact ⟨flags, owners.trans left.owners, full, rfl, rfl, rfl, rfl, rfl, rfl⟩

end

/-- What a bundle leaves, field by field. -/
theorem is_fields {c' x : Ctx} (h : c'.Is x) :
    c'.us = x.us ∧ c'.g = x.g ∧ c'.s = x.s ∧ c'.k = x.k ∧ c'.pc = x.pc := by
  rw [h.1]
  exact ⟨rfl, rfl, rfl, rfl, rfl⟩

/-! ## What each trigger makes of the context in which it starts -/

theorem setFlag_flag (us : UnitState) {i : Nat} (j : Nat) (v : Bool) (hi : i < 12) :
    (us.setFlag j v).flag i = if i = j then v else us.flag i := by
  have bit : (BitVec.ofNat 12 (2 ^ j)).getLsbD i = decide (j = i) := by
    rw [BitVec.getLsbD_ofNat, Nat.testBit_two_pow, decide_eq_true hi, Bool.true_and]
  cases v
  · show (us.flags &&& ~~~BitVec.ofNat 12 (2 ^ j)).getLsbD i = if i = j then false else us.flags.getLsbD i
    rw [BitVec.getLsbD_and, BitVec.getLsbD_not, bit, decide_eq_true hi]
    by_cases e : i = j
    · rw [if_pos e, e, decide_eq_true rfl]
      exact Bool.and_false _
    · rw [if_neg e, decide_eq_false (Ne.symm e)]
      exact Bool.and_true _
  · show (us.flags ||| BitVec.ofNat 12 (2 ^ j)).getLsbD i = if i = j then true else us.flags.getLsbD i
    rw [BitVec.getLsbD_or, bit]
    by_cases e : i = j
    · rw [if_pos e, e, decide_eq_true rfl, Bool.or_true]
    · rw [if_neg e, decide_eq_false (Ne.symm e), Bool.or_false]

def flagged (j : Nat) (v : Bool) (c : Ctx) : Ctx := { c with us := c.us.setFlag j v }
def yielded (c : Ctx) : Ctx := { c with wait := .yield 0 }

/-- A yieldc to `target`: flag `j` reads 1, or the team waits for it (R308). -/
def yieldedTo (target : W64) (j : Nat) (c : Ctx) : Ctx :=
  { c with pc := target, lines := [], wait := if c.us.flag j then c.wait else .yieldc j }

/-- A fence under the trigger `t`, bound by the range locks that stand (R279, R306). -/
def fenced (c : Ctx) (t : Trig) (locks : Nat) : Ctx :=
  { c with ops := c.ops ++ [{ t.op [] [] none 0 with locks := locks }], us := { c.us with fence := some t.scope } }

theorem startFlag_eq {v : State} {id : CtxId} {t : Trig} {c : Ctx} {j : Nat} {b : Bool} (hv : v.ctx id = some c)
    (ht : t.cleared = []) : startFlag b j v id t = (v.setCtx id (flagged j b c)).keep id t := by
  rw [startFlag, State.modCtx_eq hv, ht]
  rfl

theorem startYield_eq {v : State} {id : CtxId} {t : Trig} {c : Ctx} (hv : v.ctx id = some c) :
    startYield v id t = (v.setCtx id (yielded c)).keep id t := by
  rw [startYield, State.modCtx_eq hv]
  rfl

theorem startYieldc_eq {v : State} {id : CtxId} {t : Trig} {c : Ctx} {j : Nat} {target : W64}
    (hv : v.ctx id = some c) (hl : NoStep c) (ht : t.pc + sx (lo32 (c.tVal t)) = target)
    (he : target.getLsbD 0 = false) (hj : c.us.flag j = true ∨ c.us.owned j = true) :
    startYieldc j v id t = (v.setCtx id (yieldedTo target j c)).keep id t := by
  simp only [startYieldc, hv, ht]
  rw [jump_even hv hl he]
  cases hf : c.us.flag j
  · rw [hf] at hj
    simp only [yieldedTo, hf, hj.resolve_left (by decide), if_true, Bool.false_eq_true, if_false]
  · simp only [yieldedTo, hf, if_true]

theorem startFence_eq {v : State} {id : CtxId} {t : Trig} {c : Ctx} (hv : v.ctx id = some c) :
    startFence v id t = v.setCtx id (fenced c t (v.fold id.fold).lockSeq) := by
  rw [startFence, State.addOp, State.modCtx_eq hv, State.modCtx_eq (State.ctx_setCtx_same _ _ _), setCtx_setCtx]
  rfl

/-- T of a trigger that acts once for its bundle, where its operation starts (R14, R186). -/
theorem tVal_atStart {o : Nat} {m : MoveF} {s : State} {c0 : Ctx} (ho : o < 256)
    (h : s.Fires c0 (syllable true U.sy 3 o m)) (b : Bundle) :
    let mv := Move.of 0 (syllable true U.sy 3 o m)
    (atStart c0.land s b mv).tVal (c0.land.trigOf b mv) =
      c0.land.src b mv (Lanes.low (c0.land.guardMask mv) c0.land.nlanes) := by
  intro mv
  obtain ⟨f1, -⟩ := Move.of_syllable U.sy 3 o m (by decide) (by decide) ho
  obtain ⟨-, l, hl, hm⟩ := h
  obtain ⟨low, guarded⟩ := low_mem hl hm
  rw [Ctx.tVal, atStart_held]
  exact Ctx.withT_held (by rw [f1]; rfl) low guarded

/-! ## The obligation -/

theorem exec_flag (j : BitVec 4) (m : MoveF) (s : State) (v : Bool) :
    exec (if v then .syFset j m else .syFclr j m) s =
      issueOne (syllable true U.sy 3 ((if v then 0x40 else 0x50) + j.toNat) m) (startFlag v j.toNat) s := by
  cases v <;> rfl

theorem exec_yieldc (j : BitVec 4) (m : MoveF) (s : State) :
    exec (.syYieldc j m) s = issueOne (syllable true U.sy 3 (0x70 + j.toNat) m) (startYieldc j.toNat) s := rfl

section
variable (j : BitVec 4) {m : MoveF} {s : State} {c0 : Ctx} (own : ∀ kv ∈ c0.land.us.owners, kv.2 ≠ c0.land.nextUid)
include own

theorem flag_runs (v : Bool) (h : s.Fires c0 (syllable true U.sy 3 ((if v then 0x40 else 0x50) + j.toNat) m)) :
    ∃ t c', exec (if v then .syFset j m else .syFclr j m) s = .next t ∧ t.ctx s.cur = some c' ∧ s.Frame t ∧
      (∀ i, i < 12 → c'.us.flag i = if i = j.toNat then v else c0.land.us.flag i) ∧ c'.us.owners = c0.land.us.owners ∧
      (c'.us.unit U.sy).full = true ∧ c'.wait = .ready ∧ c'.g = c0.land.g ∧ c'.s = c0.land.s ∧ c'.k = c0.land.k ∧
      c'.pc = s.curPc + 6 ∧ c'.sched = (c0.land.sched + 1) % 2 ^ 48 := by
  have hj := j.isLt
  have ho : (if v then 0x40 else 0x50) + j.toNat < 256 := by cases v <;> simp <;> omega
  obtain ⟨t, c', y, e1, e2, e3, y1, hf, hw, full, wait, hg, hs, hk, pc, sched⟩ := keeps_runs ho h (flagged j.toNat v)
    (fun y => ⟨rfl, rfl, rfl, rfl, rfl, rfl, rfl, rfl⟩) own (fun u y hu _ => startFlag_eq hu rfl)
  refine ⟨t, c', (exec_flag j m s v).trans e1, e2, e3, fun i hi => ?_, hw.trans y1.owners, full, wait.trans ?_,
    hg.trans y1.g, hs.trans y1.s, hk.trans y1.k, pc.trans y1.pc, sched.trans y1.sched⟩
  · rw [UnitState.flag, hf]
    exact (setFlag_flag _ j.toNat v hi).trans (by rw [UnitState.flag, y1.flags]; rfl)
  · rw [flagged, y1.wait, (wait_ready h).1]
    rfl

theorem yield_runs (h : s.Fires c0 (syllable true U.sy 3 0x60 m)) :
    ∃ t c', exec (.syYield m) s = .next t ∧ t.ctx s.cur = some c' ∧ s.Frame t ∧ c'.wait = .yield 0 ∧
      c'.us.flags = c0.land.us.flags ∧ (c'.us.unit U.sy).full = true ∧ c'.g = c0.land.g ∧ c'.s = c0.land.s ∧
      c'.k = c0.land.k ∧ c'.pc = s.curPc + 6 := by
  obtain ⟨t, c', y, e1, e2, e3, y1, hf, -, full, wait, hg, hs, hk, pc, -⟩ := keeps_runs (by decide) h yielded
    (fun y => ⟨rfl, rfl, rfl, rfl, rfl, rfl, rfl, rfl⟩) own (fun u y hu _ => startYield_eq hu)
  exact ⟨t, c', e1, e2, e3, wait, hf.trans y1.flags, full, hg.trans y1.g, hs.trans y1.s, hk.trans y1.k,
    pc.trans y1.pc⟩

theorem yieldc_runs (h : s.Fires c0 (syllable true U.sy 3 (0x70 + j.toNat) m)) {target : W64}
    (ht : s.curPc + sx (lo32 (c0.land.src (Bundle.one (syllable true U.sy 3 (0x70 + j.toNat) m) s.curPc)
      (Move.of 0 (syllable true U.sy 3 (0x70 + j.toNat) m))
      (Lanes.low (c0.land.guardMask (Move.of 0 (syllable true U.sy 3 (0x70 + j.toNat) m))) c0.land.nlanes))) = target)
    (he : target.getLsbD 0 = false) (hj : c0.land.us.flag j.toNat = true ∨ c0.land.us.owned j.toNat = true) :
    ∃ t c', exec (.syYieldc j m) s = .next t ∧ t.ctx s.cur = some c' ∧ s.Frame t ∧ c'.pc = target ∧
      c'.wait = (if c0.land.us.flag j.toNat then .ready else .yieldc j.toNat) ∧ c'.us.flags = c0.land.us.flags ∧
      c'.g = c0.land.g ∧ c'.s = c0.land.s ∧ c'.k = c0.land.k := by
  have hlt := j.isLt
  have ho : 0x70 + j.toNat < 256 := by omega
  have starts := sy_starts (m := m) (s := s) ho c0.land
  obtain ⟨t, c', y, e1, e2, e3, y1, hf, -, -, wait, hg, hs, hk, pc, -⟩ := keeps_runs ho h (yieldedTo target j.toNat)
    (fun y => ⟨rfl, rfl, rfl, rfl, rfl, rfl, rfl, rfl⟩) own (fun u y hu hy => by
      refine startYieldc_eq hu (noStep h (hy ▸ starts.loop)) ?_ he
        (by rw [UnitState.flag, UnitState.owned, hy, starts.flags, starts.owners]; exact hj)
      rw [hy, tVal_atStart ho h]
      exact ht)
  refine ⟨t, c', (exec_yieldc j m s).trans e1, e2, e3, pc, wait.trans ?_, hf.trans y1.flags, hg.trans y1.g, hs.trans y1.s, hk.trans y1.k⟩
  rw [yieldedTo, UnitState.flag, y1.flags, y1.wait, (wait_ready h).1]
  show Wait.woken (if c0.land.us.flag j.toNat then Wait.ready else Wait.yieldc j.toNat) = _
  split <;> rfl

omit own in
theorem fence_runs (h : s.Fires c0 (syllable true U.sy 3 0x30 m)) :
    ∃ t c', exec (.syFence m) s = .next t ∧ t.ctx s.cur = some c' ∧ s.Frame t ∧ c'.us.fence = some 0 ∧
      (c'.us.unit U.sy).full = false ∧ c'.us.flags = c0.land.us.flags ∧ c'.g = c0.land.g ∧ c'.s = c0.land.s ∧
      c'.k = c0.land.k ∧ c'.pc = s.curPc + 6 := by
  obtain ⟨y, hy, y1⟩ : ∃ y, y = atStart c0.land s (Bundle.one (syllable true U.sy 3 0x30 m) s.curPc)
    (Move.of 0 (syllable true U.sy 3 0x30 m)) ∧ Starts s c0.land y := ⟨_, rfl, sy_starts (by decide) c0.land⟩
  obtain ⟨t, c', e1, e2, e3, e4⟩ := issueOne_setCtx (st := startFence) (fenced y
    (c0.land.trigOf (Bundle.one (syllable true U.sy 3 0x30 m) s.curPc) (Move.of 0 (syllable true U.sy 3 0x30 m)))
    (s.fold s.cur.fold).lockSeq) (by decide) (by decide) (by decide)
    (fun e => absurd e (by decide)) h (fun v hf hv => by
      rw [startFence_eq (hv.trans (congrArg some hy.symm)), State.fold, hf]
      rfl) y1.tid y1.loop y1.tstatus y1.fpCtl y1.memq
  obtain ⟨us, hg, hs, hk, pc⟩ := is_fields e4
  refine ⟨t, c', e1, e2, e3, ?_, ?_, ?_, hg.trans y1.g, hs.trans y1.s, hk.trans y1.k, pc.trans y1.pc⟩
  · rw [us]
    rfl
  · rw [us]
    exact y1.empty
  · rw [us]
    exact y1.flags

end

/-- Settles O32: fset, fclr, yield and yieldc change their context and refill R (`keeps_runs`); fence puts its operation
in flight and marks itself pending (`startFence_eq`). -/
theorem flagsYieldsAndFences : Obligations.FlagsYieldsAndFences := fun j _ _ _ own =>
  ⟨flag_runs j own, yield_runs own, fun h he hj => yieldc_runs j own h rfl he hj, fence_runs⟩

end Sys2Proof.Machine.SyncTriggers
end

section
/-! SUPPORT for O56. Agents in a space without a root (R237): what their walks, reads and stores leave. -/
namespace Sys2Proof.Machine.EvictedLog
open Sys2Proof.Machine.Beneath

/-! ## Walks

Where a space has no root, an address is the package byte of its number, and no leaf is written. -/

section
variable {s : State} {asid : Nat} (flat : s.root asid = none)
include flat

theorem translate_flat {die : Nat} {a : W64} {k : AccKind} {u : Bool} {t : Trans}
    (h : s.translate die asid a k u = .ok t) : t.setAD = none ∧ t.place = .pkg (bits a.toNat 56 0) := by
  unfold State.translate at h
  dsimp only at h
  split at h
  · cases h
  · rw [flat] at h
    dsimp only at h
    split at h
    · cases h
      exact ⟨rfl, rfl⟩
    · cases h

theorem walkTo_flat (die : Nat) (a : W64) (k : AccKind) (u : Bool) : (s.walkTo die asid a k u).1 = s := by
  unfold State.walkTo
  split
  · rfl
  · rename_i t h
    rw [State.applyAD, (translate_flat flat h).1]

theorem readVirt_flat {die va n : Nat} {u : Bool} {bs : List Byte} {t : State}
    (h : s.readVirt die asid u va n = .ok (bs, t)) : t = s := by
  induction n generalizing va bs with
  | zero => cases h; rfl
  | succ n ih =>
    unfold State.readVirt at h
    have walked := walkTo_flat flat die (BitVec.ofNat 64 va) .load u
    generalize s.walkTo die asid (BitVec.ofNat 64 va) .load u = w at walked h
    obtain ⟨s1, r⟩ := w
    obtain rfl : s1 = s := walked
    split at h
    · cases h
    · rename_i e
      obtain ⟨rfl, -⟩ := Prod.mk.inj e
      split at h
      · cases h
      · split at h
        · cases h
        · rename_i e
          cases h
          exact ih e

theorem walkStore_flat (die va n : Nat) (u : Bool) : (s.walkStore die asid u va n).1 = s := by
  induction n generalizing va with
  | zero => rfl
  | succ n ih =>
    unfold State.walkStore
    have walked := walkTo_flat flat die (BitVec.ofNat 64 va) .store u
    generalize s.walkTo die asid (BitVec.ofNat 64 va) .store u = w at walked
    obtain ⟨s1, r⟩ := w
    obtain rfl : s1 = s := walked
    cases r with
    | error e => rfl
    | ok t =>
      dsimp only
      split
      · rfl
      · exact ih _

end

/-! ## Stores -/

/-- The folds but for their L1 and the dies but for their homes are as before, and so is memory below `b`. -/
structure Stored (b : Nat) (s t : State) : Prop where
  folds : ∀ f, Beneath.core (t.fold f) = Beneath.core (s.fold f)
  dies : ∀ d, homeless (t.die d) = homeless (s.die d)
  wf : Memory.wf s.mem = true → Memory.wf t.mem = true
  mem : Memory.wf s.mem = true → ∀ a, a < b → Memory.read t.mem a = Memory.read s.mem a

theorem Stored.refl (b : Nat) (s : State) : Stored b s s := ⟨fun _ => rfl, fun _ => rfl, id, fun _ _ _ => rfl⟩

theorem Stored.trans {b : Nat} {s t u : State} (h : Stored b s t) (k : Stored b t u) : Stored b s u :=
  ⟨fun f => (k.folds f).trans (h.folds f), fun d => (k.dies d).trans (h.dies d), fun w => k.wf (h.wf w),
    fun w a ha => (k.mem (h.wf w) a ha).trans (h.mem w a ha)⟩

/-- A field of a die that is none of the home's. -/
theorem Stored.field {b : Nat} {s t : State} (h : Stored b s t) {α : Type} (f : Die → α)
    (hf : ∀ d, f (homeless d) = f d) (d : Nat) : f (t.die d) = f (s.die d) := by rw [← hf, h.dies, hf]

theorem Stored.root {b : Nat} {s t : State} (h : Stored b s t) (asid : Nat) : t.root asid = s.root asid := by
  rw [State.root, h.field Die.qroot fun _ => rfl, h.field Die.sroot fun _ => rfl, State.root]

theorem putAt_stored {b p : Nat} (h : b ≤ p) (s : State) (bs : List Byte) : Stored b s (s.putAt (.pkg p) bs) := by
  have quiet := recallAll_quiet s p bs.length
  have alike := recallAll_alike s p bs.length
  refine ⟨quiet.folds, alike.dies, fun w => Alone.putAt_wf w _ _, fun w a ha => ?_⟩
  show Memory.read (Memory.writeN (s.recallAll p bs.length).mem p bs) a = _
  rw [quiet.mem, Memory.read_writeN _ _ _ _ w, if_neg (by omega)]

theorem writeVirt_flat {s t : State} {die asid va b : Nat} {u : Bool} {bs : List Byte} (flat : s.root asid = none)
    (low : b ≤ va) (high : va + bs.length ≤ 2 ^ 57) (h : s.writeVirt die asid u va bs = .ok t) : Stored b s t := by
  induction bs generalizing va t with
  | nil => cases h; exact .refl ..
  | cons x r ih =>
    rw [List.length_cons] at high
    unfold State.writeVirt at h
    cases e : s.translate die asid (BitVec.ofNat 64 va) .store u with
    | error e' => simp only [State.walkTo, e] at h; cases h
    | ok tr =>
      obtain ⟨ad, place⟩ := translate_flat flat e
      have at_ : bits (BitVec.ofNat 64 va).toNat 56 0 = va := by
        rw [BitVec.toNat_ofNat, bits]
        omega
      rw [at_] at place
      simp only [State.walkTo, e, State.applyAD, ad, place, State.unreachable] at h
      split at h
      · cases h
      · rename_i w hw
        cases h
        exact (ih (by omega) (by omega) hw).trans (putAt_stored low _ _)

/-- The writes of a save, one after another. -/
def putVirt (die asid : Nat) (s : State) (x : Nat × List Byte) : State :=
  match s.writeVirt die asid true x.1 x.2 with
  | .ok t => t
  | .error e => e.2.2

theorem writeVirt_error {s t : State} {die asid va : Nat} {u : Bool} {bs : List Byte} {k : BitVec 7} {a : Nat}
    (flat : s.root asid = none) (h : s.writeVirt die asid u va bs = .error (k, a, t)) : t = s := by
  induction bs generalizing va with
  | nil => cases h
  | cons x r ih =>
    unfold State.writeVirt at h
    have walked := walkTo_flat flat die (BitVec.ofNat 64 va) .store u
    generalize s.walkTo die asid (BitVec.ofNat 64 va) .store u = w at walked h
    obtain ⟨s1, r⟩ := w
    obtain rfl : s1 = s := walked
    split at h
    · rename_i e; cases h; exact (Prod.mk.inj e).1.symm
    · rename_i e
      obtain ⟨rfl, -⟩ := Prod.mk.inj e
      split at h
      · cases h; rfl
      · split at h
        · rename_i e
          cases h
          exact ih e
        · cases h

theorem putVirt_flat {s : State} {die asid b : Nat} {x : Nat × List Byte} (flat : s.root asid = none) (low : b ≤ x.1)
    (high : x.1 + x.2.length ≤ 2 ^ 57) : Stored b s (putVirt die asid s x) := by
  unfold putVirt
  split
  · rename_i h
    exact writeVirt_flat flat low high h
  · rename_i h
    rw [writeVirt_error flat h]
    exact .refl ..

/-- The walks that precede the writes of a save. -/
theorem walks_flat {s : State} {asid : Nat} (flat : s.root asid = none) (die : Nat) (l : List (Nat × List Byte)) :
    (l.foldl (fun acc x => if acc.2.isSome = true then acc else acc.1.walkStore die asid true x.1 x.2.length)
      (s, none)).1 = s := by
  refine foldl_of_step (R := fun a b : State × Option Nat => a.1 = s → b.1 = s) (fun _ h => h)
    (fun p q h => q (p h)) _ (fun a x h => ?_) l (s, none) rfl
  split
  · exact h
  · rw [h]
    exact walkStore_flat flat ..

/-- A save of one image, where the end of the area's room lies below 2^57, changes nothing below the area (R379). -/
theorem writeImages_flat {s t : State} {die asid : Nat} {save : W64} {image h : List Byte} {as : List W64}
    (flat : s.root asid = none) (header : s.readVirt die asid true save.toNat 16 = .ok (h, s))
    (high : save.toNat + field h 8 8 + 8 ≤ 2 ^ 57)
    (e : s.writeImages die asid save [image] = .ok (as, t)) : Stored save.toNat s t := by
  unfold State.writeImages at e
  split at e
  · cases e
  · rw [header] at e
    dsimp only [List.foldl_cons, List.foldl_nil, List.map_cons, List.map_nil, List.nil_append, List.cons_append] at e
    split at e
    · cases e
    · rename_i room
      have walked := walks_flat flat die [(save.toNat + roundUp (field h 0 8) 4096, image),
        (save.toNat, bytesOf 8 (roundUp (field h 0 8) 4096 + image.length))]
      split at e
      · cases e
      · rename_i s2 w
        cases e
        obtain rfl : s2 = s := (congrArg Prod.fst w).symm.trans walked
        have first : Stored save.toNat s2
            (putVirt die asid s2 (save.toNat + roundUp (field h 0 8) 4096, image)) :=
          putVirt_flat flat (Nat.le_add_right ..) (by dsimp only; omega)
        exact first.trans (putVirt_flat ((first.root asid).trans flat) le_rfl (by rw [bytesOf_length]; omega))

end Sys2Proof.Machine.EvictedLog
end

section
/-! SUPPORT for O56. An evicted team's fold posts what it has merged for the dirty log (R195, R233). -/
namespace Sys2Proof.Machine.EvictedLog
open Sys2Proof.Machine.Beneath Sys2Proof.Machine.SyncAnswers

/-! ## The record of the dirty log

In a die's shadow space without a root, with a ring of 256 records that has none yet. -/

/-- The ring's first record. -/
def logRecord (f : Nat) (p : DlogSpan) : List Byte :=
  bytesOf 8 p.lo ++ bytesOf 4 (p.hi + 1 - p.lo) ++ bytesOf 2 f ++ bytesOf 2 0

theorem shadowStore_flat {s : State} {d a : Nat} {bs : List Byte} (flat : s.root (256 + d) = none)
    (ha : a < 2 ^ 48) (ok : physOk a 1 = true) :
    ∃ t, s.shadowStore d a bs = some t ∧ t.mem = Memory.writeN s.mem a bs := by
  have at_ : bits (BitVec.ofNat 64 a).toNat 56 0 = a := by rw [BitVec.toNat_ofNat, bits]; omega
  have top : bits (BitVec.ofNat 64 a).toNat 63 57 = 0 := by rw [BitVec.toNat_ofNat, bits]; omega
  cases e : s.translate d (256 + d) (BitVec.ofNat 64 a) .store false with
  | error k =>
    unfold State.translate at e
    simp only [at_, top, flat, ne_eq, not_true_eq_false, if_false] at e
    rw [if_pos ⟨Nat.le_add_right .., ha, ok⟩] at e
    cases e
  | ok t =>
    obtain ⟨ad, place⟩ := translate_flat flat e
    rw [at_] at place
    refine ⟨_, by rw [State.shadowStore, e], ?_⟩
    rw [State.applyAD, ad, place]
    show Memory.writeN (s.recallAll a bs.length).mem a bs = _
    rw [(recallAll_quiet ..).mem]

theorem flushDlog_mem {s : State} {f a : Nat} {p : DlogSpan} (hp : (s.fold f).dlog = some p)
    (ctl : (s.die (dieOf f)).dlogCtl = 8) (ridx : (s.die (dieOf f)).dlogRidx = 0)
    (base : bits (s.die (dieOf f)).dlogBase.toNat 56 12 * 4096 = a) (flat : s.root (256 + dieOf f) = none)
    (ha : a < 2 ^ 48) (ok : physOk a 1 = true) : (s.flushDlog f).mem = Memory.writeN s.mem a (logRecord f p) := by
  have die : (s.modFold f fun f => { f with dlog := none }).die (dieOf f) = s.die (dieOf f) := rfl
  obtain ⟨t, e, mem⟩ := shadowStore_flat (s := s.modFold f fun f => { f with dlog := none })
    (bs := logRecord f p) flat ha ok
  have size : ringSize 8 8 20 = some 256 := by decide
  have widx : ringWidx 8 = 0 := by decide
  unfold State.flushDlog
  rw [hp]
  dsimp only
  unfold State.postDlog
  simp only [die, ctl, ridx, size, widx, base]
  rw [if_neg (by decide), show a + 16 * (0 % 256) = a from rfl]
  rw [logRecord] at e
  rw [e]
  exact mem

/-! ## A starved fold with a dirty-log record

The fold's one team waits for a grow, its flock has a SAVE area at 0x10000, and its fold has merged a write of the
bytes 0x5000 to 0x5007 for the dirty log, whose ring stands at 0x8000. -/

def evictGang : Gang := { soloGang with save := 0x10000, asid := 256 }
def evictCtx : Ctx := { Ctx.blank 2 8 with gang := 7, wait := .grow 64 }

def evictState : State := { State.reset with
    ctxs := [(CtxId.key { fold := 0, slot := 0 }, evictCtx)], gangs := [(7, evictGang)]
    dies := [(0, { Die.fresh with dlogBase := 0x8000, dlogCtl := 8 })]
    folds := [(0, { Fold.fresh with dlog := some { region := 0, lo := 0x5000, hi := 0x5007 } })]
    mem := Memory.writeN [] 0x10000 (bytesOf 8 16 ++ bytesOf 8 0x100000) }

theorem evict_tables : evictState.tablesOk := by
  unfold State.tablesOk
  decide +kernel

theorem evict_starved : evictState.starved 0 = true ∧ youngest (evictState.awake 0) = some (0, evictCtx) ∧
    evictState.quiet { fold := 0, slot := 0 } evictCtx = true := by decide +kernel

theorem evict_root : evictState.root 256 = none := by decide +kernel

theorem evict_wf : Memory.wf evictState.mem = true := by decide +kernel

/-- The header of the SAVE area, and the second byte of the ring's first record. -/
theorem evict_header : (match evictState.readVirt 0 256 true 0x10000 16 with
    | .ok (h, _) => decide (field h 8 8 = 0x100000)
    | .error _ => false) = true := by decide +kernel
theorem evict_byte : Memory.read evictState.mem 0x8001 = 0 := by decide +kernel

/-- Whether the team's image is stored. -/
theorem evict_stored : (match evictState.writeImages 0 256 0x10000
      [imageBytes (evictState.teamImage evictGang evictCtx).1] with
    | .ok (as, _) => decide (as = [0x11000])
    | .error _ => false) = true := by decide +kernel

theorem header_read : ∃ h, evictState.readVirt 0 256 true (0x10000 : W64).toNat 16 = .ok (h, evictState) ∧
    field h 8 8 = 0x100000 := by
  have header := evict_header
  split at header
  · rename_i h s e
    rw [readVirt_flat evict_root e] at e
    exact ⟨h, e, of_decide_eq_true header⟩
  · cases header

/-- The memory of an eviction whose team's image is stored: the fold's record is posted (R195, R233). -/
theorem execTeamEvict_mem {f slot : Nat} {s t s2 : State} {c : Ctx} {g : Gang} {as : List W64}
    (starved : s.starved f = true) (young : youngest (s.awake f) = some (slot, c)) (hg : s.gang c.gang = some g)
    (save : g.save ≠ 0) (quiet : s.quiet { fold := f, slot := slot } c = true)
    (e : (s.teamImage g c).2.writeImages g.die g.asid g.save [imageBytes (s.teamImage g c).1] = .ok (as, s2))
    (run : execTeamEvict f s = .next t) : t.mem = (s2.flushDlog f).mem := by
  unfold execTeamEvict at run
  simp only [starved, young, hg, if_neg save, quiet, e, Bool.not_true, Bool.false_eq_true, if_false] at run
  cases run
  rw [Alone.growTest_mem]
  rfl

/-- Refutes O56: the fold of `evictState` has merged a record for the dirty log. The evicted team's slot is vacated only
when the record is in memory, so memory is not what the image's write left. -/
theorem not_teamsAndGangsSaved : ¬ Obligations.TeamsAndGangsSaved := by
  rintro ⟨evicts, -⟩
  obtain ⟨starved, young, quiet⟩ := evict_starved
  obtain ⟨-, evicts⟩ := evicts 0 evictState evict_tables
  obtain ⟨-, evicts⟩ := evicts 0 evictCtx evictGang starved young rfl
  have stored := evict_stored
  split at stored
  case h_2 => cases stored
  case h_1 as s2 e =>
    obtain rfl := of_decide_eq_true stored
    obtain ⟨t, run, -, mem, -⟩ := evicts _ _ s2 (by decide) quiet e
    have posted := execTeamEvict_mem starved young rfl (by decide) quiet e run
    obtain ⟨h, header, room⟩ := header_read
    have left := writeImages_flat evict_root header (by rw [room]; decide) e
    have dlog : (s2.fold 0).dlog = some { region := 0, lo := 0x5000, hi := 0x5007 } :=
      congrArg Fold.dlog (left.folds 0)
    have record := flushDlog_mem dlog (left.field Die.dlogCtl (fun _ => rfl) 0) (left.field Die.dlogRidx (fun _ => rfl) 0)
      (a := 0x8000) (by rw [left.field Die.dlogBase (fun _ => rfl)]; decide) ((left.root 256).trans evict_root)
      (by decide) (by decide)
    have before := (left.mem evict_wf 0x8001 (by decide)).trans evict_byte
    rw [← mem, posted, record, Memory.read_writeN _ _ _ _ (left.wf evict_wf), if_pos (by decide)] at before
    exact absurd before (by decide)

end Sys2Proof.Machine.EvictedLog
end

section
/-! SUPPORT for O37. claim, unclaim and rgn: what their starts and their ends leave (R226, R280 to R282). -/
namespace Sys2Proof.Machine.RangeClaims
open Sys2Proof.Machine.Sequential Sys2Proof.Machine.Beneath Sys2Proof.Machine.SyncTriggers

/-! ## Their triggers -/

/-- The operation that a trigger puts in flight with a descriptor's address. -/
def descOp (t : Trig) (c : Ctx) (locks : Nat) : VarOp :=
  { portsOp t c locks with
    addr := BitVec.ofNat 64 ((lo32 (c.aVal t)).toNat * 2 ^ 32 + (lo32 (c.tVal t)).toNat) }

/-- A trigger with a descriptor, in a state with the folds of `s`. -/
theorem startClaim_setCtx {s v : State} {id : CtxId} {t : Trig} {c : Ctx} (hf : v.folds = s.folds)
    (hv : v.ctx id = some c) :
    startClaim v id t = v.setCtx id { c with ops := c.ops ++ [descOp t c (s.fold id.fold).lockSeq] } := by
  simp only [startClaim, hv, State.addOp, State.modCtx_eq hv, State.fold, hf]
  rfl

/-- A of a trigger of SY that acts once for its bundle, where its operation starts (R14, R186). -/
theorem aVal_atStart {o : Nat} (m : MoveF) {s : State} {c : Ctx} (ho : o < 256) (b : Bundle) :
    let mv := Move.of 0 (syllable true U.sy 3 o m)
    (atStart c s b mv).aVal (c.trigOf b mv) = (c.us.unit U.sy).a.at (Lanes.low (c.guardMask mv) c.nlanes) := by
  intro mv
  obtain ⟨f1, -⟩ := Move.of_syllable U.sy 3 o m (by decide) (by decide) ho
  have unit : (c.trigOf b mv).unit = U.sy := f1
  rw [Ctx.aVal, atStart_a, unit, if_neg (by decide), f1]
  rfl

theorem claim_starts {o : Nat} {m : MoveF} {s : State} {c0 : Ctx} {i : Instr} (ho : o < 256)
    (hx : exec i s = issueOne (syllable true U.sy 3 o m) startClaim s) (h : s.Fires c0 (syllable true U.sy 3 o m)) :
    OpStarts i (syllable true U.sy 3 o m) s c0 (fun x => x.vals = none ∧ x.addr = BitVec.ofNat 64
      ((lo32 ((c0.land.us.unit U.sy).a.at (Lanes.low (c0.rowMask (syllable true U.sy 3 o m)) c0.nlanes))).toNat * 2 ^ 32 +
        (lo32 (c0.rowT s (syllable true U.sy 3 o m))).toNat)) := by
  obtain ⟨f1, -⟩ := Move.of_syllable U.sy 3 o m (by decide) (by decide) ho
  obtain ⟨-, -, -, -, -, -, -, -, -, -, -, -, nlanes, -⟩ := Ctx.land_keeps c0
  obtain ⟨t, c', e1, e2, e3, e4⟩ := issueOne_setCtx (st := startClaim) (u := U.sy) (o := o) (m := m) _ (by decide)
    (by decide) ho (fun e => absurd e (by decide)) h (fun v hf hv => startClaim_setCtx hf hv) rfl rfl rfl rfl rfl
  refine ⟨t, c', _, hx.trans e1, e2, e3, e4, begun_unit_full (by rw [f1]; rfl), rfl, rfl, rfl, rfl, rfl, rfl,
    curPc_of h.1.here, rfl, rfl, ?_⟩
  rw [descOp]
  dsimp only
  rw [aVal_atStart m ho, tVal_atStart ho h, Ctx.rowT, Ctx.rowMask, nlanes]

/-! ## The read of a descriptor and the walks of its elements leave every context -/

theorem askPlaces_ctxs (s : State) (ps : List Place) : (s.askPlaces ps).ctxs = s.ctxs :=
  (Under.foldl (fun u _ => (askRemote_quiet u ..).toUnder) _ s).ctxs

/-- The parts of a descriptor, one after the other: what the rest leaves is what this one left. -/
theorem readParts_rest {s t : State} {id : CtxId} {c : Ctx} {locks n : Nat} {addr : W64} {pages : List Trans}
    {bs : List Byte} (first : t.ctxs = s.ctxs) (rest : (t.readParts id c locks addr n pages).1.ctxs = t.ctxs) :
    (match t.readParts id c locks addr n pages with
      | (u, .error e) => (u, Except.error e)
      | (u, .ok (r, p)) => (u, Except.ok (bs ++ r, p))).1.ctxs = s.ctxs := by
  generalize t.readParts id c locks addr n pages = q at rest ⊢
  obtain ⟨u, r⟩ := q
  cases r <;> exact rest.trans first

theorem readParts_ctxs (s : State) (id : CtxId) (c : Ctx) (locks : Nat) (addr : W64) (n : Nat) (pages : List Trans) :
    (s.readParts id c locks addr n pages).1.ctxs = s.ctxs := by
  induction n generalizing s addr pages with
  | zero => rfl
  | succ n ih =>
    unfold State.readParts
    dsimp only
    have walked := (walked_below s id c (MemOp.blank 0 U.la 0x36 0 0 locks 0 0)
      (s.laneAt id c (MemOp.blank 0 U.la 0x36 0 0 locks 0 0) 0 addr 0 0) (s.check id c
        (MemOp.blank 0 U.la 0x36 0 0 locks 0 0)
        (s.laneAt id c (MemOp.blank 0 U.la 0x36 0 0 locks 0 0) 0 addr 0 0))).ctxs
    generalize s.walked id c (MemOp.blank 0 U.la 0x36 0 0 locks 0 0) _ _ = s0 at walked ⊢
    split
    · exact walked
    · exact walked
    · rename_i f off _ _
      obtain ⟨k, touched⟩ := touchWindow_sectors s0 f off 16 .load
      have touched := touched.ctxs.trans walked
      generalize s0.touchWindow f off 16 .load = w at touched ⊢
      obtain ⟨s1, r⟩ := w
      cases r with
      | some e => exact touched
      | none => exact readParts_rest touched (ih ..)
    · split
      · exact walked
      · exact walked
      · exact walked
      · exact readParts_rest ((askPlaces_ctxs ..).trans walked) (ih ..)
    · exact walked

theorem readDesc_ctxs (s : State) (id : CtxId) (c : Ctx) (locks : Nat) (addr : W64) (n : Nat) :
    (s.readDesc id c locks addr n).1.ctxs = s.ctxs := by
  unfold State.readDesc
  split
  · rfl
  · have parts := readParts_ctxs s id c locks addr (n / 16) []
    generalize s.readParts id c locks addr (n / 16) [] = q at parts ⊢
    obtain ⟨s1, r⟩ := q
    cases r with
    | error e => exact parts
    | ok r => exact (Below.foldl (fun u t => countAccess_below u id.fold c.asid t 1) r.2 s1).ctxs.trans parts

theorem claimPart_ctxs (s : State) (id : CtxId) (c : Ctx) (a : W64) (n : Nat) :
    (s.claimPart id c a n).1.ctxs = s.ctxs := by
  have byte : (s.claimByte id c a).1.ctxs = s.ctxs := by
    unfold State.claimByte
    split
    · rfl
    · split
      · rfl
      · split
        · rename_i e; exact (walkTo_under e).ctxs
        · rename_i e; exact (walkTo_under e).ctxs
  unfold State.claimPart
  generalize s.claimByte id c a = q at byte ⊢
  obtain ⟨s1, r⟩ := q
  rcases r with e | (_ | p)
  · exact byte
  · exact byte
  · exact byte

theorem claimElem_ctxs (s : State) (id : CtxId) (c : Ctx) (width : Nat) (a : W64) :
    (s.claimElem id c width a).1.ctxs = s.ctxs := by
  unfold State.claimElem
  dsimp only
  generalize min width (4096 - a.toNat % 4096) = n
  have first := claimPart_ctxs s id c a n
  generalize s.claimPart id c a n = q at first ⊢
  obtain ⟨s1, r⟩ := q
  cases r with
  | error e => exact first
  | ok l =>
    dsimp only
    split
    · exact first
    · have second := (claimPart_ctxs s1 id c (a + BitVec.ofNat 64 n) (width - n)).trans first
      generalize s1.claimPart id c (a + BitVec.ofNat 64 n) (width - n) = q at second ⊢
      obtain ⟨s2, r⟩ := q
      cases r <;> exact second

theorem claimElems_ctxs (s : State) (id : CtxId) (c : Ctx) (width : Nat) (l : List W64) :
    (s.claimElems id c width l).1.ctxs = s.ctxs := by
  induction l generalizing s with
  | nil => rfl
  | cons a r ih =>
    unfold State.claimElems
    have elem := claimElem_ctxs s id c width a
    generalize s.claimElem id c width a = q at elem ⊢
    obtain ⟨s1, x⟩ := q
    cases x with
    | error e => exact elem
    | ok x =>
      have rest := (ih s1).trans elem
      dsimp only
      generalize s1.claimElems id c width r = q at rest ⊢
      obtain ⟨s2, y⟩ := q
      cases y <;> exact rest

/-! ## Ownership taken and given back leaves memory and every context (R226) -/

theorem claimParts_quiet (s : State) (f stride width : Nat) (l : List (List ClaimPart)) :
    Quiet s (s.claimParts f stride width l) := by
  unfold State.claimParts
  refine Quiet.trans (Quiet.foldl (fun u p => ?_) _ s) (Quiet.foldl (fun u x => ownRange_quiet ..) _ _)
  split
  · exact .refl u
  · exact ownRange_quiet ..

theorem disowned_quiet (s : State) (f : Nat) (l : List ClaimPart) :
    Quiet s (l.foldl (fun s p => s.disown f p.pa (p.pa + p.len - 1)) s) :=
  Quiet.foldl (fun _ _ => disown_quiet ..) l s

/-! ## How the operation ends -/

/-- A claim, unclaim or rgn is an operation of SY. -/
theorem claimOp_unit {c : Ctx} {o : VarOp} (h : c.claimOp = some o) : o.unit = U.sy := by
  obtain ⟨found, -⟩ := Option.filter_eq_some_iff.mp h
  have := List.find?_some found
  simp only [Bool.and_eq_true, beq_iff_eq] at this
  exact this.1

/-- R and the fault record of the unit whose latest operation completes (R18, R141). -/
theorem finish_unit {us : UnitState} {n u uid : Nat} {mask : Lanes} {f : Nat → W64} {fr : Option FaultRec}
    (hl : (us.unit u).last = uid) (hf : (us.unit u).full = false) :
    ((us.finish n u uid mask f fr).unit u).full = true ∧ ((us.finish n u uid mask f fr).unit u).frec = fr := by
  rw [UnitState.finish.eq_def]
  simp only [if_pos (And.intro hl hf)]
  generalize hw : us.setUnit u _ = w
  obtain ⟨fl, e, -⟩ := flagsDone_is w uid
  rw [e]
  show (w.unit u).full = true ∧ (w.unit u).frec = fr
  rw [← hw, UnitState.unit_setUnit_same]
  exact ⟨rfl, rfl⟩

section
variable {id : CtxId} {s u : State} {c : Ctx} {o : VarOp} (hl : (c.us.unit U.sy).last = o.uid)
  (hf : (c.us.unit U.sy).full = false) (hu : o.unit = U.sy) (hc : u.ctx id = some c)
include hl hf hu hc

/-- The operation ends in a token. -/
theorem ends_token {e : BitVec 7} {a : W64}
    (run : exec (.claimComplete id) s = .next (u.modCtx id (fun x => x.completeToken o e a))) :
    OpDone (.claimComplete id) s id c o
      (fun t c' => c'.RToken U.sy o.mask e ∧ t.mem = u.mem ∧ t.dies = u.dies) := by
  rw [State.modCtx_eq hc] at run
  refine ⟨_, _, run, State.ctx_setCtx_same _ _ _, rfl, rfl, rfl, rfl, rfl, ?_, rfl, rfl⟩
  obtain ⟨full, frec⟩ := finish_unit (n := c.nlanes) (mask := o.mask &&& c.live) (f := fun _ => 0)
    (fr := some (o.record e a)) hl hf
  rw [Ctx.completeToken, hu]
  exact ⟨full, _, frec, rfl, rfl⟩

/-- The operation fills R with 0. -/
theorem ends_zero (run : exec (.claimComplete id) s = .next (u.modCtx id (fun x => x.complete o 0))) :
    OpDone (.claimComplete id) s id c o
      (fun t c' => c.RFilled c' U.sy (o.mask &&& c.live) (fun _ => 0) ∧ t.mem = u.mem ∧ t.dies = u.dies) := by
  rw [State.modCtx_eq hc] at run
  obtain ⟨done, -⟩ := completes_finish (c := c) (u := U.sy) (o := o) o.mask (fun _ => 0) hl hf
  rw [Ctx.complete, hu] at run
  exact ⟨_, _, run, State.ctx_setCtx_same _ _ _, done.ops, done.g, done.s, done.k, done.pc,
    ⟨done.full, done.frec, done.vals⟩, rfl, rfl⟩

end

theorem OpDone.mono {i : Instr} {s : State} {id : CtxId} {c : Ctx} {o : VarOp} {P Q : State → Ctx → Prop}
    (h : OpDone i s id c o P) (k : ∀ t c', P t c' → Q t c') : OpDone i s id c o Q := by
  obtain ⟨t, c', run, ctx, ops, g, sr, kr, pc, p⟩ := h
  exact ⟨t, c', run, ctx, ops, g, sr, kr, pc, k _ _ p⟩

section
variable {id : CtxId} {s s1 : State} {c : Ctx} {o : VarOp} (hc : s.ctx id = some c) (ho : c.claimOp = some o)
include hc ho

theorem exec_claim_unread {e : BitVec 7}
    (read : s.readDesc id c o.locks o.addr (if o.opcode = 0xC0 then 48 else 16) = (s1, .error e)) :
    exec (.claimComplete id) s = .next (s1.modCtx id (fun x => x.completeToken o e o.addr)) := by
  show execClaimComplete id s = _
  simp only [execClaimComplete, hc, ho, read]

theorem exec_claim_read {d : List Byte}
    (read : s.readDesc id c o.locks o.addr (if o.opcode = 0xC0 then 48 else 16) = (s1, .ok d)) :
    exec (.claimComplete id) s =
      .next (if o.opcode = 0xC0 then s1.doRgn id o d else s1.doClaim id c o (o.opcode == 0xB0) d) := by
  show execClaimComplete id s = _
  simp only [execClaimComplete, hc, ho, read]

end

/-! ## What the descriptor's fields decide -/

/-- A descriptor of claim and unclaim within its limits (R280). -/
def WithinLimits (d : List Byte) : Prop :=
  field d 0 8 < 3 * 2 ^ 60 ∧ field d 14 1 ∈ [1, 2, 4, 8] ∧ field d 0 8 % field d 14 1 = 0 ∧ 1 ≤ field d 8 4 ∧
    field d 8 4 ≤ 2 ^ 20 ∧ field d 14 1 ≤ field d 8 4 ∧ 1 ≤ field d 12 2 ∧ field d 12 2 ≤ 1024 ∧ field d 15 1 = 0

/-- The limits as the operation tests them. -/
theorem outside_limits (base width stride count rest : Nat) :
    (decide (3 ≤ base / 2 ^ 60) || !decide (width ∈ [1, 2, 4, 8]) || base % width != 0 || stride == 0 ||
      decide (2 ^ 20 < stride) || decide (stride < width) || count == 0 || decide (1024 < count) || rest != 0) = true ↔
    ¬(base < 3 * 2 ^ 60 ∧ width ∈ [1, 2, 4, 8] ∧ base % width = 0 ∧ 1 ≤ stride ∧ stride ≤ 2 ^ 20 ∧ width ≤ stride ∧
      1 ≤ count ∧ count ≤ 1024 ∧ rest = 0) := by
  have top : 3 ≤ base / 2 ^ 60 ↔ ¬ base < 3 * 2 ^ 60 := by omega
  have some_ : ∀ n : Nat, n = 0 ↔ ¬ 1 ≤ n := fun n => by omega
  simp only [Bool.or_eq_true, decide_eq_true_eq, Bool.not_eq_true', decide_eq_false_iff_not, bne_iff_ne, beq_iff_eq,
    ne_eq, top, ← not_le, some_ stride, some_ count]
  tauto

theorem doClaim_eq {s : State} {id : CtxId} {c : Ctx} {o : VarOp} {own : Bool} {d : List Byte} :
    (¬ WithinLimits d → s.doClaim id c o own d = s.modCtx id (fun c => c.completeToken o 0x2E o.addr)) ∧
    (WithinLimits d → s.doClaim id c o own d =
      match s.claimElems id c (field d 14 1)
        ((List.range (field d 12 2)).map (fun i => BitVec.ofNat 64 (field d 0 8 + field d 8 4 * i))) with
      | (s1, .error (e, a)) => s1.modCtx id (fun c => c.completeToken o e a)
      | (s1, .ok ps) =>
        (if own then s1.claimParts id.fold (field d 8 4) (field d 14 1) ps
          else ps.flatten.foldl (fun s p => s.disown id.fold p.pa (p.pa + p.len - 1)) s1).modCtx id
            (fun c => c.complete o 0)) := by
  have limits := outside_limits (field d 0 8) (field d 14 1) (field d 8 4) (field d 12 2) (field d 15 1)
  refine ⟨fun h => ?_, fun h => ?_⟩
  · rw [State.doClaim]
    exact if_pos (limits.mpr h)
  · rw [State.doClaim]
    exact if_neg fun k => limits.mp k h

/-- A region's entry after its write (R231), in a state with the dies of the write. -/
theorem setRegion_find {s t : State} {die idx : Nat} {r : Region} (h : t.dies = (s.setRegion die idx r).dies) :
    Tbl.find (t.die die).regions idx = some r ∧
      ∀ n, n ≠ idx → Tbl.find (t.die die).regions n = Tbl.find (s.die die).regions n := by
  have die : t.die die = { s.die die with regions := Tbl.put (s.die die).regions idx r } := by
    rw [State.die, h]
    exact State.die_modDie_same ..
  rw [die]
  exact ⟨Tbl.find_put_same .., fun n hn => Tbl.find_put_ne _ _ hn⟩

theorem doRgn_some {s : State} {id : CtxId} {o : VarOp} {d : List Byte} {r : Region} (hr : regionImage d = some r) :
    s.doRgn id o d = if 255 < field d 32 2 ∨ field d 34 14 ≠ 0
      then s.modCtx id (fun c => c.completeToken o 0x2E o.addr)
      else (s.setRegion (dieOf id.fold) (field d 32 2) r).modCtx id (fun c => c.complete o 0) := by
  simp only [State.doRgn, hr]

theorem doRgn_none {s : State} {id : CtxId} {o : VarOp} {d : List Byte} (hr : regionImage d = none) :
    s.doRgn id o d = s.modCtx id (fun c => c.completeToken o 0x2E o.addr) := by
  simp only [State.doRgn, hr]

/-- Settles O37: the triggers put their operation in flight (`claim_starts`). When it completes, neither the read of its
descriptor nor the walks of its elements change a context (`readDesc_ctxs`, `claimElems_ctxs`), so that it ends in a
token (`ends_token`) or with 0 (`ends_zero`); ownership taken or given back leaves memory (`claimParts_quiet`,
`disowned_quiet`). -/
theorem claimsAndRegionWrites : Obligations.ClaimsAndRegionWrites := by
  refine ⟨?starts, ?ends⟩
  case starts =>
    rintro m s c0 i o (⟨rfl, rfl⟩ | ⟨rfl, rfl⟩ | ⟨rfl, rfl⟩) w h
    · exact claim_starts (by decide) rfl h
    · exact claim_starts (by decide) rfl h
    · exact claim_starts (by decide) rfl h
  case ends =>
    intro id s c o hc ho hl hf die
    have unit := claimOp_unit ho
    have desc := readDesc_ctxs s id c o.locks o.addr (if o.opcode = 0xC0 then 48 else 16)
    refine ⟨fun e s1 read => ?unread, fun d s1 read => ?read⟩
    case unread =>
      rw [read] at desc
      exact ends_token hl hf unit ((State.ctx_congr desc id).trans hc) (exec_claim_unread hc ho read)
    case read =>
      rw [read] at desc
      have here : s1.ctx id = some c := (State.ctx_congr desc id).trans hc
      have run := exec_claim_read hc ho read
      have token : ∀ e a, exec (.claimComplete id) s = .next (s1.modCtx id (fun x => x.completeToken o e a)) →
          OpDone (.claimComplete id) s id c o (fun t c' => c'.RToken U.sy o.mask e ∧ t.dies = s1.dies) := fun e a r =>
        OpDone.mono (ends_token hl hf unit here r) fun t c' h => ⟨h.1, h.2.2⟩
      refine ⟨fun r hop hr hidx hrest => ?region, fun hop bad => ?badRegion, fun hop bad => ?badClaim,
        fun hop h1 h2 h3 h4 h5 h6 h7 h8 h9 => ?claim⟩
      case region =>
        rw [if_pos hop, doRgn_some hr, if_neg (by omega)] at run
        exact OpDone.mono (ends_zero hl hf unit (u := s1.setRegion die (field d 32 2) r) here run)
          fun t c' h => ⟨h.1, setRegion_find h.2.2⟩
      case badRegion =>
        rw [if_pos hop] at run
        cases hr : regionImage d with
        | none => exact token _ _ (doRgn_none hr ▸ run)
        | some r =>
          rw [doRgn_some hr, if_pos (bad.resolve_left (by rw [hr]; simp))] at run
          exact token _ _ run
      case badClaim =>
        rw [if_neg hop, doClaim_eq.1 bad] at run
        exact token _ _ run
      case claim =>
        rw [if_neg hop, doClaim_eq.2 ⟨h1, h2, h3, h4, h5, h6, h7, h8, h9⟩] at run
        have walked := claimElems_ctxs s1 id c (field d 14 1) ((List.range (field d 12 2)).map (fun i =>
          BitVec.ofNat 64 (field d 0 8 + field d 8 4 * i)))
        refine ⟨fun e a s2 elems => ?_, fun ps s2 elems => ?_⟩
        · rw [elems] at run walked
          exact ends_token hl hf unit ((State.ctx_congr walked id).trans here) run
        · rw [elems] at run walked
          have owned : Quiet s2 (if (o.opcode == 0xB0) = true
              then s2.claimParts id.fold (field d 8 4) (field d 14 1) ps
              else ps.flatten.foldl (fun s p => s.disown id.fold p.pa (p.pa + p.len - 1)) s2) := by
            split
            · exact claimParts_quiet ..
            · exact disowned_quiet ..
          exact OpDone.mono (ends_zero hl hf unit ((owned.ctx id).trans ((State.ctx_congr walked id).trans here)) run)
            fun t c' h => ⟨h.1, h.2.1.trans owned.mem⟩

end Sys2Proof.Machine.RangeClaims
end

section
/-! SUPPORT for O54. What the reads and writes of a queue's agent leave of the dies, and what a queue's write leaves
(R164 to R166). -/
namespace Sys2Proof.Machine.Shepherding
open Sys2Proof.Machine.Beneath Sys2Proof.Machine.SyncTriggers Sys2Proof.Machine.Placement Sys2Proof.Machine.Boot

/-! ## The walks, reads and writes of an agent -/

/-- Every die is as before, but for its home caches, its directory and the leaves that its folds' L1 know. -/
structure Homed (s t : State) : Prop where
  dies : ∀ d, homeless (t.die d) = homeless (s.die d)

theorem Homed.refl (s : State) : Homed s s := ⟨fun _ => rfl⟩
theorem Homed.trans {s t u : State} (h : Homed s t) (k : Homed t u) : Homed s u :=
  ⟨fun d => (k.dies d).trans (h.dies d)⟩
theorem homed_of_dies {s t : State} (h : t.dies = s.dies) : Homed s t := ⟨fun d => by rw [State.die, h, State.die]⟩

/-- A field of a die that is none of the home's. -/
theorem Homed.field {s t : State} (h : Homed s t) {α : Type} (f : Die → α) (hf : ∀ d, f (homeless d) = f d) (d : Nat) :
    f (t.die d) = f (s.die d) := by rw [← hf, h.dies, hf]

theorem Homed.packets {s t : State} (h : Homed s t) (d : Nat) : (t.die d).packets = (s.die d).packets :=
  h.field Die.packets (fun _ => rfl) d

theorem Homed.flockCtr {s t : State} (h : Homed s t) (d : Nat) : (t.die d).flockCtr = (s.die d).flockCtr :=
  h.field Die.flockCtr (fun _ => rfl) d

theorem Homed.queue {s t : State} (h : Homed s t) (d q : Nat) : t.queue d q = s.queue d q := by
  rw [State.queue, h.field Die.queues (fun _ => rfl), State.queue]

theorem walkTo_homed (s : State) (d asid : Nat) (a : W64) (k : AccKind) (u : Bool) :
    Homed s (s.walkTo d asid a k u).1 := by
  unfold State.walkTo
  split
  · exact .refl s
  · unfold State.applyAD
    split
    · exact ⟨(recallAll_alike ..).dies⟩
    · exact .refl s

theorem askRemote_dies (s : State) (dev : Nat) (k : NxKind) (a n : Nat) (bs : List Byte) :
    (s.askRemote dev k a n bs).dies = s.dies := by
  unfold State.askRemote
  dsimp only
  split
  · rfl
  · unfold State.emitPacket
    split <;> rfl

theorem putAt_homed (s : State) (p : Place) (bs : List Byte) : Homed s (s.putAt p bs) := by
  unfold State.putAt
  split
  · exact homed_of_dies (askRemote_dies ..)
  · exact ⟨(recallAll_alike ..).dies⟩

theorem readVirt_homed (s : State) (d asid : Nat) (user : Bool) (va n : Nat) :
    Homed s (readLeaves (s.readVirt d asid user va n)) := by
  induction n generalizing s va with
  | zero => exact .refl s
  | succ n ih =>
    unfold State.readVirt
    have walked := walkTo_homed s d asid (BitVec.ofNat 64 va) .load user
    generalize s.walkTo d asid (BitVec.ofNat 64 va) .load user = w at walked ⊢
    obtain ⟨s1, r⟩ := w
    cases r with
    | error e => exact walked
    | ok t =>
      dsimp only
      split
      · exact walked
      · have rest := walked.trans (ih s1 (va + 1))
        generalize s1.readVirt d asid user (va + 1) n = r at rest ⊢
        cases r <;> exact rest

/-- The state that a write of an agent leaves, whether or not it faults. -/
def writeLeaves : Except (BitVec 7 × Nat × State) State → State
  | .ok t => t
  | .error e => e.2.2

theorem writeVirt_homed (s : State) (d asid : Nat) (user : Bool) (va : Nat) (bs : List Byte) :
    Homed s (writeLeaves (s.writeVirt d asid user va bs)) := by
  induction bs generalizing s va with
  | nil => exact .refl s
  | cons b r ih =>
    unfold State.writeVirt
    have walked := walkTo_homed s d asid (BitVec.ofNat 64 va) .store user
    generalize s.walkTo d asid (BitVec.ofNat 64 va) .store user = w at walked ⊢
    obtain ⟨s1, x⟩ := w
    cases x with
    | error e => exact walked
    | ok t =>
      dsimp only
      split
      · exact walked
      · have rest := walked.trans (ih s1 (va + 1))
        generalize s1.writeVirt d asid user (va + 1) r = x at rest ⊢
        cases x with
        | error e => exact rest
        | ok u => exact rest.trans (putAt_homed u t.place [b])

theorem read_homed {s t : State} {d asid va n : Nat} {user : Bool} {bs : List Byte}
    (h : s.readVirt d asid user va n = .ok (bs, t)) : Homed s t := by
  have := readVirt_homed s d asid user va n
  rw [h] at this
  exact this

theorem unread_homed {s : State} {d asid va n : Nat} {user : Bool} {e : BitVec 7 × Nat × State}
    (h : s.readVirt d asid user va n = .error e) : Homed s e.2.2 := by
  have := readVirt_homed s d asid user va n
  rw [h] at this
  exact this

/-! ## A queue's write -/

theorem dieNotice_homed (s : State) (c : BitVec 7) (n : Nat) (a : W64) : Homed s (s.dieNotice c n a) := homed_of_dies rfl

theorem queue_setQueue (s : State) (d q : Nat) (x : Queue) : (s.setQueue d q x).queue d q = x := by
  rw [State.queue, State.setQueue, State.die_modDie_same]
  exact Tbl.get_put_same ..

theorem queue_setQueue_ne (s : State) {d q j : Nat} (x : Queue) (h : j ≠ q) :
    (s.setQueue d q x).queue d j = s.queue d j := by
  rw [State.queue, State.setQueue, State.die_modDie_same]
  exact Tbl.get_put_ne _ _ _ h

theorem setQueue_setQueue (s : State) (d q : Nat) (x y : Queue) :
    (s.setQueue d q x).setQueue d q y = s.setQueue d q y := by
  simp only [State.setQueue, State.modDie, State.die_setDie_same]
  simp only [State.setDie, put_put]

/-- A queue's write leaves the packets, the flock counter and the package. -/
theorem setQueue_packets (s : State) (d q : Nat) (x : Queue) :
    ((s.setQueue d q x).die d).packets = (s.die d).packets := by
  rw [State.setQueue, State.die_modDie_same]

theorem setQueue_flockCtr (s : State) (d q : Nat) (x : Queue) :
    ((s.setQueue d q x).die d).flockCtr = (s.die d).flockCtr := by
  rw [State.setQueue, State.die_modDie_same]

/-- C_QUEUEFAULT of a queue's agent: the queue waits (R165). -/
theorem queueFault_queue (s : State) (d q a : Nat) :
    (s.queueFault d q a).queue d q = { s.queue d q with stuck := true } := by
  rw [State.queueFault, (dieNotice_homed ..).queue, queue_setQueue]

theorem queueFault_noticed (s : State) (d q a : Nat) : s.Noticed (s.queueFault d q a) 0x42 0 (BitVec.ofNat 64 a) :=
  noticed_dieNotice (s.setQueue d q { s.queue d q with stuck := true }) ..

/-! ## The indices of a queue (R165, R166) -/

/-- The read of the write index at an address, in a state whose queue waits for nothing else. -/
def readWidx (s : State) (d q a : Nat) : State :=
  match s.readVirt d (queueAsid d q) true a 8 with
  | .ok (b, t) => t.setQueue d q { t.queue d q with widx := natOf b }
  | .error e => State.failQueue d q e

/-- The state in which the write index is read, when the read index has been read as `b`. -/
def knownRidx (s : State) (d q : Nat) (b : List Byte) : State :=
  s.setQueue d q { s.queue d q with ridx := natOf b, needRidx := false }

/-- The state in which a queue's agent reads: the queue waits no longer. -/
def unstuck (s : State) (d q : Nat) : State := s.setQueue d q { s.queue d q with stuck := false }

theorem readIndices_known {s : State} {d q : Nat} (h : (s.queue d q).needRidx = false) :
    s.readIndices d q = readWidx (unstuck s d q) d q (s.queue d q).ent2.toNat := by
  have known : ¬ (s.queue d q).needRidx = true := by rw [h]; exact Bool.false_ne_true
  unfold State.readIndices readWidx unstuck
  dsimp only
  rw [if_neg known]
  dsimp only
  cases (s.setQueue d q { s.queue d q with stuck := false }).readVirt d (queueAsid d q) true
    (s.queue d q).ent2.toNat 8 <;> rfl

theorem readIndices_needed {s : State} {d q : Nat} (h : (s.queue d q).needRidx = true) :
    s.readIndices d q = match (unstuck s d q).readVirt d (queueAsid d q) true (s.queue d q).ent3.toNat 8 with
      | .ok (b, t) => readWidx (knownRidx t d q b) d q (s.queue d q).ent2.toNat
      | .error e => State.failQueue d q e := by
  unfold State.readIndices readWidx unstuck
  dsimp only
  rw [if_pos h]
  cases (s.setQueue d q { s.queue d q with stuck := false }).readVirt d (queueAsid d q) true
    (s.queue d q).ent3.toNat 8 with
  | error e => rfl
  | ok r =>
    obtain ⟨b, t⟩ := r
    dsimp only
    show (match (match (knownRidx t d q b).readVirt d (queueAsid d q) true (s.queue d q).ent2.toNat 8 with
      | .ok (b, s2) => Except.ok (natOf b, s2)
      | .error e => .error e) with
      | .error e => State.failQueue d q e
      | .ok (v, s4) => s4.setQueue d q { s4.queue d q with widx := v }) = _
    cases (knownRidx t d q b).readVirt d (queueAsid d q) true (s.queue d q).ent2.toNat 8 <;> rfl

theorem readWidx_ok {s t : State} {d q a : Nat} {b : List Byte}
    (h : s.readVirt d (queueAsid d q) true a 8 = .ok (b, t)) :
    (readWidx s d q a).queue d q = { s.queue d q with widx := natOf b } := by
  rw [readWidx, h]
  show (t.setQueue d q _).queue d q = _
  rw [queue_setQueue, (read_homed h).queue]

theorem readWidx_error {s t : State} {d q a i : Nat} {k : BitVec 7}
    (h : s.readVirt d (queueAsid d q) true a 8 = .error (k, i, t)) :
    readWidx s d q a = State.failQueue d q (k, i, t) := by
  rw [readWidx, h]

/-- A read of an index that faults: the queue is marked and C_QUEUEFAULT posted. -/
theorem failQueue_leaves {s : State} {d q asid va n : Nat} {k : BitVec 7} {a : Nat} {t : State}
    (h : s.readVirt d asid true va n = .error (k, a, t)) :
    (State.failQueue d q (k, a, t)).queue d q = { s.queue d q with stuck := true } ∧
      t.Noticed (State.failQueue d q (k, a, t)) 0x42 0 (BitVec.ofNat 64 a) := by
  refine ⟨?_, queueFault_noticed t d q a⟩
  rw [← (unread_homed h).queue]
  exact queueFault_queue t d q a

/-- Two queues that differ in what the reads of their indices change alone. -/
def SameEntry (x y : Queue) : Prop :=
  ∃ r w k n, y = { x with ridx := r, widx := w, stuck := k, needRidx := n }

theorem readWidx_entry {s : State} {x : Queue} {d q a : Nat} (h : SameEntry x (s.queue d q)) :
    SameEntry x ((readWidx s d q a).queue d q) := by
  obtain ⟨r, w, k, n, hx⟩ := h
  cases e : s.readVirt d (queueAsid d q) true a 8 with
  | ok y => exact ⟨_, _, _, _, (readWidx_ok e).trans (by rw [hx])⟩
  | error y =>
    refine ⟨r, w, true, n, ?_⟩
    rw [readWidx, e]
    exact (failQueue_leaves e).1.trans (by rw [hx])

theorem readIndices_entry (s : State) (d q : Nat) : SameEntry (s.queue d q) ((s.readIndices d q).queue d q) := by
  have start : SameEntry (s.queue d q) ((unstuck s d q).queue d q) := ⟨_, _, _, _, queue_setQueue ..⟩
  cases h : (s.queue d q).needRidx with
  | false =>
    rw [readIndices_known h]
    exact readWidx_entry start
  | true =>
    rw [readIndices_needed h]
    cases e : (unstuck s d q).readVirt d (queueAsid d q) true (s.queue d q).ent3.toNat 8 with
    | ok y =>
      refine readWidx_entry ⟨natOf y.1, (s.queue d q).widx, false, false, ?_⟩
      rw [knownRidx, queue_setQueue, (read_homed e).queue, unstuck, queue_setQueue]
    | error y =>
      refine ⟨(s.queue d q).ridx, (s.queue d q).widx, true, (s.queue d q).needRidx, ?_⟩
      exact (failQueue_leaves e).1.trans (by rw [unstuck, queue_setQueue])

end Sys2Proof.Machine.Shepherding
end

section
/-! SUPPORT for O54. Notify, enable and disable of a queue (R165, R166). -/
namespace Sys2Proof.Machine.Shepherding
open Sys2Proof.Machine.Placement Sys2Proof.Machine.Boot

/-! ## Notify -/

/-- A notify of an enabled queue reads its indices; what it then asks for changes no queue and sends nothing. -/
theorem notifyQueue_reads {s : State} {d q : Nat} (on : s.shepherdOn d = true) (enabled : (s.queue d q).enabled = true) :
    ∃ l, exec (.qnotify d q) s =
      .next { s.readIndices d q with agenda := (s.readIndices d q).agenda ++ l } := by
  show ∃ l, Host.Outcome.next (s.notifyQueue d q) = _
  unfold State.notifyQueue
  simp only [on, enabled, Bool.and_self, if_true]
  split
  · exact ⟨_, rfl⟩
  · exact ⟨[], by rw [List.append_nil]⟩

theorem qnotify_off {s : State} {d q : Nat} (h : (s.shepherdOn d && (s.queue d q).enabled) = false) :
    exec (.qnotify d q) s = .next s := by
  show Host.Outcome.next (s.notifyQueue d q) = _
  rw [State.notifyQueue, h]
  rfl

theorem qnotify_leaves (d q : Nat) (s : State) : let x := s.queue d q
    let s1 := s.setQueue d q { x with stuck := false }
    (x.enabled = false → exec (.qnotify d q) s = .next s) ∧
    (∀ b s2, s.shepherdOn d = true → x.enabled = true → x.needRidx = false →
      s1.readVirt d (queueAsid d q) true x.ent2.toNat 8 = .ok (b, s2) →
      ∃ t, exec (.qnotify d q) s = .next t ∧ t.queue d q = { x with stuck := false, widx := natOf b }) ∧
    (∀ k a s2, s.shepherdOn d = true → x.enabled = true → x.needRidx = false →
      s1.readVirt d (queueAsid d q) true x.ent2.toNat 8 = .error (k, a, s2) →
      ∃ t, exec (.qnotify d q) s = .next t ∧ t.queue d q = { x with stuck := true } ∧
        s2.Noticed t 0x42 0 (BitVec.ofNat 64 a)) := by
  intro x s1
  have waits : s1.queue d q = { x with stuck := false } := queue_setQueue ..
  refine ⟨fun h => qnotify_off (by rw [h, Bool.and_false]), fun b s2 on enabled known h => ?_,
    fun k a s2 on enabled known h => ?_⟩
  · obtain ⟨l, run⟩ := notifyQueue_reads on enabled
    refine ⟨_, run, ?_⟩
    show (s.readIndices d q).queue d q = _
    rw [readIndices_known known]
    exact (readWidx_ok h).trans (by rw [waits])
  · obtain ⟨l, run⟩ := notifyQueue_reads on enabled
    obtain ⟨queue, noticed⟩ := failQueue_leaves (q := q) h
    have reads := (readIndices_known known).trans (readWidx_error h)
    refine ⟨_, run, ?_, ?_⟩
    · show (s.readIndices d q).queue d q = _
      rw [reads, queue, waits]
    · rw [reads]
      exact noticed

/-! ## Enable -/

/-- The entry that a QENT1 write starts: SIZELOG2, PRIO and ENABLE of the value (R164). -/
def started (x : Queue) (v : W64) : Queue :=
  { x with ent1 := v &&& 0x1FFFF, needRidx := true, effPrio := min 7 (bits v.toNat 15 8), passOver := 0 }

/-- The checks of an entry (R166). -/
def EntryOk (x : Queue) (v : W64) : Prop :=
  1 ≤ bits v.toNat 7 0 ∧ bits v.toNat 7 0 ≤ 16 ∧ x.ent0.toNat % 64 = 0 ∧ x.ent2.toNat % 8 = 0 ∧ x.ent3.toNat % 8 = 0

theorem bits_ent1Fields (v : W64) :
    bits (ent1Fields v).toNat 7 0 = bits v.toNat 7 0 ∧ bits (ent1Fields v).toNat 15 8 = bits v.toNat 15 8 := by
  have low : (ent1Fields v).toNat = v.toNat % 2 ^ 17 := by
    rw [ent1Fields, BitVec.toNat_and, show (0x1FFFF : W64).toNat = 2 ^ 17 - 1 from rfl, Nat.and_two_pow_sub_one_eq_mod]
  rw [low, bits, bits, bits, bits]
  omega

theorem exec_queueEnable {s : State} {d q : Nat} {v : W64} (on : s.shepherdOn d = true) (bit : v.getLsbD 16 = true) :
    exec (.queueEnable d q v) s = .next (s.enableQueue d q v) := by
  show execQueueEnable d q v s = _
  rw [execQueueEnable, on, bit]
  rfl

theorem entryOk_iff (x : Queue) (v : W64) :
    (decide (1 ≤ Queue.sizeLog2 { x with ent1 := ent1Fields v }) &&
      decide (Queue.sizeLog2 { x with ent1 := ent1Fields v } ≤ 16) && x.ent0.toNat % 64 == 0 && x.ent2.toNat % 8 == 0 &&
      x.ent3.toNat % 8 == 0) = true ↔ EntryOk x v := by
  have size : Queue.sizeLog2 { x with ent1 := ent1Fields v } = bits v.toNat 7 0 := (bits_ent1Fields v).1
  rw [size, EntryOk]
  simp only [Bool.and_eq_true, decide_eq_true_eq, beq_iff_eq, and_assoc]

section
variable {s : State} {d q : Nat} {v : W64} (off : (s.queue d q).enabled = false)
include off

theorem enableQueue_bad (bad : ¬ EntryOk (s.queue d q) v) : s.enableQueue d q v =
    (s.setQueue d q { s.queue d q with ent1 := v &&& 0xFFFF }).dieNotice 0x3D 0 0 := by
  have low : ent1Fields v &&& 0xFFFF = v &&& 0xFFFF := by rw [ent1Fields, BitVec.and_assoc]; rfl
  unfold State.enableQueue
  dsimp only
  rw [if_neg (by rw [off]; exact Bool.false_ne_true), Bool.eq_false_iff.mpr fun h => bad ((entryOk_iff _ v).mp h)]
  rw [if_pos (show (!false) = true from rfl), low]

theorem enableQueue_ok (ok : EntryOk (s.queue d q) v) : s.enableQueue d q v =
    (s.setQueue d q (started (s.queue d q) v)).readIndices d q := by
  have prio : Queue.prio { s.queue d q with ent1 := ent1Fields v } = min 7 (bits v.toNat 15 8) :=
    congrArg (min 7) (bits_ent1Fields v).2
  unfold State.enableQueue
  dsimp only
  rw [if_neg (by rw [off]; exact Bool.false_ne_true), (entryOk_iff _ v).mpr ok, prio]
  rfl

end

theorem unstuck_setQueue (s : State) (d q : Nat) (x : Queue) :
    unstuck (s.setQueue d q x) d q = s.setQueue d q { x with stuck := false } := by
  rw [unstuck, queue_setQueue, setQueue_setQueue]

theorem queueEnable_leaves (d q : Nat) (v : W64) (s : State) (bit : v.getLsbD 16 = true) (on : s.shepherdOn d = true) :
    let x := s.queue d q
    (x.enabled = true → exec (.queueEnable d q v) s = .next s) ∧
    (x.enabled = false → ¬EntryOk x v → ∃ t, exec (.queueEnable d q v) s = .next t ∧
      (t.queue d q).ent1 = v &&& 0xFFFF ∧ s.Noticed t 0x3D 0 0) ∧
    (x.enabled = false → EntryOk x v → ∃ t, exec (.queueEnable d q v) s = .next t ∧
      (t.queue d q).ent1 = v &&& 0x1FFFF ∧ (t.queue d q).effPrio = min 7 (bits v.toNat 15 8) ∧
      (t.queue d q).passOver = 0 ∧ (t.queue d q).ent0 = x.ent0) ∧
    (x.enabled = false → EntryOk x v →
      let y := { x with ent1 := v &&& 0x1FFFF, needRidx := true, effPrio := min 7 (bits v.toNat 15 8), passOver := 0,
                        stuck := false }
      let asid := queueAsid d q
      (∀ b2 s2 b3 s3, (s.setQueue d q y).readVirt d asid true x.ent3.toNat 8 = .ok (b2, s2) →
        let z := { y with needRidx := false, ridx := natOf b2 }
        (s2.setQueue d q z).readVirt d asid true x.ent2.toNat 8 = .ok (b3, s3) →
        ∃ t, exec (.queueEnable d q v) s = .next t ∧ t.queue d q = { z with widx := natOf b3 }) ∧
      (∀ k a s2, (s.setQueue d q y).readVirt d asid true x.ent3.toNat 8 = .error (k, a, s2) →
        ∃ t, exec (.queueEnable d q v) s = .next t ∧ t.queue d q = { y with stuck := true } ∧
          s2.Noticed t 0x42 0 (BitVec.ofNat 64 a))) := by
  intro x
  have run := exec_queueEnable (q := q) on bit
  have needed : ((s.setQueue d q (started x v)).queue d q).needRidx = true := by rw [queue_setQueue]; rfl
  refine ⟨fun enabled => ?_, fun off bad => ?_, fun off ok => ?_, fun off ok => ?_⟩
  · rw [run, State.enableQueue]
    exact congrArg _ (if_pos enabled)
  · refine ⟨_, run, ?_, ?_⟩
    · rw [enableQueue_bad off bad, (dieNotice_homed ..).queue, queue_setQueue]
    · rw [enableQueue_bad off bad]
      exact noticed_dieNotice (s.setQueue d q _) ..
  · rw [enableQueue_ok off ok] at run
    obtain ⟨r, w, k, n, hx⟩ := readIndices_entry (s.setQueue d q (started x v)) d q
    rw [queue_setQueue] at hx
    exact ⟨_, run, by rw [hx]; exact ⟨rfl, rfl, rfl, rfl⟩⟩
  · intro y asid
    rw [enableQueue_ok off ok, readIndices_needed needed, unstuck_setQueue, queue_setQueue] at run
    refine ⟨?_, fun k a s2 h2 => ?_⟩
    · intro b2 s2 b3 s3 h2 z h3
      rw [show (s.setQueue d q { started x v with stuck := false }).readVirt d (queueAsid d q) true
        (started x v).ent3.toNat 8 = .ok (b2, s2) from h2] at run
      have known : knownRidx s2 d q b2 = s2.setQueue d q z := by
        rw [knownRidx, (read_homed h2).queue, queue_setQueue]
      refine ⟨_, run, ?_⟩
      show (readWidx (knownRidx s2 d q b2) d q x.ent2.toNat).queue d q = _
      rw [known]
      exact (readWidx_ok h3).trans (by rw [queue_setQueue])
    · rw [show (s.setQueue d q { started x v with stuck := false }).readVirt d (queueAsid d q) true
        (started x v).ent3.toNat 8 = .error (k, a, s2) from h2] at run
      obtain ⟨queue, noticed⟩ := failQueue_leaves (q := q) h2
      rw [queue_setQueue] at queue
      exact ⟨_, run, queue, noticed⟩

/-! ## Disable, and a Shepherd that does not act -/

theorem queueDisable_leaves (d q : Nat) (s : State) :
    (s.shepherdOn d = true → (s.queue d q).enabled = true → ∃ t, exec (.queueDisable d q) s = .next t ∧
      t.queue d q = { s.queue d q with ent1 := (s.queue d q).ent1 &&& 0xFFFF } ∧ t.mem = s.mem ∧ t.ctxs = s.ctxs) ∧
    ((s.queue d q).enabled = false → exec (.queueDisable d q) s = .next s) := by
  have run : exec (.queueDisable d q) s = execQueueDisable d q s := rfl
  refine ⟨fun on enabled => ?_, fun off => ?_⟩
  · rw [execQueueDisable, on, enabled] at run
    exact ⟨_, run, queue_setQueue .., rfl, rfl⟩
  · rw [run, execQueueDisable, off, Bool.and_false]
    rfl

theorem shepherd_off (d q : Nat) (v : W64) (s : State) (off : s.shepherdOn d = false) :
    exec (.queueEnable d q v) s = .next s ∧ exec (.queueDisable d q) s = .next s ∧ exec (.qnotify d q) s = .next s := by
  refine ⟨?_, ?_, qnotify_off (by rw [off]; rfl)⟩
  · show execQueueEnable d q v s = _
    rw [execQueueEnable, off]
    rfl
  · show execQueueDisable d q s = _
    rw [execQueueDisable, off]
    rfl

end Sys2Proof.Machine.Shepherding
end

section
/-! SUPPORT for O54. The packet that the Shepherd begins, and what stands when it has started (R165, R171, R172). -/
namespace Sys2Proof.Machine.Shepherding

/-! ## What a started packet and the state with it say -/

/-- A packet begun from the head of a queue: its place and its bytes, the read index moved on, and its flock number. -/
structure Begun (s : State) (d q : Nat) (b : List Byte) (t : State) (p : Packet) : Prop where
  queue : p.q = q
  idx : p.idx = (s.queue d q).ridx
  bytes : p.bytes = b
  ridx : (t.queue d q).ridx = (s.queue d q).ridx + 1
  flock : pktType b = 1 ∨ pktType b = 2 → p.flock = BitVec.ofNat 32 (d * 2 ^ 30 + (s.die d).flockCtr % 2 ^ 30) ∧
    (t.die d).flockCtr = ((s.die d).flockCtr + 1) % 2 ^ 30

/-- The begun packet stands among those that have started; a malformed one has failed with LAUNCH_BADPKT. -/
structure Stands (s : State) (d q : Nat) (b : List Byte) (t : State) (p : Packet) : Prop extends Begun s d q b t p where
  mem : p ∈ (t.die d).packets
  bad : pktOk b = false → p.status = 2 ∧ p.st = .completing

section
variable {s t u : State} {d q : Nat} {b : List Byte} {p : Packet}

theorem Begun.homed (h : Begun s d q b t p) (k : Homed t u) : Begun s d q b u p where
  queue := h.queue
  idx := h.idx
  bytes := h.bytes
  ridx := by rw [k.queue, h.ridx]
  flock ty := ⟨(h.flock ty).1, (k.flockCtr d).trans (h.flock ty).2⟩

theorem Stands.homed (h : Stands s d q b t p) (k : Homed t u) : Stands s d q b u p where
  toBegun := h.toBegun.homed k
  mem := by rw [k.packets]; exact h.mem
  bad := h.bad

/-! ## A packet joins those that have started -/

theorem startWith_homed (s : State) (d : Nat) (p : Packet) (n : Nat) (st : PktState) :
    Homed (s.addPacket d { p with status := n, st := st }) (s.startWith d p n st) := by
  unfold State.startWith
  dsimp only
  split
  · exact .refl _
  · exact dieNotice_homed ..

theorem startWith_packets (s : State) (d : Nat) (p : Packet) (n : Nat) (st : PktState) :
    ((s.startWith d p n st).die d).packets = (s.die d).packets ++ [{ p with status := n, st := st }] := by
  rw [(startWith_homed ..).packets, State.addPacket, State.die_modDie_same]

theorem Begun.startWith (h : Begun s d q b t p) (bl : Option Block) (lr : Option LoopRec) (n : Nat) (st : PktState)
    (bad : pktOk b = false → n = 2 ∧ st = .completing) :
    Stands s d q b (t.startWith d { p with block := bl, loop := lr } n st)
      { p with block := bl, loop := lr, status := n, st := st } where
  queue := h.queue
  idx := h.idx
  bytes := h.bytes
  ridx := by rw [(startWith_homed ..).queue, State.queue, State.addPacket, State.die_modDie_same]; exact h.ridx
  flock ty := by
    rw [(startWith_homed ..).flockCtr, State.addPacket, State.die_modDie_same]
    exact h.flock ty
  mem := by rw [startWith_packets]; exact List.mem_append_right _ (List.mem_singleton_self _)
  bad := bad

end

/-! ## The packet begins -/

theorem flockCtr_passed (f : State → Nat → Queue) (d : Nat) (l : List Nat) (s : State) :
    ((l.foldl (fun s x => s.setQueue d x (f s x)) s).die d).flockCtr = (s.die d).flockCtr := by
  induction l generalizing s with
  | nil => rfl
  | cons x r ih => exact (ih _).trans (setQueue_flockCtr ..)

theorem arbitrated_flockCtr (s : State) (d q : Nat) : ((s.arbitrated d q).die d).flockCtr = (s.die d).flockCtr := by
  unfold State.arbitrated
  dsimp only
  rw [State.die_modDie_same]
  exact (setQueue_flockCtr ..).trans (flockCtr_passed ..)

/-- Whether a packet takes a flock number (R172). -/
def takesFlock (b : List Byte) : Bool := pktType b == 1 || pktType b == 2

/-- The queue's entry after an arbitration round that it has won, its read index moved on. -/
def moved (s : State) (d q : Nat) (b : List Byte) : State :=
  (s.arbitrated d q).setQueue d q
    { (s.arbitrated d q).queue d q with ridx := (s.queue d q).ridx + 1, afterWait := pktType b == 4 }

/-- A read index stored at its pointer, or C_QUEUEFAULT posted. -/
def indexStored (s : State) (d q a r : Nat) : State :=
  match s.writeVirt d (queueAsid d q) true a (bytesOf 8 r) with
  | .ok t => t
  | .error e => e.2.2.dieNotice 0x42 0 (BitVec.ofNat 64 e.2.1)

/-- A packet as it begins. -/
def packetOf (s : State) (d q i : Nat) (b : List Byte) : Packet :=
  { num := s.nextId, q := q, idx := i, bytes := b, st := .completing, status := 0, block := none, loop := none,
    gangs := if takesFlock b then field b 16 4 else 0, placed := 0,
    flock := if takesFlock b then BitVec.ofNat 32 (d * 2 ^ 30 + (s.die d).flockCtr % 2 ^ 30) else 0,
    conf := takesFlock b && (Tbl.get (s.die d).qkey q 0).getLsbD 8, froze := [] }

/-- A LAUNCH or LOOP takes the next flock number. -/
def flockTaken (s : State) (d : Nat) (b : List Byte) : State :=
  if takesFlock b then s.modDie d (fun x => { x with flockCtr := (x.flockCtr + 1) % 2 ^ 30 }) else s

/-- The numbers that a packet takes. -/
def numbered (s : State) (d : Nat) (b : List Byte) : State := { flockTaken s d b with nextId := s.nextId + 1 }

theorem indexStored_homed (s : State) (d q a r : Nat) : Homed s (indexStored s d q a r) := by
  have written := writeVirt_homed s d (queueAsid d q) true a (bytesOf 8 r)
  unfold indexStored
  cases h : s.writeVirt d (queueAsid d q) true a (bytesOf 8 r) with
  | ok t => rw [h] at written; exact written
  | error e => rw [h] at written; exact Homed.trans written (dieNotice_homed ..)

theorem moved_ridx (s : State) (d q : Nat) (b : List Byte) :
    ((moved s d q b).queue d q).ridx = (s.queue d q).ridx + 1 := by rw [moved, queue_setQueue]

theorem moved_flockCtr (s : State) (d q : Nat) (b : List Byte) :
    ((moved s d q b).die d).flockCtr = (s.die d).flockCtr := by
  rw [moved, setQueue_flockCtr, arbitrated_flockCtr]

theorem numbered_queue (s : State) (d q : Nat) (b : List Byte) : (numbered s d b).queue d q = s.queue d q := by
  show (flockTaken s d b).queue d q = _
  unfold flockTaken
  split
  · rw [State.queue, State.die_modDie_same, State.queue]
  · rfl

theorem numbered_flockCtr (s : State) (d : Nat) {b : List Byte} (h : takesFlock b = true) :
    ((numbered s d b).die d).flockCtr = ((s.die d).flockCtr + 1) % 2 ^ 30 := by
  show ((flockTaken s d b).die d).flockCtr = _
  rw [flockTaken, if_pos h, State.die_modDie_same]

section
variable {s s1 : State} {d q : Nat} {b : List Byte} {type : Nat → Bool} (chosen : s.chosen d = some q)
  (head : s.headPacket d q = .ok (b, s1)) (ty : type (pktType b) = true)
include chosen head ty

theorem beginPacket_eq :
    let s4 := indexStored (moved s1 d q b) d q (s1.queue d q).ent3.toNat ((s1.queue d q).ridx + 1)
    s.beginPacket d q type = some (numbered s4 d b, some (packetOf s4 d q (s1.queue d q).ridx b)) := by
  unfold State.beginPacket
  rw [if_neg (not_not.mpr chosen), head]
  dsimp only
  rw [ty, if_neg (by decide)]
  rfl

theorem beginPacket_begun : ∃ t p, s.beginPacket d q type = some (t, some p) ∧ Begun s d q b t p := by
  have read : Homed s s1 := read_homed head
  have stored := indexStored_homed (moved s1 d q b) d q (s1.queue d q).ent3.toNat ((s1.queue d q).ridx + 1)
  refine ⟨_, _, beginPacket_eq chosen head ty, rfl, ?_, rfl, ?_, fun isFlock => ?_⟩
  · rw [← read.queue]
    rfl
  · rw [numbered_queue, stored.queue, moved_ridx, read.queue]
  · have flocks : takesFlock b = true := by
      rw [takesFlock, Bool.or_eq_true, beq_iff_eq, beq_iff_eq]
      exact isFlock
    have ctr := ((stored.flockCtr d).trans (moved_flockCtr ..)).trans (read.flockCtr d)
    refine ⟨?_, by rw [numbered_flockCtr _ d flocks, ctr]⟩
    rw [packetOf, flocks, ctr]
    rfl

end

end Sys2Proof.Machine.Shepherding
end

section
/-! SUPPORT for O54. Simple packets, launches and loops (R167 to R170, R197). -/
namespace Sys2Proof.Machine.Shepherding
open Sys2Proof.Machine.Beneath

/-! ## What a start leaves, whatever the packet's type -/

section
variable {s s1 : State} {d q : Nat} {b : List Byte}

/-- The state that a read of a launch leaves, whether or not it fails. -/
def launchLeaves {α : Type} : Except State (α × State) → State
  | .ok x => x.2
  | .error t => t

theorem launchRead_homed (s : State) (d q : Nat) (code : BitVec 7) (a n : Nat) :
    Homed s (launchLeaves (s.launchRead d q code a n)) := by
  unfold State.launchRead
  cases h : s.readVirt d (queueAsid d q) true a n with
  | ok x => exact read_homed h
  | error e => exact (unread_homed h).trans (dieNotice_homed ..)

theorem launchRead_error {code : BitVec 7} {a n : Nat} {e : BitVec 7 × Nat × State}
    (h : s.readVirt d (queueAsid d q) true a n = .error e) :
    s.launchRead d q code a n = .error (e.2.2.dieNotice code 0 (BitVec.ofNat 64 e.2.1)) := by rw [State.launchRead, h]

theorem launchRead_ok {code : BitVec 7} {a n : Nat} {x : List Byte × State}
    (h : s.readVirt d (queueAsid d q) true a n = .ok x) : s.launchRead d q code a n = .ok x := by rw [State.launchRead, h]

theorem readLaunch_homed (s : State) (d q a : Nat) : Homed s (launchLeaves (s.readLaunch d q a)) := by
  unfold State.readLaunch
  have block := launchRead_homed s d q 0x45 a 256
  generalize s.launchRead d q 0x45 a 256 = r at block ⊢
  rcases r with s1 | ⟨x, s1⟩
  · exact block
  dsimp only
  split
  · exact block
  have rings := block.trans (launchRead_homed s1 d q 0x45 (field x 8 8) (16 * field x 42 1))
  generalize s1.launchRead d q 0x45 (field x 8 8) (16 * field x 42 1) = r at rings ⊢
  rcases r with s2 | ⟨y, s2⟩
  · exact rings
  dsimp only
  split
  · exact rings
  split
  · exact rings
  have formats := rings.trans (launchRead_homed s2 d q 0x45 (field x 24 8) 68)
  generalize s2.launchRead d q 0x45 (field x 24 8) 68 = r at formats ⊢
  rcases r with s3 | ⟨z, s3⟩ <;> exact formats

end

/-! ## A LAUNCH or LOOP whose block is read -/

/-- The packet that a readable block leaves: it places its gangs, or no fold could hold one (R179). -/
def placedAs (s : State) (d q : Nat) (b : Block) (p : Packet) (lr : Option LoopRec) : State :=
  if p.gangs = 0 then s.startWith d p 0 .completing
  else if s.couldFit d b (queueAsid d q) then s.startWith d { p with block := some b, loop := lr } 0 .placing
  else s.startWith d p 1 .completing

/-- What follows the block of a LOOP: its loop record. -/
def loopRead (s : State) (d q : Nat) (b : Block) (p : Packet) : State :=
  match s.launchRead d q 0x46 (field p.bytes 40 8) 64 with
  | .error t => t.startWith d p 4 .completing
  | .ok (r, t) => match parseLoop b r with
    | none => t.startWith d p 4 .completing
    | some lr => placedAs t d q b p (some lr)

section
variable {s s1 : State} {d q ty : Nat} {p : Packet} (began : s.beginPacket d q (· == ty) = some (s1, some p))
include began

theorem startFlock_bad (bad : pktOk p.bytes = false) : s.startFlock d q ty = s1.startWith d p 2 .completing := by
  rw [State.startFlock, began]
  dsimp only
  rw [bad]
  rfl

theorem startFlock_unread {s2 : State} (ok : pktOk p.bytes = true)
    (h : s1.readLaunch d q (field p.bytes 8 8) = .error s2) :
    s.startFlock d q ty = s2.startWith d p 3 .completing := by
  rw [State.startFlock, began]
  dsimp only
  rw [ok, h]
  rfl

theorem startFlock_read {s2 : State} {b : Block} (ok : pktOk p.bytes = true)
    (h : s1.readLaunch d q (field p.bytes 8 8) = .ok (b, s2)) :
    s.startFlock d q ty = if ty = 1 then placedAs s2 d q b p none else loopRead s2 d q b p := by
  rw [State.startFlock, began]
  dsimp only
  rw [ok, h]
  rfl

end

theorem placedAs_packets {p : Packet} (gangs : p.gangs ≠ 0) (s : State) (d q : Nat) (b : Block) (lr : Option LoopRec) :
    ((placedAs s d q b p lr).die d).packets = (s.die d).packets ++ [if s.couldFit d b (queueAsid d q)
      then { p with block := some b, loop := lr, status := 0, st := .placing }
      else { p with status := 1, st := .completing }] := by
  rw [placedAs, if_neg gangs]
  split
  · exact startWith_packets ..
  · exact startWith_packets ..

section
variable {s s1 t : State} {d q ty : Nat} {b : List Byte} {p : Packet}

theorem not_malformed (ok : pktOk b = true) {P : Prop} (bad : pktOk b = false) : P :=
  absurd (ok.symm.trans bad) (by decide)

theorem Begun.startWith_same (h : Begun s d q b t p) (n : Nat) (st : PktState)
    (bad : pktOk b = false → n = 2 ∧ st = .completing) :
    Stands s d q b (t.startWith d p n st) { p with status := n, st := st } := h.startWith p.block p.loop n st bad

theorem placedAs_stands (h : Begun s d q b t p) (ok : pktOk b = true) (bl : Block) (lr : Option LoopRec) :
    ∃ x, Stands s d q b (placedAs t d q bl p lr) x := by
  unfold placedAs
  split
  · exact ⟨_, h.startWith_same _ _ (not_malformed ok)⟩
  split
  · exact ⟨_, h.startWith _ _ _ _ (not_malformed ok)⟩
  · exact ⟨_, h.startWith_same _ _ (not_malformed ok)⟩

theorem loopRead_stands (h : Begun s d q b t p) (ok : pktOk b = true) (bl : Block) :
    ∃ x, Stands s d q b (loopRead t d q bl p) x := by
  unfold loopRead
  have read := launchRead_homed t d q 0x46 (field p.bytes 40 8) 64
  generalize t.launchRead d q 0x46 (field p.bytes 40 8) 64 = r at read ⊢
  rcases r with u | ⟨x, u⟩
  · exact ⟨_, (h.homed read).startWith_same _ _ (not_malformed ok)⟩
  dsimp only
  split
  · exact ⟨_, (h.homed read).startWith_same _ _ (not_malformed ok)⟩
  · exact placedAs_stands (h.homed read) ok ..

theorem startFlock_stands (chosen : s.chosen d = some q) (head : s.headPacket d q = .ok (b, s1)) (type : pktType b = ty) :
    ∃ x, Stands s d q b (s.startFlock d q ty) x := by
  obtain ⟨t, p, began, begun⟩ := beginPacket_begun (type := (· == ty)) chosen head (beq_iff_eq.mpr type)
  cases ok : pktOk b with
  | false =>
    rw [startFlock_bad began (by rw [begun.bytes, ok])]
    exact ⟨_, begun.startWith_same _ _ fun _ => ⟨rfl, rfl⟩⟩
  | true =>
    have good : pktOk p.bytes = true := by rw [begun.bytes, ok]
    have reads := readLaunch_homed t d q (field p.bytes 8 8)
    cases h : t.readLaunch d q (field p.bytes 8 8) with
    | error u =>
      rw [h] at reads
      rw [startFlock_unread began good h]
      exact ⟨_, (begun.homed reads).startWith_same _ _ (not_malformed ok)⟩
    | ok x =>
      rw [h] at reads
      rw [startFlock_read began good h]
      split
      · exact placedAs_stands (begun.homed reads) ok ..
      · exact loopRead_stands (begun.homed reads) ok _

/-! ## NOP, SIGNAL and WAITVAL -/

theorem startSimple_stands (chosen : s.chosen d = some q) (head : s.headPacket d q = .ok (b, s1)) {type : Nat → Bool}
    (ty : type (pktType b) = true) (st : PktState) :
    ∃ x, Stands s d q b (s.startSimple d q type st) x ∧ (pktOk b = true → x.status = 0 ∧ x.st = st) := by
  obtain ⟨t, p, began, begun⟩ := beginPacket_begun chosen head ty
  rw [State.startSimple, began]
  dsimp only
  rw [begun.bytes]
  cases ok : pktOk b with
  | false => exact ⟨_, begun.startWith_same 2 .completing fun _ => ⟨rfl, rfl⟩, fun good => absurd good (by decide)⟩
  | true => exact ⟨_, begun.startWith_same 0 st (not_malformed ok), fun _ => ⟨rfl, rfl⟩⟩

/-- One watching packet looks at its word (R168). -/
def lookAt (s : State) (d q : Nat) (p : Packet) : State :=
  match s.readVirt d (queueAsid d q) true (field p.bytes 8 8) 8 with
  | .error e => e.2.2.dieNotice 0x44 0 (BitVec.ofNat 64 e.2.1)
  | .ok (b, s1) =>
    if p.waitHolds (BitVec.ofNat 64 (natOf b)) then s1.modPacket d p.num (fun x => { x with st := .completing }) else s1

theorem recheck_eq (s : State) (d q : Nat) : s.recheck d q =
    ((s.die d).packets.filter (fun p => p.q == q && p.st == .watching)).foldl (fun s p => lookAt s d q p) s := rfl

theorem modPacket_packets (s : State) (d n : Nat) (f : Packet → Packet) :
    ((s.modPacket d n f).die d).packets = (s.die d).packets.map (fun x => if x.num = n then f x else x) := by
  rw [State.modPacket, State.die_modDie_same]

/-- A packet that completes still stands, with its status. -/
theorem Stands.completed (h : Stands s d q b t p) (n : Nat) :
    Stands s d q b (t.modPacket d n fun x => { x with st := .completing })
      (if p.num = n then { p with st := .completing } else p) where
  queue := by split <;> exact h.queue
  idx := by split <;> exact h.idx
  bytes := by split <;> exact h.bytes
  ridx := by rw [State.modPacket, State.queue, State.die_modDie_same]; exact h.ridx
  flock ty := by
    rw [State.modPacket, State.die_modDie_same]
    obtain ⟨number, ctr⟩ := h.flock ty
    exact ⟨by split <;> exact number, ctr⟩
  mem := by rw [modPacket_packets]; exact List.mem_map.mpr ⟨p, h.mem, rfl⟩
  bad malformed := by
    obtain ⟨status, st⟩ := h.bad malformed
    split
    · exact ⟨status, rfl⟩
    · exact ⟨status, st⟩

theorem lookAt_stands (h : ∃ x, Stands s d q b t x) (y : Packet) : ∃ x, Stands s d q b (lookAt t d q y) x := by
  obtain ⟨x, stands⟩ := h
  unfold lookAt
  cases e : t.readVirt d (queueAsid d q) true (field y.bytes 8 8) 8 with
  | error e' => exact ⟨x, (stands.homed (unread_homed e)).homed (dieNotice_homed ..)⟩
  | ok r =>
    have read := stands.homed (read_homed e)
    dsimp only
    split
    · exact ⟨_, read.completed y.num⟩
    · exact ⟨x, read⟩

theorem recheck_stands (h : ∃ x, Stands s d q b t x) : ∃ x, Stands s d q b (t.recheck d q) x := by
  rw [recheck_eq]
  generalize (t.die d).packets.filter (fun p => p.q == q && p.st == .watching) = l
  induction l generalizing t with
  | nil => exact h
  | cons y r ih => exact ih (lookAt_stands h y)

end

/-! ## The five packet types -/

theorem packet_starts (i : Nat → Nat → Instr) (ty d q : Nat) (s s1 : State) (b : List Byte) (row : (i, ty) ∈ pktRows)
    (chosen : s.chosen d = some q) (head : s.headPacket d q = .ok (b, s1)) (type : pktType b = ty) :
    ∃ t p, exec (i d q) s = .next t ∧ Stands s d q b t p ∧
      (pktOk b = true → ty = 0 ∨ ty = 3 → p.status = 0 ∧ p.st = .completing) := by
  simp only [pktRows, List.mem_cons, Prod.mk.injEq, List.not_mem_nil, or_false] at row
  obtain ⟨rfl, rfl⟩ | ⟨rfl, rfl⟩ | ⟨rfl, rfl⟩ | ⟨rfl, rfl⟩ | ⟨rfl, rfl⟩ := row
  · obtain ⟨x, stands, simple⟩ := startSimple_stands (type := fun t => t == 0 || decide (5 ≤ t)) chosen head
      (by rw [type]; rfl) .completing
    exact ⟨_, x, rfl, stands, fun ok _ => simple ok⟩
  · obtain ⟨x, stands⟩ := startFlock_stands chosen head type
    exact ⟨_, x, rfl, stands, fun _ h => absurd h (by decide)⟩
  · obtain ⟨x, stands⟩ := startFlock_stands chosen head type
    exact ⟨_, x, rfl, stands, fun _ h => absurd h (by decide)⟩
  · obtain ⟨x, stands, simple⟩ := startSimple_stands (type := (· == 3)) chosen head (by rw [type]; rfl) .completing
    exact ⟨_, x, rfl, stands, fun ok _ => simple ok⟩
  · obtain ⟨x, stands, -⟩ := startSimple_stands (type := (· == 4)) chosen head (by rw [type]; rfl) .watching
    obtain ⟨y, stands⟩ := recheck_stands ⟨x, stands⟩
    exact ⟨_, y, rfl, stands, fun _ h => absurd h (by decide)⟩

theorem exec_startFlock {i : Nat → Nat → Instr} {ty : Nat} (row : (i, ty) ∈ pktRows) (h : ty = 1 ∨ ty = 2) (d q : Nat)
    (s : State) : exec (i d q) s = .next (s.startFlock d q ty) := by
  simp only [pktRows, List.mem_cons, Prod.mk.injEq, List.not_mem_nil, or_false] at row
  obtain ⟨rfl, rfl⟩ | ⟨rfl, rfl⟩ | ⟨rfl, rfl⟩ | ⟨rfl, rfl⟩ | ⟨rfl, rfl⟩ := row
  · exact absurd h (by decide)
  · rfl
  · rfl
  · exact absurd h (by decide)
  · exact absurd h (by decide)

section
variable {i : Nat → Nat → Instr} {ty d q : Nat} {s s1 : State} {p : Packet} (row : (i, ty) ∈ pktRows)
  (flocks : ty = 1 ∨ ty = 2) (began : s.beginPacket d q (· == ty) = some (s1, some p)) (ok : pktOk p.bytes = true)
include row flocks began ok

theorem flock_unread {s2 : State} (h : s1.readLaunch d q (field p.bytes 8 8) = .error s2) :
    ∃ t, exec (i d q) s = .next t ∧
      (t.die d).packets = (s2.die d).packets ++ [{ p with status := 3, st := .completing }] := by
  refine ⟨_, exec_startFlock row flocks d q s, ?_⟩
  rw [startFlock_unread began ok h, startWith_packets]

variable {s2 : State} {b : Block} (read : s1.readLaunch d q (field p.bytes 8 8) = .ok (b, s2))
include read

theorem flock_placed (gangs : p.gangs ≠ 0) {s3 : State} {lr : Option LoopRec}
    (h : (if ty = 1 then placedAs s2 d q b p none else loopRead s2 d q b p) = placedAs s3 d q b p lr) :
    ∃ t, exec (i d q) s = .next t ∧ (t.die d).packets = (s3.die d).packets ++ [if s3.couldFit d b (queueAsid d q)
      then { p with block := some b, loop := lr, status := 0, st := .placing }
      else { p with status := 1, st := .completing }] := by
  refine ⟨_, exec_startFlock row flocks d q s, ?_⟩
  rw [startFlock_read began ok read, h, placedAs_packets gangs]

theorem flock_unlooped {s3 s4 : State} (dies : s3.dies = s4.dies) (h : (if ty = 1 then placedAs s2 d q b p none
    else loopRead s2 d q b p) = s3.startWith d p 4 .completing) :
    ∃ t, exec (i d q) s = .next t ∧
      (t.die d).packets = (s4.die d).packets ++ [{ p with status := 4, st := .completing }] := by
  refine ⟨_, exec_startFlock row flocks d q s, ?_⟩
  rw [startFlock_read began ok read, h, startWith_packets, (homed_of_dies dies).packets]

end

theorem flock_leaves (i : Nat → Nat → Instr) (ty d q : Nat) (s s1 : State) (p : Packet) (row : (i, ty) ∈ pktRows)
    (flocks : ty = 1 ∨ ty = 2) (began : s.beginPacket d q (· == ty) = some (s1, some p)) (ok : pktOk p.bytes = true)
    (b : Block) (s2 : State) (read : s1.readLaunch d q (field p.bytes 8 8) = .ok (b, s2)) (gangs : p.gangs ≠ 0) :
    let places := fun (s3 : State) (lr : Option LoopRec) => ∃ t, exec (i d q) s = .next t ∧
      (t.die d).packets = (s3.die d).packets ++ [if s3.couldFit d b (queueAsid d q)
        then { p with block := some b, loop := lr, status := 0, st := .placing }
        else { p with status := 1, st := .completing }]
    (ty = 1 → places s2 none) ∧
    (∀ e, ty = 2 → s2.readVirt d (queueAsid d q) true (field p.bytes 40 8) 64 = .error e → ∃ t,
      exec (i d q) s = .next t ∧ (t.die d).packets = (e.2.2.die d).packets ++ [{ p with status := 4, st := .completing }]) ∧
    (∀ r s3, ty = 2 → s2.readVirt d (queueAsid d q) true (field p.bytes 40 8) 64 = .ok (r, s3) →
      (∀ lr, parseLoop b r = some lr → places s3 (some lr)) ∧
      (parseLoop b r = none → ∃ t, exec (i d q) s = .next t ∧
        (t.die d).packets = (s3.die d).packets ++ [{ p with status := 4, st := .completing }])) := by
  intro places
  have loop : ty = 2 → (if ty = 1 then placedAs s2 d q b p none else loopRead s2 d q b p) = loopRead s2 d q b p :=
    fun two => if_neg (by omega)
  refine ⟨fun one => flock_placed row flocks began ok read gangs (if_pos one), fun e two h => ?_, fun r s3 two h =>
    ⟨fun lr parsed => flock_placed row flocks began ok read gangs ?_, fun parsed => ?_⟩⟩
  · refine flock_unlooped row flocks began ok read
      (s3 := e.2.2.dieNotice 0x46 0 (BitVec.ofNat 64 e.2.1)) rfl ((loop two).trans ?_)
    rw [loopRead, launchRead_error h]
  · rw [loop two, loopRead, launchRead_ok h]
    dsimp only
    rw [parsed]
  · refine flock_unlooped row flocks began ok read (s3 := s3) rfl ((loop two).trans ?_)
    rw [loopRead, launchRead_ok h]
    dsimp only
    rw [parsed]

end Sys2Proof.Machine.Shepherding
end

section
/-! SUPPORT for O54. A watching WAITVAL, and a finished packet (R168 to R170, R172). -/
namespace Sys2Proof.Machine.Shepherding
open Sys2Proof.Machine.Placement Sys2Proof.Machine.Boot

theorem recheck_single {s : State} {d q : Nat} {p : Packet} (only : (s.die d).packets = [p]) (mine : p.q = q)
    (watches : p.st = .watching) : s.recheck d q = lookAt s d q p := by
  have looks : (p.q == q && p.st == .watching) = true := by rw [mine, watches, beq_self_eq_true]; rfl
  have one : [p].filter (fun p => p.q == q && p.st == .watching) = [p] := List.filter_cons_of_pos looks
  rw [recheck_eq, only, one]
  rfl

theorem waitval_leaves (d q : Nat) (s : State) (p : Packet) (only : (s.die d).packets = [p]) (mine : p.q = q)
    (watches : p.st = .watching) : let word := s.readVirt d (queueAsid d q) true (field p.bytes 8 8) 8
    (∀ b s1, word = .ok (b, s1) → ∃ t, exec (.waitvalRecheck d q) s = .next t ∧ (t.die d).packets =
      [{ p with st := if p.waitHolds (BitVec.ofNat 64 (natOf b)) then .completing else .watching }]) ∧
    (∀ k a s2, word = .error (k, a, s2) → ∃ t, exec (.waitvalRecheck d q) s = .next t ∧ (t.die d).packets = [p] ∧
      s2.Noticed t 0x44 0 (BitVec.ofNat 64 a)) := by
  intro word
  have run : exec (.waitvalRecheck d q) s = .next (lookAt s d q p) :=
    congrArg Host.Outcome.next (recheck_single only mine watches)
  refine ⟨fun b s1 h => ⟨_, run, ?_⟩, fun k a s2 h => ⟨_, run, ?_, ?_⟩⟩
  · have read : (s1.die d).packets = [p] := ((read_homed h).packets d).trans only
    rw [lookAt, show s.readVirt d (queueAsid d q) true (field p.bytes 8 8) 8 = .ok (b, s1) from h]
    dsimp only
    split
    · rw [modPacket_packets, read, List.map_singleton, if_pos rfl]
    · rw [read, ← watches]
  · rw [lookAt, show s.readVirt d (queueAsid d q) true (field p.bytes 8 8) 8 = .error (k, a, s2) from h]
    exact ((unread_homed h).packets d).trans only
  · rw [lookAt, show s.readVirt d (queueAsid d q) true (field p.bytes 8 8) 8 = .error (k, a, s2) from h]
    exact noticed_dieNotice ..

theorem unfinished_stays (d q n : Nat) (s : State)
    (h : ∀ p ∈ (s.die d).packets, p.q = q → p.idx = n → s.packetDone p = false) :
    exec (.packetComplete d q n) s = .next s := by
  have missing : (s.die d).packets.find? (fun p => p.q == q && p.idx == n && s.packetDone p) = none := by
    rw [List.find?_eq_none]
    intro p hp done
    rw [Bool.and_eq_true, Bool.and_eq_true, beq_iff_eq, beq_iff_eq] at done
    obtain ⟨⟨mine, idx⟩, done⟩ := done
    rw [h p hp mine idx] at done
    exact absurd done (by decide)
  show execPacketComplete d q n s = _
  rw [execPacketComplete, missing]

theorem finished_leaves (d q n : Nat) (s : State) (p : Packet)
    (found : (s.die d).packets.find? (fun p => p.q == q && p.idx == n && s.packetDone p) = some p) :
    let s1 := s.modDie d (fun x => { x with packets := x.packets.filter (fun y => y.num != p.num) })
    let stored := s1.writeVirt d (queueAsid d q) true p.sigAddr
      (bytesOf 8 (field p.bytes 56 8) ++ bytesOf 4 p.status ++ bytesOf 4 0)
    ((p.sigAddr = 0 ∨ p.sigAddr % 16 ≠ 0) → exec (.packetComplete d q n) s = .next s1) ∧
    (∀ s2, p.sigAddr ≠ 0 → p.sigAddr % 16 = 0 → stored = .ok s2 → exec (.packetComplete d q n) s = .next s2) ∧
    (∀ k a s2, p.sigAddr ≠ 0 → p.sigAddr % 16 = 0 → stored = .error (k, a, s2) →
      ∃ t, exec (.packetComplete d q n) s = .next t ∧ t.mem = s2.mem ∧ s2.Noticed t 0x43 0 (BitVec.ofNat 64 a)) := by
  intro s1 stored
  have run : exec (.packetComplete d q n) s = if p.sigAddr = 0 ∨ p.sigAddr % 16 ≠ 0 then .next s1
      else match stored with
        | .ok s2 => .next s2
        | .error e => .next (e.2.2.dieNotice 0x43 0 (BitVec.ofNat 64 e.2.1)) := by
    show execPacketComplete d q n s = _
    rw [execPacketComplete, found] <;> rfl
  have signals : p.sigAddr ≠ 0 → p.sigAddr % 16 = 0 → ¬ (p.sigAddr = 0 ∨ p.sigAddr % 16 ≠ 0) :=
    fun named aligned => not_or.mpr ⟨named, not_not.mpr aligned⟩
  refine ⟨fun silent => run.trans (if_pos silent), fun s2 named aligned h => ?_, fun k a s2 named aligned h => ?_⟩
  · rw [run, if_neg (signals named aligned), h]
  · rw [if_neg (signals named aligned), h] at run
    exact ⟨_, run, rfl, noticed_dieNotice ..⟩

/-- Settles O54: every read and write of an agent leaves the queues, packets and flock counters of a die, so each clause
follows from the queue's write, the packet's start or its end alone. -/
theorem queuesAndPackets : Obligations.QueuesAndPackets := by
  refine ⟨qnotify_leaves, fun d q v s bit on => queueEnable_leaves d q v s bit on, shepherd_off, queueDisable_leaves, ?_, ?_,
    waitval_leaves, unfinished_stays, finished_leaves⟩
  · intro i ty d q s s1 b row chosen head type
    obtain ⟨t, p, run, stands, simple⟩ := packet_starts i ty d q s s1 b row chosen head type
    exact ⟨t, p, run, stands.mem, stands.queue, stands.idx, stands.bytes, stands.ridx,
      fun flocks => stands.flock (type ▸ flocks), stands.bad, simple⟩
  · intro i ty d q s s1 p row flocks began ok
    exact ⟨fun s2 h => flock_unread row flocks began ok h,
      fun b s2 read gangs => flock_leaves i ty d q s s1 p row flocks began ok b s2 read gangs⟩

end Sys2Proof.Machine.Shepherding
end
